-- ==== Sys2Proof/Word.lean ====
section
/-!
DEFINITION. The words of the machine (R5, R67, R68, R88, R125): names for bit vectors, nothing else.
-/

set_option Elab.async false
namespace Sys2Proof

/-- One byte of memory (R5). -/
abbrev Byte := BitVec 8

/-- A scalar register, a descriptor field, a stream element: 64 bits (R88, R89, R247). -/
abbrev Word := BitVec 64

/-- One syllable or header word (R30). -/
abbrev Word32 := BitVec 32

/-- A virtual address in a team's space: 42 bits (R125, R424). -/
abbrev VAddr := BitVec 42

/-- A vector register, a pool line, an HBM line: 64 bytes (R17, R123). -/
abbrev Line := BitVec 512

end Sys2Proof
end

