-- ==== Sys2Proof/Config.lean ====
section
/-!
DEFINITION. What one implementation fixes and the free values: what the spec leaves open is an opaque constant without a
body, so that no proof can know a value of it (log 9, log 10, log 19).
-/

set_option Elab.async false
namespace Sys2Proof.Config

/-- A free value: the n-th open choice of a run, as a number. -/
opaque free : Nat → Nat

/-- Whether an access uses a cached translation that differs from the tables of now (R132; log 11): for the accessing core
plus 1, or 0 for an access of no core, the cycle of its die and the page of the address. -/
opaque staleUsed : (core : Nat) → (now : Nat) → (page : Nat) → Bool

/-- What a die of another package makes of an access to its memory (R128; log 95): by address, gang and cycle of the issuing
die. -/
opaque outsideAnswer : (ea : BitVec 64) → (gang : BitVec 24) → (now : Nat) → Nat

/-- Whether the page request on which an access at a die of another package waits has been answered there (R128, R134; log 95): by
the waiting strand's core and number and the cycle of its die. -/
opaque outsidePage : (core : Nat) → (strand : Nat) → (now : Nat) → Bool

/-- The algorithm of an F64 special function (R183): for the function's opcode, the function-table version and the F64
input, whether the result is the upper of the two F64 values that bracket the exact value. -/
opaque specialUpper : (op : Nat) → (version : Nat) → (input : BitVec 64) → Bool

/-- SHA-256 over bytes (R60, R402, R403), as a value whose algorithm the spec names and does not give. -/
opaque sha256 : List Byte → BitVec 256

/-- The AES-256-GCM tag of a key, a 96-bit nonce, additional data and a ciphertext (R288, R403, R405). -/
opaque gcmTag : (key : BitVec 256) → (nonce : BitVec 96) → (aad : List Byte) → (cipher : List Byte) → BitVec 128

/-- The AES-256-GCM key stream of a key and a nonce: its i-th byte. Encryption and decryption are the exclusive OR with it. -/
opaque gcmStream : (key : BitVec 256) → (nonce : BitVec 96) → (i : Nat) → Byte

/-- ECDSA P-256 verification of r and s over a digest under a public key X, Y (R60, R64). -/
opaque ecdsaVerify : (x y : BitVec 256) → (digest : BitVec 256) → (r s : BitVec 256) → Bool

/-- An ECDSA P-256 signature r, s of a digest under a private key, for the n-th signature made (R402). -/
opaque ecdsaSign : (key : BitVec 256) → (digest : BitVec 256) → (n : Nat) → BitVec 256 × BitVec 256

/-- The public key X, Y of a private P-256 key (R402, R403). -/
opaque p256Public : (key : BitVec 256) → BitVec 256 × BitVec 256

/-- The x coordinate that ECDH gives for a private key and a public key (R403). -/
opaque p256Shared : (key : BitVec 256) → (x y : BitVec 256) → BitVec 256

/-- The part's identity key, derived from fuses (R402). -/
opaque identityKey : BitVec 256

/-- A key that firmware makes: the attestation key, an ephemeral key, a memory key or a gang key (R400, R402, R403, R288). -/
opaque firmwareKey : (n : Nat) → BitVec 256

/-- Bytes of device-owned staging for images of one partition (R64). -/
opaque stagingBytes : Nat

/-- What a vector register reads as for a conductor, which holds no share of the register file (R18): a free value by bundle of its
core, lane group and register (log 93). -/
opaque conductorReg : (bundle lg reg : Nat) → BitVec 512

/-- Where a part of an item of the readback window begins in its unit, when the spec names the part and gives it no place (R404;
log 104): by class and the part's place in the list of the class. -/
opaque itemBase : (cls part : Nat) → Nat

/-- Which word of the listing of a part stands at its word k, when the spec gives the part no layout (R404; log 104). -/
opaque itemWord : (cls part k : Nat) → Nat

/-- The device-owned page in which the page request queue of a VF lies (R135; log 105). -/
opaque queuePage : (vf : Nat) → Nat

/-- The firmware measurement of a report (R402). -/
opaque firmwareMeasurement : BitVec 256

end Sys2Proof.Config
end

