-- ==== Sys2Proof/Message.lean ====
section
/-!
DEFINITION. The records that events and host commands carry as operands: fabric messages (R285), link frames
(R283), management commands (R396), places of silicon faults (R356, R357, R363), telemetry samples (R409).
-/

set_option Elab.async false
namespace Sys2Proof

/-- A fabric message: the header flit of R285 and its payload after decryption. `reserved` is the OR of every field that
R285 and R286 mark zero. -/
structure Message where
  dst : BitVec 22
  src : BitVec 22
  gang : BitVec 24
  epoch : BitVec 8
  vf : BitVec 9
  byGang : Bool
  kind : BitVec 8
  flits : BitVec 8
  seq : BitVec 48
  wordA : Word
  wordB : Word
  bytes : BitVec 16
  reserved : Word
  tag : BitVec 128
  payload : List Byte
  mark : Bool              -- the payload carries the poison mark (R348)
  deriving DecidableEq, Repr

/-- A link frame of R283 as a receiver sees it: its flits and its control word. -/
structure Frame where
  flits : List Line
  control : Word
  deriving DecidableEq, Repr

/-- A management command of R396: the slot it is written to, its tag, VF, die and operand words. `zeros` is the OR of the
byte that R396 marks zero and of nothing else. -/
structure HostCmd where
  slot : BitVec 4
  tag : BitVec 16
  vf : BitVec 16
  die : BitVec 8
  zeros : BitVec 8
  p0 : Word
  p1 : Word
  p2 : Word
  p3 : Word
  p4 : Word
  p5 : Word
  p6 : Word
  deriving DecidableEq, Repr

/-- The kind of storage in which a silicon fault lies (R348, R356, R357, R363). `portStaging` is a slot of a port's staging, `group`
the local port; `heldStaging` a line of a die's held-store staging; both lie on the die of `core`. `shared` is what holds no tenant's
data: links, UCIe, TLBs, the walker, the team table, switches, free storage. -/
inductive PlaceKind where
  | hbmLine | poolLine | scaleWord | fileWord | shadowLine | portStaging | heldStaging | shared
  | scalarReg | vectorReg | predicateReg | descriptorReg | controlReg | streamReg | latch
  deriving DecidableEq, Repr

/-- One faulty place: `index` is a line address, a register index or an entry; core, strand and lane group where they apply. -/
structure Place where
  kind : PlaceKind
  core : Nat
  strand : Nat
  group : Nat
  index : Nat
  deriving DecidableEq, Repr

/-- One sample of R409: per-die power, temperatures, and on die 0 the package values. -/
structure Sample where
  power : Nat
  junction : Nat
  hbmTemp : Nat
  packagePower : Nat
  inlet : Int
  flow : Nat
  deriving DecidableEq, Repr

end Sys2Proof
end

