-- ==== Sys2Proof/Syntax.lean ====
section
/-!
DEFINITION. The instruction set as syntax: one constructor per row of spec/opcode_table.json, in the table's order. An
encoded row carries its operand fields at their encoded widths (R41 to R47; a one-bit field is a Bool). A row without an
encoding is an event or a host command and carries what names it: a core and strand number, a die and team index, an
identifier of the State, a message, a command.
-/

set_option Elab.async false
namespace Sys2Proof

/-- One step of the machine, as the rows of the opcode table list them. Field names of encoded rows are the table's. -/
inductive Instr where
  /-- NOP (R33). -/
  | nop (y : Bool) (k : Bool)
  /-- ADD (R103). -/
  | add (d : BitVec 6) (a : BitVec 6) (b : BitVec 6)
  /-- SUB (R103). -/
  | sub (d : BitVec 6) (a : BitVec 6) (b : BitVec 6)
  /-- MUL (R103). -/
  | mul (d : BitVec 6) (a : BitVec 6) (b : BitVec 6)
  /-- MULH (R103). -/
  | mulh (d : BitVec 6) (a : BitVec 6) (b : BitVec 6) (u : Bool)
  /-- DIV (R104). -/
  | div (d : BitVec 6) (a : BitVec 6) (b : BitVec 6) (u : Bool)
  /-- REM (R104). -/
  | rem (d : BitVec 6) (a : BitVec 6) (b : BitVec 6) (u : Bool)
  /-- AND (R103). -/
  | and (d : BitVec 6) (a : BitVec 6) (b : BitVec 6)
  /-- OR (R103). -/
  | or (d : BitVec 6) (a : BitVec 6) (b : BitVec 6)
  /-- XOR (R103). -/
  | xor (d : BitVec 6) (a : BitVec 6) (b : BitVec 6)
  /-- SHL (R103). -/
  | shl (d : BitVec 6) (a : BitVec 6) (b : BitVec 6)
  /-- SHR (R103). -/
  | shr (d : BitVec 6) (a : BitVec 6) (b : BitVec 6)
  /-- SAR (R103). -/
  | sar (d : BitVec 6) (a : BitVec 6) (b : BitVec 6)
  /-- SLT (R103). -/
  | slt (d : BitVec 6) (a : BitVec 6) (b : BitVec 6) (u : Bool)
  /-- SEQ (R103). -/
  | seq (d : BitVec 6) (a : BitVec 6) (b : BitVec 6)
  /-- MIN (R103). -/
  | min (d : BitVec 6) (a : BitVec 6) (b : BitVec 6) (u : Bool)
  /-- MAX (R103). -/
  | max (d : BitVec 6) (a : BitVec 6) (b : BitVec 6) (u : Bool)
  /-- SEL (R103). -/
  | sel (d : BitVec 6) (a : BitVec 6) (b : BitVec 6)
  /-- CLZ (R105). -/
  | clz (d : BitVec 6) (a : BitVec 6)
  /-- CTZ (R105). -/
  | ctz (d : BitVec 6) (a : BitVec 6)
  /-- POPC (R105). -/
  | popc (d : BitVec 6) (a : BitVec 6)
  /-- BREV (R105). -/
  | brev (d : BitVec 6) (a : BitVec 6)
  /-- PEEK (R105). -/
  | peek (d : BitVec 6) (s : BitVec 3)
  /-- BFX (R106). -/
  | bfx (d : BitVec 6) (a : BitVec 6) (p : BitVec 6) (l : BitVec 6)
  /-- BFI (R106). -/
  | bfi (d : BitVec 6) (a : BitVec 6) (p : BitVec 6) (l : BitVec 6)
  /-- AGEN (R103). -/
  | agen (d : BitVec 6) (a : BitVec 6) (b : BitVec 6) (s : BitVec 3)
  /-- ADDI (R107). -/
  | addi (d : BitVec 6) (a : BitVec 6) (i : BitVec 14)
  /-- ANDI (R107). -/
  | andi (d : BitVec 6) (a : BitVec 6) (i : BitVec 14)
  /-- ORI (R107). -/
  | ori (d : BitVec 6) (a : BitVec 6) (i : BitVec 14)
  /-- XORI (R107). -/
  | xori (d : BitVec 6) (a : BitVec 6) (i : BitVec 14)
  /-- SHLI (R107). -/
  | shli (d : BitVec 6) (a : BitVec 6) (n : BitVec 6)
  /-- SHRI (R107). -/
  | shri (d : BitVec 6) (a : BitVec 6) (n : BitVec 6)
  /-- SARI (R107). -/
  | sari (d : BitVec 6) (a : BitVec 6) (n : BitVec 6)
  /-- SLTI (R107). -/
  | slti (d : BitVec 6) (a : BitVec 6) (i : BitVec 14)
  /-- MOVI (R107). -/
  | movi (d : BitVec 6) (i : BitVec 20)
  /-- MOVHI (R107). -/
  | movhi (d : BitVec 6) (i : BitVec 20)
  /-- MOVHH (R107). -/
  | movhh (d : BitVec 6) (i : BitVec 20)
  /-- FADD (R108). -/
  | fadd (d : BitVec 6) (a : BitVec 6) (b : BitVec 6) (p : BitVec 2) (r : BitVec 3)
  /-- FSUB (R108). -/
  | fsub (d : BitVec 6) (a : BitVec 6) (b : BitVec 6) (p : BitVec 2) (r : BitVec 3)
  /-- FMUL (R108). -/
  | fmul (d : BitVec 6) (a : BitVec 6) (b : BitVec 6) (p : BitVec 2) (r : BitVec 3)
  /-- FDIV (R108). -/
  | fdiv (d : BitVec 6) (a : BitVec 6) (b : BitVec 6) (p : BitVec 2) (r : BitVec 3)
  /-- FMIN (R108). -/
  | fmin (d : BitVec 6) (a : BitVec 6) (b : BitVec 6) (p : BitVec 2) (r : BitVec 3)
  /-- FMAX (R108). -/
  | fmax (d : BitVec 6) (a : BitVec 6) (b : BitVec 6) (p : BitVec 2) (r : BitVec 3)
  /-- FSQRT (R108). -/
  | fsqrt (d : BitVec 6) (a : BitVec 6) (p : BitVec 2) (r : BitVec 3)
  /-- FFMA (R109). -/
  | ffma (d : BitVec 6) (a : BitVec 6) (b : BitVec 6) (p : BitVec 2) (r : BitVec 3)
  /-- FCVT (R110). -/
  | fcvt (d : BitVec 6) (a : BitVec 6) (s : BitVec 2) (t : BitVec 2) (r : BitVec 3)
  /-- FCMP (R111). -/
  | fcmp (d : BitVec 6) (a : BitVec 6) (b : BitVec 6) (p : BitVec 2) (c : BitVec 3)
  /-- BR (R113). -/
  | br (c : BitVec 3) (a : BitVec 6) (b : BitVec 6) (d : BitVec 11)
  /-- BZ (R113). -/
  | bz (a : BitVec 6) (d : BitVec 19)
  /-- BNZ (R113). -/
  | bnz (a : BitVec 6) (d : BitVec 19)
  /-- JMP (R113). -/
  | jmp (d : BitVec 26)
  /-- CALL (R113). -/
  | call (d : BitVec 26)
  /-- JR (R113). -/
  | jr (a : BitVec 6) (g : Bool)
  /-- JRL (R113). -/
  | jrl (d : BitVec 6) (a : BitVec 6) (g : Bool)
  /-- LOOP (R99). -/
  | loop (n : BitVec 6) (p : BitVec 3)
  /-- YIELD (R379). -/
  | yield
  /-- ENDK (R118). -/
  | endk
  /-- TRAP (R345). -/
  | trap (c : BitVec 20)
  /-- CMPT (R355). -/
  | cmpt (a : BitVec 6) (b : BitVec 6) (c : BitVec 3)
  /-- CHKERR (R352). -/
  | chkerr (d : BitVec 6) (t : Bool) (c : Bool)
  /-- SPINW (R116). -/
  | spinw (d : BitVec 6) (a : BitVec 6) (c : BitVec 3)
  /-- SPINW_REREAD (R116). -/
  | spinwReread (c : Nat) (n : Nat)
  /-- MFC (R120). -/
  | mfc (d : BitVec 6) (i : BitVec 12)
  /-- MTC (R120). -/
  | mtc (a : BitVec 6) (i : BitVec 12)
  /-- ERET (R344). -/
  | eret
  /-- LAUNCH (R117). -/
  | launch (d : BitVec 6) (a : BitVec 6)
  /-- NODE_STRAND_START (R117). -/
  | nodeStrandStart (id : Nat)
  /-- TKWAIT (R115). -/
  | tkwait (d : BitVec 6) (t : BitVec 8)
  /-- TKTEST (R115). -/
  | tktest (d : BitVec 6) (t : BitVec 8)
  /-- PHASE_BEGIN (R119). -/
  | phaseBegin (a : BitVec 6) (b : BitVec 6)
  /-- PHASE_COMMIT (R119). -/
  | phaseCommit
  /-- QWAIT (R335). -/
  | qwait (d : BitVec 6) (q : BitVec 4)
  /-- LDB (R143). -/
  | ldb (x : BitVec 6) (a : BitVec 6) (d : BitVec 10)
  /-- LDBU (R143). -/
  | ldbu (x : BitVec 6) (a : BitVec 6) (d : BitVec 10)
  /-- LDH (R143). -/
  | ldh (x : BitVec 6) (a : BitVec 6) (d : BitVec 10)
  /-- LDHU (R143). -/
  | ldhu (x : BitVec 6) (a : BitVec 6) (d : BitVec 10)
  /-- LDW (R143). -/
  | ldw (x : BitVec 6) (a : BitVec 6) (d : BitVec 10)
  /-- LDWU (R143). -/
  | ldwu (x : BitVec 6) (a : BitVec 6) (d : BitVec 10)
  /-- LDD (R143). -/
  | ldd (x : BitVec 6) (a : BitVec 6) (d : BitVec 10)
  /-- STB (R143). -/
  | stb (x : BitVec 6) (a : BitVec 6) (g : Bool) (d : BitVec 10)
  /-- STH (R143). -/
  | sth (x : BitVec 6) (a : BitVec 6) (g : Bool) (d : BitVec 10)
  /-- STW (R143). -/
  | stw (x : BitVec 6) (a : BitVec 6) (g : Bool) (d : BitVec 10)
  /-- STD (R143). -/
  | std (x : BitVec 6) (a : BitVec 6) (g : Bool) (d : BitVec 10)
  /-- VLD (R146). -/
  | vld (w : BitVec 7) (a : BitVec 6) (m : BitVec 8) (o : BitVec 5)
  /-- VST (R146). -/
  | vst (w : BitVec 7) (a : BitVec 6) (m : BitVec 8) (o : BitVec 5)
  /-- VLDS (R146). -/
  | vlds (w : BitVec 7) (a : BitVec 6) (m : BitVec 8) (o : BitVec 5)
  /-- VSTS (R146). -/
  | vsts (w : BitVec 7) (a : BitVec 6) (m : BitVec 8) (o : BitVec 5)
  /-- VGATHER (R147). -/
  | vgather (w : BitVec 7) (i : BitVec 7) (a : BitVec 6) (k : BitVec 3) (s : BitVec 2)
  /-- VGATHER_ALL (R147). -/
  | vgatherAll (w : BitVec 7) (i : BitVec 7) (a : BitVec 6) (s : BitVec 2)
  /-- VSCATTER (R147). -/
  | vscatter (w : BitVec 7) (i : BitVec 7) (a : BitVec 6) (k : BitVec 3) (s : BitVec 2)
  /-- VSCATTER_ALL (R147). -/
  | vscatterAll (w : BitVec 7) (i : BitVec 7) (a : BitVec 6) (s : BitVec 2)
  /-- VPOP (R149). -/
  | vpop (w : BitVec 7) (s : BitVec 2) (m : BitVec 8)
  /-- DRAIN (R150). -/
  | drain
  /-- FENCE (R272). -/
  | fence (s : BitVec 3)
  /-- VADD (R165). -/
  | vadd (f : BitVec 3) (m : Bool) (d : BitVec 7) (a : BitVec 7) (b : BitVec 7)
  /-- VSUB (R165). -/
  | vsub (f : BitVec 3) (m : Bool) (d : BitVec 7) (a : BitVec 7) (b : BitVec 7)
  /-- VMUL (R165). -/
  | vmul (f : BitVec 3) (m : Bool) (d : BitVec 7) (a : BitVec 7) (b : BitVec 7)
  /-- VFMA (R165). -/
  | vfma (f : BitVec 3) (m : Bool) (d : BitVec 7) (a : BitVec 7) (b : BitVec 7)
  /-- VFMS (R165). -/
  | vfms (f : BitVec 3) (m : Bool) (d : BitVec 7) (a : BitVec 7) (b : BitVec 7)
  /-- VMIN (R165). -/
  | vmin (f : BitVec 3) (m : Bool) (d : BitVec 7) (a : BitVec 7) (b : BitVec 7)
  /-- VMAX (R165). -/
  | vmax (f : BitVec 3) (m : Bool) (d : BitVec 7) (a : BitVec 7) (b : BitVec 7)
  /-- VABS (R165). -/
  | vabs (f : BitVec 3) (m : Bool) (d : BitVec 7) (a : BitVec 7)
  /-- VNEG (R165). -/
  | vneg (f : BitVec 3) (m : Bool) (d : BitVec 7) (a : BitVec 7)
  /-- VDIV (R165). -/
  | vdiv (f : BitVec 3) (m : Bool) (d : BitVec 7) (a : BitVec 7) (b : BitVec 7)
  /-- VSQRT (R165). -/
  | vsqrt (f : BitVec 3) (m : Bool) (d : BitVec 7) (a : BitVec 7)
  /-- VAND (R165). -/
  | vand (f : BitVec 3) (m : Bool) (d : BitVec 7) (a : BitVec 7) (b : BitVec 7)
  /-- VOR (R165). -/
  | vor (f : BitVec 3) (m : Bool) (d : BitVec 7) (a : BitVec 7) (b : BitVec 7)
  /-- VXOR (R165). -/
  | vxor (f : BitVec 3) (m : Bool) (d : BitVec 7) (a : BitVec 7) (b : BitVec 7)
  /-- VNOT (R165). -/
  | vnot (f : BitVec 3) (m : Bool) (d : BitVec 7) (a : BitVec 7)
  /-- VSHL (R165). -/
  | vshl (f : BitVec 3) (m : Bool) (d : BitVec 7) (a : BitVec 7) (b : BitVec 7)
  /-- VSHR (R165). -/
  | vshr (f : BitVec 3) (m : Bool) (d : BitVec 7) (a : BitVec 7) (b : BitVec 7)
  /-- VSAR (R165). -/
  | vsar (f : BitVec 3) (m : Bool) (d : BitVec 7) (a : BitVec 7) (b : BitVec 7)
  /-- VMOV (R165). -/
  | vmov (f : BitVec 3) (m : Bool) (d : BitVec 7) (a : BitVec 7)
  /-- VMOVI (R166). -/
  | vmovi (f : BitVec 3) (m : Bool) (d : BitVec 7) (i : BitVec 14)
  /-- VFLOOR (R165). -/
  | vfloor (f : BitVec 3) (m : Bool) (d : BitVec 7) (a : BitVec 7)
  /-- VCLASS (R167). -/
  | vclass (f : BitVec 3) (m : Bool) (d : BitVec 7) (a : BitVec 7)
  /-- VADDS (R165). -/
  | vadds (f : BitVec 3) (m : Bool) (d : BitVec 7) (a : BitVec 7) (b : BitVec 7)
  /-- VCEQ (R168). -/
  | vceq (f : BitVec 3) (m : Bool) (p : BitVec 3) (a : BitVec 7) (b : BitVec 7)
  /-- VCLT (R168). -/
  | vclt (f : BitVec 3) (m : Bool) (p : BitVec 3) (a : BitVec 7) (b : BitVec 7)
  /-- VCLE (R168). -/
  | vcle (f : BitVec 3) (m : Bool) (p : BitVec 3) (a : BitVec 7) (b : BitVec 7)
  /-- VSEL (R169). -/
  | vsel (f : BitVec 3) (d : BitVec 7) (a : BitVec 7) (b : BitVec 7)
  /-- PAND (R170). -/
  | pand (d : BitVec 3) (a : BitVec 3) (b : BitVec 3)
  /-- POR (R170). -/
  | por (d : BitVec 3) (a : BitVec 3) (b : BitVec 3)
  /-- PNOT (R170). -/
  | pnot (d : BitVec 3) (a : BitVec 3)
  /-- PMOV (R170). -/
  | pmov (d : BitVec 3) (a : BitVec 3)
  /-- VCVT (R172). -/
  | vcvt (f : BitVec 3) (d : BitVec 7) (a : BitVec 7) (n : BitVec 4)
  /-- VQUANT (R173). -/
  | vquant (f : BitVec 3) (d : BitVec 7) (a : BitVec 7) (n : BitVec 4)
  /-- VDEQ (R174). -/
  | vdeq (f : BitVec 3) (d : BitVec 7) (a : BitVec 7) (n : BitVec 4)
  /-- VPACK (R172). -/
  | vpack (f : BitVec 3) (d : BitVec 7) (a : BitVec 7) (n : BitVec 4)
  /-- VUNPK (R172). -/
  | vunpk (f : BitVec 3) (d : BitVec 7) (a : BitVec 7) (n : BitVec 4)
  /-- VRSUM (R175). -/
  | vrsum (f : BitVec 3) (m : Bool) (d : BitVec 7) (a : BitVec 7)
  /-- VRMAX (R175). -/
  | vrmax (f : BitVec 3) (m : Bool) (d : BitVec 7) (a : BitVec 7)
  /-- VRMIN (R175). -/
  | vrmin (f : BitVec 3) (m : Bool) (d : BitVec 7) (a : BitVec 7)
  /-- VSCAN (R176). -/
  | vscan (f : BitVec 3) (m : Bool) (d : BitVec 7) (a : BitVec 7)
  /-- VPERM (R177). -/
  | vperm (f : BitVec 3) (m : Bool) (d : BitVec 7) (a : BitVec 7) (b : BitVec 7)
  /-- VXFER (R181). -/
  | vxfer (d : BitVec 7) (a : BitVec 7) (k : BitVec 3)
  /-- VBCAST (R178). -/
  | vbcast (f : BitVec 3) (m : Bool) (d : BitVec 7) (a : BitVec 7) (k : BitVec 6)
  /-- VEXTR (R179). -/
  | vextr (f : BitVec 3) (d : BitVec 7) (a : BitVec 7) (k : BitVec 6)
  /-- VIOTA (R180). -/
  | viota (f : BitVec 3) (m : Bool) (d : BitVec 7)
  /-- VRCP (R186). -/
  | vrcp (f : BitVec 3) (m : Bool) (d : BitVec 7) (a : BitVec 7)
  /-- VRSQRT (R186). -/
  | vrsqrt (f : BitVec 3) (m : Bool) (d : BitVec 7) (a : BitVec 7)
  /-- VEXP2 (R186). -/
  | vexp2 (f : BitVec 3) (m : Bool) (d : BitVec 7) (a : BitVec 7)
  /-- VLOG2 (R186). -/
  | vlog2 (f : BitVec 3) (m : Bool) (d : BitVec 7) (a : BitVec 7)
  /-- VEXP (R186). -/
  | vexp (f : BitVec 3) (m : Bool) (d : BitVec 7) (a : BitVec 7)
  /-- VLOG (R186). -/
  | vlog (f : BitVec 3) (m : Bool) (d : BitVec 7) (a : BitVec 7)
  /-- VSIN (R186). -/
  | vsin (f : BitVec 3) (m : Bool) (d : BitVec 7) (a : BitVec 7)
  /-- VCOS (R186). -/
  | vcos (f : BitVec 3) (m : Bool) (d : BitVec 7) (a : BitVec 7)
  /-- VTANH (R186). -/
  | vtanh (f : BitVec 3) (m : Bool) (d : BitVec 7) (a : BitVec 7)
  /-- VERF (R186). -/
  | verf (f : BitVec 3) (m : Bool) (d : BitVec 7) (a : BitVec 7)
  /-- VSIGM (R186). -/
  | vsigm (f : BitVec 3) (m : Bool) (d : BitVec 7) (a : BitVec 7)
  /-- MMA (R204): r is .rb, s is .ra. -/
  | mma (f : BitVec 4) (g : BitVec 4) (a : BitVec 6) (b : BitVec 6) (t : BitVec 5) (r : Bool) (s : Bool)
  /-- MMAZ (R204): r is .rb, s is .ra. -/
  | mmaz (f : BitVec 4) (g : BitVec 4) (a : BitVec 6) (b : BitVec 6) (t : BitVec 5) (r : Bool) (s : Bool)
  /-- MMAS (R204): r is .rb, s is .ra. -/
  | mmas (f : BitVec 4) (g : BitVec 4) (a : BitVec 6) (b : BitVec 6) (t : BitVec 5) (r : Bool) (s : Bool)
  /-- MMASZ (R204): r is .rb, s is .ra. -/
  | mmasz (f : BitVec 4) (g : BitVec 4) (a : BitVec 6) (b : BitVec 6) (t : BitVec 5) (r : Bool) (s : Bool)
  /-- MATRIX_SLOT_WAKE (R200). -/
  | matrixSlotWake (c : Nat) (n : Nat)
  /-- MMA_RESULT (R205). -/
  | mmaResult (c : Nat)
  /-- OPERAND_SLOT_FREE (R193). -/
  | operandSlotFree (c : Nat) (o : Nat)
  /-- OCLAIM (R207). -/
  | oclaim (a : BitVec 6)
  /-- ORELEASE (R207). -/
  | orelease (a : BitVec 6)
  /-- OLD (R208). -/
  | old (f : BitVec 4) (a : BitVec 6) (x : BitVec 6) (t : Bool)
  /-- ACLR (R209). -/
  | aclr (t : BitVec 5)
  /-- AMOV (R209). -/
  | amov (f : BitVec 4) (x : BitVec 6) (t : BitVec 5)
  /-- AADD (R209). -/
  | aadd (s : BitVec 5) (t : BitVec 5)
  /-- MGEO (R202). -/
  | mgeo (x : BitVec 6)
  /-- CYQR (R229). -/
  | cyqr (t : BitVec 2) (a : BitVec 6) (b : BitVec 6) (f : Bool)
  /-- CYAPPLY (R230). -/
  | cyapply (t : BitVec 2) (u : BitVec 2) (a : BitVec 6) (b : BitVec 6) (k : Bool)
  /-- CYGIV (R235). -/
  | cygiv (a : BitVec 6) (b : BitVec 6) (d : BitVec 6)
  /-- CYROT (R236). -/
  | cyrot (a : BitVec 6) (b : BitVec 6) (d : BitVec 6)
  /-- CYRD (R231). -/
  | cyrd (t : BitVec 2) (a : BitVec 6) (c : Bool) (f : BitVec 2)
  /-- CYWR (R232). -/
  | cywr (t : BitVec 2) (a : BitVec 6) (f : BitVec 2)
  /-- CYCLR (R233). -/
  | cyclr (t : BitVec 2)
  /-- CYMODE (R223). -/
  | cymode (g : Bool) (p : Bool)
  /-- CYSOLVE (R234). -/
  | cysolve (t : BitVec 2) (a : BitVec 6) (b : BitVec 6)
  /-- CYANG (R237). -/
  | cyang (a : BitVec 6) (d : BitVec 6) (c : Bool)
  /-- ESET (R248). -/
  | eset (a : BitVec 6) (b : BitVec 6) (d : BitVec 6) (f : BitVec 5)
  /-- EGET (R248). -/
  | eget (x : BitVec 6) (d : BitVec 6) (f : BitVec 5)
  /-- CPY (R253). -/
  | cpy (b : BitVec 6) (d : BitVec 6) (c : Bool)
  /-- CPYST (R254). -/
  | cpyst (b : BitVec 6) (d : BitVec 6) (c : Bool) (t : Bool) (v : Bool) (k : BitVec 3)
  /-- SACC (R255). -/
  | sacc (b : BitVec 6) (d : BitVec 6) (c : Bool) (m : Bool) (p : BitVec 2)
  /-- RCNT (R256). -/
  | rcnt (a : BitVec 6) (b : BitVec 6) (c : Bool)
  /-- RSNAP (R256). -/
  | rsnap (a : BitVec 6) (b : BitVec 6) (c : Bool)
  /-- SEND (R295). -/
  | send (a : BitVec 6) (b : BitVec 6) (d : BitVec 6) (c : Bool) (k : BitVec 2)
  /-- TTSET (R300). -/
  | ttset (a : BitVec 6) (b : BitVec 6)
  /-- TREADY (R300). -/
  | tready (a : BitVec 6) (b : BitVec 6)
  /-- TRKARM (R301). -/
  | trkarm (a : BitVec 6) (b : BitVec 6) (d : BitVec 6)
  /-- LEASE (R257). -/
  | lease (a : BitVec 6) (l : BitVec 2)
  /-- UNLEASE (R258). -/
  | unlease (b : BitVec 6) (l : BitVec 2)
  /-- ZIP (R261). -/
  | zip (b : BitVec 6) (d : BitVec 6) (c : Bool) (l : BitVec 2)
  /-- UNZIP (R261). -/
  | unzip (b : BitVec 6) (d : BitVec 6) (c : Bool) (l : BitVec 2)
  /-- REPL (R262). -/
  | repl (b : BitVec 6) (d : BitVec 6) (c : Bool) (w : Bool) (l : BitVec 2)
  /-- QDECL (R322). -/
  | qdecl (b : BitVec 6) (d : BitVec 6) (q : BitVec 4)
  /-- QARRIVE (R323). -/
  | qarrive (b : BitVec 6) (q : BitVec 4)
  /-- QARRIVE_REGISTER (R323). -/
  | qarriveRegister (id : Nat)
  /-- QREAD (R333). -/
  | qread (a : BitVec 6) (b : BitVec 6) (q : BitVec 4)
  /-- QREPLAY (R334). -/
  | qreplay (a : BitVec 6) (b : BitVec 6) (q : BitVec 4)
  /-- TSAVE (R263). -/
  | tsave (b : BitVec 6) (d : BitVec 6) (l : BitVec 2)
  /-- TLOAD (R263). -/
  | tload (b : BitVec 6) (d : BitVec 6) (l : BitVec 2)
  /-- ECANCEL (R251). -/
  | ecancel (t : BitVec 8)
  /-- SLD (R195). -/
  | sld (s : BitVec 6) (a : BitVec 6) (i : BitVec 14)
  /-- VWIN (R154). -/
  | vwin (l : Bool) (k : BitVec 3) (a : BitVec 6) (i : BitVec 14)
  /-- VSHAPE (R154). -/
  | vshape (l : Bool) (k : BitVec 3) (r : BitVec 4) (c : BitVec 5)
  /-- VMODE (R154). -/
  | vmode (l : Bool) (k : BitVec 3) (p : BitVec 3)
  /-- STPOP (R360). -/
  | stpop (x : BitVec 5)
  /-- TKSET (R246). -/
  | tkset (s : BitVec 2) (t : BitVec 8)
  /-- LATE_RESULT (R95). -/
  | lateResult (c : Nat) (id : Nat)
  /-- FROST_SWITCH (R97). -/
  | frostSwitch (c : Nat)
  /-- REPLICA_LOCK_SWITCH (R142). -/
  | replicaLockSwitch (c : Nat)
  /-- MIRROR_MISMATCH (R354). -/
  | mirrorMismatch (c : Nat) (n : Nat) (slot : BitVec 5) (addr : VAddr)
  /-- STRAND_END (R118). -/
  | strandEnd (c : Nat) (n : Nat)
  /-- ENGINE_COMMAND_START (R243). -/
  | engineCommandStart (id : Nat)
  /-- ENGINE_COMMAND_DONE (R243). -/
  | engineCommandDone (id : Nat)
  /-- LEASE_GRANT (R257). -/
  | leaseGrant (d : Nat)
  /-- LEASE_EXPIRY (R258). -/
  | leaseExpiry (d : Nat) (t : Nat) (l : BitVec 2)
  /-- TRACKER_FIRE (R301). -/
  | trackerFire (d : Nat) (t : Nat) (tile : Nat)
  /-- TILE_RUN_END (R314). -/
  | tileRunEnd (d : Nat) (t : Nat) (tile : Nat)
  /-- MEM_WRITE (R291). -/
  | memWrite (m : Message)
  /-- POOL_WRITE (R291). -/
  | poolWrite (m : Message)
  /-- STREAM_WRITE (R291). -/
  | streamWrite (m : Message)
  /-- CHUNK (R305). -/
  | chunk (m : Message)
  /-- CHUNK_ABORT (R315). -/
  | chunkAbort (m : Message)
  /-- RESPONSE (R287). -/
  | response (m : Message)
  /-- SLOT_REQUEST (R308). -/
  | slotRequest (m : Message)
  /-- SLOT_ANSWER (R308). -/
  | slotAnswer (m : Message)
  /-- NO_RESPONSE (R287). -/
  | noResponse (id : Nat)
  /-- MESSAGE_RETRY (R293). -/
  | messageRetry (id : Nat)
  /-- LANDED_STREAM_APPLY (R292). -/
  | landedStreamApply (d : Nat) (t : Nat)
  /-- LINK_FRAME (R283). -/
  | linkFrame (port : Nat) (f : Frame)
  /-- LINK_REPLAY (R283). -/
  | linkReplay (port : Nat) (number : BitVec 24)
  /-- LINK_RETRAIN (R283). -/
  | linkRetrain (port : Nat) (ok : Bool)
  /-- PORT_DOWN (R283). -/
  | portDown (port : Nat)
  /-- EPOCH_AUTO_ADVANCE (R288). -/
  | epochAutoAdvance (gang : BitVec 24)
  /-- REPLICA_UPDATE (R141). -/
  | replicaUpdate (id : Nat)
  /-- GUST_TICK (R371). -/
  | gustTick (d : Nat)
  /-- LULL_STEP (R372). -/
  | lullStep (d : Nat) (t : Nat)
  /-- WINDOW_BOUNDARY (R366). -/
  | windowBoundary (d : Nat)
  /-- ROUND_BEGIN (R370). -/
  | roundBegin (d : Nat) (p : Nat)
  /-- SLICE_END (R374). -/
  | sliceEnd (d : Nat) (t : Nat)
  /-- TEAM_SELECT (R373). -/
  | teamSelect (d : Nat) (p : Nat)
  /-- COOPERATIVE_SWAP (R381). -/
  | cooperativeSwap (d : Nat) (t : Nat)
  /-- SWAPIN (R383). -/
  | swapin (d : Nat) (t : Nat)
  /-- SHADOW_DRAIN (R382). -/
  | shadowDrain (d : Nat) (p : Nat)
  /-- IMAGE_STAGE (R382). -/
  | imageStage (d : Nat) (p : Nat)
  /-- FORCED_PREEMPTION (R384). -/
  | forcedPreemption (d : Nat) (t : Nat)
  /-- SPILL_DONE (R385). -/
  | spillDone (d : Nat) (t : Nat) (ok : Bool)
  /-- PREEMPT_WATCHDOG (R386). -/
  | preemptWatchdog (d : Nat) (t : Nat)
  /-- WAIT_WATCHDOG (R387). -/
  | waitWatchdog (c : Nat) (n : Nat)
  /-- YIELD_OVERDUE (R378). -/
  | yieldOverdue (c : Nat) (n : Nat)
  /-- KILL_POINT (R326). -/
  | killPoint (c : Nat) (n : Nat)
  /-- KILL_LIMIT (R326). -/
  | killLimit (c : Nat) (n : Nat)
  /-- ECC_UNCORRECTABLE (R348). -/
  | eccUncorrectable (p : Place)
  /-- SCRUB (R357). -/
  | scrub (p : Place) (correctable : Bool)
  /-- SCAN_TEST (R407). -/
  | scanTest (d : Nat) (cl : Nat)
  /-- SCAN_CLAIM (R407). -/
  | scanClaim (d : Nat) (cl : Nat)
  /-- SCAN_COMPLETE (R407). -/
  | scanComplete (d : Nat) (cl : Nat) (ok : Bool)
  /-- TELEMETRY_SAMPLE (R409). -/
  | telemetrySample (d : Nat) (v : Sample)
  /-- DEVICE_RESET (R396). -/
  | deviceReset
  /-- PART_SET (R397). -/
  | partSet (m : HostCmd)
  /-- PART_DESTROY (R397). -/
  | partDestroy (m : HostCmd)
  /-- VF_BIND (R397). -/
  | vfBind (m : HostCmd)
  /-- SLOT_SET (R397). -/
  | slotSet (m : HostCmd)
  /-- TEAM_CREATE (R397). -/
  | teamCreate (m : HostCmd)
  /-- TEAM_SET (R397). -/
  | teamSet (m : HostCmd)
  /-- TEAM_STOP (R389). -/
  | teamStop (m : HostCmd)
  /-- TEAM_RESUME (R368). -/
  | teamResume (m : HostCmd)
  /-- TEAM_RESTART (R399). -/
  | teamRestart (m : HostCmd)
  /-- TEAM_DESTROY (R399). -/
  | teamDestroy (m : HostCmd)
  /-- PARAM_SET (R366). -/
  | paramSet (m : HostCmd)
  /-- S2_MAP (R397). -/
  | s2Map (m : HostCmd)
  /-- S2_UNMAP (R397). -/
  | s2Unmap (m : HostCmd)
  /-- INVALIDATE (R397). -/
  | invalidate (m : HostCmd)
  /-- PAGE_ANSWER (R136). -/
  | pageAnswer (m : HostCmd)
  /-- OWNER_SET (R133). -/
  | ownerSet (m : HostCmd)
  /-- REPLICA_RESERVE (R397). -/
  | replicaReserve (m : HostCmd)
  /-- IMAGE_LOAD (R64). -/
  | imageLoad (m : HostCmd)
  /-- ATTEST (R402). -/
  | attest (m : HostCmd)
  /-- KEY_SESSION (R403). -/
  | keySession (m : HostCmd)
  /-- KEY_INSTALL (R403). -/
  | keyInstall (m : HostCmd)
  /-- EPOCH_ADVANCE (R397). -/
  | epochAdvance (m : HostCmd)
  /-- SCAN_SET (R407). -/
  | scanSet (m : HostCmd)
  /-- POWER_SET (R409). -/
  | powerSet (m : HostCmd)
  /-- TEAM_EXPORT (R397). -/
  | teamExport (m : HostCmd)
  /-- TEAM_IMPORT (R397). -/
  | teamImport (m : HostCmd)
  /-- BACKGROUND_COMMAND_DONE (R398). -/
  | backgroundCommandDone (slot : BitVec 4)
  /-- VF_MESSAGE (R394). -/
  | vfMessage (vf : BitVec 9) (m : Message)
  /-- S1INV (R393). -/
  | s1inv (vf : BitVec 9) (v : Word)
  /-- REGISTER_WRITE (R393). -/
  | registerWrite (fn : Nat) (offset : BitVec 16) (v : Word)
  /-- READBACK_READ (R405). -/
  | readbackRead (fn : Nat) (offset : BitVec 48)
  /-- CXL_MEM_ACCESS (R392). -/
  | cxlMemAccess (write : Bool) (addr : BitVec 42) (v : Byte)
  /-- IDE_KM (R392). -/
  | ideKm (ok : Bool)
  /-- ILLEGAL_ENCODING (R35). -/
  | illegalEncoding (slot : BitVec 5) (w : Word32)
  /-- BUNDLE_FETCH_FAULT (R424). -/
  | bundleFetchFault (cause : BitVec 8) (reason : BitVec 8) (addr : Word)
  /-- OPERAND_LOAD_COMPLETE (R208). -/
  | operandLoadComplete (c : Nat) (o : Nat)
  /-- ACCUMULATOR_PORT_COMPLETE (R209). -/
  | accumulatorPortComplete (c : Nat)
  /-- EDDY_WORK_COMPLETE (R229). -/
  | eddyWorkComplete (c : Nat)
  /-- STORE_PERFORMED (R265). -/
  | storePerformed (c : Nat) (id : Nat)
  deriving DecidableEq, Repr

end Sys2Proof
end

