-- ==== Sys2Proof/WellFormed.lean ====
section
/-!
DEFINITION. Which operand values an encoding admits: the rows of R35 under ILLEGAL_ENCODING that a syllable shows by
itself (sub-functions, conditions, kinds, formats, scopes, indices, counts, scalar destinations 56 to 63). A value that
only the machine's state can show illegal is checked by the meanings.
-/

set_option Elab.async false
namespace Sys2Proof

/-- A scalar destination names x0 to x55; encodings 56 to 63 are illegal (R35). -/
def destOk (d : BitVec 6) : Bool := d.toNat < 56

/-- A precision field of the scalar float group: 0 F32, 1 F64 (R48). -/
def precOk (p : BitVec 2) : Bool := p.toNat < 2

/-- A rounding field: 0 to 3, or 7 for RMODE (R48). -/
def roundOk (r : BitVec 3) : Bool := r.toNat < 4 || r.toNat == 7

/-- A condition of BR and CMPT (R49, R355). -/
def condOk (c : BitVec 3) : Bool := c.toNat < 6

/-- A token operand: 255 is illegal (R49, R55, R240). -/
def tokenOk (t : BitVec 8) : Bool := t.toNat < 255

/-- The control-register indices of R101. -/
def controlIndexOk (i : BitVec 12) : Bool :=
  let n := i.toNat
  n ≤ 0x00B || (0x010 ≤ n && n ≤ 0x015) || (0x018 ≤ n && n ≤ 0x01D) || n == 0x020 || n == 0x021
    || (0x030 ≤ n && n ≤ 0x03F) || (0x040 ≤ n && n ≤ 0x048) || n == 0x050 || n == 0x060

/-- A lane-group selector of VWIN, VSHAPE and VMODE: all groups requires k = 0 (R55). -/
def selectorOk (l : Bool) (k : BitVec 3) : Bool := !l || k == 0

/-- A matrix format field: 0xE and 0xF are illegal (R44). XS64 is no such code: a pair that names it raises FORMAT_PAIR by R190, not
ILLEGAL_ENCODING as the last sentence of R67 could be read (DEDUCED, log 111). -/
def matrixFormatOk (f : BitVec 4) : Bool := f.toNat < 14

/-- A vector format within a range of codes (R165). -/
def fmtIn (f : BitVec 3) (lo hi : Nat) : Bool := lo ≤ f.toNat && f.toNat ≤ hi

/-- The narrow formats of VQUANT and VDEQ (R173): I8, F8A, F8B, F4, I4, DP2. -/
def quantOk (n : BitVec 4) : Bool := n.toNat == 6 || (8 ≤ n.toNat && n.toNat ≤ 12)

/-- The operand values that the encoding of each instruction admits. -/
def Instr.wellFormed : Instr → Bool
  | .add d _ _ | .sub d _ _ | .mul d _ _ | .mulh d _ _ _ | .div d _ _ _ | .rem d _ _ _ | .and d _ _ | .or d _ _
  | .xor d _ _ | .shl d _ _ | .shr d _ _ | .sar d _ _ | .slt d _ _ _ | .seq d _ _ | .min d _ _ _ | .max d _ _ _
  | .sel d _ _ | .clz d _ | .ctz d _ | .popc d _ | .brev d _ | .peek d _ | .agen d _ _ _ | .addi d _ _ | .andi d _ _
  | .ori d _ _ | .xori d _ _ | .shli d _ _ | .shri d _ _ | .sari d _ _ | .slti d _ _ | .movi d _ | .movhi d _
  | .movhh d _ | .jrl d _ _ | .chkerr d _ _ | .qwait d _ => destOk d
  | .bfx d _ p l | .bfi d _ p l => destOk d && p.toNat + l.toNat + 1 ≤ 64
  | .fadd d _ _ p r | .fsub d _ _ p r | .fmul d _ _ p r | .fdiv d _ _ p r | .fmin d _ _ p r | .fmax d _ _ p r
  | .ffma d _ _ p r => destOk d && precOk p && roundOk r
  | .fsqrt d _ p r => destOk d && precOk p && roundOk r
  | .fcvt d _ s t r => destOk d && s != t && roundOk r
  | .fcmp d _ _ p c => destOk d && precOk p && c.toNat < 4
  | .br c _ _ _ => condOk c
  | .cmpt _ _ c => condOk c
  | .loop _ p => 1 ≤ p.toNat && p.toNat ≤ 6
  | .spinw d _ c => destOk d && c.toNat < 4
  | .mfc d i => destOk d && controlIndexOk i
  | .mtc _ i => controlIndexOk i
  | .launch d a => destOk d && 1 ≤ a.toNat && a.toNat ≤ 48
  | .tkwait d t | .tktest d t => destOk d && tokenOk t
  | .ldb x _ _ | .ldbu x _ _ | .ldh x _ _ | .ldhu x _ _ | .ldw x _ _ | .ldwu x _ _ | .ldd x _ _ => destOk x
  | .vld _ _ m _ | .vst _ _ m _ | .vlds _ _ m _ | .vsts _ _ m _ | .vpop _ _ m => m != 0
  | .fence s => s.toNat < 6
  | .vabs f _ _ _ | .vneg f _ _ _ => fmtIn f 0 6
  | .vdiv f _ _ _ _ => fmtIn f 0 3
  | .vsqrt f _ _ _ | .vfloor f _ _ _ | .vclass f _ _ _ | .vrcp f _ _ _ | .vrsqrt f _ _ _ | .vexp2 f _ _ _
  | .vlog2 f _ _ _ | .vexp f _ _ _ | .vlog f _ _ _ | .vsin f _ _ _ | .vcos f _ _ _ | .vtanh f _ _ _ | .verf f _ _ _
  | .vsigm f _ _ _ => fmtIn f 0 3
  | .vshl f _ _ _ _ | .vshr f _ _ _ _ | .vadds f _ _ _ _ => fmtIn f 4 7
  | .vsar f _ _ _ _ => fmtIn f 4 6
  | .vcvt f _ _ n => n.toNat < 8 && n.toNat != f.toNat
  | .vpack _ _ _ n | .vunpk _ _ _ n => 8 ≤ n.toNat && n.toNat ≤ 12
  | .vquant f _ _ n | .vdeq f _ _ n => fmtIn f 0 2 && quantOk n
  | .vxfer _ _ k => k != 0
  | .mma f g _ _ _ _ _ | .mmaz f g _ _ _ _ _ | .mmas f g _ _ _ _ _ | .mmasz f g _ _ _ _ _ =>
    matrixFormatOk f && matrixFormatOk g
  | .old f _ _ _ => matrixFormatOk f
  | .amov f _ _ => matrixFormatOk f
  | .cyapply t u _ _ _ => t != u
  | .cygiv _ _ d | .cyrot _ _ d => destOk d
  | .cyang _ d _ => destOk d
  | .cyrd _ _ c f => f.toNat < 3 && !(c && f.toNat == 2)
  | .cywr _ _ f => f.toNat < 3
  | .eset _ _ _ f => f.toNat % 2 == 0
  | .eget x _ _ => destOk x
  | .cpyst _ _ _ _ v k => !v || k.toNat < 4
  | .sacc _ _ _ _ p => p.toNat < 3
  | .send _ _ _ _ k => k.toNat < 3
  | .ecancel t => tokenOk t
  | .vwin l k _ _ | .vmode l k _ => selectorOk l k
  | .vshape l k r c => selectorOk l k && (r.toNat + 1) * (c.toNat + 1) ≤ 64
  | .stpop x => 1 ≤ x.toNat && x.toNat ≤ 27
  | .tkset s t => s.toNat < 3 && tokenOk t
  | .memWrite m => m.kind == 1
  | .poolWrite m => m.kind == 2
  | .streamWrite m => m.kind == 3
  | .chunk m => m.kind == 4 && (m.wordB.toNat % 256 < 2)
  | .chunkAbort m => m.kind == 4 && (m.wordB.toNat % 256 == 2)
  | .response m => m.kind == 5
  | .slotRequest m => m.kind == 6
  | .slotAnswer m => m.kind == 7
  | _ => true

end Sys2Proof
end

