-- ==== Sys2Proof/Decode.lean ====
section
/-!
DEFINITION. Decoding and encoding of bundles (R30 to R55). A word means what the map of its slot says: one word may stand
for different instructions in different slots. The decoder is total on any bytes and rejects by name; every rejection
raises ILLEGAL_ENCODING (R35) at the slot or the header named.
-/

set_option Elab.async false
namespace Sys2Proof

/-- The unsigned value of bits [lo + len - 1 : lo] of a word. -/
def field (w lo len : Nat) : Nat := w / 2 ^ lo % 2 ^ len

/-- Bits [lo + len - 1 : lo] of a word. -/
def bits (w lo len : Nat) : BitVec len := BitVec.ofNat len (w / 2 ^ lo)

/-- Bit lo of a word. -/
def flag (w lo : Nat) : Bool := w / 2 ^ lo % 2 == 1

/-- The rows of R48, R49: the instruction whose fixed bits the syllable w has. -/
def parseScalar (w : Nat) : Option Instr :=
  match field w 26 6 with
  | 1 => if field w 0 8 = 0 then some (.add (bits w 20 6) (bits w 14 6) (bits w 8 6)) else none
  | 2 => if field w 0 8 = 0 then some (.sub (bits w 20 6) (bits w 14 6) (bits w 8 6)) else none
  | 3 => if field w 0 8 = 0 then some (.mul (bits w 20 6) (bits w 14 6) (bits w 8 6)) else none
  | 4 => if field w 1 7 = 0 then some (.mulh (bits w 20 6) (bits w 14 6) (bits w 8 6) (flag w 0)) else none
  | 5 => if field w 1 7 = 0 then some (.div (bits w 20 6) (bits w 14 6) (bits w 8 6) (flag w 0)) else none
  | 6 => if field w 1 7 = 0 then some (.rem (bits w 20 6) (bits w 14 6) (bits w 8 6) (flag w 0)) else none
  | 7 => if field w 0 8 = 0 then some (.and (bits w 20 6) (bits w 14 6) (bits w 8 6)) else none
  | 8 => if field w 0 8 = 0 then some (.or (bits w 20 6) (bits w 14 6) (bits w 8 6)) else none
  | 9 => if field w 0 8 = 0 then some (.xor (bits w 20 6) (bits w 14 6) (bits w 8 6)) else none
  | 10 => if field w 0 8 = 0 then some (.shl (bits w 20 6) (bits w 14 6) (bits w 8 6)) else none
  | 11 => if field w 0 8 = 0 then some (.shr (bits w 20 6) (bits w 14 6) (bits w 8 6)) else none
  | 12 => if field w 0 8 = 0 then some (.sar (bits w 20 6) (bits w 14 6) (bits w 8 6)) else none
  | 13 => if field w 1 7 = 0 then some (.slt (bits w 20 6) (bits w 14 6) (bits w 8 6) (flag w 0)) else none
  | 14 => if field w 0 8 = 0 then some (.seq (bits w 20 6) (bits w 14 6) (bits w 8 6)) else none
  | 15 => if field w 1 7 = 0 then some (.min (bits w 20 6) (bits w 14 6) (bits w 8 6) (flag w 0)) else none
  | 16 => if field w 1 7 = 0 then some (.max (bits w 20 6) (bits w 14 6) (bits w 8 6) (flag w 0)) else none
  | 17 => if field w 0 8 = 0 then some (.sel (bits w 20 6) (bits w 14 6) (bits w 8 6)) else none
  | 18 => if field w 0 14 = 0 then some (.clz (bits w 20 6) (bits w 14 6)) else
      if field w 0 14 = 1 then some (.ctz (bits w 20 6) (bits w 14 6)) else
      if field w 0 14 = 2 then some (.popc (bits w 20 6) (bits w 14 6)) else
      if field w 0 14 = 3 then some (.brev (bits w 20 6) (bits w 14 6)) else
      if field w 0 14 = 4 ∧ field w 17 3 = 7 then some (.peek (bits w 20 6) (bits w 14 3)) else none
  | 19 => if field w 6 2 = 0 then some (.bfx (bits w 20 6) (bits w 14 6) (bits w 8 6) (bits w 0 6)) else none
  | 20 => if field w 6 2 = 0 then some (.bfi (bits w 20 6) (bits w 14 6) (bits w 8 6) (bits w 0 6)) else none
  | 21 => if field w 3 5 = 0 then some (.agen (bits w 20 6) (bits w 14 6) (bits w 8 6) (bits w 0 3)) else none
  | 22 => some (.addi (bits w 20 6) (bits w 14 6) (bits w 0 14))
  | 23 => some (.andi (bits w 20 6) (bits w 14 6) (bits w 0 14))
  | 24 => some (.ori (bits w 20 6) (bits w 14 6) (bits w 0 14))
  | 25 => some (.xori (bits w 20 6) (bits w 14 6) (bits w 0 14))
  | 26 => if field w 6 8 = 0 then some (.shli (bits w 20 6) (bits w 14 6) (bits w 0 6)) else
      if field w 6 8 = 1 then some (.shri (bits w 20 6) (bits w 14 6) (bits w 0 6)) else
      if field w 6 8 = 2 then some (.sari (bits w 20 6) (bits w 14 6) (bits w 0 6)) else none
  | 27 => some (.slti (bits w 20 6) (bits w 14 6) (bits w 0 14))
  | 28 => some (.movi (bits w 20 6) (bits w 0 20))
  | 29 => some (.movhi (bits w 20 6) (bits w 0 20))
  | 30 => some (.movhh (bits w 20 6) (bits w 0 20))
  | 31 => if field w 3 3 = 0 then some (.fadd (bits w 20 6) (bits w 14 6) (bits w 8 6) (bits w 6 2) (bits w 0 3)) else
      if field w 3 3 = 1 then some (.fsub (bits w 20 6) (bits w 14 6) (bits w 8 6) (bits w 6 2) (bits w 0 3)) else
      if field w 3 3 = 2 then some (.fmul (bits w 20 6) (bits w 14 6) (bits w 8 6) (bits w 6 2) (bits w 0 3)) else
      if field w 3 3 = 3 then some (.fdiv (bits w 20 6) (bits w 14 6) (bits w 8 6) (bits w 6 2) (bits w 0 3)) else
      if field w 3 3 = 4 then some (.fmin (bits w 20 6) (bits w 14 6) (bits w 8 6) (bits w 6 2) (bits w 0 3)) else
      if field w 3 3 = 5 then some (.fmax (bits w 20 6) (bits w 14 6) (bits w 8 6) (bits w 6 2) (bits w 0 3)) else
      if field w 3 3 = 6 ∧ field w 8 6 = 0 then some (.fsqrt (bits w 20 6) (bits w 14 6) (bits w 6 2) (bits w 0 3)) else none
  | 32 => if field w 3 3 = 0 then some (.ffma (bits w 20 6) (bits w 14 6) (bits w 8 6) (bits w 6 2) (bits w 0 3)) else none
  | 33 => if field w 3 1 = 0 ∧ field w 8 6 = 0 then some (.fcvt (bits w 20 6) (bits w 14 6) (bits w 6 2) (bits w 4 2) (bits w 0 3)) else none
  | 34 => if field w 3 3 = 0 then some (.fcmp (bits w 20 6) (bits w 14 6) (bits w 8 6) (bits w 6 2) (bits w 0 3)) else none
  | 40 => some (.br (bits w 23 3) (bits w 17 6) (bits w 11 6) (bits w 0 11))
  | 41 => if field w 25 1 = 0 then some (.bz (bits w 19 6) (bits w 0 19)) else
      if field w 25 1 = 1 then some (.bnz (bits w 19 6) (bits w 0 19)) else none
  | 42 => some (.jmp (bits w 0 26))
  | 43 => some (.call (bits w 0 26))
  | 44 => if field w 1 13 = 0 ∧ field w 20 6 = 0 then some (.jr (bits w 14 6) (flag w 0)) else
      if field w 1 13 = 1 then some (.jrl (bits w 20 6) (bits w 14 6) (flag w 0)) else none
  | 45 => if field w 3 5 = 0 ∧ field w 14 12 = 0 then some (.loop (bits w 8 6) (bits w 0 3)) else none
  | 46 => if field w 0 26 = 0 then some (.yield) else none
  | 47 => if field w 0 26 = 0 then some (.endk) else none
  | 48 => if field w 20 6 = 0 then some (.trap (bits w 0 20)) else none
  | 49 => if field w 3 5 = 0 ∧ field w 20 6 = 0 then some (.cmpt (bits w 14 6) (bits w 8 6) (bits w 0 3)) else none
  | 50 => if field w 2 18 = 0 then some (.chkerr (bits w 20 6) (flag w 1) (flag w 0)) else none
  | 51 => if field w 3 11 = 0 then some (.spinw (bits w 20 6) (bits w 14 6) (bits w 0 3)) else none
  | 52 => if field w 12 8 = 0 then some (.mfc (bits w 20 6) (bits w 0 12)) else none
  | 53 => if field w 12 2 = 0 ∧ field w 20 6 = 0 then some (.mtc (bits w 14 6) (bits w 0 12)) else none
  | 54 => if field w 0 26 = 0 then some (.eret) else none
  | 55 => if field w 0 14 = 0 then some (.launch (bits w 20 6) (bits w 14 6)) else none
  | 56 => if field w 8 12 = 0 then some (.tkwait (bits w 20 6) (bits w 0 8)) else none
  | 57 => if field w 8 12 = 0 then some (.tktest (bits w 20 6) (bits w 0 8)) else none
  | 58 => if field w 0 8 = 0 ∧ field w 20 6 = 0 then some (.phaseBegin (bits w 14 6) (bits w 8 6)) else
      if field w 0 26 = 1 then some (.phaseCommit) else none
  | 59 => if field w 4 16 = 0 then some (.qwait (bits w 20 6) (bits w 0 4)) else none
  | _ => none

/-- The rows of R50: the instruction whose fixed bits the syllable w has. -/
def parseLoadStore (w : Nat) : Option Instr :=
  match field w 26 6 with
  | 1 => if field w 10 4 = 0 then some (.ldb (bits w 20 6) (bits w 14 6) (bits w 0 10)) else
      if field w 10 4 = 2 then some (.ldbu (bits w 20 6) (bits w 14 6) (bits w 0 10)) else
      if field w 10 4 = 4 then some (.ldh (bits w 20 6) (bits w 14 6) (bits w 0 10)) else
      if field w 10 4 = 6 then some (.ldhu (bits w 20 6) (bits w 14 6) (bits w 0 10)) else
      if field w 10 4 = 8 then some (.ldw (bits w 20 6) (bits w 14 6) (bits w 0 10)) else
      if field w 10 4 = 10 then some (.ldwu (bits w 20 6) (bits w 14 6) (bits w 0 10)) else
      if field w 10 4 = 12 then some (.ldd (bits w 20 6) (bits w 14 6) (bits w 0 10)) else none
  | 2 => if field w 11 3 = 0 then some (.stb (bits w 20 6) (bits w 14 6) (flag w 10) (bits w 0 10)) else
      if field w 11 3 = 1 then some (.sth (bits w 20 6) (bits w 14 6) (flag w 10) (bits w 0 10)) else
      if field w 11 3 = 2 then some (.stw (bits w 20 6) (bits w 14 6) (flag w 10) (bits w 0 10)) else
      if field w 11 3 = 3 then some (.std (bits w 20 6) (bits w 14 6) (flag w 10) (bits w 0 10)) else none
  | 3 => some (.vld (bits w 19 7) (bits w 13 6) (bits w 5 8) (bits w 0 5))
  | 4 => some (.vst (bits w 19 7) (bits w 13 6) (bits w 5 8) (bits w 0 5))
  | 5 => some (.vlds (bits w 19 7) (bits w 13 6) (bits w 5 8) (bits w 0 5))
  | 6 => some (.vsts (bits w 19 7) (bits w 13 6) (bits w 5 8) (bits w 0 5))
  | 7 => if field w 2 1 = 0 then some (.vgather (bits w 19 7) (bits w 12 7) (bits w 6 6) (bits w 3 3) (bits w 0 2)) else
      if field w 2 4 = 1 then some (.vgatherAll (bits w 19 7) (bits w 12 7) (bits w 6 6) (bits w 0 2)) else none
  | 8 => if field w 2 1 = 0 then some (.vscatter (bits w 19 7) (bits w 12 7) (bits w 6 6) (bits w 3 3) (bits w 0 2)) else
      if field w 2 4 = 1 then some (.vscatterAll (bits w 19 7) (bits w 12 7) (bits w 6 6) (bits w 0 2)) else none
  | 9 => if field w 0 9 = 0 then some (.vpop (bits w 19 7) (bits w 17 2) (bits w 9 8)) else none
  | 10 => if field w 0 26 = 0 then some (.drain) else none
  | 11 => if field w 3 23 = 0 then some (.fence (bits w 0 3)) else none
  | _ => none

/-- The rows of R51: the instruction whose fixed bits the syllable w has. -/
def parseVector (w : Nat) : Option Instr :=
  match field w 25 7 with
  | 1 => some (.vadd (bits w 22 3) (flag w 21) (bits w 14 7) (bits w 7 7) (bits w 0 7))
  | 2 => some (.vsub (bits w 22 3) (flag w 21) (bits w 14 7) (bits w 7 7) (bits w 0 7))
  | 3 => some (.vmul (bits w 22 3) (flag w 21) (bits w 14 7) (bits w 7 7) (bits w 0 7))
  | 4 => some (.vfma (bits w 22 3) (flag w 21) (bits w 14 7) (bits w 7 7) (bits w 0 7))
  | 5 => some (.vfms (bits w 22 3) (flag w 21) (bits w 14 7) (bits w 7 7) (bits w 0 7))
  | 6 => some (.vmin (bits w 22 3) (flag w 21) (bits w 14 7) (bits w 7 7) (bits w 0 7))
  | 7 => some (.vmax (bits w 22 3) (flag w 21) (bits w 14 7) (bits w 7 7) (bits w 0 7))
  | 8 => if field w 0 7 = 0 then some (.vabs (bits w 22 3) (flag w 21) (bits w 14 7) (bits w 7 7)) else none
  | 9 => if field w 0 7 = 0 then some (.vneg (bits w 22 3) (flag w 21) (bits w 14 7) (bits w 7 7)) else none
  | 10 => some (.vdiv (bits w 22 3) (flag w 21) (bits w 14 7) (bits w 7 7) (bits w 0 7))
  | 11 => if field w 0 7 = 0 then some (.vsqrt (bits w 22 3) (flag w 21) (bits w 14 7) (bits w 7 7)) else none
  | 12 => some (.vand (bits w 22 3) (flag w 21) (bits w 14 7) (bits w 7 7) (bits w 0 7))
  | 13 => some (.vor (bits w 22 3) (flag w 21) (bits w 14 7) (bits w 7 7) (bits w 0 7))
  | 14 => some (.vxor (bits w 22 3) (flag w 21) (bits w 14 7) (bits w 7 7) (bits w 0 7))
  | 15 => if field w 0 7 = 0 then some (.vnot (bits w 22 3) (flag w 21) (bits w 14 7) (bits w 7 7)) else none
  | 16 => some (.vshl (bits w 22 3) (flag w 21) (bits w 14 7) (bits w 7 7) (bits w 0 7))
  | 17 => some (.vshr (bits w 22 3) (flag w 21) (bits w 14 7) (bits w 7 7) (bits w 0 7))
  | 18 => some (.vsar (bits w 22 3) (flag w 21) (bits w 14 7) (bits w 7 7) (bits w 0 7))
  | 19 => if field w 0 7 = 0 then some (.vmov (bits w 22 3) (flag w 21) (bits w 14 7) (bits w 7 7)) else none
  | 20 => some (.vmovi (bits w 22 3) (flag w 21) (bits w 14 7) (bits w 0 14))
  | 21 => if field w 0 7 = 0 then some (.vfloor (bits w 22 3) (flag w 21) (bits w 14 7) (bits w 7 7)) else none
  | 22 => if field w 0 7 = 0 then some (.vclass (bits w 22 3) (flag w 21) (bits w 14 7) (bits w 7 7)) else none
  | 23 => some (.vadds (bits w 22 3) (flag w 21) (bits w 14 7) (bits w 7 7) (bits w 0 7))
  | 32 => if field w 17 4 = 0 then some (.vceq (bits w 22 3) (flag w 21) (bits w 14 3) (bits w 7 7) (bits w 0 7)) else none
  | 33 => if field w 17 4 = 0 then some (.vclt (bits w 22 3) (flag w 21) (bits w 14 3) (bits w 7 7) (bits w 0 7)) else none
  | 34 => if field w 17 4 = 0 then some (.vcle (bits w 22 3) (flag w 21) (bits w 14 3) (bits w 7 7) (bits w 0 7)) else none
  | 35 => if field w 21 1 = 0 then some (.vsel (bits w 22 3) (bits w 14 7) (bits w 7 7) (bits w 0 7)) else none
  | 36 => if field w 3 4 = 0 ∧ field w 10 4 = 0 ∧ field w 17 8 = 0 then some (.pand (bits w 14 3) (bits w 7 3) (bits w 0 3)) else none
  | 37 => if field w 3 4 = 0 ∧ field w 10 4 = 0 ∧ field w 17 8 = 0 then some (.por (bits w 14 3) (bits w 7 3) (bits w 0 3)) else none
  | 38 => if field w 0 7 = 0 ∧ field w 10 4 = 0 ∧ field w 17 8 = 0 then some (.pnot (bits w 14 3) (bits w 7 3)) else none
  | 39 => if field w 0 7 = 0 ∧ field w 10 4 = 0 ∧ field w 17 8 = 0 then some (.pmov (bits w 14 3) (bits w 7 3)) else none
  | 48 => if field w 4 3 = 0 ∧ field w 21 1 = 0 then some (.vcvt (bits w 22 3) (bits w 14 7) (bits w 7 7) (bits w 0 4)) else none
  | 49 => if field w 4 3 = 0 ∧ field w 21 1 = 0 then some (.vquant (bits w 22 3) (bits w 14 7) (bits w 7 7) (bits w 0 4)) else none
  | 50 => if field w 4 3 = 0 ∧ field w 21 1 = 0 then some (.vdeq (bits w 22 3) (bits w 14 7) (bits w 7 7) (bits w 0 4)) else none
  | 51 => if field w 4 3 = 0 ∧ field w 21 1 = 0 then some (.vpack (bits w 22 3) (bits w 14 7) (bits w 7 7) (bits w 0 4)) else none
  | 52 => if field w 4 3 = 0 ∧ field w 21 1 = 0 then some (.vunpk (bits w 22 3) (bits w 14 7) (bits w 7 7) (bits w 0 4)) else none
  | 64 => if field w 0 7 = 0 then some (.vrsum (bits w 22 3) (flag w 21) (bits w 14 7) (bits w 7 7)) else none
  | 65 => if field w 0 7 = 0 then some (.vrmax (bits w 22 3) (flag w 21) (bits w 14 7) (bits w 7 7)) else none
  | 66 => if field w 0 7 = 0 then some (.vrmin (bits w 22 3) (flag w 21) (bits w 14 7) (bits w 7 7)) else none
  | 67 => if field w 0 7 = 0 then some (.vscan (bits w 22 3) (flag w 21) (bits w 14 7) (bits w 7 7)) else none
  | 68 => some (.vperm (bits w 22 3) (flag w 21) (bits w 14 7) (bits w 7 7) (bits w 0 7))
  | 69 => if field w 3 4 = 0 ∧ field w 21 4 = 0 then some (.vxfer (bits w 14 7) (bits w 7 7) (bits w 0 3)) else none
  | 70 => if field w 6 1 = 0 then some (.vbcast (bits w 22 3) (flag w 21) (bits w 14 7) (bits w 7 7) (bits w 0 6)) else none
  | 71 => if field w 6 1 = 0 ∧ field w 21 1 = 0 then some (.vextr (bits w 22 3) (bits w 14 7) (bits w 7 7) (bits w 0 6)) else none
  | 72 => if field w 0 14 = 0 then some (.viota (bits w 22 3) (flag w 21) (bits w 14 7)) else none
  | 80 => if field w 0 7 = 0 then some (.vrcp (bits w 22 3) (flag w 21) (bits w 14 7) (bits w 7 7)) else none
  | 81 => if field w 0 7 = 0 then some (.vrsqrt (bits w 22 3) (flag w 21) (bits w 14 7) (bits w 7 7)) else none
  | 82 => if field w 0 7 = 0 then some (.vexp2 (bits w 22 3) (flag w 21) (bits w 14 7) (bits w 7 7)) else none
  | 83 => if field w 0 7 = 0 then some (.vlog2 (bits w 22 3) (flag w 21) (bits w 14 7) (bits w 7 7)) else none
  | 84 => if field w 0 7 = 0 then some (.vexp (bits w 22 3) (flag w 21) (bits w 14 7) (bits w 7 7)) else none
  | 85 => if field w 0 7 = 0 then some (.vlog (bits w 22 3) (flag w 21) (bits w 14 7) (bits w 7 7)) else none
  | 86 => if field w 0 7 = 0 then some (.vsin (bits w 22 3) (flag w 21) (bits w 14 7) (bits w 7 7)) else none
  | 87 => if field w 0 7 = 0 then some (.vcos (bits w 22 3) (flag w 21) (bits w 14 7) (bits w 7 7)) else none
  | 88 => if field w 0 7 = 0 then some (.vtanh (bits w 22 3) (flag w 21) (bits w 14 7) (bits w 7 7)) else none
  | 89 => if field w 0 7 = 0 then some (.verf (bits w 22 3) (flag w 21) (bits w 14 7) (bits w 7 7)) else none
  | 90 => if field w 0 7 = 0 then some (.vsigm (bits w 22 3) (flag w 21) (bits w 14 7) (bits w 7 7)) else none
  | _ => none

/-- The rows of R52: the instruction whose fixed bits the syllable w has. -/
def parseMatrix (w : Nat) : Option Instr :=
  match field w 27 5 with
  | 1 => some (.mma (bits w 23 4) (bits w 19 4) (bits w 13 6) (bits w 7 6) (bits w 2 5) (flag w 1) (flag w 0))
  | 2 => some (.mmaz (bits w 23 4) (bits w 19 4) (bits w 13 6) (bits w 7 6) (bits w 2 5) (flag w 1) (flag w 0))
  | 3 => some (.mmas (bits w 23 4) (bits w 19 4) (bits w 13 6) (bits w 7 6) (bits w 2 5) (flag w 1) (flag w 0))
  | 4 => some (.mmasz (bits w 23 4) (bits w 19 4) (bits w 13 6) (bits w 7 6) (bits w 2 5) (flag w 1) (flag w 0))
  | 5 => if field w 0 13 = 0 ∧ field w 19 8 = 0 then some (.oclaim (bits w 13 6)) else none
  | 6 => if field w 0 13 = 0 ∧ field w 19 8 = 0 then some (.orelease (bits w 13 6)) else none
  | 7 => if field w 1 6 = 0 ∧ field w 19 4 = 0 then some (.old (bits w 23 4) (bits w 13 6) (bits w 7 6) (flag w 0)) else none
  | 8 => if field w 0 2 = 0 ∧ field w 7 20 = 0 then some (.aclr (bits w 2 5)) else none
  | 9 => if field w 0 2 = 0 ∧ field w 13 10 = 0 then some (.amov (bits w 23 4) (bits w 7 6) (bits w 2 5)) else none
  | 10 => if field w 0 2 = 0 ∧ field w 7 6 = 0 ∧ field w 18 9 = 0 then some (.aadd (bits w 13 5) (bits w 2 5)) else none
  | 11 => if field w 0 7 = 0 ∧ field w 13 14 = 0 then some (.mgeo (bits w 7 6)) else none
  | _ => none

/-- The rows of R53: the instruction whose fixed bits the syllable w has. -/
def parseEddy (w : Nat) : Option Instr :=
  match field w 27 5 with
  | 1 => if field w 1 10 = 0 ∧ field w 23 2 = 0 then some (.cyqr (bits w 25 2) (bits w 17 6) (bits w 11 6) (flag w 0)) else none
  | 2 => if field w 1 10 = 0 then some (.cyapply (bits w 25 2) (bits w 23 2) (bits w 17 6) (bits w 11 6) (flag w 0)) else none
  | 3 => if field w 0 5 = 0 ∧ field w 23 4 = 0 then some (.cygiv (bits w 17 6) (bits w 11 6) (bits w 5 6)) else none
  | 4 => if field w 0 5 = 0 ∧ field w 23 4 = 0 then some (.cyrot (bits w 17 6) (bits w 11 6) (bits w 5 6)) else none
  | 5 => if field w 3 14 = 0 ∧ field w 23 2 = 0 then some (.cyrd (bits w 25 2) (bits w 17 6) (flag w 2) (bits w 0 2)) else none
  | 6 => if field w 2 15 = 0 ∧ field w 23 2 = 0 then some (.cywr (bits w 25 2) (bits w 17 6) (bits w 0 2)) else none
  | 7 => if field w 0 25 = 0 then some (.cyclr (bits w 25 2)) else none
  | 8 => if field w 2 25 = 0 then some (.cymode (flag w 1) (flag w 0)) else none
  | 9 => if field w 0 11 = 0 ∧ field w 23 2 = 0 then some (.cysolve (bits w 25 2) (bits w 17 6) (bits w 11 6)) else none
  | 10 => if field w 1 4 = 0 ∧ field w 11 6 = 0 ∧ field w 23 4 = 0 then some (.cyang (bits w 17 6) (bits w 5 6) (flag w 0)) else none
  | _ => none

/-- The rows of R54: the instruction whose fixed bits the syllable w has. -/
def parseEngine (w : Nat) : Option Instr :=
  match field w 26 6 with
  | 1 => if field w 5 3 = 0 then some (.eset (bits w 20 6) (bits w 14 6) (bits w 8 6) (bits w 0 5)) else none
  | 2 => if field w 5 3 = 0 ∧ field w 14 6 = 0 then some (.eget (bits w 20 6) (bits w 8 6) (bits w 0 5)) else none
  | 3 => if field w 0 7 = 0 ∧ field w 20 6 = 0 then some (.cpy (bits w 14 6) (bits w 8 6) (flag w 7)) else none
  | 4 => if field w 5 2 = 0 ∧ field w 20 6 = 0 then some (.cpyst (bits w 14 6) (bits w 8 6) (flag w 7) (flag w 4) (flag w 3) (bits w 0 3)) else none
  | 5 => if field w 3 4 = 0 ∧ field w 20 6 = 0 then some (.sacc (bits w 14 6) (bits w 8 6) (flag w 7) (flag w 2) (bits w 0 2)) else none
  | 6 => if field w 0 7 = 0 ∧ field w 8 6 = 0 then some (.rcnt (bits w 20 6) (bits w 14 6) (flag w 7)) else none
  | 7 => if field w 0 7 = 0 ∧ field w 8 6 = 0 then some (.rsnap (bits w 20 6) (bits w 14 6) (flag w 7)) else none
  | 8 => if field w 2 5 = 0 then some (.send (bits w 20 6) (bits w 14 6) (bits w 8 6) (flag w 7) (bits w 0 2)) else none
  | 9 => if field w 0 14 = 0 then some (.ttset (bits w 20 6) (bits w 14 6)) else none
  | 10 => if field w 0 14 = 0 then some (.tready (bits w 20 6) (bits w 14 6)) else none
  | 11 => if field w 0 8 = 0 then some (.trkarm (bits w 20 6) (bits w 14 6) (bits w 8 6)) else none
  | 12 => if field w 2 18 = 0 then some (.lease (bits w 20 6) (bits w 0 2)) else none
  | 13 => if field w 2 12 = 0 ∧ field w 20 6 = 0 then some (.unlease (bits w 14 6) (bits w 0 2)) else none
  | 14 => if field w 2 5 = 0 ∧ field w 20 6 = 0 then some (.zip (bits w 14 6) (bits w 8 6) (flag w 7) (bits w 0 2)) else none
  | 15 => if field w 2 5 = 0 ∧ field w 20 6 = 0 then some (.unzip (bits w 14 6) (bits w 8 6) (flag w 7) (bits w 0 2)) else none
  | 16 => if field w 3 4 = 0 ∧ field w 20 6 = 0 then some (.repl (bits w 14 6) (bits w 8 6) (flag w 7) (flag w 2) (bits w 0 2)) else none
  | 17 => if field w 4 4 = 0 ∧ field w 20 6 = 0 then some (.qdecl (bits w 14 6) (bits w 8 6) (bits w 0 4)) else none
  | 18 => if field w 4 10 = 0 ∧ field w 20 6 = 0 then some (.qarrive (bits w 14 6) (bits w 0 4)) else none
  | 19 => if field w 4 10 = 0 then some (.qread (bits w 20 6) (bits w 14 6) (bits w 0 4)) else none
  | 20 => if field w 4 10 = 0 then some (.qreplay (bits w 20 6) (bits w 14 6) (bits w 0 4)) else none
  | 21 => if field w 2 6 = 0 ∧ field w 20 6 = 0 then some (.tsave (bits w 14 6) (bits w 8 6) (bits w 0 2)) else none
  | 22 => if field w 2 6 = 0 ∧ field w 20 6 = 0 then some (.tload (bits w 14 6) (bits w 8 6) (bits w 0 2)) else none
  | 23 => if field w 8 18 = 0 then some (.ecancel (bits w 0 8)) else none
  | _ => none

/-- The rows of R55: the instruction whose fixed bits the syllable w has. -/
def parseScale (w : Nat) : Option Instr :=
  match field w 26 6 with
  | 1 => some (.sld (bits w 20 6) (bits w 14 6) (bits w 0 14))
  | 2 => if field w 24 2 = 0 then some (.vwin (flag w 23) (bits w 20 3) (bits w 14 6) (bits w 0 14)) else none
  | 3 => if field w 9 11 = 0 ∧ field w 24 2 = 0 then some (.vshape (flag w 23) (bits w 20 3) (bits w 5 4) (bits w 0 5)) else none
  | 4 => if field w 3 17 = 0 ∧ field w 24 2 = 0 then some (.vmode (flag w 23) (bits w 20 3) (bits w 0 3)) else none
  | 5 => if field w 0 21 = 0 then some (.stpop (bits w 21 5)) else none
  | 6 => if field w 10 16 = 0 then some (.tkset (bits w 8 2) (bits w 0 8)) else none
  | _ => none

/-- Why a syllable is rejected. Every reason raises ILLEGAL_ENCODING (R35). -/
inductive SyllableError where
  | zero          -- an all-zero syllable
  | unknown       -- an opcode or fixed field that the slot's map does not define
  | illegalField  -- an operand value that the map marks illegal
  deriving DecidableEq, Repr

/-- The map of a slot: SA and SB share one (R48, R49), VB and V0 to V7 share one (R51). -/
def parseSlot (slot : Nat) (w : Nat) : Option Instr :=
  match slot with
  | 0 | 1 => parseScalar w
  | 2 => parseLoadStore w
  | 12 => parseMatrix w
  | 13 => parseEddy w
  | 14 => parseEngine w
  | 15 => parseScale w
  | _ => if 3 ≤ slot ∧ slot ≤ 11 then parseVector w else none

/-- The instruction that a syllable word stands for in a slot. -/
def decodeSyllable (slot : Nat) (w : Word32) : Except SyllableError Instr :=
  if w = 0 then .error .zero
  else match parseSlot slot w.toNat with
    | none => .error .unknown
    | some i => if i.wellFormed then .ok i else .error .illegalField

/-- A header word's fields (R31). -/
structure Header where
  present : BitVec 16
  m67 : Bool
  m45 : Bool
  m23 : Bool
  m01 : Bool
  mss : Bool
  y : Bool
  k : Bool
  deriving DecidableEq, Repr

/-- Why a header is malformed (R32). -/
inductive HeaderError where
  | reserved      -- a reserved bit is set
  | vbWithLane    -- VB together with any of V0 to V7
  | mirrorAbsent  -- a mirror bit without its primary or its mirror slot
  | mirrorDiffers -- the two syllable words differ
  | notMirrorable -- a mirror bit over a syllable that R39 does not list
  deriving DecidableEq, Repr

/-- The header's fields, whatever its reserved bits hold. -/
def headerOf (w : Word32) : Header :=
  let n := w.toNat
  { present := bits n 16 16, m67 := flag n 12, m45 := flag n 11, m23 := flag n 10, m01 := flag n 9, mss := flag n 8,
    y := flag n 7, k := flag n 6 }

/-- Slot n is present. -/
def Header.has (h : Header) (n : Nat) : Bool := flag h.present.toNat n

/-- The present slots in ascending order (R30). -/
def Header.slots (h : Header) : List Nat := (List.range 16).filter h.has

/-- The mirror slots that the header marks: those of R39. -/
def Header.mirrors (h : Header) : List Nat :=
  (if h.mss then [1] else []) ++ (if h.m01 then [5] else []) ++ (if h.m23 then [7] else [])
    ++ (if h.m45 then [9] else []) ++ (if h.m67 then [11] else [])

/-- The length of a bundle in words (R30). -/
def Header.length (h : Header) : Nat := h.slots.length + 1

/-- A vector opcode that the spec lists (R51). -/
def vectorOpcode (op : Nat) : Bool :=
  (1 ≤ op && op ≤ 23) || (32 ≤ op && op ≤ 39) || (48 ≤ op && op ≤ 52) || (64 ≤ op && op ≤ 72) || (80 ≤ op && op ≤ 90)

/-- The opcodes that R39 makes mirrorable: SA opcodes 0x01 to 0x04 and 0x07 to 0x22; every listed vector opcode but VXFER. -/
def mirrorable (primary : Nat) (w : Word32) : Bool :=
  if primary = 0 then
    let op := field w.toNat 26 6
    (1 ≤ op && op ≤ 4) || (7 ≤ op && op ≤ 0x22)
  else field w.toNat 25 7 != 0x45 && vectorOpcode (field w.toNat 25 7)

/-- The syllable word of slot n, when its bundle holds it. -/
def slotWord (syllables : List (Nat × Word32)) (n : Nat) : Option Word32 := (syllables.find? (·.1 == n)).map (·.2)

/-- The first rule of R32 that a header breaks, with its bundle's syllables at hand. -/
def headerError (w : Word32) (syllables : List (Nat × Word32)) : Option HeaderError :=
  let h := headerOf w
  if field w.toNat 13 3 ≠ 0 ∨ field w.toNat 0 6 ≠ 0 then some .reserved
  else if h.has 3 && (List.range 8).any (fun k => h.has (4 + k)) then some .vbWithLane
  else if h.mirrors.any (fun m => !(h.has m && h.has (m - 1))) then some .mirrorAbsent
  else if h.mirrors.any (fun m => slotWord syllables m != slotWord syllables (m - 1)) then some .mirrorDiffers
  else if h.mirrors.any (fun m => !((slotWord syllables (m - 1)).map (mirrorable (m - 1))).getD false) then
    some .notMirrorable
  else none

/-- A bundle as its words: header, syllables with their slots in ascending order. -/
structure Bundle where
  head : Word32
  syllables : List (Nat × Word32)
  deriving DecidableEq, Repr

/-- A little-endian 32-bit word of four bytes (R5). -/
def word32Of (a b c d : Byte) : Word32 := BitVec.ofNat 32 (a.toNat + b.toNat * 2 ^ 8 + c.toNat * 2 ^ 16 + d.toNat * 2 ^ 24)

/-- The bytes of a word, little-endian (R5). -/
def bytesOf32 (w : Word32) : List Byte := (List.range 4).map fun i => bits w.toNat (8 * i) 8

/-- Why bytes hold no bundle. -/
inductive DecodeError where
  | short                      -- fewer bytes than the header's present mask calls for
  | header (e : HeaderError)   -- R32
  | syllable (slot : Nat) (e : SyllableError)
  deriving DecidableEq, Repr

/-- Bytes as words, the first at the lowest address. -/
def wordsOf : List Byte → List Word32
  | a :: b :: c :: d :: rest => word32Of a b c d :: wordsOf rest
  | _ => []

/-- The first rejected syllable of a bundle, mirror slots left out (R39). -/
def firstSyllableError (mirrors : List Nat) : List (Nat × Word32) → Option (Nat × SyllableError)
  | [] => none
  | (n, w) :: rest =>
    if mirrors.contains n then firstSyllableError mirrors rest
    else match decodeSyllable n w with
      | .error e => some (n, e)
      | .ok _ => firstSyllableError mirrors rest

/-- The bundle at the start of a list of bytes with the bytes after it, or why there is none. -/
def decodeBundle (bytes : List Byte) : Except DecodeError (Bundle × List Byte) :=
  match wordsOf (bytes.take 68) with
  | [] => .error .short
  | w :: rest =>
    let h := headerOf w
    let syllables := h.slots.zip rest
    if syllables.length < h.slots.length then .error .short
    else match headerError w syllables with
      | some e => .error (.header e)
      | none => match firstSyllableError h.mirrors syllables with
        | some (n, e) => .error (.syllable n e)
        | none => .ok (⟨w, syllables⟩, bytes.drop (4 * h.length))

/-- A word laid out as fixed bits and fields, each at its lowest bit. -/
def lay (fixed : Nat) : List (Nat × Nat) → Nat
  | [] => fixed
  | (lo, v) :: rest => lay fixed rest + v * 2 ^ lo

/-- The syllable of an instruction, written from the layouts of R41 to R47 and the opcodes of R48 to R55; for NOP
the header word (R33). A row without an encoding has the word 0. -/
def Instr.encode (i : Instr) : Word32 :=
  BitVec.ofNat 32 <| match i with
  | .nop y k => lay 0x00000000 [(7, y.toNat), (6, k.toNat)]
  | .add d a b => lay 0x04000000 [(20, d.toNat), (14, a.toNat), (8, b.toNat)]
  | .sub d a b => lay 0x08000000 [(20, d.toNat), (14, a.toNat), (8, b.toNat)]
  | .mul d a b => lay 0x0C000000 [(20, d.toNat), (14, a.toNat), (8, b.toNat)]
  | .mulh d a b u => lay 0x10000000 [(20, d.toNat), (14, a.toNat), (8, b.toNat), (0, u.toNat)]
  | .div d a b u => lay 0x14000000 [(20, d.toNat), (14, a.toNat), (8, b.toNat), (0, u.toNat)]
  | .rem d a b u => lay 0x18000000 [(20, d.toNat), (14, a.toNat), (8, b.toNat), (0, u.toNat)]
  | .and d a b => lay 0x1C000000 [(20, d.toNat), (14, a.toNat), (8, b.toNat)]
  | .or d a b => lay 0x20000000 [(20, d.toNat), (14, a.toNat), (8, b.toNat)]
  | .xor d a b => lay 0x24000000 [(20, d.toNat), (14, a.toNat), (8, b.toNat)]
  | .shl d a b => lay 0x28000000 [(20, d.toNat), (14, a.toNat), (8, b.toNat)]
  | .shr d a b => lay 0x2C000000 [(20, d.toNat), (14, a.toNat), (8, b.toNat)]
  | .sar d a b => lay 0x30000000 [(20, d.toNat), (14, a.toNat), (8, b.toNat)]
  | .slt d a b u => lay 0x34000000 [(20, d.toNat), (14, a.toNat), (8, b.toNat), (0, u.toNat)]
  | .seq d a b => lay 0x38000000 [(20, d.toNat), (14, a.toNat), (8, b.toNat)]
  | .min d a b u => lay 0x3C000000 [(20, d.toNat), (14, a.toNat), (8, b.toNat), (0, u.toNat)]
  | .max d a b u => lay 0x40000000 [(20, d.toNat), (14, a.toNat), (8, b.toNat), (0, u.toNat)]
  | .sel d a b => lay 0x44000000 [(20, d.toNat), (14, a.toNat), (8, b.toNat)]
  | .clz d a => lay 0x48000000 [(20, d.toNat), (14, a.toNat)]
  | .ctz d a => lay 0x48000001 [(20, d.toNat), (14, a.toNat)]
  | .popc d a => lay 0x48000002 [(20, d.toNat), (14, a.toNat)]
  | .brev d a => lay 0x48000003 [(20, d.toNat), (14, a.toNat)]
  | .peek d s => lay 0x480E0004 [(20, d.toNat), (14, s.toNat)]
  | .bfx d a p l => lay 0x4C000000 [(20, d.toNat), (14, a.toNat), (8, p.toNat), (0, l.toNat)]
  | .bfi d a p l => lay 0x50000000 [(20, d.toNat), (14, a.toNat), (8, p.toNat), (0, l.toNat)]
  | .agen d a b s => lay 0x54000000 [(20, d.toNat), (14, a.toNat), (8, b.toNat), (0, s.toNat)]
  | .addi d a i => lay 0x58000000 [(20, d.toNat), (14, a.toNat), (0, i.toNat)]
  | .andi d a i => lay 0x5C000000 [(20, d.toNat), (14, a.toNat), (0, i.toNat)]
  | .ori d a i => lay 0x60000000 [(20, d.toNat), (14, a.toNat), (0, i.toNat)]
  | .xori d a i => lay 0x64000000 [(20, d.toNat), (14, a.toNat), (0, i.toNat)]
  | .shli d a n => lay 0x68000000 [(20, d.toNat), (14, a.toNat), (0, n.toNat)]
  | .shri d a n => lay 0x68000040 [(20, d.toNat), (14, a.toNat), (0, n.toNat)]
  | .sari d a n => lay 0x68000080 [(20, d.toNat), (14, a.toNat), (0, n.toNat)]
  | .slti d a i => lay 0x6C000000 [(20, d.toNat), (14, a.toNat), (0, i.toNat)]
  | .movi d i => lay 0x70000000 [(20, d.toNat), (0, i.toNat)]
  | .movhi d i => lay 0x74000000 [(20, d.toNat), (0, i.toNat)]
  | .movhh d i => lay 0x78000000 [(20, d.toNat), (0, i.toNat)]
  | .fadd d a b p r => lay 0x7C000000 [(20, d.toNat), (14, a.toNat), (8, b.toNat), (6, p.toNat), (0, r.toNat)]
  | .fsub d a b p r => lay 0x7C000008 [(20, d.toNat), (14, a.toNat), (8, b.toNat), (6, p.toNat), (0, r.toNat)]
  | .fmul d a b p r => lay 0x7C000010 [(20, d.toNat), (14, a.toNat), (8, b.toNat), (6, p.toNat), (0, r.toNat)]
  | .fdiv d a b p r => lay 0x7C000018 [(20, d.toNat), (14, a.toNat), (8, b.toNat), (6, p.toNat), (0, r.toNat)]
  | .fmin d a b p r => lay 0x7C000020 [(20, d.toNat), (14, a.toNat), (8, b.toNat), (6, p.toNat), (0, r.toNat)]
  | .fmax d a b p r => lay 0x7C000028 [(20, d.toNat), (14, a.toNat), (8, b.toNat), (6, p.toNat), (0, r.toNat)]
  | .fsqrt d a p r => lay 0x7C000030 [(20, d.toNat), (14, a.toNat), (6, p.toNat), (0, r.toNat)]
  | .ffma d a b p r => lay 0x80000000 [(20, d.toNat), (14, a.toNat), (8, b.toNat), (6, p.toNat), (0, r.toNat)]
  | .fcvt d a s t r => lay 0x84000000 [(20, d.toNat), (14, a.toNat), (6, s.toNat), (4, t.toNat), (0, r.toNat)]
  | .fcmp d a b p c => lay 0x88000000 [(20, d.toNat), (14, a.toNat), (8, b.toNat), (6, p.toNat), (0, c.toNat)]
  | .br c a b d => lay 0xA0000000 [(23, c.toNat), (17, a.toNat), (11, b.toNat), (0, d.toNat)]
  | .bz a d => lay 0xA4000000 [(19, a.toNat), (0, d.toNat)]
  | .bnz a d => lay 0xA6000000 [(19, a.toNat), (0, d.toNat)]
  | .jmp d => lay 0xA8000000 [(0, d.toNat)]
  | .call d => lay 0xAC000000 [(0, d.toNat)]
  | .jr a g => lay 0xB0000000 [(14, a.toNat), (0, g.toNat)]
  | .jrl d a g => lay 0xB0000002 [(20, d.toNat), (14, a.toNat), (0, g.toNat)]
  | .loop n p => lay 0xB4000000 [(8, n.toNat), (0, p.toNat)]
  | .yield => 0xB8000000
  | .endk => 0xBC000000
  | .trap c => lay 0xC0000000 [(0, c.toNat)]
  | .cmpt a b c => lay 0xC4000000 [(14, a.toNat), (8, b.toNat), (0, c.toNat)]
  | .chkerr d t c => lay 0xC8000000 [(20, d.toNat), (1, t.toNat), (0, c.toNat)]
  | .spinw d a c => lay 0xCC000000 [(20, d.toNat), (14, a.toNat), (0, c.toNat)]
  | .mfc d i => lay 0xD0000000 [(20, d.toNat), (0, i.toNat)]
  | .mtc a i => lay 0xD4000000 [(14, a.toNat), (0, i.toNat)]
  | .eret => 0xD8000000
  | .launch d a => lay 0xDC000000 [(20, d.toNat), (14, a.toNat)]
  | .tkwait d t => lay 0xE0000000 [(20, d.toNat), (0, t.toNat)]
  | .tktest d t => lay 0xE4000000 [(20, d.toNat), (0, t.toNat)]
  | .phaseBegin a b => lay 0xE8000000 [(14, a.toNat), (8, b.toNat)]
  | .phaseCommit => 0xE8000001
  | .qwait d q => lay 0xEC000000 [(20, d.toNat), (0, q.toNat)]
  | .ldb x a d => lay 0x04000000 [(20, x.toNat), (14, a.toNat), (0, d.toNat)]
  | .ldbu x a d => lay 0x04000800 [(20, x.toNat), (14, a.toNat), (0, d.toNat)]
  | .ldh x a d => lay 0x04001000 [(20, x.toNat), (14, a.toNat), (0, d.toNat)]
  | .ldhu x a d => lay 0x04001800 [(20, x.toNat), (14, a.toNat), (0, d.toNat)]
  | .ldw x a d => lay 0x04002000 [(20, x.toNat), (14, a.toNat), (0, d.toNat)]
  | .ldwu x a d => lay 0x04002800 [(20, x.toNat), (14, a.toNat), (0, d.toNat)]
  | .ldd x a d => lay 0x04003000 [(20, x.toNat), (14, a.toNat), (0, d.toNat)]
  | .stb x a g d => lay 0x08000000 [(20, x.toNat), (14, a.toNat), (10, g.toNat), (0, d.toNat)]
  | .sth x a g d => lay 0x08000800 [(20, x.toNat), (14, a.toNat), (10, g.toNat), (0, d.toNat)]
  | .stw x a g d => lay 0x08001000 [(20, x.toNat), (14, a.toNat), (10, g.toNat), (0, d.toNat)]
  | .std x a g d => lay 0x08001800 [(20, x.toNat), (14, a.toNat), (10, g.toNat), (0, d.toNat)]
  | .vld w a m o => lay 0x0C000000 [(19, w.toNat), (13, a.toNat), (5, m.toNat), (0, o.toNat)]
  | .vst w a m o => lay 0x10000000 [(19, w.toNat), (13, a.toNat), (5, m.toNat), (0, o.toNat)]
  | .vlds w a m o => lay 0x14000000 [(19, w.toNat), (13, a.toNat), (5, m.toNat), (0, o.toNat)]
  | .vsts w a m o => lay 0x18000000 [(19, w.toNat), (13, a.toNat), (5, m.toNat), (0, o.toNat)]
  | .vgather w i a k s => lay 0x1C000000 [(19, w.toNat), (12, i.toNat), (6, a.toNat), (3, k.toNat), (0, s.toNat)]
  | .vgatherAll w i a s => lay 0x1C000004 [(19, w.toNat), (12, i.toNat), (6, a.toNat), (0, s.toNat)]
  | .vscatter w i a k s => lay 0x20000000 [(19, w.toNat), (12, i.toNat), (6, a.toNat), (3, k.toNat), (0, s.toNat)]
  | .vscatterAll w i a s => lay 0x20000004 [(19, w.toNat), (12, i.toNat), (6, a.toNat), (0, s.toNat)]
  | .vpop w s m => lay 0x24000000 [(19, w.toNat), (17, s.toNat), (9, m.toNat)]
  | .drain => 0x28000000
  | .fence s => lay 0x2C000000 [(0, s.toNat)]
  | .vadd f m d a b => lay 0x02000000 [(22, f.toNat), (21, m.toNat), (14, d.toNat), (7, a.toNat), (0, b.toNat)]
  | .vsub f m d a b => lay 0x04000000 [(22, f.toNat), (21, m.toNat), (14, d.toNat), (7, a.toNat), (0, b.toNat)]
  | .vmul f m d a b => lay 0x06000000 [(22, f.toNat), (21, m.toNat), (14, d.toNat), (7, a.toNat), (0, b.toNat)]
  | .vfma f m d a b => lay 0x08000000 [(22, f.toNat), (21, m.toNat), (14, d.toNat), (7, a.toNat), (0, b.toNat)]
  | .vfms f m d a b => lay 0x0A000000 [(22, f.toNat), (21, m.toNat), (14, d.toNat), (7, a.toNat), (0, b.toNat)]
  | .vmin f m d a b => lay 0x0C000000 [(22, f.toNat), (21, m.toNat), (14, d.toNat), (7, a.toNat), (0, b.toNat)]
  | .vmax f m d a b => lay 0x0E000000 [(22, f.toNat), (21, m.toNat), (14, d.toNat), (7, a.toNat), (0, b.toNat)]
  | .vabs f m d a => lay 0x10000000 [(22, f.toNat), (21, m.toNat), (14, d.toNat), (7, a.toNat)]
  | .vneg f m d a => lay 0x12000000 [(22, f.toNat), (21, m.toNat), (14, d.toNat), (7, a.toNat)]
  | .vdiv f m d a b => lay 0x14000000 [(22, f.toNat), (21, m.toNat), (14, d.toNat), (7, a.toNat), (0, b.toNat)]
  | .vsqrt f m d a => lay 0x16000000 [(22, f.toNat), (21, m.toNat), (14, d.toNat), (7, a.toNat)]
  | .vand f m d a b => lay 0x18000000 [(22, f.toNat), (21, m.toNat), (14, d.toNat), (7, a.toNat), (0, b.toNat)]
  | .vor f m d a b => lay 0x1A000000 [(22, f.toNat), (21, m.toNat), (14, d.toNat), (7, a.toNat), (0, b.toNat)]
  | .vxor f m d a b => lay 0x1C000000 [(22, f.toNat), (21, m.toNat), (14, d.toNat), (7, a.toNat), (0, b.toNat)]
  | .vnot f m d a => lay 0x1E000000 [(22, f.toNat), (21, m.toNat), (14, d.toNat), (7, a.toNat)]
  | .vshl f m d a b => lay 0x20000000 [(22, f.toNat), (21, m.toNat), (14, d.toNat), (7, a.toNat), (0, b.toNat)]
  | .vshr f m d a b => lay 0x22000000 [(22, f.toNat), (21, m.toNat), (14, d.toNat), (7, a.toNat), (0, b.toNat)]
  | .vsar f m d a b => lay 0x24000000 [(22, f.toNat), (21, m.toNat), (14, d.toNat), (7, a.toNat), (0, b.toNat)]
  | .vmov f m d a => lay 0x26000000 [(22, f.toNat), (21, m.toNat), (14, d.toNat), (7, a.toNat)]
  | .vmovi f m d i => lay 0x28000000 [(22, f.toNat), (21, m.toNat), (14, d.toNat), (0, i.toNat)]
  | .vfloor f m d a => lay 0x2A000000 [(22, f.toNat), (21, m.toNat), (14, d.toNat), (7, a.toNat)]
  | .vclass f m d a => lay 0x2C000000 [(22, f.toNat), (21, m.toNat), (14, d.toNat), (7, a.toNat)]
  | .vadds f m d a b => lay 0x2E000000 [(22, f.toNat), (21, m.toNat), (14, d.toNat), (7, a.toNat), (0, b.toNat)]
  | .vceq f m p a b => lay 0x40000000 [(22, f.toNat), (21, m.toNat), (14, p.toNat), (7, a.toNat), (0, b.toNat)]
  | .vclt f m p a b => lay 0x42000000 [(22, f.toNat), (21, m.toNat), (14, p.toNat), (7, a.toNat), (0, b.toNat)]
  | .vcle f m p a b => lay 0x44000000 [(22, f.toNat), (21, m.toNat), (14, p.toNat), (7, a.toNat), (0, b.toNat)]
  | .vsel f d a b => lay 0x46000000 [(22, f.toNat), (14, d.toNat), (7, a.toNat), (0, b.toNat)]
  | .pand d a b => lay 0x48000000 [(14, d.toNat), (7, a.toNat), (0, b.toNat)]
  | .por d a b => lay 0x4A000000 [(14, d.toNat), (7, a.toNat), (0, b.toNat)]
  | .pnot d a => lay 0x4C000000 [(14, d.toNat), (7, a.toNat)]
  | .pmov d a => lay 0x4E000000 [(14, d.toNat), (7, a.toNat)]
  | .vcvt f d a n => lay 0x60000000 [(22, f.toNat), (14, d.toNat), (7, a.toNat), (0, n.toNat)]
  | .vquant f d a n => lay 0x62000000 [(22, f.toNat), (14, d.toNat), (7, a.toNat), (0, n.toNat)]
  | .vdeq f d a n => lay 0x64000000 [(22, f.toNat), (14, d.toNat), (7, a.toNat), (0, n.toNat)]
  | .vpack f d a n => lay 0x66000000 [(22, f.toNat), (14, d.toNat), (7, a.toNat), (0, n.toNat)]
  | .vunpk f d a n => lay 0x68000000 [(22, f.toNat), (14, d.toNat), (7, a.toNat), (0, n.toNat)]
  | .vrsum f m d a => lay 0x80000000 [(22, f.toNat), (21, m.toNat), (14, d.toNat), (7, a.toNat)]
  | .vrmax f m d a => lay 0x82000000 [(22, f.toNat), (21, m.toNat), (14, d.toNat), (7, a.toNat)]
  | .vrmin f m d a => lay 0x84000000 [(22, f.toNat), (21, m.toNat), (14, d.toNat), (7, a.toNat)]
  | .vscan f m d a => lay 0x86000000 [(22, f.toNat), (21, m.toNat), (14, d.toNat), (7, a.toNat)]
  | .vperm f m d a b => lay 0x88000000 [(22, f.toNat), (21, m.toNat), (14, d.toNat), (7, a.toNat), (0, b.toNat)]
  | .vxfer d a k => lay 0x8A000000 [(14, d.toNat), (7, a.toNat), (0, k.toNat)]
  | .vbcast f m d a k => lay 0x8C000000 [(22, f.toNat), (21, m.toNat), (14, d.toNat), (7, a.toNat), (0, k.toNat)]
  | .vextr f d a k => lay 0x8E000000 [(22, f.toNat), (14, d.toNat), (7, a.toNat), (0, k.toNat)]
  | .viota f m d => lay 0x90000000 [(22, f.toNat), (21, m.toNat), (14, d.toNat)]
  | .vrcp f m d a => lay 0xA0000000 [(22, f.toNat), (21, m.toNat), (14, d.toNat), (7, a.toNat)]
  | .vrsqrt f m d a => lay 0xA2000000 [(22, f.toNat), (21, m.toNat), (14, d.toNat), (7, a.toNat)]
  | .vexp2 f m d a => lay 0xA4000000 [(22, f.toNat), (21, m.toNat), (14, d.toNat), (7, a.toNat)]
  | .vlog2 f m d a => lay 0xA6000000 [(22, f.toNat), (21, m.toNat), (14, d.toNat), (7, a.toNat)]
  | .vexp f m d a => lay 0xA8000000 [(22, f.toNat), (21, m.toNat), (14, d.toNat), (7, a.toNat)]
  | .vlog f m d a => lay 0xAA000000 [(22, f.toNat), (21, m.toNat), (14, d.toNat), (7, a.toNat)]
  | .vsin f m d a => lay 0xAC000000 [(22, f.toNat), (21, m.toNat), (14, d.toNat), (7, a.toNat)]
  | .vcos f m d a => lay 0xAE000000 [(22, f.toNat), (21, m.toNat), (14, d.toNat), (7, a.toNat)]
  | .vtanh f m d a => lay 0xB0000000 [(22, f.toNat), (21, m.toNat), (14, d.toNat), (7, a.toNat)]
  | .verf f m d a => lay 0xB2000000 [(22, f.toNat), (21, m.toNat), (14, d.toNat), (7, a.toNat)]
  | .vsigm f m d a => lay 0xB4000000 [(22, f.toNat), (21, m.toNat), (14, d.toNat), (7, a.toNat)]
  | .mma f g a b t r s => lay 0x08000000 [(23, f.toNat), (19, g.toNat), (13, a.toNat), (7, b.toNat), (2, t.toNat), (1, r.toNat), (0, s.toNat)]
  | .mmaz f g a b t r s => lay 0x10000000 [(23, f.toNat), (19, g.toNat), (13, a.toNat), (7, b.toNat), (2, t.toNat), (1, r.toNat), (0, s.toNat)]
  | .mmas f g a b t r s => lay 0x18000000 [(23, f.toNat), (19, g.toNat), (13, a.toNat), (7, b.toNat), (2, t.toNat), (1, r.toNat), (0, s.toNat)]
  | .mmasz f g a b t r s => lay 0x20000000 [(23, f.toNat), (19, g.toNat), (13, a.toNat), (7, b.toNat), (2, t.toNat), (1, r.toNat), (0, s.toNat)]
  | .oclaim a => lay 0x28000000 [(13, a.toNat)]
  | .orelease a => lay 0x30000000 [(13, a.toNat)]
  | .old f a x t => lay 0x38000000 [(23, f.toNat), (13, a.toNat), (7, x.toNat), (0, t.toNat)]
  | .aclr t => lay 0x40000000 [(2, t.toNat)]
  | .amov f x t => lay 0x48000000 [(23, f.toNat), (7, x.toNat), (2, t.toNat)]
  | .aadd s t => lay 0x50000000 [(13, s.toNat), (2, t.toNat)]
  | .mgeo x => lay 0x58000000 [(7, x.toNat)]
  | .cyqr t a b f => lay 0x08000000 [(25, t.toNat), (17, a.toNat), (11, b.toNat), (0, f.toNat)]
  | .cyapply t u a b k => lay 0x10000000 [(25, t.toNat), (23, u.toNat), (17, a.toNat), (11, b.toNat), (0, k.toNat)]
  | .cygiv a b d => lay 0x18000000 [(17, a.toNat), (11, b.toNat), (5, d.toNat)]
  | .cyrot a b d => lay 0x20000000 [(17, a.toNat), (11, b.toNat), (5, d.toNat)]
  | .cyrd t a c f => lay 0x28000000 [(25, t.toNat), (17, a.toNat), (2, c.toNat), (0, f.toNat)]
  | .cywr t a f => lay 0x30000000 [(25, t.toNat), (17, a.toNat), (0, f.toNat)]
  | .cyclr t => lay 0x38000000 [(25, t.toNat)]
  | .cymode g p => lay 0x40000000 [(1, g.toNat), (0, p.toNat)]
  | .cysolve t a b => lay 0x48000000 [(25, t.toNat), (17, a.toNat), (11, b.toNat)]
  | .cyang a d c => lay 0x50000000 [(17, a.toNat), (5, d.toNat), (0, c.toNat)]
  | .eset a b d f => lay 0x04000000 [(20, a.toNat), (14, b.toNat), (8, d.toNat), (0, f.toNat)]
  | .eget x d f => lay 0x08000000 [(20, x.toNat), (8, d.toNat), (0, f.toNat)]
  | .cpy b d c => lay 0x0C000000 [(14, b.toNat), (8, d.toNat), (7, c.toNat)]
  | .cpyst b d c t v k => lay 0x10000000 [(14, b.toNat), (8, d.toNat), (7, c.toNat), (4, t.toNat), (3, v.toNat), (0, k.toNat)]
  | .sacc b d c m p => lay 0x14000000 [(14, b.toNat), (8, d.toNat), (7, c.toNat), (2, m.toNat), (0, p.toNat)]
  | .rcnt a b c => lay 0x18000000 [(20, a.toNat), (14, b.toNat), (7, c.toNat)]
  | .rsnap a b c => lay 0x1C000000 [(20, a.toNat), (14, b.toNat), (7, c.toNat)]
  | .send a b d c k => lay 0x20000000 [(20, a.toNat), (14, b.toNat), (8, d.toNat), (7, c.toNat), (0, k.toNat)]
  | .ttset a b => lay 0x24000000 [(20, a.toNat), (14, b.toNat)]
  | .tready a b => lay 0x28000000 [(20, a.toNat), (14, b.toNat)]
  | .trkarm a b d => lay 0x2C000000 [(20, a.toNat), (14, b.toNat), (8, d.toNat)]
  | .lease a l => lay 0x30000000 [(20, a.toNat), (0, l.toNat)]
  | .unlease b l => lay 0x34000000 [(14, b.toNat), (0, l.toNat)]
  | .zip b d c l => lay 0x38000000 [(14, b.toNat), (8, d.toNat), (7, c.toNat), (0, l.toNat)]
  | .unzip b d c l => lay 0x3C000000 [(14, b.toNat), (8, d.toNat), (7, c.toNat), (0, l.toNat)]
  | .repl b d c w l => lay 0x40000000 [(14, b.toNat), (8, d.toNat), (7, c.toNat), (2, w.toNat), (0, l.toNat)]
  | .qdecl b d q => lay 0x44000000 [(14, b.toNat), (8, d.toNat), (0, q.toNat)]
  | .qarrive b q => lay 0x48000000 [(14, b.toNat), (0, q.toNat)]
  | .qread a b q => lay 0x4C000000 [(20, a.toNat), (14, b.toNat), (0, q.toNat)]
  | .qreplay a b q => lay 0x50000000 [(20, a.toNat), (14, b.toNat), (0, q.toNat)]
  | .tsave b d l => lay 0x54000000 [(14, b.toNat), (8, d.toNat), (0, l.toNat)]
  | .tload b d l => lay 0x58000000 [(14, b.toNat), (8, d.toNat), (0, l.toNat)]
  | .ecancel t => lay 0x5C000000 [(0, t.toNat)]
  | .sld s a i => lay 0x04000000 [(20, s.toNat), (14, a.toNat), (0, i.toNat)]
  | .vwin l k a i => lay 0x08000000 [(23, l.toNat), (20, k.toNat), (14, a.toNat), (0, i.toNat)]
  | .vshape l k r c => lay 0x0C000000 [(23, l.toNat), (20, k.toNat), (5, r.toNat), (0, c.toNat)]
  | .vmode l k p => lay 0x10000000 [(23, l.toNat), (20, k.toNat), (0, p.toNat)]
  | .stpop x => lay 0x14000000 [(21, x.toNat)]
  | .tkset s t => lay 0x18000000 [(8, s.toNat), (0, t.toNat)]
  | _ => 0

/-- The lowest slot that an instruction's syllable may stand in; none for a row that is no syllable. Control syllables,
DIV and REM stand in SB only (R48, R49). -/
def Instr.slot? : Instr → Option Nat
  | .add _ _ _ | .sub _ _ _ | .mul _ _ _ | .mulh _ _ _ _ | .and _ _ _ | .or _ _ _ | .xor _ _ _ | .shl _ _ _
  | .shr _ _ _ | .sar _ _ _ | .slt _ _ _ _ | .seq _ _ _ | .min _ _ _ _ | .max _ _ _ _ | .sel _ _ _ | .clz _ _
  | .ctz _ _ | .popc _ _ | .brev _ _ | .peek _ _ | .bfx _ _ _ _ | .bfi _ _ _ _ | .agen _ _ _ _ | .addi _ _ _
  | .andi _ _ _ | .ori _ _ _ | .xori _ _ _ | .shli _ _ _ | .shri _ _ _ | .sari _ _ _ | .slti _ _ _ | .movi _ _
  | .movhi _ _ | .movhh _ _ | .fadd _ _ _ _ _ | .fsub _ _ _ _ _ | .fmul _ _ _ _ _ | .fdiv _ _ _ _ _
  | .fmin _ _ _ _ _ | .fmax _ _ _ _ _ | .fsqrt _ _ _ _ | .ffma _ _ _ _ _ | .fcvt _ _ _ _ _ | .fcmp _ _ _ _ _ => some 0
  | .div _ _ _ _ | .rem _ _ _ _ | .br _ _ _ _ | .bz _ _ | .bnz _ _ | .jmp _ | .call _ | .jr _ _ | .jrl _ _ _
  | .loop _ _ | .yield | .endk | .trap _ | .cmpt _ _ _ | .chkerr _ _ _ | .spinw _ _ _ | .mfc _ _ | .mtc _ _ | .eret
  | .launch _ _ | .tkwait _ _ | .tktest _ _ | .phaseBegin _ _ | .phaseCommit | .qwait _ _ => some 1
  | .ldb _ _ _ | .ldbu _ _ _ | .ldh _ _ _ | .ldhu _ _ _ | .ldw _ _ _ | .ldwu _ _ _ | .ldd _ _ _ | .stb _ _ _ _
  | .sth _ _ _ _ | .stw _ _ _ _ | .std _ _ _ _ | .vld _ _ _ _ | .vst _ _ _ _ | .vlds _ _ _ _ | .vsts _ _ _ _
  | .vgather _ _ _ _ _ | .vgatherAll _ _ _ _ | .vscatter _ _ _ _ _ | .vscatterAll _ _ _ _ | .vpop _ _ _ | .drain
  | .fence _ => some 2
  | .vadd _ _ _ _ _ | .vsub _ _ _ _ _ | .vmul _ _ _ _ _ | .vfma _ _ _ _ _ | .vfms _ _ _ _ _ | .vmin _ _ _ _ _
  | .vmax _ _ _ _ _ | .vabs _ _ _ _ | .vneg _ _ _ _ | .vdiv _ _ _ _ _ | .vsqrt _ _ _ _ | .vand _ _ _ _ _
  | .vor _ _ _ _ _ | .vxor _ _ _ _ _ | .vnot _ _ _ _ | .vshl _ _ _ _ _ | .vshr _ _ _ _ _ | .vsar _ _ _ _ _
  | .vmov _ _ _ _ | .vmovi _ _ _ _ | .vfloor _ _ _ _ | .vclass _ _ _ _ | .vadds _ _ _ _ _ | .vceq _ _ _ _ _
  | .vclt _ _ _ _ _ | .vcle _ _ _ _ _ | .vsel _ _ _ _ | .pand _ _ _ | .por _ _ _ | .pnot _ _ | .pmov _ _
  | .vcvt _ _ _ _ | .vquant _ _ _ _ | .vdeq _ _ _ _ | .vpack _ _ _ _ | .vunpk _ _ _ _ | .vrsum _ _ _ _
  | .vrmax _ _ _ _ | .vrmin _ _ _ _ | .vscan _ _ _ _ | .vperm _ _ _ _ _ | .vxfer _ _ _ | .vbcast _ _ _ _ _
  | .vextr _ _ _ _ | .viota _ _ _ | .vrcp _ _ _ _ | .vrsqrt _ _ _ _ | .vexp2 _ _ _ _ | .vlog2 _ _ _ _
  | .vexp _ _ _ _ | .vlog _ _ _ _ | .vsin _ _ _ _ | .vcos _ _ _ _ | .vtanh _ _ _ _ | .verf _ _ _ _ | .vsigm _ _ _ _ => some 3
  | .mma _ _ _ _ _ _ _ | .mmaz _ _ _ _ _ _ _ | .mmas _ _ _ _ _ _ _ | .mmasz _ _ _ _ _ _ _ | .oclaim _ | .orelease _
  | .old _ _ _ _ | .aclr _ | .amov _ _ _ | .aadd _ _ | .mgeo _ => some 12
  | .cyqr _ _ _ _ | .cyapply _ _ _ _ _ | .cygiv _ _ _ | .cyrot _ _ _ | .cyrd _ _ _ _ | .cywr _ _ _ | .cyclr _
  | .cymode _ _ | .cysolve _ _ _ | .cyang _ _ _ => some 13
  | .eset _ _ _ _ | .eget _ _ _ | .cpy _ _ _ | .cpyst _ _ _ _ _ _ | .sacc _ _ _ _ _ | .rcnt _ _ _ | .rsnap _ _ _
  | .send _ _ _ _ _ | .ttset _ _ | .tready _ _ | .trkarm _ _ _ | .lease _ _ | .unlease _ _ | .zip _ _ _ _
  | .unzip _ _ _ _ | .repl _ _ _ _ _ | .qdecl _ _ _ | .qarrive _ _ | .qread _ _ _ | .qreplay _ _ _ | .tsave _ _ _
  | .tload _ _ _ | .ecancel _ => some 14
  | .sld _ _ _ | .vwin _ _ _ _ | .vshape _ _ _ _ | .vmode _ _ _ | .stpop _ | .tkset _ _ => some 15
  | _ => none

/-- The instruction is valid in SB and not in SA (R48, R49). -/
def Instr.sbOnly (i : Instr) : Bool := i.slot? == some 1

/-- How many operand bits the row of an instruction has: 32 less the bits that the table fixes. -/
def Instr.operandBits : Instr → Nat
  | .yield | .endk | .eret | .phaseCommit | .drain => 0
  | .cyclr _ | .cymode _ _ => 2
  | .fence _ => 3
  | .aclr _ | .stpop _ => 5
  | .pnot _ _ | .pmov _ _ | .oclaim _ | .orelease _ | .mgeo _ => 6
  | .jr _ _ | .vmode _ _ _ => 7
  | .chkerr _ _ _ | .lease _ _ | .unlease _ _ | .ecancel _ => 8
  | .peek _ _ | .loop _ _ | .pand _ _ _ | .por _ _ _ => 9
  | .qwait _ _ | .aadd _ _ | .cywr _ _ _ | .qarrive _ _ | .tkset _ _ => 10
  | .viota _ _ _ | .cyrd _ _ _ _ => 11
  | .clz _ _ | .ctz _ _ | .popc _ _ | .brev _ _ | .launch _ _ | .phaseBegin _ _ | .ttset _ _ | .tready _ _ => 12
  | .jrl _ _ _ | .cyang _ _ _ | .cpy _ _ _ | .rcnt _ _ _ | .rsnap _ _ _ | .vshape _ _ _ _ => 13
  | .tkwait _ _ | .tktest _ _ | .cysolve _ _ _ | .tsave _ _ _ | .tload _ _ _ => 14
  | .cmpt _ _ _ | .spinw _ _ _ | .amov _ _ _ | .cyqr _ _ _ _ | .zip _ _ _ _ | .unzip _ _ _ _ => 15
  | .sacc _ _ _ _ _ | .repl _ _ _ _ _ | .qdecl _ _ _ | .qread _ _ _ | .qreplay _ _ _ => 16
  | .fsqrt _ _ _ _ | .vpop _ _ _ | .vxfer _ _ _ | .old _ _ _ _ | .cyapply _ _ _ _ _ | .eget _ _ _ => 17
  | .add _ _ _ | .sub _ _ _ | .mul _ _ _ | .and _ _ _ | .or _ _ _ | .xor _ _ _ | .shl _ _ _ | .shr _ _ _
  | .sar _ _ _ | .seq _ _ _ | .sel _ _ _ | .shli _ _ _ | .shri _ _ _ | .sari _ _ _ | .mfc _ _ | .mtc _ _
  | .vabs _ _ _ _ | .vneg _ _ _ _ | .vsqrt _ _ _ _ | .vnot _ _ _ _ | .vmov _ _ _ _ | .vfloor _ _ _ _
  | .vclass _ _ _ _ | .vrsum _ _ _ _ | .vrmax _ _ _ _ | .vrmin _ _ _ _ | .vscan _ _ _ _ | .vrcp _ _ _ _
  | .vrsqrt _ _ _ _ | .vexp2 _ _ _ _ | .vlog2 _ _ _ _ | .vexp _ _ _ _ | .vlog _ _ _ _ | .vsin _ _ _ _
  | .vcos _ _ _ _ | .vtanh _ _ _ _ | .verf _ _ _ _ | .vsigm _ _ _ _ | .cygiv _ _ _ | .cyrot _ _ _
  | .cpyst _ _ _ _ _ _ | .trkarm _ _ _ => 18
  | .mulh _ _ _ _ | .div _ _ _ _ | .rem _ _ _ _ | .slt _ _ _ _ | .min _ _ _ _ | .max _ _ _ _ | .fcvt _ _ _ _ _ => 19
  | .trap _ => 20
  | .agen _ _ _ _ | .vceq _ _ _ _ _ | .vclt _ _ _ _ _ | .vcle _ _ _ _ _ | .vcvt _ _ _ _ | .vquant _ _ _ _
  | .vdeq _ _ _ _ | .vpack _ _ _ _ | .vunpk _ _ _ _ | .send _ _ _ _ _ => 21
  | .ldb _ _ _ | .ldbu _ _ _ | .ldh _ _ _ | .ldhu _ _ _ | .ldw _ _ _ | .ldwu _ _ _ | .ldd _ _ _
  | .vgatherAll _ _ _ _ | .vscatterAll _ _ _ _ => 22
  | .fadd _ _ _ _ _ | .fsub _ _ _ _ _ | .fmul _ _ _ _ _ | .fdiv _ _ _ _ _ | .fmin _ _ _ _ _ | .fmax _ _ _ _ _
  | .ffma _ _ _ _ _ | .fcmp _ _ _ _ _ | .stb _ _ _ _ | .sth _ _ _ _ | .stw _ _ _ _ | .std _ _ _ _ | .vextr _ _ _ _
  | .eset _ _ _ _ => 23
  | .bfx _ _ _ _ | .bfi _ _ _ _ | .vsel _ _ _ _ | .vbcast _ _ _ _ _ | .vwin _ _ _ _ => 24
  | .bz _ _ | .bnz _ _ | .vgather _ _ _ _ _ | .vscatter _ _ _ _ _ | .vadd _ _ _ _ _ | .vsub _ _ _ _ _
  | .vmul _ _ _ _ _ | .vfma _ _ _ _ _ | .vfms _ _ _ _ _ | .vmin _ _ _ _ _ | .vmax _ _ _ _ _ | .vdiv _ _ _ _ _
  | .vand _ _ _ _ _ | .vor _ _ _ _ _ | .vxor _ _ _ _ _ | .vshl _ _ _ _ _ | .vshr _ _ _ _ _ | .vsar _ _ _ _ _
  | .vmovi _ _ _ _ | .vadds _ _ _ _ _ | .vperm _ _ _ _ _ => 25
  | .addi _ _ _ | .andi _ _ _ | .ori _ _ _ | .xori _ _ _ | .slti _ _ _ | .movi _ _ | .movhi _ _ | .movhh _ _
  | .br _ _ _ _ | .jmp _ | .call _ | .vld _ _ _ _ | .vst _ _ _ _ | .vlds _ _ _ _ | .vsts _ _ _ _ | .sld _ _ _ => 26
  | .mma _ _ _ _ _ _ _ | .mmaz _ _ _ _ _ _ _ | .mmas _ _ _ _ _ _ _ | .mmasz _ _ _ _ _ _ _ => 27
  | _ => 32

/-- Slots that stand for the seven maps, in the order in which decodeTableWord tries them. -/
def tableSlots : List Nat := [0, 2, 3, 12, 13, 14, 15]

/-- The candidates for a word with no slot named, each with how many operand bits its row has. -/
def tableCandidates (w : Nat) : List (Nat × Instr) :=
  tableSlots.filterMap fun s => match decodeSyllable s (BitVec.ofNat 32 w) with
    | .ok i => some (i.operandBits, i)
    | .error _ => none

/-- The candidate with the fewest operand bits; the earlier one on a tie. -/
def leastCandidate : List (Nat × Instr) → Option (Nat × Instr)
  | [] => none
  | c :: rest => match leastCandidate rest with
    | none => some c
    | some r => if r.1 < c.1 then some r else some c

/-- The instruction that a table word stands for. A word that no header bit but Y or K is set in is the empty bundle
(R33). For any other word the opcode maps of the slots overlap and the table names no slot: the row that fixes the
most bits of the word is taken, and on a tie the first in slot order. DESIGN CHOICE, safe: log 4. -/
def decodeTableWord (nbits w : Nat) : Option Instr :=
  if nbits ≠ 32 then none
  else if w = 0 ∨ w = 0x40 ∨ w = 0x80 ∨ w = 0xC0 then some (.nop (flag w 7) (flag w 6))
  else (leastCandidate (tableCandidates w)).map (·.2)

end Sys2Proof
end

