-- ==== Sys2Proof/Machine/State.lean ====
section
/-!
DEFINITION. The state of one N8 package: everything the spec gives the machine, as plain data, and the state right after
reset. Where a map is sparse it is a list of keys and values with keys rising, and a key that is not listed has the map's
default. Register contents are bit vectors; counts, times and indices are natural numbers. Reset values that the spec does
not state are those of log 1 and log 2.
-/

set_option Elab.async false
namespace Sys2Proof.Machine

/-- A sparse map. -/
abbrev Sparse (α : Type) := List (Nat × α)

/-! ## Strands -/

/-- The states of a strand (R90). -/
inductive RunState where
  | inactive | ready | running | blocked | frozenOut
  deriving DecidableEq, Repr

/-- One element of a stream register with its poison mark (R89, R348). -/
structure Elem where
  val : Word
  mark : Bool
  bad : Bool := false   -- one of its words is uncorrectable (R356)
  deriving DecidableEq, Repr

/-- One element of a vector stream register with its poison mark (R149, R348). -/
structure VElem where
  val : Line
  mark : Bool
  bad : Bool := false   -- one of its words is uncorrectable (R356)
  deriving DecidableEq, Repr

/-- A statistics record (R358): ADDR, EVENT, SLOT, COUNT, DETAIL. -/
structure StatRecord where
  addr : Word32
  event : BitVec 8
  slot : BitVec 8
  count : BitVec 16
  detail : Word
  deriving DecidableEq, Repr

/-- A loop nest (R98, R99): depth, body length, bundles of the pass already issued, the first body bundle, the counts and the
LSTEP words (with their poison marks) that LOOP has read, and the indices. -/
structure Nest where
  depth : Nat
  body : Nat
  pos : Nat
  first : VAddr
  counts : List Nat
  steps : List (BitVec 54 × Bool)
  idx : List Nat
  due : Bool              -- a pass has ended: the next bundle advances the indices and takes the step (R99)
  deriving DecidableEq, Repr

/-- What a queued command captured at commit (R242): the syllable, its register values, its descriptor's nonzero fields,
the rounding mode, the header address of its bundle. -/
structure Captured where
  op : Instr
  xa : Word
  dep : Word
  desc : Sparse Word
  rmode : BitVec 2
  addr : VAddr
  deriving DecidableEq, Repr

/-- An open phase (R119, R351, R353): its first bundle with the loop nest there, the scalar registers at its start with
their marks, its held range, the commands it has recorded, and the number of the first command issued inside it. -/
structure Phase where
  first : VAddr
  nest : Option Nest
  regs : Vector Word 56
  marks : BitVec 56
  bad : List Place        -- the uncorrectable words among them (R356)
  base : Word
  len : Nat
  recorded : List Captured
  firstCmd : Nat
  deriving DecidableEq, Repr

/-- What a result in flight writes when it is due (R94, R96). -/
inductive Write where
  | x (r : BitVec 6) (v : Word)                          -- scalar register
  | vec (lg reg : Nat) (v : Line) (mask : BitVec 64)     -- register of the strand's share, by bytes
  | pred (lg p : Nat) (v mask : BitVec 64)               -- predicate, by bits
  | ctrl (i : BitVec 12) (v : Word)                      -- control register written by MTC
  | window (lg wb : Nat)                                 -- VWIN
  | shape (lg rows cols : Nat)                           -- VSHAPE
  | vmode (lg p : Nat)                                   -- VMODE
  | geometry (rows cols : BitVec 6) (klim : BitVec 7)    -- MGEO
  | eddyMode (half defer : Bool)                         -- CYMODE
  | scale (o : Nat) (v : BitVec 2048)                    -- SLD
  | progidx (v : Word)                                   -- PROGIDX
  | phase (p : Option Phase)                             -- PHASE: the open phase commits, a phase opens (R119)
  | bad (p : Place)                                      -- an uncorrectable latch re-delivers a bad word (R356)
  | none                                                 -- records alone
  deriving DecidableEq, Repr

/-- A result in flight: due strand time, issue number of its bundle, write, poison mark, the load it waits for, records
appended with it, and the mirror comparison made as it is written: header address and mirror slot (R39, R96, R354). -/
structure Pending where
  due : Nat
  seq : Nat
  write : Write
  mark : Bool
  load : Option Nat
  recs : List StatRecord
  check : Option (VAddr × BitVec 5) := none
  deriving DecidableEq, Repr

/-- The vector state of one lane group for one strand (R152), with the poison mark of its window base (R348). -/
structure Lane where
  wb : Nat
  rows : Nat
  cols : Nat
  mode : Nat
  preds : Sparse (BitVec 64)
  pmarks : BitVec 8       -- poison marks of the predicates
  wmark : Bool            -- poison mark of the window base
  deriving DecidableEq, Repr

/-- R152: window base 0, shape 1 x 1, mode predicate 0, every predicate all ones (the map's default). -/
def Lane.reset : Lane := { wb := 0, rows := 1, cols := 1, mode := 0, preds := [], pmarks := 0, wmark := false }

/-- An unfinished vector block (R160, R162): the syllable, its slot and lane group, the window, shape, mode predicate,
rounding mode and version it reads under, its start, its interval and occupancy, and the register values it has read so far.
A VLD block and a mirror block only occupy their lane group. -/
structure Block where
  op : Instr
  slot : Nat
  lg : Nat
  seq : Nat
  poolSeq : Nat           -- the issue number of its bundle on the core
  addr : VAddr
  wb : Nat
  rows : Nat
  cols : Nat
  target : Nat            -- VXFER: the window base of the target lane group
  pred : BitVec 64
  rmode : BitVec 2
  version : Nat
  start : Nat             -- strand time of issue
  interval : Nat
  busyFor : Nat           -- strand cycles for which it occupies its lane group
  step : Nat              -- the next register to read
  srcs : List (List Line) -- the registers that each step has read
  marks : List (List Bool) -- which of those registers carried the poison mark
  events : List (Nat × Nat)
  mark : Bool             -- the mode predicate, or another operand read at issue, carried it
  offs : List (Option Nat) -- VST, VSTS: the pool bytes of the lines, none in the hole
  idle : Bool             -- it only occupies its lane group
  mirror : Bool           -- its syllable has a mirror, whose unit compares its results (R39, R157)
  saved : List (Nat × Line × Bool)  -- registers that it has still to read, as its strand left them at a trap (R162)
  deaf : List (Nat × Nat) := []  -- issue numbers, from and to, of the handlers that ran meanwhile: their results do not reach it (R162)
  deriving DecidableEq, Repr

/-- What a trap handler suspends (R342): the strand time of the entry, the issue number that the handler's first bundle has,
results in flight, unfinished blocks, the nest. -/
structure TrapFrame where
  at_ : Nat
  seq : Nat
  pend : List Pending
  blocks : List Block
  nest : Option Nest
  deriving DecidableEq, Repr

/-- The wait of a SPINW (R116). -/
structure SpinWait where
  addr : Word
  cond : BitVec 3
  cmp : Word
  xd : BitVec 6
  last : Nat    -- core cycle of the last read
  deriving DecidableEq, Repr

/-- Where an access lands once it is translated: a pool byte, a device physical byte, the identity line, a readback item,
or a place outside the package. -/
inductive Target where
  | pool (core off : Nat)
  | hole
  | hbm (pa : Nat)
  | ident (off : Nat)
  | readback (pa : Nat)
  | outside (addr : Word)
  deriving DecidableEq, Repr

/-- An element of a gather or scatter that has been translated, with the value a gather has read (R148). -/
structure KeptElem where
  lg : Nat
  lane : Nat
  ea : Word
  target : Target
  val : Word32
  mark : Bool
  read : Bool
  deriving DecidableEq, Repr

/-- An element of a gather or scatter that waits on a page request (a page as pageKey numbers it), or that can no longer be
translated (R148). -/
structure WaitElem where
  lg : Nat
  lane : Nat
  ea : Word
  ipa : Nat
  dead : Option (Nat × Nat)   -- cause and reason
  deriving DecidableEq, Repr

/-- The saved wait of a gather or scatter (R148): the elements still waiting and the elements kept. -/
structure GatherWait where
  write : Bool
  mask : List WaitElem
  kept : List KeptElem
  deriving DecidableEq, Repr

/-- What a BLOCKED strand waits for beside its reason (R92, R369): page requests as tagKey numbers them, refused pages as pageKey
does, the die whose staging is full. -/
structure WaitInfo where
  reason : Nat          -- the code of R92; 0 while not blocked
  since : Nat           -- core cycle of the block
  tags : List Nat       -- page requests, unanswered
  refused : List Nat    -- intermediate pages whose request was answered REFUSED
  place : Nat           -- HOLD_FULL: the die whose staging is full (R139)
  yBundle : Bool        -- the bundle it is blocked on carries Y
  deriving DecidableEq, Repr

/-- The control registers of a strand (R101). -/
structure Ctl where
  priv : Bool
  ppriv : Bool
  exl : Bool
  mirrorPending : Bool
  mirrorAddr : BitVec 40
  mirrorSlot : BitVec 5
  cause : Word
  fmask : BitVec 17
  finfo : Word
  epc : VAddr
  tvecEn : Bool
  tvecBase : BitVec 40
  poison : Bool
  mm : Bool
  retry : BitVec 2
  norec : Bool
  pcount : BitVec 16
  rmode : BitVec 2
  ftv : BitVec 8
  progidx : Word
  waitLast : BitVec 4
  waitCyc : BitVec 32
  frostsw : BitVec 16
  lc : Vector (BitVec 32) 6
  lstep : Vector (BitVec 54) 6
  vstride : BitVec 26
  lgstride : BitVec 26
  mslot : BitVec 16
  spincnt : BitVec 16
  poolpart : Word32
  ydist : BitVec 32
  overdue : Bool
  lost : BitVec 32
  half : Bool
  defer : Bool
  nonfin : Bool
  gsat : Bool
  sing : Bool
  ovf : Bool
  deriving DecidableEq, Repr

/-- Control registers at the values that R97, R184 and the other register tables state for reset; log 1 for the rest. -/
def Ctl.reset : Ctl :=
  { priv := false, ppriv := false, exl := false, mirrorPending := false, mirrorAddr := 0, mirrorSlot := 0, cause := 0,
    fmask := 0, finfo := 0, epc := 0, tvecEn := false, tvecBase := 0, poison := false, mm := false, retry := 0,
    norec := false, pcount := 0, rmode := 0, ftv := 0, progidx := 0, waitLast := 0, waitCyc := 0, frostsw := 32,
    lc := Vector.replicate 6 0, lstep := Vector.replicate 6 0, vstride := 0, lgstride := 0, mslot := 0, spincnt := 0,
    poolpart := 0, ydist := 0, overdue := false, lost := 0, half := false, defer := false, nonfin := false, gsat := false,
    sing := false, ovf := false }

/-- One strand of a core (R15, R88 to R102, R152, R247, R358). -/
structure Strand where
  mode : RunState
  x : Vector Word 56
  marks : BitVec 56                -- poison marks of the scalar registers
  bad : List Place                 -- uncorrectable register words (R356)
  pc : VAddr
  time : Nat                       -- strand time (R94)
  issueAt : Nat                    -- the strand time at which the next bundle may issue (R114)
  nextSeq : Nat                    -- issue number of the next bundle
  pend : List Pending
  frames : List TrapFrame
  blocks : List Block
  streams : Sparse (List Elem)     -- st0 to st7
  vstreams : Sparse (List VElem)   -- vs0 to vs3
  desc : Sparse Word               -- field f of dN at key 32 N + f
  descMarks : List Nat             -- keys of the descriptor fields that carry the poison mark
  ctl : Ctl
  ctlMarks : List Nat              -- indices of the control registers that carry the poison mark
  nest : Option Nest
  lanes : Sparse Lane
  geoRows : BitVec 6
  geoCols : BitVec 6
  geoKlim : BitVec 7
  geoMark : Bool                   -- poison mark of the geometry
  stats : List StatRecord          -- oldest first
  newStats : Nat                   -- how many of them were appended in this cycle (R360)
  spin : Option SpinWait
  gather : Option GatherWait
  phase : Option Phase
  wait : WaitInfo
  condemned : Option Nat           -- strand time at which it was condemned (R326)
  ending : Bool                    -- ENDK has issued and its commands are not all done (R118)
  launch : Option Nat              -- the launch that started it
  parked : Bool                    -- parked at a yield point (R380)
  yieldNext : Bool                 -- the last bundle held an issued YIELD (R376)
  waited : Nat                     -- cycles counted by the wait watchdog (R387)
  deriving DecidableEq, Repr

def WaitInfo.reset : WaitInfo :=
  { reason := 0, since := 0, tags := [], refused := [], place := 0, yBundle := false }

/-- A strand that nothing has started (R90). -/
def Strand.reset : Strand :=
  { mode := .inactive, x := Vector.replicate 56 0, marks := 0, bad := [], pc := 0, time := 0, issueAt := 0, nextSeq := 0,
    pend := [], frames := [], blocks := [], streams := [], vstreams := [], desc := [], descMarks := [], ctl := Ctl.reset,
    ctlMarks := [], nest := none,
    lanes := [], geoRows := 63, geoCols := 63, geoKlim := 127, geoMark := false, stats := [], newStats := 0, spin := none, gather := none, phase := none,
    wait := WaitInfo.reset, condemned := none, ending := false, launch := none, parked := false, yieldNext := false,
    waited := 0 }

/-! ## Cores -/

/-- A pool line that admitted work will write: its pool byte, data, byte mask and poison mark. -/
structure PoolLine where
  off : Nat
  data : Line
  mask : BitVec 64
  mark : Bool
  deriving DecidableEq, Repr

/-- An operand slot that is not FREE (R193). -/
structure Slot where
  holder : Option Nat     -- the strand that holds it; none while RELEASING
  readsUntil : Nat        -- matrix time from which no multiply's read of it is pending
  loadUntil : Nat         -- matrix time at which the last OLD into it is complete
  load : List PoolLine    -- what that OLD writes
  deriving DecidableEq, Repr

/-- R193: FREE. -/
def Slot.reset : Slot := { holder := none, readsUntil := 0, loadUntil := 0, load := [] }

/-- An admitted multiply (R204, R205): the part of its tile that it writes, formed from operands, scale buffers, geometry
and starting values as they stand at its start. -/
structure Multiply where
  strand : Nat
  start : Nat
  tile : Nat
  lines : List PoolLine
  recs : List StatRecord
  mark : Bool             -- it has read marked data
  deriving DecidableEq, Repr

/-- Admitted work of the accumulator port (R209): ACLR and AADD end with a tile write; AMOV reads a row of the tile in each
of its first 64 cycles. -/
structure TileWork where
  strand : Nat
  tile : Nat
  start : Nat
  until_ : Nat
  reads : Bool            -- AMOV
  lines : List PoolLine   -- what ACLR and AADD write; none for AMOV
  recs : List StatRecord
  mark : Bool
  deriving DecidableEq, Repr

/-- A line write of a core syllable to the own pool that has not landed (R144, R146, R209, R231, R234). -/
structure PoolWrite where
  due : Nat               -- matrix time (log 16)
  strand : Nat
  seq : Nat               -- issue number of its bundle on the core
  off : Nat               -- pool byte of the line
  data : Line
  mask : BitVec 64
  mark : Bool
  eddy : Bool := false    -- it is a write of CYRD or CYSOLVE (R226)
  window : Bool := false  -- it goes through the core's own cluster window (R144, R273)
  deriving DecidableEq, Repr

/-- A triangular file (R213): mantissas at key 32 i + j, exponents (default 1), counts, tags (1 HALF), poison mark. -/
structure Tri where
  m : Sparse Int
  e : Sparse Nat
  c : Sparse Nat
  g : Sparse Nat
  poison : Bool
  deriving DecidableEq, Repr

/-- The cleared state of R213. -/
def Tri.reset : Tri := { m := [], e := [], c := [], g := [], poison := false }

/-- Admitted Eddy work that has not ended (R225, R226, R229 to R234): the file it writes with the value it gives it, the
file and the scratchpad lines it still reads, when its pending write ends. -/
structure EddyWork where
  strand : Nat
  streams : Bool              -- CYQR or CYAPPLY: later streams into the file follow it
  file : Nat
  value : Option Tri          -- the file's value when the work ends
  clearFile : Option Nat      -- CYAPPLY without .keep: the file u it clears
  clearAt : Nat
  readFile : Option Nat       -- the file whose reads are pending
  readFileUntil : Nat
  readLines : List (Nat × Nat)  -- scratchpad lines not yet read, each with the Eddy time of its read
  admits : Nat                -- the Eddy time by which its last row has entered the triangle
  stopped : Option Nat        -- a forced pre-emption has stopped its rows at this Eddy time (R239)
  until_ : Nat
  steps : List Tri            -- a stream: the file's value after each row that has still to enter
  start : Nat                 -- the Eddy time at which the first of them enters
  every : Nat                 -- the Eddy cycles between two rows
  tail : Nat                  -- from a row's entry to its completion (R229, R239)
  flags : BitVec 4            -- NONFIN, GSAT, SING, OVF to set
  recs : List StatRecord
  mark : Bool                 -- it has read marked data
  deriving DecidableEq, Repr

/-- A cached translation (R132). -/
structure TlbEntry where
  vf : Nat
  va : Nat                -- VA page, in 64 KiB units
  pa : Nat                -- physical page, in 64 KiB units
  r : Bool
  w : Bool
  x : Bool
  owned : Bool
  rpl : Bool
  ipa : Nat
  deriving DecidableEq, Repr

/-- What a late load does with its bytes. -/
inductive LoadKind where
  | scalar (r : BitVec 6) (size : Nat) (signed : Bool)
  | spin (r : BitVec 6)
  | gather
  deriving DecidableEq, Repr

/-- A load outside the own pool that has not been answered (R144, R271). -/
structure Load where
  id : Nat
  strand : Nat
  seq : Nat
  kind : LoadKind
  target : Target
  elems : List KeptElem    -- the elements of a gather
  page : Option Nat        -- the replicated page it reads, if one (R140)
  got : Option (List Byte × Bool) := none  -- the bytes that a load from the own pool has read at its issue, with their mark (R270)
  deriving DecidableEq, Repr

/-- One of the strands that a launch or a table names: logical cluster, logical core, strand. -/
structure StrandName where
  cl : Nat
  co : Nat
  n : Nat
  deriving DecidableEq, Repr

/-- A holder of a held write (R138, R328): the strand's open phase, or a join of its team with the task; or, once such a holder
has decided to commit, the commit whose writes have still to be performed, with the task whose lines it writes (R278, R325). -/
inductive Holder where
  | phase (d t : Nat) (w : StrandName)
  | join (d t q task : Nat)
  | done (commit task : Nat)
  deriving DecidableEq, Repr

/-- A store that has committed and not been performed at its target (R144, R265). -/
structure Store where
  id : Nat
  strand : Nat
  seq : Nat
  target : Target
  bytes : List Byte
  mark : Bool
  holders : List Holder    -- when the store is held
  va : Word := 0           -- its address
  deriving DecidableEq, Repr

/-- The shadow SRAM of a partition's cores on a die (R15, R382): the image of the next team, or the outgoing image that drains. -/
structure Shadow where
  staged : Option Nat      -- team index whose image is being staged or is staged
  draining : Option Nat    -- team index whose image drains
  held : Sparse Nat        -- bytes that the image takes of the 1 MiB of each core, by logical core
  until_ : Nat             -- die cycle at which the copy, in or out, ends
  deriving DecidableEq, Repr

def Shadow.reset : Shadow := { staged := none, draining := none, held := [], until_ := 0 }

/-- One core (R15): pool, arrays, times, strands. -/
structure Core where
  strands : Sparse Strand
  part : Word32                    -- POOLPART word in force (R121, R123)
  ran : Bool                       -- a LAUNCH of the team has started node strands here (R200)
  pool : List Host.Cell            -- the 4 MiB pool (R123)
  poolPoison : List Nat            -- poisoned pool lines, by byte address of the line
  scale : List Host.Cell           -- scale buffers: byte b of slot o at 256 o + b (R194)
  scaleMarks : List Nat            -- slots whose scale buffer carries the poison mark
  running : Option Nat
  last : Nat                       -- the strand that last held the core
  switchLeft : Nat                 -- cycles of a switch still to pass (R93)
  cycle : Nat                      -- core cycles
  mtime : Nat                      -- matrix time and Eddy time (R191, R225)
  cBase : Nat                      -- the matrix time at which C was last 0 (R200)
  resumed : Option Nat             -- matrix time at which the team was put back here, until its first bundle issues (R200)
  rowsWait : Option Nat            -- the Eddy time at which the rows left of its streams were put back, until its first bundle (R239)
  frost : Nat                      -- consecutive cycles of the running strand on the frost line (R93, R95, R97)
  lockFrost : Nat                  -- how many of the last of them were on a replica lock (R93, R142)
  stall : Nat                      -- frost cycles that corrected register errors still cost (R95, R356)
  issued : Nat                     -- bundles issued on the core
  divA : Nat                       -- SA's divide-and-root unit is busy until this matrix time (R104, R112)
  divB : Nat                       -- SB's
  arrayUntil : Nat
  loaderUntil : Nat
  portUntil : Nat
  triUntil : Nat
  filePortUntil : Nat
  cellUntil : Nat
  slots : Sparse Slot
  mults : List Multiply
  tileWork : List TileWork
  poolWrites : List PoolWrite
  ahead : List (Nat × Nat)         -- pool lines that have landed before a write of an earlier bundle, with the number of their bundle (R268)
  written : List Nat               -- 4 KiB blocks of the pool written since the last SWAPIN, or restored by it (R384)
  tris : Sparse Tri
  eddy : List EddyWork
  utlb : List TlbEntry
  loads : List Load
  stores : List Store
  deriving DecidableEq, Repr

/-- A core right after reset. -/
def Core.reset : Core :=
  { strands := [], part := 0, ran := false, pool := [], poolPoison := [], scale := [], scaleMarks := [], running := none, last := 3, switchLeft := 0,
    cycle := 0, mtime := 0, cBase := 0, resumed := none, rowsWait := none, frost := 0, lockFrost := 0, stall := 0, issued := 0, divA := 0, divB := 0, arrayUntil := 0, loaderUntil := 0,
    portUntil := 0, triUntil := 0, filePortUntil := 0, cellUntil := 0, slots := [], mults := [], tileWork := [],
    poolWrites := [], ahead := [], written := [], tris := [], eddy := [], utlb := [], loads := [], stores := [] }

/-! ## Teams -/

/-- The state of a token (R115). -/
inductive TokenState where
  | idle | pending | ok | cancelled | error
  deriving DecidableEq, Repr

/-- A token with the report that PROGIDX gives of it (R245). -/
structure Token where
  st : TokenState
  index : Nat
  status : Nat
  cause : Nat
  cmd : Option Nat       -- the command that last named it as produced
  deriving DecidableEq, Repr

def Token.reset : Token := { st := .idle, index := 0, status := 0, cause := 0, cmd := none }

/-- A strand of a launch that a double trap or a kill has ended before all its commands and stores were done (R277): its name, the
identifiers given and the bundles issued on its core by then, whether it makes the token produced-error. -/
structure Closing where
  name : StrandName
  upTo : Nat
  issued : Nat
  poisoned : Bool
  deriving DecidableEq, Repr

/-- A launch whose completion token is pending (R24, R117). -/
structure Launch where
  id : Nat
  d : Nat
  t : Nat
  ctok : Nat
  part : Word32
  entry : VAddr
  arg : Word
  argMark : Bool           -- poison mark of the record's argument (R348)
  mask : BitVec 16
  tvecEn : Bool
  tvecBase : BitVec 40
  tvecMark : Bool := false -- poison mark of the conductor's TVEC (R348)
  started : Bool
  startedAt : Nat          -- die cycle of LAUNCH
  left : List StrandName   -- node strands not ended
  poisoned : Bool          -- some strand ended with an error bit set, or double-trapped
  closing : List Closing := []  -- strands that are INACTIVE and do not yet count as ended
  deriving DecidableEq, Repr

/-- The states of a join (R319). -/
inductive JoinState where
  | free | open_ | releasing | released | done
  deriving DecidableEq, Repr

/-- A task of a join (R318). -/
inductive Task where
  | localTask (s : StrandName)
  | contrib (tile cidx : Nat)
  deriving DecidableEq, Repr

/-- A join record (R332), without its magic, version and padding. -/
structure JoinRecord where
  join : Nat
  flags : BitVec 8
  n : Nat
  q : Nat
  fill : Nat
  serial : Nat
  stamp : Nat
  wAll : Nat
  wArr : Nat
  mask : List Nat          -- tasks in the mask, ascending
  deriving DecidableEq, Repr

/-- A join (R317 to R335). -/
structure Join where
  st : JoinState
  fill : Nat
  num : Nat
  den : Nat
  tasks : List Task
  weights : List Nat
  slotBase : Word
  stride : Nat
  slotLen : Nat
  subst : Word
  ranges : List (Word × Nat)
  arrived : List Nat        -- tasks arrived, ascending
  replay : Option (List Nat)
  serial : Nat
  record : Option JoinRecord
  stragglers : List Nat     -- stragglers not yet dead
  todo : List Nat           -- tasks whose slots the release has still to fill
  commit : Option Nat       -- the commit of its release, until it has been performed (R325)
  slotFault : Bool
  tag : Option Nat          -- the page request its release waits on
  stamp : Nat               -- the cycle of its release (R332)
  taken : Option (Nat × Nat)  -- the cycle and the task of its last arrival (R320)
  opened : Nat              -- the number that the next command had when it was opened: writes of earlier ones are not held (R322)
  deriving DecidableEq, Repr

def Join.reset : Join :=
  { st := .free, fill := 0, num := 1, den := 1, tasks := [], weights := [], slotBase := 0, stride := 0, slotLen := 0,
    subst := 0, ranges := [], arrived := [], replay := none, serial := 0, record := none, stragglers := [], todo := [], commit := none,
    slotFault := false, tag := none, stamp := 0, taken := none, opened := 0 }

/-- A join that is FREE again; its releases since the team was created are still counted (R317, R332). -/
def Join.freed (j : Join) : Join := { Join.reset with serial := j.serial }

/-- A store-count tracker (R301): the entry it fires, the watched range with the physical 64 KiB pages that it maps to, the
expected count and the bytes counted. -/
structure Tracker where
  tile : Nat
  base : Word
  len : Nat
  expected : Nat
  count : Nat
  pages : List Nat
  deriving DecidableEq, Repr

/-- A chunk in the staging of an entry: phase 0 contribution or partial sum, 1 result, 3 a slot answer (the chunk number is the
grant); contributor that sent it; chunk number; re-run mark; payload with its poison mark; its slots of the port's staging
(R307). -/
structure HeldChunk where
  phase : Nat
  from_ : Nat
  chunk : Nat
  repeated : Bool
  payload : List Byte
  mark : Bool
  slots : List Nat
  deriving DecidableEq, Repr

/-- A run of a tile-table entry (R299 to R315). -/
structure Run where
  strand : Option (StrandName × VAddr)   -- the strand whose TREADY fired it, with the bundle
  token : Nat
  alg : Nat                              -- the algorithm in use (a refused SWITCH runs RING)
  started : List Nat                     -- chunks whose own contribution has been read
  used : List (Nat × Nat × Nat × Bool)   -- chunks received and used: phase, sender, number, re-run mark
  done : List Nat                        -- result chunks written at this contributor
  reran : List (Nat × Int)               -- chunks to run again, each with its derived scale
  restarted : List Nat                   -- those whose own contribution has been read again
  scale : Option Int                     -- the largest scale used
  unanswered : Nat                       -- chunks sent and not yet answered
  exceeded : Bool                        -- a re-run chunk exceeded its scale
  join : Option Join                     -- JV: the join as it stood at its release
  swept : Bool                           -- JV: the excluded contributors have been told
  substFault : Option Nat                -- the cause of the fault of a substitute slot whose write was skipped
  stall : List Nat                       -- the page requests that its chunks wait on
  refused : List Nat                     -- the pages of those answered REFUSED
  cancel : Bool                          -- ECANCEL of CTOK
  lastAt : Option Nat := none            -- the die cycle in which it wrote its last result chunk (R316)
  rooms : List (Nat × Bool × Nat) := []  -- staging slots granted for results to come: chunk, re-run mark, slot (R307)
  stopped : List (Nat × List Nat) := []  -- excluded contributors whose entry its abort has ended, with their chunks still on the way (R331)
  deriving DecidableEq, Repr

/-- A tile-table entry (R297): image words 0 to 9, the fields that the device keeps, the chunks in staging, the run. -/
structure Tile where
  words : Sparse Word
  status : Nat
  cause : Nat
  ready : Bool
  st : Nat                 -- STATE (R299)
  repeated : Bool
  sent : BitVec 64
  recv : BitVec 64
  scused : BitVec 16
  emaxv : BitVec 16
  held : List HeldChunk    -- in order of arrival; those of a later run stay for it
  late : Sparse (List Nat) -- chunks that a contributor excluded from an ended run may still send for it (R331)
  run : Option Run
  firedAt : Option Nat := none -- the die cycle in which a tracker fired it last (R302)
  deriving DecidableEq, Repr

/-- R297: every word zero. -/
def Tile.reset : Tile :=
  { words := [], status := 0, cause := 0, ready := false, st := 0, repeated := false, sent := 0, recv := 0, scused := 0,
    emaxv := 0, held := [], late := [], run := none }

/-- A lease of a team on a die (R257, R258). -/
structure Lease where
  engine : Option Nat      -- the bulk engine bound, none while requested
  period : Nat             -- in cycles
  left : Nat               -- cycles left of the period
  held : Nat               -- cycles held, charged at the end
  ending : Option Nat      -- the UNLEASE command that waits
  requested : Bool
  deriving DecidableEq, Repr

def Lease.reset : Lease := { engine := none, period := 0, left := 0, held := 0, ending := none, requested := false }

/-- What a core keeps of a team that is out (R382, R384): logical core number, strands, partition word, and after a forced
pre-emption the pool and the arrays. -/
structure SavedCore where
  lcore : Nat              -- 8 x logical cluster + logical core
  strands : Sparse Strand
  part : Word32
  ran : Bool
  pool : List Host.Cell
  poolPoison : List Nat
  scale : List Host.Cell
  scaleMarks : List Nat
  slots : Sparse Slot
  tris : Sparse Tri
  eddy : List EddyWork
  size : Nat               -- a free value that gives the bytes of its strands' state (R382)
  blocks : List Nat        -- 4 KiB blocks of the pool that a restore brings (R384)
  deriving DecidableEq, Repr

/-- What the last double trap recorded (R405). -/
structure FaultRecord where
  cause : Word
  fmask : BitVec 17
  finfo : Word
  epc : VAddr
  strand : Nat
  core : Nat
  deriving DecidableEq, Repr

def FaultRecord.reset : FaultRecord := { cause := 0, fmask := 0, finfo := 0, epc := 0, strand := 0, core := 0 }

/-- A landed message and its entry of the landing ring (R292). -/
structure Landed where
  slot : Nat
  m : Message
  deriving DecidableEq, Repr

/-- One team of a die: its team-table entry (R365) and everything that exists per team on a die (R13). -/
structure Team where
  vf : Nat
  part : Nat
  gang : BitVec 24
  weight : BitVec 8
  cls : BitVec 2
  st : Nat                 -- STATE (R367)
  gust : Nat
  lull : Nat
  deficit : Int
  cap : Nat
  borrow : Nat
  used : Nat
  lsize : Nat
  landing : List Landed    -- landed messages, oldest first; LCOUNT is their number
  lbase : BitVec 26
  lpages : Nat
  sbase : BitVec 26
  spages : Nat
  fcause : Nat
  overdue : Nat
  arrived : Bool           -- an arrival since the last gust tick
  spinlim : BitVec 16
  tokens : Sparse Token
  counters : Sparse (BitVec 32)
  tiles : Sparse Tile
  trackers : List Tracker
  joins : Sparse Join
  leases : Sparse Lease
  leaseDeficit : Int
  launches : List Launch
  saved : List SavedCore
  spilled : Bool           -- the saved image is that of a forced pre-emption
  entry : VAddr
  arg : Word
  lullTimer : Nat          -- cycles of the lull timer (R372)
  sliceStart : Nat         -- the cycle at which its slice began; in SWAPIN and SWAPOUT that at which its exchange ends
  graceStart : Nat
  spillStart : Nat
  watch : Nat              -- cycles counted by the forced-pre-emption watchdog (R386)
  stopping : Nat           -- 0, or why the slice must end with the team HALTED: 1 stop, 2 withdrawal, 3 thermal; 4 scan claim
  fault : FaultRecord
  deriving DecidableEq, Repr

/-- An entry that holds no team (R365, R367): reset values of R365, R102, R115, R256, R297, R317. -/
def Team.reset : Team :=
  { vf := 0, part := 0, gang := 0, weight := 1, cls := 0, st := 0, gust := 0, lull := 0, deficit := 0, cap := 0,
    borrow := 0, used := 0, lsize := 3, landing := [], lbase := 0, lpages := 0, sbase := 0, spages := 0, fcause := 0,
    overdue := 0, arrived := false, spinlim := 64, tokens := [], counters := [], tiles := [], trackers := [], joins := [],
    leases := [], leaseDeficit := 0, launches := [], saved := [], spilled := false, entry := 0, arg := 0, lullTimer := 0,
    sliceStart := 0, graceStart := 0, spillStart := 0, watch := 0, stopping := 0,
    fault := FaultRecord.reset }

/-! ## Commands and messages -/

/-- Units of a command that wait: the page requests not yet answered, and the address that met them (R249). -/
structure UnitWait where
  unit : Nat
  tags : List Nat
  addr : Word
  deriving DecidableEq, Repr

/-- An engine command from its issue to its token (R242 to R251). -/
structure Cmd where
  id : Nat
  d : Nat
  t : Nat
  who : StrandName
  cap : Captured
  seq : Nat                -- bundles issued on its core when it issued
  gang : BitVec 24
  token : Nat
  consumed : List Nat
  started : Bool
  done : Bool              -- its token is produced; kept while PROGIDX and phases may ask for it (R245, R351)
  seen : Bool              -- a check of its strand has seen the token produced (R351)
  cancel : Bool
  own : TokenState         -- the old state of its produced token when it also consumes it (R241); else ok
  progress : Nat
  next : Nat               -- the first unit that it has not tried
  window : BitVec 64       -- units of the current window that wait (R249)
  waits : List UnitWait    -- the page requests that they wait on
  refused : Option Word    -- the address of one that was answered REFUSED
  cache : Sparse (Line × Bool)  -- lines of the own pool as it has read them (R274)
  olds : Sparse (Line × Bool)   -- lines of the own pool not read yet, without a later write of their core (R274)
  tees : List Nat               -- CPYST with tee: units read and not yet written to the destination (R254)
  out : Sparse (Nat × Bool)     -- elements and lines read or formed and not yet delivered or written, by unit, with marks
  pos : Nat                -- bytes of a stream written or read; stream elements delivered
  updates : List (Nat × List Byte × Bool)  -- its writes to replicated pages, one update each page (R141)
  adds : List (Nat × List Nat × Bool)      -- SACC: its read-modify-writes in replicated pages, with the values of each (R141, R255)
  crc : BitVec 64          -- TSAVE, TLOAD: the CRC of the image so far (R263)
  events : List (Nat × Nat)
  holes : List Nat         -- the elements, lines and pairs that have met the hole, each counted once (R124, R244)
  mark : Bool              -- it has read poisoned data
  unanswered : Nat         -- messages sent and not answered
  status : Nat
  cause : Nat
  failAddr : Word
  deriving DecidableEq, Repr

/-- A message that its sender keeps until it is answered (R287, R293). -/
structure Sent where
  id : Nat
  d : Nat                  -- the sending die
  m : Message
  cmd : Option Nat
  tile : Option (Nat × Nat)     -- team and tile index of the run that sent it
  window : Option Nat           -- the VF whose message window sent it
  refusals : Nat
  resting : Bool           -- it waits out its retry interval
  sentAt : Nat             -- die cycle of the last sending
  deriving DecidableEq, Repr

/-! ## Dies -/

/-- One Wealet port (R283). -/
structure Port where
  up : Bool
  next : BitVec 24         -- the frame number it expects
  out : BitVec 24          -- the number of the next frame it sends
  sent : List Frame        -- the replay buffer, at most 256 frames
  fails : Nat              -- failed replays of the frame
  retraining : Bool
  served : Option (Nat × Nat)  -- the entry its sequencer served last: team and tile index (R303)
  deriving DecidableEq, Repr

def Port.reset : Port := { up := true, next := 0, out := 0, sent := [], fails := 0, retraining := false, served := none }

/-- A line of held-store staging (R138, R139, R328). -/
structure HeldLine where
  pa : Nat                 -- device physical address of the line
  data : Line
  mask : BitVec 64
  who : StrandName
  d : Nat                  -- the die and team of the holding strand
  t : Nat
  holders : List Holder    -- those that have not yet decided to commit, and commits to be performed
  order : Nat
  task : Nat               -- its place in the commit order of a release
  mark : Bool
  va : Word := 0           -- the line's address as its strand names it
  deriving DecidableEq, Repr

/-- A scan test of a cluster (R407): the die cycle of its start, none while the cluster is claimed and not yet free. -/
structure Scan where
  cl : Nat
  part : Option Nat
  start : Option Nat
  deriving DecidableEq, Repr

/-- One compute die (R13). -/
structure Die where
  now : Nat                -- die cycles
  qbase : Nat
  quantum : Nat
  grace : Nat
  bcap : Nat
  wdwait : Nat
  windowStart : Nat
  windowLen : Nat
  gustTicks : Nat          -- gust ticks so far
  teams : Sparse Team
  slotTable : Sparse (BitVec 7)   -- entry e of channel c at key 64 c + e
  stlb : List TlbEntry
  staging : List HeldLine
  engines : Sparse (Nat × Nat)    -- bulk engines bound: team and lease
  ports : Sparse Port             -- local ports 0 to 2 of the die
  scans : List Scan
  shadow : Sparse Shadow          -- per partition
  running : Sparse Nat            -- the resident team of each partition
  selected : Sparse Nat           -- the team selected to enter, per partition
  power : Nat
  junction : Nat
  hbmTemp : Nat
  throttled : Nat
  throttling : Bool
  scanned : Sparse Nat            -- die cycle of each cluster's last scan test
  deriving DecidableEq, Repr

/-- A die right after reset (R366). -/
def Die.reset : Die :=
  { now := 0, qbase := 42500, quantum := 170000, grace := 85000, bcap := 170000, wdwait := 100000, windowStart := 0,
    windowLen := 8 * 170000, gustTicks := 0, teams := [], slotTable := [], stlb := [], staging := [], engines := [],
    ports := [], scans := [], shadow := [], running := [], selected := [], power := 0, junction := 0, hbmTemp := 0,
    throttled := 0, throttling := false, scanned := [] }

/-! ## Package and firmware -/

/-- A stage-2 leaf (R130, R131), kept by firmware. -/
structure S2Leaf where
  level : Nat
  pa : Nat
  r : Bool
  w : Bool
  x : Bool
  rpl : Bool
  deriving DecidableEq, Repr

/-- A page request (R135): `place` is its number in the queue, whose entry is that number modulo 256. -/
structure PageRequest where
  tag : Nat
  place : Nat := 0
  access : BitVec 4
  die : Nat
  team : Nat
  ipa : Nat
  va : Word
  deriving DecidableEq, Repr

/-- A global symbol of a committed image (R62). -/
structure Symbol where
  name : List Byte
  value : Word
  deriving DecidableEq, Repr

/-- A kernel of a committed image (R61, R66): the address of its entry bundle and its pool partition word. -/
structure Kernel where
  entry : Word
  pool : Word32
  deriving DecidableEq, Repr

/-- An image key of a VF (R60, R64, R403). -/
structure ImageKey where
  id : Word
  x : BitVec 256
  y : BitVec 256
  deriving DecidableEq, Repr

/-- What a load that has passed its checks writes (R62, R66). -/
structure Loaded where
  digest : BitVec 256
  bases : List Nat
  contents : List (List Byte)
  texts : List (Nat × Nat)       -- address and size of each text section
  starts : List Nat
  symbols : List Symbol
  kernels : List Kernel
  deriving DecidableEq, Repr

/-- A virtual function (R20, R130, R135, R393). -/
structure Vf where
  part : Option Nat
  s1root : BitVec 42
  s2 : Sparse S2Leaf              -- by intermediate address / 64 KiB
  queue : List PageRequest        -- outstanding requests, oldest first
  waiting : List PageRequest      -- misses that wait while the queue is full
  produced : Nat                  -- the producer index
  nextTag : Nat
  starts : Sparse (List Nat)      -- per die: VAs whose bundle-start bit is set, rising
  symbols : Sparse (List Symbol)  -- per die
  kernels : Sparse (List Kernel)  -- per die
  images : List (BitVec 256)      -- digests of committed images, in commit order
  imageKeys : List ImageKey       -- the image keys registered for it
  window : Option Message         -- the message that awaits its RESPONSE
  response : List Byte            -- the last RESPONSE header (R287, R393)
  counters : Sparse (BitVec 64)   -- R362
  aperture : Word                 -- aperture register pair
  serial : BitVec 32              -- readback serial
  deriving DecidableEq, Repr

def Vf.reset : Vf :=
  { part := none, s1root := 0, s2 := [], queue := [], waiting := [], produced := 0, nextTag := 0, starts := [],
    symbols := [], kernels := [], images := [], imageKeys := [], window := none, response := List.replicate 64 0, counters := [], aperture := 0, serial := 0 }

/-- A key session of a partition (R403). -/
structure Session where
  key : BitVec 256
  counter : Nat
  deriving DecidableEq, Repr

/-- A partition (R20, R22, R397, R402, R403). -/
structure Partition where
  exists_ : Bool
  clusters : Sparse Nat           -- physical cluster of logical cluster l on die d, at key 16 d + l
  before : Sparse Nat := []       -- how many it held on a die before one was withdrawn there without a replacement (R407)
  ports : BitVec 24
  reserve : Nat                   -- replica pages left
  confidential : Bool
  switches : Bool
  memKey : Option (BitVec 512)
  readKey : Option (BitVec 256)
  gangKeys : List (BitVec 24 × BitVec 8 × BitVec 256)  -- installed by the tenant: gang, epoch, key
  session : Option Session
  measure : BitVec 256
  deriving DecidableEq, Repr

def Partition.reset : Partition :=
  { exists_ := false, clusters := [], ports := 0, reserve := 0, confidential := false, switches := false, memKey := none,
    readKey := none, gangKeys := [], session := none, measure := 0 }

/-- A gang: its current key epoch and each die's next sequence number in it (R288). -/
structure Gang where
  epoch : BitVec 8
  seqs : Sparse Nat
  deriving DecidableEq, Repr

def Gang.reset : Gang := { epoch := 0, seqs := [] }

/-- A command slot of the physical function (R396): its answer and the command it runs in the background. -/
structure CmdSlot where
  bytes : List Byte        -- bytes 0 to 63, as the host has written them
  code : BitVec 16
  tag : BitVec 16
  status : BitVec 8
  a : List Word            -- A0 to A6
  cmd : Option (Nat × HostCmd)   -- code and command that runs in the background
  load : Option Loaded           -- IMAGE_LOAD: the sections are written, the start bits not yet set (R66)
  order : Nat                    -- its place in the order of arrival
  deriving DecidableEq, Repr

/-- R396: code 0, tag 0, status 0xFF. -/
def CmdSlot.reset : CmdSlot := { bytes := List.replicate 64 0, code := 0, tag := 0, status := 0xFF, a := [], cmd := none, load := none, order := 0 }

/-- An event of the PF ring (R406). -/
structure Event where
  kind : BitVec 8
  die : Nat
  team : Nat
  vf : Nat
  cause : Nat
  detail : BitVec 464     -- its 56 bytes of detail and the two bytes behind them, whose contents the spec does not give: a free value (log 123)
  deriving DecidableEq, Repr

/-- A replicated page (R140, R141, R262): its home page, as a 64 KiB page number, and the dies that hold a replica. -/
structure Replica where
  home : Nat
  copies : List Nat        -- dies that hold a replica
  locked : Option Nat      -- the store or command whose update holds the lock
  deriving DecidableEq, Repr

/-- What an exported image holds of a team (R3, R397): the team, its unfinished commands, its held lines, and its messages that wait for
their retry. -/
structure TeamImage where
  team : Team
  cmds : List Cmd
  staged : List HeldLine
  sent : List Sent
  deriving DecidableEq, Repr

/-- A sealed export of a team (R397): the key it is sealed under, its bytes, the team with its unfinished commands. -/
structure Export where
  key : BitVec 512
  bytes : List Byte
  image : TeamImage
  deriving DecidableEq, Repr

/-- Who moves next (log 5). -/
inductive Turn where
  | event (i : Instr)      -- an event or a host command takes place
  | core (c : Nat)         -- a core runs its next cycle
  | work (id : Nat)        -- an engine command does its next unit
  | commit (d k : Nat)     -- the writes of a commit are performed on a die (R278)
  deriving DecidableEq, Repr

/-- What a bundle's slot meets when it is checked (R35, R91): the cause of a trap, a wait reason with the page requests it
posts, or a hold. -/
inductive Verdict where
  | fault (cause : Nat) (reason : Nat) (info : Word) (lg lane : Nat) (decode : Bool)
  | block (reason : Nat) (posts : List PageRequest) (gather : Option GatherWait) (lease : Option (Nat × Nat))
  | hold (timeRuns : Bool)    -- strand time advances through the hold or stands still
  deriving DecidableEq, Repr

/-- The bundle being issued. -/
structure Issue where
  core : Nat
  strand : Nat
  slot : Nat
  addr : VAddr                      -- header address
  len : Nat                         -- length in words
  mirrored : Bool                   -- the syllable has a mirror (R39)
  admitted : Bool                   -- every slot has passed its checks
  popped : Sparse (List Elem)       -- elements popped by the bundle, per stream
  seen : Option (Ctl × List Nat)    -- control registers and nest indices as an admitted bundle reads them (R98, R120)
  verdict : Option Verdict          -- of the slot last executed
  deriving DecidableEq, Repr

def Issue.reset : Issue :=
  { core := 0, strand := 0, slot := 0, addr := 0, len := 1, mirrored := false, admitted := false, popped := [], seen := none, verdict := none }

/-- The whole package. -/
structure State where
  cores : Sparse Core
  dies : Sparse Die
  hbm : List Host.Cell            -- device physical bytes (R130)
  hbmPoison : List Nat            -- poisoned HBM lines, by address
  owner : Sparse (BitVec 16)      -- ownership entries by 64 KiB page (R400)
  parts : Sparse Partition
  vfs : Sparse Vf
  replicas : List Replica
  gangs : Sparse Gang
  cmds : List Cmd
  wire : List Message             -- messages in flight between dies of the package or leaving it
  partWritten : List (Message × List Nat)  -- one-sided writes of which some payload lines, by number, are written (R266, R269)
  sent : List Sent
  pfSlots : Sparse CmdSlot
  ready : Bool                    -- the physical function is ready (R396)
  events : List Event             -- the event ring, oldest first
  eventsOut : Nat                 -- producer index of the ring
  eventsIn : Nat                  -- consumer index of the ring
  eventsLost : Nat
  pfCounters : Sparse (BitVec 64)
  drops : Nat                     -- dropped messages, refused accesses and discarded writes (R284, R286, R392, R394, R396)
  aperture : Word
  serial : BitVec 32
  lastTag : Sparse (BitVec 128 × BitVec 32) -- tag and serial of a requester's latest ciphertext read of a line, at key 2^48 x requester + offset
  withdrawn : List Nat            -- withdrawn clusters: 16 x die + physical cluster
  bootSerial : Word
  powerLimit : Nat
  packagePower : Nat
  inlet : Int
  flow : Nat
  ide : Bool
  scanHours : Nat
  hostMem : List Host.Cell
  hostRead : List Byte            -- what the host's last read over CXL.mem or the readback aperture was answered
  exports : List Export
  agenda : List Turn
  cur : Nat                       -- the core whose cycle is next when the agenda is empty
  issue : Issue
  fresh : Nat                     -- free values drawn so far
  nextId : Nat                    -- identifiers given to commands, launches, loads, stores and sent messages
  deriving DecidableEq, Repr

/-- The machine right after reset: nothing runs, no partition, no team, every table empty, memory with nothing listed. -/
def State.reset : State :=
  { cores := [], dies := [], hbm := [], hbmPoison := [], owner := [], parts := [], vfs := [], replicas := [], gangs := [],
    cmds := [], wire := [], partWritten := [], sent := [], pfSlots := [], ready := true, events := [], eventsOut := 0, eventsIn := 0,
    eventsLost := 0, pfCounters := [], drops := 0, aperture := 0, serial := 0, lastTag := [], withdrawn := [],
    bootSerial := 0, powerLimit := 2600, packagePower := 0, inlet := 200, flow := 2000, ide := false, scanHours := 24,
    hostMem := [], hostRead := [], exports := [], agenda := [], cur := 0, issue := Issue.reset, fresh := 0, nextId := 0 }

/-! ## Stops -/

/-- Why the machine stops. No meaning of an instruction stops the machine; a fault of a program is a trap (R338). -/
inductive Fault where
  /-- Raised by step when the agenda names a core that the package does not have (R15). Safe. -/
  | noSuchCore
  deriving DecidableEq, Repr

/-- Why a step is refused. -/
inductive Refusal where
  /-- Raised by Dispatch for an instruction that has no meaning yet. Safe. -/
  | notModelled (mnemonic : String)
  /-- Raised by step when the agenda holds a syllable: only a bundle issues one. Safe. -/
  | syllableInAgenda
  deriving DecidableEq, Repr

end Sys2Proof.Machine
end

