-- ==== Sys2Proof/Machine/Bits.lean ====
section
/-!
DEFINITION. Bit-field, sign-extension, byte-order and sparse-map helpers that every other file of the machine uses.
-/

set_option Elab.async false
namespace Sys2Proof.Machine

/-! ## Numbers and words -/

/-- A natural number as a signed value of a given width (R71). -/
def signedOf (w n : Nat) : Int := if n % 2 ^ w < 2 ^ (w - 1) then (n % 2 ^ w : Nat) else (n % 2 ^ w : Nat) - (2 ^ w : Nat)

/-- An integer modulo 2^w as a natural number. -/
def wrap (w : Nat) (i : Int) : Nat := (i % (2 ^ w : Nat)).toNat

/-- A field of an encoding, sign-extended to 64 bits. -/
def sext64 {w : Nat} (b : BitVec w) : Word := b.signExtend 64

/-- A field of an encoding, zero-extended to 64 bits. -/
def zext64 {w : Nat} (b : BitVec w) : Word := b.setWidth 64

/-- A one-bit result as a register value. -/
def ofBool64 (b : Bool) : Word := if b then 1 else 0

/-- The bytes of a number, least significant first (R5). -/
def bytesOf : (n : Nat) → Nat → List Byte
  | 0, _ => []
  | k + 1, v => BitVec.ofNat 8 v :: bytesOf k (v / 256)

/-- The number that bytes hold, least significant first (R5). -/
def ofBytes : List Byte → Nat
  | [] => 0
  | b :: rest => b.toNat + 256 * ofBytes rest

/-- Saturation of a count. -/
def satTo (w n : Nat) : Nat := min n (2 ^ w - 1)

/-- A list cut into pieces of k elements; fuel bounds the number of pieces. -/
def chunksOf {α : Type} (k : Nat) : Nat → List α → List (List α)
  | 0, _ => []
  | fuel + 1, l => if l.isEmpty then [] else l.take k :: chunksOf k fuel (l.drop k)

/-- Division rounded up. -/
def ceilDiv (a b : Nat) : Nat := (a + b - 1) / b

/-! ## Sparse maps -/

/-- The value of a key; the default when it is not listed. -/
def look {α : Type} (d : α) : Sparse α → Nat → α
  | [], _ => d
  | (j, v) :: rest, k => if j = k then v else look d rest k

/-- A key and value before the first larger key. -/
def insertKey {α : Type} (k : Nat) (v : α) : Sparse α → Sparse α
  | [] => [(k, v)]
  | (j, u) :: rest => if k < j then (k, v) :: (j, u) :: rest else (j, u) :: insertKey k v rest

/-- A map without a key. -/
def dropKey {α : Type} (m : Sparse α) (k : Nat) : Sparse α := m.filter fun e => e.1 != k

/-- A map of records with the value of one key replaced. -/
def ins {α : Type} (m : Sparse α) (k : Nat) (v : α) : Sparse α := insertKey k v (dropKey m k)

/-- A map with the value of one key replaced; the default is not listed. -/
def put {α : Type} [DecidableEq α] (d : α) (m : Sparse α) (k : Nat) (v : α) : Sparse α :=
  if v = d then dropKey m k else ins m k v

/-! ## Bytes of a memory -/

/-- The canonical form of a memory: addresses strictly rising, no entry that reads as an unlisted byte does. -/
def Memory.wf : List Host.Cell → Bool
  | [] => true
  | [(_, v)] => v != 0
  | (a, v) :: (b, w) :: rest => v != 0 && a < b && Memory.wf ((b, w) :: rest)

/-- One byte. What an unlisted byte reads as is 0: DESIGN CHOICE, unsafe, log 2. -/
def readByte (m : List Host.Cell) (a : Nat) : Byte := look 0 m a

/-- A memory with one byte written. -/
def writeByte (m : List Host.Cell) (a : Nat) (v : Byte) : List Host.Cell := put 0 m a v

/-- The cells of a range. -/
def cellsIn (m : List Host.Cell) (a n : Nat) : List Host.Cell := m.filter fun c => a ≤ c.1 && c.1 < a + n

/-- Bytes a to a + n - 1. -/
def readBytes (m : List Host.Cell) (a n : Nat) : List Byte :=
  let seg := cellsIn m a n
  (List.range n).map fun i => look 0 seg (a + i)

/-- The entries of consecutive bytes; zero bytes are not listed (log 2). -/
def cellsOf (a : Nat) : List Byte → List Host.Cell
  | [] => []
  | b :: rest => if b = 0 then cellsOf (a + 1) rest else (a, b) :: cellsOf (a + 1) rest

/-- A memory with consecutive bytes written. -/
def writeBytes (m : List Host.Cell) (a : Nat) (bs : List Byte) : List Host.Cell :=
  m.filter (fun c => c.1 < a) ++ cellsOf a bs ++ m.filter (fun c => a + bs.length ≤ c.1)

/-- A memory with a range zeroed (R401). -/
def zeroRange (m : List Host.Cell) (a n : Nat) : List Host.Cell := m.filter fun c => c.1 < a || a + n ≤ c.1

/-- The 64 bytes at an address, as a line. -/
def readLine (m : List Host.Cell) (a : Nat) : Line := BitVec.ofNat 512 (ofBytes (readBytes m a 64))

/-- The bytes of a line. -/
def lineBytes (v : Line) : List Byte := bytesOf 64 v.toNat

/-- A line from its bytes. -/
def lineOf (bs : List Byte) : Line := BitVec.ofNat 512 (ofBytes bs)

/-- The bits of a byte mask, each spread over its byte. -/
def maskBits (mask : BitVec 64) : Line :=
  BitVec.ofNat 512 (ofBytes ((List.range 64).map fun i => if mask.getLsbD i then 0xFF else 0))

/-- A line with the masked bytes of another. -/
def mergeLine (old new : Line) (mask : BitVec 64) : Line :=
  let m := maskBits mask
  (old &&& ~~~m) ||| (new &&& m)

/-- A memory with the masked bytes of a line written. -/
def writeLine (m : List Host.Cell) (a : Nat) (v : Line) (mask : BitVec 64) : List Host.Cell :=
  writeBytes m a (lineBytes (if mask = BitVec.allOnes 64 then v else mergeLine (readLine m a) v mask))

/-- CRC-32 (IEEE 802.3) over bytes, with the bit order, the preset and the inversion of that standard (R283; log 101). -/
def crc32 (bs : List Byte) : BitVec 32 :=
  let bit := fun (c : BitVec 32) (_ : Nat) => if c.getLsbD 0 then (c >>> 1) ^^^ 0xEDB88320 else c >>> 1
  ~~~bs.foldl (fun c b => (List.range 8).foldl bit (c ^^^ b.setWidth 32)) (BitVec.allOnes 32)

/-! ## Sets of natural numbers, rising -/

/-- A number into a rising list. -/
def insertNat (k : Nat) : List Nat → List Nat
  | [] => [k]
  | j :: rest => if k < j then k :: j :: rest else if k = j then j :: rest else j :: insertNat k rest

/-- A list with an element put in after those that it is not to stand before. -/
def insertBy {α : Type} (before : α → α → Bool) (a : α) : List α → List α
  | [] => [a]
  | b :: rest => if before a b then a :: b :: rest else b :: insertBy before a rest

/-- A list sorted by a key; elements with one key keep their order. -/
def sortBy {α : Type} (key : α → Nat) (l : List α) : List α :=
  l.foldl (fun acc a => insertBy (fun x y => key x < key y) a acc) []

/-- The lines that a range of bytes touches. -/
def linesOf (a n : Nat) : List Nat :=
  if n = 0 then [] else (List.range ((a + n - 1) / 64 - a / 64 + 1)).map fun i => (a / 64 + i) * 64

/-- Element i of a list, or a default. -/
def nth {α : Type} (d : α) (l : List α) (i : Nat) : α := (l[i]?).getD d

end Sys2Proof.Machine
end

