-- ==== Sys2Proof/Machine/Numeric.lean ====
section
/-!
DEFINITION. The number formats of chapter 03: the exact value of every code (R67 to R75), rounding (R77, R78), conversion
with its statistics events (R79), exact arithmetic and the sums of the matrix array (R81, R82).
-/

set_option Elab.async false
namespace Sys2Proof.Machine

/-! ## Values -/

/-- An exact value: (-1)^neg x m x 2^e, an infinity, or NaN. A zero keeps its sign. -/
inductive Val where
  | fin (neg : Bool) (m : Nat) (e : Int)
  | inf (neg : Bool)
  | nan
  deriving DecidableEq, Repr

def Val.isNan : Val → Bool
  | .nan => true
  | _ => false

def Val.isInf : Val → Bool
  | .inf _ => true
  | _ => false

def Val.isZero : Val → Bool
  | .fin _ 0 _ => true
  | _ => false

/-- The sign bit of a value. -/
def Val.isNeg : Val → Bool
  | .fin s _ _ => s
  | .inf s => s
  | .nan => false

def Val.neg : Val → Val
  | .fin s m e => .fin (!s) m e
  | .inf s => .inf (!s)
  | .nan => .nan

def Val.abs : Val → Val
  | .fin _ m e => .fin false m e
  | .inf _ => .inf false
  | .nan => .nan

/-- 2^i for an integer exponent, split into numerator and denominator. -/
def pow2Num (e : Int) : Nat := 2 ^ e.toNat
def pow2Den (e : Int) : Nat := 2 ^ (-e).toNat

/-- The integer m x 2^(e - q), when q does not exceed e. -/
def scaleTo (m : Nat) (e q : Int) : Nat := m * 2 ^ (e - q).toNat

/-- The exact integer of a finite value in units of 2^q, for q not above its exponent. -/
def Val.units (q : Int) : Val → Int
  | .fin s m e => if s then -(scaleTo m e q : Int) else (scaleTo m e q : Int)
  | _ => 0

/-- The exponent of a finite value; of a zero, the other operand decides. -/
def Val.exp : Val → Int
  | .fin _ _ e => e
  | _ => 0

/-- An integer number of units of 2^q as a value; zero is positive. -/
def Val.ofUnits (i : Int) (q : Int) : Val := .fin (i < 0) i.natAbs q

/-- floor(log2 (m x 2^e)) of a nonzero value. -/
def ilog2 (m : Nat) (e : Int) : Int := (Nat.log2 m : Int) + e

/-! ## Formats -/

/-- A binary format: exponent and mantissa widths, bias, and whether its all-ones exponent holds infinity and NaN
(R69, R72). -/
structure Fmt where
  ew : Nat
  mw : Nat
  bias : Int
  special : Bool
  deriving DecidableEq, Repr

def fmtF32 : Fmt := ⟨8, 23, 127, true⟩
def fmtBF16 : Fmt := ⟨8, 7, 127, true⟩
def fmtF16 : Fmt := ⟨5, 10, 15, true⟩
def fmtF64 : Fmt := ⟨11, 52, 1023, true⟩
def fmtF8A : Fmt := ⟨4, 3, 7, false⟩
def fmtF8B : Fmt := ⟨5, 2, 15, false⟩
def fmtF4 : Fmt := ⟨2, 1, 1, false⟩

/-- Sign, exponent and mantissa bits together. -/
def Fmt.width (f : Fmt) : Nat := 1 + f.ew + f.mw

/-- The quantum of the subnormals. -/
def Fmt.emin (f : Fmt) : Int := 1 - f.bias - f.mw

/-- The largest exponent field of a finite value. -/
def Fmt.etop (f : Fmt) : Nat := if f.special then 2 ^ f.ew - 2 else 2 ^ f.ew - 1

/-- The largest finite magnitude, as mantissa and exponent. -/
def Fmt.top (f : Fmt) : Nat × Int := (2 ^ (f.mw + 1) - 1, (f.etop : Int) - f.bias - f.mw)

/-- The value of a code (R69, R72). -/
def Fmt.decode (f : Fmt) (c : Nat) : Val :=
  let s := c / 2 ^ (f.ew + f.mw) % 2 == 1
  let e := c / 2 ^ f.mw % 2 ^ f.ew
  let m := c % 2 ^ f.mw
  if f.special && e == 2 ^ f.ew - 1 then (if m = 0 then .inf s else .nan)
  else if e = 0 then .fin s m f.emin
  else .fin s (2 ^ f.mw + m) ((e : Int) - f.bias - f.mw)

/-- The canonical NaN of an IEEE format (R70). -/
def Fmt.nan (f : Fmt) : Nat := (2 ^ f.ew - 1) * 2 ^ f.mw + 2 ^ (f.mw - 1)

/-- The code of an infinity. -/
def Fmt.infCode (f : Fmt) (neg : Bool) : Nat := (2 ^ f.ew - 1) * 2 ^ f.mw + (if neg then 2 ^ (f.ew + f.mw) else 0)

/-- The code of the largest finite magnitude. -/
def Fmt.topCode (f : Fmt) (neg : Bool) : Nat :=
  f.etop * 2 ^ f.mw + (2 ^ f.mw - 1) + (if neg then 2 ^ (f.ew + f.mw) else 0)

/-- The code of m x 2^q, a member of the format: q is its quantum and m at most 2^(mw + 1). -/
def Fmt.encode (f : Fmt) (neg : Bool) (m : Nat) (q : Int) : Nat :=
  let s := if neg then 2 ^ (f.ew + f.mw) else 0
  if m < 2 ^ f.mw then s + m
  else if m < 2 ^ (f.mw + 1) then s + (q - f.emin + 1).toNat * 2 ^ f.mw + (m - 2 ^ f.mw)
  else s + (q - f.emin + 2).toNat * 2 ^ f.mw

/-! ## Rounding -/

/-- The rounding modes of R77. -/
inductive RMode where
  | rne | rtz | rup | rdn
  deriving DecidableEq, Repr

/-- The mode that two bits name (R77). -/
def RMode.ofBits (b : BitVec 2) : RMode :=
  match b.toNat with
  | 0 => .rne
  | 1 => .rtz
  | 2 => .rup
  | _ => .rdn

/-- The integer that n / d rounds to, for a magnitude of a given sign; the tie goes to the even integer (R78). -/
def roundDiv (mode : RMode) (neg : Bool) (n d : Nat) : Nat :=
  let t := n / d
  let r := n % d
  match mode with
  | .rtz => t
  | .rup => if r = 0 ∨ neg then t else t + 1
  | .rdn => if r = 0 ∨ !neg then t else t + 1
  | .rne => if 2 * r < d then t else if 2 * r > d then t + 1 else if t % 2 = 0 then t else t + 1

/-- floor(log2 ((n / d) x 2^e)) for n, d > 0. -/
def log2Frac (n d : Nat) (e : Int) : Int :=
  let l : Int := (Nat.log2 n : Int) - (Nat.log2 d : Int)
  let fits := if l ≥ 0 then n ≥ d * 2 ^ l.toNat else n * 2 ^ (-l).toNat ≥ d
  (if fits then l else l - 1) + e

/-- The member of a format, its range limit ignored, that the magnitude (n / d) x 2^e rounds to: mantissa and quantum
(R78). -/
def Fmt.roundMag (f : Fmt) (mode : RMode) (neg : Bool) (n d : Nat) (e : Int) : Nat × Int :=
  let q := max (log2Frac n d e - f.mw) f.emin
  (roundDiv mode neg (n * pow2Num (e - q)) (d * pow2Den (e - q)), q)

/-- m x 2^q exceeds M x 2^Q. -/
def exceeds (m : Nat) (q : Int) (M : Nat) (Q : Int) : Bool :=
  let b := min q Q
  m * 2 ^ (q - b).toNat > M * 2 ^ (Q - b).toNat

/-- The statistics events that an operation on one element can raise (R359): OVERFLOW, UNDERFLOW, SATURATION,
NAN_PRODUCED, NAN_TO_FINITE. -/
structure Events where
  overflow : Bool
  underflow : Bool
  saturation : Bool
  nanProduced : Bool
  nanToFinite : Bool
  deriving DecidableEq, Repr

def Events.none : Events := ⟨false, false, false, false, false⟩

def Events.or (a b : Events) : Events :=
  ⟨a.overflow || b.overflow, a.underflow || b.underflow, a.saturation || b.saturation, a.nanProduced || b.nanProduced,
    a.nanToFinite || b.nanToFinite⟩

/-- The event codes of R359 that are raised, ascending. -/
def Events.codes (v : Events) : List Nat :=
  (if v.overflow then [1] else []) ++ (if v.underflow then [2] else []) ++ (if v.saturation then [3] else [])
    ++ (if v.nanProduced then [4] else []) ++ (if v.nanToFinite then [5] else [])

/-- The conversion of a nonzero magnitude (n / d) x 2^e to a float format, by the columns of R79 for finite x. -/
def Fmt.convFrac (f : Fmt) (mode : RMode) (neg : Bool) (n d : Nat) (e : Int) : Nat × Events :=
  let (m, q) := f.roundMag mode neg n d e
  let beyond := exceeds m q f.top.1 f.top.2
  if beyond then
    if f.special then
      let toInf := match mode with
        | .rne => true
        | .rtz => false
        | .rup => !neg
        | .rdn => neg
      (if toInf then f.infCode neg else f.topCode neg, { Events.none with overflow := true })
    else (f.topCode neg, { Events.none with saturation := true })
  else (f.encode neg m q, { Events.none with underflow := m == 0 })

/-- The conversion of an exact value to a float format (R79). -/
def Fmt.conv (f : Fmt) (mode : RMode) : Val → Nat × Events
  | .nan => if f.special then (f.nan, Events.none) else (0, { Events.none with nanToFinite := true })
  | .inf s => if f.special then (f.infCode s, Events.none) else (f.topCode s, { Events.none with saturation := true })
  | .fin s 0 _ => (f.encode s 0 f.emin, Events.none)
  | .fin s m e => f.convFrac mode s m 1 e

/-! ## DP2 -/

/-- Twice-signed powers of two of a DP2 byte, in units of 2^-6 (R73). -/
def dp2Term (sgn : Bool) (e : Nat) : Int := if e = 7 then 0 else if sgn then -(2 ^ (6 - e) : Int) else (2 ^ (6 - e) : Int)

/-- The value of a DP2 byte in units of 2^-6 (R73). -/
def dp2Units (b : Nat) : Int := dp2Term (b / 128 % 2 == 1) (b / 16 % 8) + dp2Term (b / 8 % 2 == 1) (b % 8)

/-- The canonical code of a DP2 value in units of 2^-6: 0x77 for zero, else the smallest byte (R74). -/
def dp2Code (u : Int) : Option Nat := if u = 0 then some 0x77 else (List.range 256).find? fun b => dp2Units b == u

/-- The DP2 values in units of 2^-6, rising, without repeats. -/
def dp2Values : List Int := ((List.range 257).map fun (i : Nat) => (i : Int) - 128).filter fun u => (dp2Code u).isSome

/-- The largest power of two that divides a nonzero number of units; zero counts as largest (R78). -/
def dp2Weight (u : Int) : Nat := if u = 0 then 100 else (List.range 9).foldl (fun a k => if u % (2 ^ k : Int) = 0 then k else a) 0

/-- x is n / d in units of 2^-6, signed: the DP2 value it rounds to, for |x| at most 2 (R78). -/
def dp2Round (mode : RMode) (n : Int) (d : Nat) : Int :=
  let lower := (dp2Values.filter fun u => u * d ≤ n).getLastD (-128)
  let upper := (dp2Values.filter fun u => u * d ≥ n).headD 128
  if lower = upper then lower
  else match mode with
    | .rtz => if n ≥ 0 then lower else upper
    | .rup => upper
    | .rdn => lower
    | .rne =>
      let dl := n - lower * d
      let du := upper * d - n
      if dl < du then lower else if du < dl then upper
      else if dp2Weight lower > dp2Weight upper then lower
      else if dp2Weight upper > dp2Weight lower then upper
      else if lower.natAbs < upper.natAbs then lower else upper

/-- The conversion of a magnitude (n / d) x 2^e to DP2 (R79). -/
def dp2Frac (mode : RMode) (neg : Bool) (n d : Nat) (e : Int) : Nat × Events :=
  let num := n * pow2Num (e + 6)
  let den := d * pow2Den (e + 6)
  if num > 128 * den then (if neg then 0x88 else 0x00, { Events.none with saturation := true })
  else
    let u := dp2Round mode (if neg then -(num : Int) else num) den
    ((dp2Code u).getD 0x77, { Events.none with underflow := u == 0 && n != 0 })

/-! ## Integers -/

/-- The conversion of a magnitude (n / d) x 2^e to an integer between two limits (R79). -/
def intFrac (mode : RMode) (neg : Bool) (n d : Nat) (e : Int) (lo hi : Int) : Int × Events :=
  let m := roundDiv mode neg (n * pow2Num e) (d * pow2Den e)
  let i : Int := if neg then -(m : Int) else m
  if i < lo then (lo, { Events.none with saturation := true })
  else if i > hi then (hi, { Events.none with saturation := true })
  else (i, { Events.none with underflow := m == 0 && n != 0 })

/-- The conversion of an exact value to an integer between two limits (R79). -/
def intConv (mode : RMode) (lo hi : Int) : Val → Int × Events
  | .nan => (0, { Events.none with nanToFinite := true })
  | .inf s => (if s then lo else hi, { Events.none with saturation := true })
  | .fin s m e => intFrac mode s m 1 e lo hi

/-! ## Element formats -/

/-- The width of an element format in bits (R67). -/
def efcWidth (c : Nat) : Nat :=
  match c with
  | 0 => 32
  | 1 => 16
  | 2 => 16
  | 3 => 64
  | 4 => 32
  | 5 => 16
  | 6 => 8
  | 7 => 8
  | 8 => 8
  | 9 => 8
  | 10 => 4
  | 11 => 4
  | 12 => 8
  | _ => 64

/-- The float formats of the codes (R67). -/
def efcFmt (c : Nat) : Option Fmt :=
  match c with
  | 0 => some fmtF32
  | 1 => some fmtBF16
  | 2 => some fmtF16
  | 3 => some fmtF64
  | 8 => some fmtF8A
  | 9 => some fmtF8B
  | 10 => some fmtF4
  | _ => none

/-- The integer limits of the codes (R71). -/
def efcLimits (c : Nat) : Int × Int :=
  if c = 7 then (0, 255) else (-(2 ^ (efcWidth c - 1) : Int), 2 ^ (efcWidth c - 1) - 1)

/-- The format is one of the integers I32, I16, I8, U8, I4. -/
def efcIsInt (c : Nat) : Bool := (4 ≤ c && c ≤ 7) || c == 11

/-- The exact value of an element's bits (R67 to R73). -/
def efcDecode (c n : Nat) : Val :=
  match efcFmt c with
  | some f => f.decode n
  | none =>
    if c = 12 then Val.ofUnits (dp2Units n) (-6)
    else if c = 7 then .fin false (n % 256) 0
    else Val.ofUnits (signedOf (efcWidth c) n) 0

/-- A magnitude (n / d) x 2^e into an element format (R79). -/
def efcFrac (c : Nat) (mode : RMode) (neg : Bool) (n d : Nat) (e : Int) : Nat × Events :=
  match efcFmt c with
  | some f => if n = 0 then (f.encode neg 0 f.emin, Events.none) else f.convFrac mode neg n d e
  | none =>
    if c = 12 then dp2Frac mode neg n d e
    else
      let r := intFrac mode neg n d e (efcLimits c).1 (efcLimits c).2
      (wrap (efcWidth c) r.1, r.2)

/-- An exact value into an element format (R79). -/
def efcConv (c : Nat) (mode : RMode) (v : Val) : Nat × Events :=
  match efcFmt c with
  | some f => f.conv mode v
  | none =>
    if c = 12 then
      match v with
      | .nan => (0x77, { Events.none with nanToFinite := true })
      | .inf s => (if s then 0x88 else 0x00, { Events.none with saturation := true })
      | .fin s m e => dp2Frac mode s m 1 e
    else
      let r := intConv mode (efcLimits c).1 (efcLimits c).2 v
      (wrap (efcWidth c) r.1, r.2)

/-! ## Exact arithmetic (R70, R108, R163) -/

/-- The exact sum of two values; an exact zero sum of opposite signs is +0, or -0 under RDN (R70). -/
def Val.add (mode : RMode) : Val → Val → Val
  | .nan, _ => .nan
  | _, .nan => .nan
  | .inf s, .inf t => if s = t then .inf s else .nan
  | .inf s, _ => .inf s
  | _, .inf t => .inf t
  | .fin s m e, .fin t k g =>
    if m = 0 ∧ k = 0 then (if s = t then .fin s 0 e else .fin (mode == .rdn) 0 e)
    else if m = 0 then .fin t k g
    else if k = 0 then .fin s m e
    else
      let q := min e g
      let u := Val.units q (.fin s m e) + Val.units q (.fin t k g)
      if u = 0 then .fin (mode == .rdn) 0 q else Val.ofUnits u q

def Val.sub (mode : RMode) (a b : Val) : Val := Val.add mode a b.neg

/-- The exact product. The sign of a zero product is the exclusive OR of the factors' signs, also where the format of a factor has no
negative zero (DEDUCED, log 115). -/
def Val.mul : Val → Val → Val
  | .nan, _ => .nan
  | _, .nan => .nan
  | .inf s, .inf t => .inf (s != t)
  | .inf s, .fin t k _ => if k = 0 then .nan else .inf (s != t)
  | .fin s m _, .inf t => if m = 0 then .nan else .inf (s != t)
  | .fin s m e, .fin t k g => .fin (s != t) (m * k) (e + g)

/-- The value scaled by 2^k. -/
def Val.shift (k : Int) : Val → Val
  | .fin s m e => .fin s m (e + k)
  | v => v

/-- a < b for non-NaN values; -0 and +0 are equal. -/
def Val.lt : Val → Val → Bool
  | .nan, _ => false
  | _, .nan => false
  | .inf s, .inf t => s && !t
  | .inf s, _ => s
  | _, .inf t => !t
  | .fin s m e, .fin t k g =>
    let q := min e g
    Val.units q (.fin s m e) < Val.units q (.fin t k g)

/-- a = b for non-NaN values; -0 equals +0. -/
def Val.beq : Val → Val → Bool
  | .nan, _ => false
  | _, .nan => false
  | .inf s, .inf t => s == t
  | .fin s m e, .fin t k g =>
    let q := min e g
    Val.units q (.fin s m e) == Val.units q (.fin t k g)
  | _, _ => false

/-- The smaller value: -0 below +0; one NaN gives the other; two give NaN (R108). -/
def Val.min (a b : Val) : Val :=
  if a.isNan then b else if b.isNan then a
  else if a.lt b then a else if b.lt a then b else if a.isNeg then a else b

/-- The larger value: +0 above -0; NaN as min (R108). -/
def Val.max (a b : Val) : Val :=
  if a.isNan then b else if b.isNan then a
  else if a.lt b then b else if b.lt a then a else if a.isNeg then b else a

/-- A result rounded into a float format, with its events; NaN from non-NaN inputs is NAN_PRODUCED (R70, R79). -/
def Fmt.result (f : Fmt) (mode : RMode) (inNan : Bool) (v : Val) : Nat × Events :=
  let r := f.conv mode v
  (r.1, { r.2 with nanProduced := v.isNan && !inNan })

/-- a / b rounded once: x / 0 is a signed infinity without a record, 0 / 0 and infinity / infinity are NaN (R108, R165). -/
def Fmt.divide (f : Fmt) (mode : RMode) (a b : Val) : Nat × Events :=
  let nan := a.isNan || b.isNan
  match a, b with
  | .fin s m e, .fin t k g =>
    if k = 0 then (if m = 0 then f.result mode nan .nan else (f.infCode (s != t), Events.none))
    else if m = 0 then (f.encode (s != t) 0 f.emin, Events.none)
    else f.convFrac mode (s != t) m k (e - g)
  | .inf s, .fin t _ _ => (f.infCode (s != t), Events.none)
  | .fin s _ _, .inf t => (f.encode (s != t) 0 f.emin, Events.none)
  | _, _ => f.result mode nan .nan

/-- The integer square root by its bits from the highest: `fuel` bits, remaining value in `r`. -/
def isqrtAux : Nat → Nat → Nat → Nat
  | 0, _, a => a
  | k + 1, n, a =>
    let c := a + 2 ^ k
    isqrtAux k n (if c * c ≤ n then c else a)

/-- floor of the square root. -/
def isqrt (n : Nat) : Nat := isqrtAux (Nat.log2 n / 2 + 1) n 0

/-- The square root of m x 2^e (m > 0) to at least p bits with a sticky bit: mantissa and exponent. -/
def sqrtSticky (m : Nat) (e : Int) (p : Nat) : Nat × Int :=
  let sh := 2 * p + (if e % 2 = 0 then 0 else 1)
  let n := m * 2 ^ sh
  let r := isqrt n
  (2 * r + (if r * r = n then 0 else 1), (e - sh) / 2 - 1)

/-- The square root rounded once: of -0, -0; of a negative value, NaN (R108, R165). -/
def Fmt.sqrt (f : Fmt) (mode : RMode) (a : Val) : Nat × Events :=
  match a with
  | .nan => f.result mode true .nan
  | .inf s => if s then f.result mode false .nan else (f.infCode false, Events.none)
  | .fin s m e =>
    if m = 0 then (f.encode s 0 f.emin, Events.none)
    else if s then f.result mode false .nan
    else
      let r := sqrtSticky m e (f.mw + 4)
      f.convFrac mode false r.1 1 r.2

/-! ## Sums -/

/-- The least exponent among values, at most a bound. -/
def minExp (vs : List Val) : Int := vs.foldl (fun a v => if v.isZero then a else min a v.exp) 100000

/-- The exact sum of many values: NaN, or infinities of both signs, give NaN; one kind of infinity gives it; a zero sum
follows R70; an empty set gives +0 (R175). -/
def exactSum (mode : RMode) (vs : List Val) : Val :=
  if vs.any Val.isNan then .nan
  else if vs.any Val.isInf then
    let pos := vs.any fun v => v == .inf false
    let neg := vs.any fun v => v == .inf true
    if pos && neg then .nan else .inf neg
  else if vs.all Val.isZero then
    if vs.isEmpty then .fin false 0 0
    else if vs.all Val.isNeg then .fin true 0 0
    else if vs.all (fun v => !v.isNeg) then .fin false 0 0
    else .fin (mode == .rdn) 0 0
  else
    let q := minExp vs
    let u := vs.foldl (fun a v => a + v.units q) 0
    if u = 0 then .fin (mode == .rdn) 0 q else Val.ofUnits u q

/-- The largest exponent floor(log2 |v|) among the nonzero terms. -/
def maxLog (vs : List Val) : Int :=
  vs.foldl (fun a v => match v with
    | .fin _ m e => if m = 0 then a else max a (ilog2 m e)
    | _ => a) (-1000000)

/-- One term in units of q = 2^(emax - 48), floored (R81). -/
def floorUnits (q : Int) : Val → Int
  | .fin s m e =>
    let n := m * pow2Num (e - q)
    let d := pow2Den (e - q)
    let i : Int := if s then -(n : Int) else n
    i / (d : Int)
  | _ => 0

/-- The accumulation of R81 over the starting value and the products or block terms: an F32 code with its events. -/
def accumulate (inNan : Bool) (vs : List Val) : Nat × Events :=
  if vs.any Val.isNan || (vs.any (· == .inf false) && vs.any (· == .inf true)) then
    (fmtF32.nan, { Events.none with nanProduced := !inNan })
  else if vs.any Val.isInf then (fmtF32.infCode (vs.any (· == .inf true)), Events.none)
  else
    let nz := vs.filter fun v => !v.isZero
    if nz.isEmpty then (if vs.all Val.isNeg then 2 ^ 31 else 0, Events.none)
    else
      let q := maxLog nz - 48
      let acc := nz.foldl (fun a v => a + floorUnits q v) 0
      if acc = 0 then (0, Events.none)
      else
        let r := fmtF32.conv .rne (Val.ofUnits acc q)
        (r.1, { r.2 with underflow := false })

/-! ## Packing -/

/-- Element i of a line in a format of width w (R68). -/
def elemOf (w : Nat) (l : Line) (i : Nat) : Nat := l.toNat / 2 ^ (w * i) % 2 ^ w

/-- A line from its elements, element 0 first (R68). -/
def packElems (w : Nat) (es : List Nat) : Line :=
  BitVec.ofNat 512 (es.foldr (fun e a => e % 2 ^ w + 2 ^ w * a) 0)

/-- Elements of a register of a format (R68, R158). -/
def elemsPer (w : Nat) : Nat := 512 / w

/-- All elements of a line. -/
def elemsOf (w : Nat) (l : Line) : List Nat := (List.range (elemsPer w)).map (elemOf w l)

end Sys2Proof.Machine
end

