-- ==== Sys2Proof/Machine/Blocks.lean ====
section
/-!
DEFINITION. The fields of a vector syllable (R43) and the registers that a block reads in each of its steps (R153, R160).
-/

set_option Elab.async false
namespace Sys2Proof

/-- VST and VSTS: the step reads its register and queues the write of its line (R146). -/
def isBlockStore : Instr → Bool
  | .vst _ _ _ _ | .vsts _ _ _ _ => true
  | _ => false

end Sys2Proof

namespace Sys2Proof.Machine

/-! ## Fields (R43) -/

/-- The fields of a vector syllable. -/
structure VFields where
  op : Nat
  fmt : Nat
  m : Bool
  wd : Nat
  wa : Nat
  wb : Nat
  deriving DecidableEq, Repr

def vfields (i : Instr) : VFields :=
  let w := i.encode.toNat
  { op := field w 25 7, fmt := field w 22 3, m := flag w 21, wd := field w 14 7, wa := field w 7 7, wb := field w 0 7 }

/-- Element width and elements per register of a format (R67, R158, R171). -/
def perReg (c : Nat) : Nat := 512 / efcWidth c

/-- Two-sided conversions: source and destination format (R172 to R174). -/
def convSides (v : VFields) : Nat × Nat := if v.op = 0x32 ∨ v.op = 0x34 then (v.wb, v.fmt) else (v.fmt, v.wb)

/-- Register i of the block of operand w (R153). -/
def blockReg (n wb cols w i : Nat) : Nat := (wb + w + 32 * (i / cols) + i % cols) % n

/-! ## What a block reads -/

/-- Registers of the narrow linear side of a conversion over n wide registers (R171). -/
def narrowCount (n ew en : Nat) : Nat := ceilDiv (n * ew) en

/-- The registers that step i of a block reads, as indices in the share; N is the register count (R153, R160, R171 to
R181). -/
def Block.reads (b : Block) (count i : Nat) : List Nat :=
  let v := vfields b.op
  let n := b.rows * b.cols
  let reg := fun w => blockReg count b.wb b.cols w i
  let single := fun w => (b.wb + w) % count
  let lin := fun w j => (b.wb + w + j) % count
  match v.op with
  | 0x14 | 0x48 => []
  | 0x0B | 0x08 | 0x09 | 0x0F | 0x13 | 0x15 | 0x16 | 0x40 | 0x41 | 0x42 | 0x43 | 0x45 | 0x47 | 0x50 | 0x51 | 0x52 | 0x53
  | 0x54 | 0x55 | 0x56 | 0x57 | 0x58 | 0x59 | 0x5A => [reg v.wa]
  | 0x46 => if i = 0 then [single v.wa] else []
  | 0x04 | 0x05 => [reg v.wa, reg v.wb, reg v.wd]
  | 0x30 | 0x31 | 0x32 | 0x33 | 0x34 =>
    let (src, dst) := convSides v
    let es := perReg src
    let ed := perReg dst
    if es ≤ ed then [reg v.wa]
    else
      let k := narrowCount n ed es
      (if v.op = 0x32 ∧ i = 0 then [lin v.wa k] else [])
        ++ ((List.range k).filter fun j => j * es / ed = i).map (lin v.wa)
  | _ => [reg v.wa, reg v.wb]

/-- The register word of a VST block in its step. -/
def blockStoreReg : Instr → Nat
  | .vst w _ _ _ | .vsts w _ _ _ => w.toNat
  | _ => 0

/-- The registers of the share that a block has still to read; N is the register count (R162). -/
def Block.unread (b : Block) (count : Nat) : List Nat :=
  ((List.range (b.rows * b.cols)).drop b.step).flatMap fun i =>
    if isBlockStore b.op then [blockReg count b.wb b.cols (blockStoreReg b.op) i] else b.reads count i

end Sys2Proof.Machine
end

