-- ==== Sys2Proof/Machine/Ops.lean ====
section
/-!
DEFINITION. The named operations over the state: which core, strand, team and die is meant, the layout of a pool, registers,
results in flight, control registers, tokens, the end of a strand, taking a trap and returning from one, and what becomes
of a bundle that faults, blocks or is held.
-/

set_option Elab.async false
namespace Sys2Proof.Machine

/-- What a meaning answers. -/
abbrev Out := Host.Outcome State Fault Refusal

/-! ## Parts of the state -/

/-- The value of a key, if it is listed. -/
def seek {α : Type} (m : Sparse α) (k : Nat) : Option α := (m.find? fun e => e.1 == k).map (·.2)

def State.core (s : State) (c : Nat) : Core := look Core.reset s.cores c
def State.setCore (s : State) (c : Nat) (k : Core) : State := { s with cores := ins s.cores c k }
def State.modCore (s : State) (c : Nat) (f : Core → Core) : State := s.setCore c (f (s.core c))
def Core.strand (k : Core) (n : Nat) : Strand := look Strand.reset k.strands n
def Core.setStrand (k : Core) (n : Nat) (t : Strand) : Core := { k with strands := ins k.strands n t }
def State.strand (s : State) (c n : Nat) : Strand := (s.core c).strand n
def State.modStrand (s : State) (c n : Nat) (f : Strand → Strand) : State :=
  s.modCore c fun k => k.setStrand n (f (k.strand n))
def State.die (s : State) (d : Nat) : Die := look Die.reset s.dies d
def State.modDie (s : State) (d : Nat) (f : Die → Die) : State := { s with dies := ins s.dies d (f (s.die d)) }
def Die.team (k : Die) (t : Nat) : Team := look Team.reset k.teams t
def State.team (s : State) (d t : Nat) : Team := (s.die d).team t
def State.modTeam (s : State) (d t : Nat) (f : Team → Team) : State :=
  s.modDie d fun k => { k with teams := ins k.teams t (f (k.team t)) }
def State.part (s : State) (p : Nat) : Partition := look Partition.reset s.parts p
def State.modPart (s : State) (p : Nat) (f : Partition → Partition) : State := { s with parts := ins s.parts p (f (s.part p)) }
def State.vf (s : State) (v : Nat) : Vf := look Vf.reset s.vfs v
def State.modVf (s : State) (v : Nat) (f : Vf → Vf) : State := { s with vfs := ins s.vfs v (f (s.vf v)) }

/-- The strand that issues. -/
def State.me (s : State) : Strand := s.strand s.issue.core s.issue.strand
def State.modMe (s : State) (f : Strand → Strand) : State := s.modStrand s.issue.core s.issue.strand f
def State.myCore (s : State) : Core := s.core s.issue.core
def State.modMyCore (s : State) (f : Core → Core) : State := s.modCore s.issue.core f
def Strand.lane (t : Strand) (lg : Nat) : Lane := look Lane.reset t.lanes lg
def Strand.modLane (t : Strand) (lg : Nat) (f : Lane → Lane) : Strand :=
  { t with lanes := put Lane.reset t.lanes lg (f (t.lane lg)) }

/-- A core that has been left behind takes up the time of its die (log 7). -/
def Core.catchUp (k : Core) (now : Nat) : Core :=
  let lag := now - 1 - k.cycle
  { k with cycle := k.cycle + lag, mtime := k.mtime + lag }

/-- A free value (log 19): the next open choice of the run, and the state with it drawn. -/
def State.draw (s : State) : Nat × State := (Config.free s.fresh, { s with fresh := s.fresh + 1 })

/-! ## Who is where (R13, R17, R18, R20 to R23) -/

/-- The die, physical cluster and place in its cluster of a core. -/
def coreDie (c : Nat) : Nat := c / 128
def corePhys (c : Nat) : Nat := c / 8 % 16
def coreIn (c : Nat) : Nat := c % 8

/-- The partition that holds a core's cluster, and the cluster's logical number (R22). -/
def State.placeOf (s : State) (c : Nat) : Option (Nat × Nat) :=
  s.parts.findSome? fun e =>
    if e.2.exists_ then
      (e.2.clusters.find? fun k => k.1 / 16 == coreDie c && k.2 == corePhys c).map fun k => (e.1, k.1 % 16)
    else none

/-- The team that runs on a core (R21). -/
def State.teamOn (s : State) (c : Nat) : Option Nat := (s.placeOf c).bind fun p => seek (s.die (coreDie c)).running p.1

/-- The team index of a core's strands. -/
def State.teamAt (s : State) (c : Nat) : Nat := (s.teamOn c).getD 0

/-- The logical cluster of a core. -/
def State.logicalCluster (s : State) (c : Nat) : Nat := ((s.placeOf c).map (·.2)).getD 0

/-- The logical clusters of a partition on a die, rising. -/
def State.clustersOn (s : State) (p d : Nat) : List Nat :=
  (s.part p).clusters.filterMap fun e => if e.1 / 16 = d then some (e.1 % 16) else none

/-- The physical core of a logical core of a partition on a die. -/
def State.physCore (s : State) (p d cl co : Nat) : Option Nat :=
  (seek (s.part p).clusters (16 * d + cl)).map fun ph => 128 * d + 8 * ph + co

/-- The physical cores of a partition on a die, by logical cluster and core. -/
def State.coresOf (s : State) (p d : Nat) : List Nat :=
  (s.clustersOn p d).flatMap fun cl => (List.range 8).filterMap fun co => s.physCore p d cl co

/-- The conductor core of a partition's team on a die (R18). -/
def State.conductorCore (s : State) (p d : Nat) : Option Nat :=
  (s.clustersOn p d).head?.bind fun cl => s.physCore p d cl 0

/-- A strand is a conductor: strand 3 of the conductor core (R18). -/
def State.isConductor (s : State) (c n : Nat) : Bool :=
  n == 3 && (match s.placeOf c with
    | some p => s.conductorCore p.1 (coreDie c) == some c
    | none => false)

/-- The logical name of a strand. -/
def State.nameOf (s : State) (c n : Nat) : StrandName := { cl := s.logicalCluster c, co := coreIn c, n := n }

/-- The core that a name of a team means. -/
def State.coreNamed (s : State) (d t : Nat) (w : StrandName) : Option Nat := s.physCore (s.team d t).part d w.cl w.co

/-- The team is on its cores (R367). -/
def State.resident (s : State) (d t : Nat) : Bool := seek (s.die d).running (s.team d t).part == some t

/-- The die and team of the issuing strand. -/
def State.myDie (s : State) : Nat := coreDie s.issue.core
def State.myTeamIndex (s : State) : Nat := s.teamAt s.issue.core
def State.myTeam (s : State) : Team := s.team s.myDie s.myTeamIndex
def State.modMyTeam (s : State) (f : Team → Team) : State := s.modTeam s.myDie s.myTeamIndex f
def State.meConductor (s : State) : Bool := s.isConductor s.issue.core s.issue.strand

/-- The endpoint identifier of a die of this package, which is package 0 (R23; log 20). -/
def endpointOf (d : Nat) : Nat := d

/-! ## The pool partition word (R121 to R124) -/

def partRegs (w : Word32) : Nat := w.toNat % 16
def partAcc (w : Word32) : Nat := w.toNat / 16 % 64
def partOpnd (w : Word32) : Nat := w.toNat / 1024 % 4

/-- Node strands per core. -/
def partStrands (w : Word32) : Nat := 2 ^ (w.toNat / 4096 % 4)

/-- R121, R122. -/
def partLegal (w : Word32) : Bool :=
  partRegs w ≤ 10 && partAcc w ≤ 32 && partOpnd w ≤ 2 && w.toNat / 4096 % 4 ≤ 2 && w.toNat / 2 ^ 14 == 0

/-- Register-file, operand-memory and scratchpad sizes in bytes (R121, R123). -/
def vrfSize (w : Word32) : Nat := (256 + 128 * partRegs w) * 1024
def opndSize (w : Word32) : Nat := if partOpnd w = 0 then 0 else 131072 * partOpnd w
def scratchSize (w : Word32) : Nat := 4194304 - vrfSize w - 16384 * partAcc w - opndSize w

/-- Operand slots: o0 to o(n - 1) (R192). -/
def slotCount (w : Word32) : Nat := opndSize w / 4096

/-- The modulus of scratchpad offsets (R124). -/
def scratchMod (w : Word32) : Nat := if scratchSize w ≤ 2097152 then 2097152 else 4194304

/-- An offset reduced; none when it lies in the hole (R124). -/
def scratchAt (w : Word32) (o : Nat) : Option Nat :=
  let r := o % scratchMod w
  if r < scratchSize w then some r else none

/-- Pool byte of an operand slot, of an accumulator tile, of a vector register of a strand's share (R123). -/
def slotAddr (w : Word32) (o : Nat) : Nat := scratchSize w + 4096 * o
def tileAddr (w : Word32) (t : Nat) : Nat := scratchSize w + opndSize w + 16384 * t
def vregAddr (w : Word32) (lg share reg : Nat) : Nat :=
  4194304 - vrfSize w + lg * (vrfSize w / 8) + share * (vrfSize w / (8 * partStrands w)) + 64 * reg

/-- Registers of one strand in one lane group (R151). -/
def vregCount (w : Word32) : Nat := vrfSize w / (8 * partStrands w) / 64

/-! ## Registers -/

/-- A scalar register; x0 reads as zero (R88). Codes 56 to 63 name streams and are not registers. -/
def Strand.reg (t : Strand) (r : BitVec 6) : Word :=
  if r = 0 then 0 else if h : r.toNat < 56 then t.x[r.toNat] else 0

/-- A write of a scalar register; a write to x0 is discarded (R88). -/
def Strand.setReg (t : Strand) (r : BitVec 6) (v : Word) (mark : Bool) : Strand :=
  if r = 0 then t
  else if h : r.toNat < 56 then
    { t with x := t.x.set r.toNat v, marks := if mark then t.marks ||| ((1 : BitVec 56) <<< r.toNat) else t.marks &&& ~~~((1 : BitVec 56) <<< r.toNat) }
  else t

/-- The poison mark of a scalar register (R348). -/
def Strand.regMark (t : Strand) (r : BitVec 6) : Bool := r != 0 && t.marks.getLsbD r.toNat

/-- A pool line with its poison mark. -/
def Core.line (k : Core) (a : Nat) : Line × Bool := (readLine k.pool a, k.poolPoison.contains (a / 64 * 64))

/-- A write of the masked bytes of a pool line: marked data poison it; a whole clean line clears it (R348). -/
def Core.setLine (k : Core) (a : Nat) (v : Line) (mask : BitVec 64) (mark : Bool) : Core :=
  { k with
    pool := writeLine k.pool a v mask
    written := insertNat (a / 4096) k.written
    poolPoison := if mark then insertNat a k.poolPoison
      else if mask = BitVec.allOnes 64 then k.poolPoison.filter (· != a) else k.poolPoison }

/-- A vector register of a strand's share, by its index in the share. -/
def Core.vreg (k : Core) (lg share reg : Nat) : Line × Bool := k.line (vregAddr k.part lg share reg)

/-! ## HBM and held lines (R130, R138, R139, R328) -/

/-- A byte of HBM lies in the range of a tracker (R301). -/
def Tracker.covers (k : Tracker) (pa : Nat) : Bool :=
  k.pages.zipIdx.any fun p =>
    p.1 == pa / 65536 &&
      (let va := k.base.toNat / 65536 * 65536 + 65536 * p.2 + pa % 65536
       k.base.toNat ≤ va && va < k.base.toNat + k.len)

/-- Bytes of HBM are written: the trackers of their ranges count each (R301). -/
def State.countWrites (s : State) (pas : List Nat) : State :=
  if s.dies.all fun e => e.2.teams.all fun t => t.2.trackers.isEmpty then s
  else { s with dies := s.dies.map fun e => (e.1, { e.2 with teams := e.2.teams.map fun t => (t.1, { t.2 with
    trackers := t.2.trackers.map fun k => { k with count := k.count + (pas.filter k.covers).length } }) }) }

/-- HBM with bytes written: marked data poison their lines, a whole clean line clears it (R348). -/
def State.hbmWrite (s : State) (pa : Nat) (bs : List Byte) (mark : Bool) : State :=
  let ls := linesOf pa bs.length
  let s := s.countWrites ((List.range bs.length).map (pa + ·))
  { s with
    hbm := writeBytes s.hbm pa bs
    hbmPoison := if mark then ls.foldl (fun p l => insertNat l p) s.hbmPoison
      else s.hbmPoison.filter fun l => !(pa ≤ l && l + 64 ≤ pa + bs.length) }

/-- The die whose stack holds a device physical address (R130). -/
def stackOf (pa : Nat) : Nat := pa / 51539607552

/-- A line of HBM with masked bytes written. -/
def State.hbmMerge (s : State) (pa : Nat) (v : Line) (mask : BitVec 64) (mark : Bool) : State :=
  let s := s.countWrites (((List.range 64).filter fun i => mask.getLsbD i).map (pa + ·))
  { s with
    hbm := writeLine s.hbm pa v mask
    hbmPoison := if mark then insertNat pa s.hbmPoison
      else if mask = BitVec.allOnes 64 then s.hbmPoison.filter (· != pa) else s.hbmPoison }

/-- The task under a holder; 0 for a phase. -/
def Holder.task : Holder → Nat
  | .phase _ _ _ => 0
  | .join _ _ _ k => k
  | .done _ k => k

/-- A holder commits: commit k takes its place on the lines and stores that it held (R139, R278, R328). -/
def State.commitHeld (s : State) (h : Holder) (k : Nat) : State :=
  let swap := fun hs : List Holder => hs.map fun x => if x = h then .done k h.task else x
  { s with
    dies := s.dies.map fun e => (e.1, { e.2 with staging := e.2.staging.map fun l => { l with holders := swap l.holders } })
    cores := s.cores.map fun e => (e.1, { e.2 with stores := e.2.stores.map fun w => { w with holders := swap w.holders } }) }

/-- A holder that is a commit. -/
def Holder.isDone : Holder → Bool
  | .done _ _ => true
  | _ => false

/-- A holder that is commit k. -/
def Holder.isCommit (k : Nat) : Holder → Bool
  | .done j _ => j == k
  | _ => false

/-- A commit has writes to perform on a die, or held stores on their way to it (R278). -/
def State.commitLeft (s : State) (d k : Nat) : Bool :=
  (s.die d).staging.any (fun l => l.holders.any (Holder.isCommit k)) || s.cores.any fun e => e.2.stores.any fun w =>
    w.holders.any (Holder.isCommit k) && (match w.target with
      | .hbm pa => stackOf pa == d
      | _ => false)

/-- A commit has been performed on every die (R278, R325). -/
def State.commitDone (s : State) (k : Nat) : Bool := !s.dies.any fun e => s.commitLeft e.1 k

/-- The strand has committed lines that are not yet performed and satisfy a test (R278). -/
def State.owesCommit (s : State) (d t : Nat) (w : StrandName) (p : HeldLine → Bool) : Bool :=
  s.dies.any fun e => e.2.staging.any fun l => l.who == w && l.d == d && l.t == t && l.holders.any Holder.isDone && p l

/-- A holder discards its lines and the held stores on their way (R139, R328). -/
def State.discardHeld (s : State) (h : Holder) : State :=
  { s with
    dies := s.dies.map fun e => (e.1, { e.2 with staging := e.2.staging.filter fun l => !l.holders.contains h })
    cores := s.cores.map fun e => (e.1, { e.2 with stores := e.2.stores.filter fun w => !w.holders.contains h }) }

/-- The open phase of a strand of a core as a holder (R138). -/
def State.phaseHolder (s : State) (c n : Nat) : Holder := .phase (coreDie c) (s.teamAt c) (s.nameOf c n)

/-- The open phase of a strand commits and closes (R119, R278). -/
def State.commitPhase (s : State) (c n : Nat) : State :=
  if (s.strand c n).phase.isSome then
    { (s.commitHeld (s.phaseHolder c n) s.nextId).modStrand c n fun t => { t with phase := none } with nextId := s.nextId + 1 }
  else s

/-- The open phase of a strand closes and its held stores are discarded. -/
def State.dropPhase (s : State) (c n : Nat) : State :=
  (s.discardHeld (s.phaseHolder c n)).modStrand c n fun t => { t with phase := none }

/-! ## Statistics (R358) -/

def mkRecord (addr : VAddr) (slot event count : Nat) (detail : Word) : StatRecord :=
  { addr := BitVec.ofNat 32 (addr.toNat / 4), event := BitVec.ofNat 8 event, slot := BitVec.ofNat 8 slot,
    count := BitVec.ofNat 16 (satTo 16 count), detail := detail }

/-- A record of the syllable that issues. -/
def State.record (s : State) (event count : Nat) (detail : Word) : StatRecord :=
  mkRecord s.issue.addr s.issue.slot event count detail

/-- The order of the records of one cycle: by slot; those of one syllable of a bundle by event code, then by what the detail
names. Records of an engine command stand as R244 puts them (R358). -/
def StatRecord.before (r q : StatRecord) : Bool :=
  r.slot.toNat < q.slot.toNat ||
    (r.slot == q.slot && r.slot != 14 && r.addr == q.addr &&
      (r.event.toNat < q.event.toNat || (r.event == q.event && r.detail.toNat < q.detail.toNat)))

/-- R358: a record into the queue of 64, in its place among the records of the cycle; a full queue drops the last of them and
counts it. -/
def Strand.append (t : Strand) (r : StatRecord) : Strand :=
  let old := t.stats.take (t.stats.length - t.newStats)
  let new := t.stats.drop (t.stats.length - t.newStats)
  let all := old ++ insertBy StatRecord.before r new
  if t.stats.length < 64 then { t with stats := all, newStats := t.newStats + 1 }
  else { t with
    stats := all.take 64
    ctl := { t.ctl with lost := if t.ctl.lost = BitVec.allOnes 32 then t.ctl.lost else t.ctl.lost + 1 } }

def Strand.appendAll (t : Strand) (rs : List StatRecord) : Strand := rs.foldl Strand.append t

/-- The consumption of poisoned data (R348, R349). -/
def Strand.consume (t : Strand) : Strand :=
  let n := if t.ctl.pcount = BitVec.allOnes 16 then t.ctl.pcount else t.ctl.pcount + 1
  { t with ctl := { t.ctl with poison := true, pcount := n } }

/-! ## Results in flight (R94, R96) -/

/-- The comparison that a mirror of the issuing syllable makes of its result: header address and mirror slot (R39, R354). -/
def Issue.compares (i : Issue) (w : Write) : Option (VAddr × BitVec 5) :=
  if i.mirrored && w != .none then some (i.addr, BitVec.ofNat 5 (i.slot + 1)) else none

/-- A result of latency L of the bundle that issues: due at strand time + L. -/
def State.result (s : State) (latency : Nat) (w : Write) (mark : Bool := false) (recs : List StatRecord := []) : State :=
  s.modMe fun t => { t with pend := t.pend ++
    [{ due := t.time + latency, seq := t.nextSeq, write := w, mark := mark, load := none, recs := recs,
       check := s.issue.compares w }] }

/-- A consumption without a result. -/
def State.consumed (s : State) (mark : Bool) : State := if mark then s.result 1 .none true else s

/-! ## Control registers (R101, R120) -/

/-- The fields that MTC writes, for every register of R101 that is the strand's own; reserved and RO fields keep. -/
def Ctl.write (k : Ctl) (i : Nat) (v : Word) : Ctl :=
  if i = 0x000 then
    { k with ppriv := v.getLsbD 1, exl := v.getLsbD 2, mirrorPending := k.mirrorPending && !v.getLsbD 3 }
  else if i = 0x002 then k
  else if i = 0x005 then { k with tvecEn := v.getLsbD 0, tvecBase := BitVec.ofNat 40 (v.toNat / 4) }
  else if i = 0x006 then { k with poison := v.getLsbD 0, mm := v.getLsbD 1 }
  else if i = 0x007 then { k with rmode := v.setWidth 2 }
  else if i = 0x008 then { k with ftv := v.setWidth 8 }
  else if i = 0x00B then { k with frostsw := v.setWidth 16 }
  else if h : 0x010 ≤ i ∧ i < 0x016 then { k with lc := k.lc.set (i - 0x010) (v.setWidth 32) (by omega) }
  else if h : 0x018 ≤ i ∧ i < 0x01E then { k with lstep := k.lstep.set (i - 0x018) (v.setWidth 54) (by omega) }
  else if i = 0x020 then { k with vstride := v.setWidth 26 }
  else if i = 0x021 then { k with lgstride := v.setWidth 26 }
  else if 0x030 ≤ i ∧ i < 0x040 then
    let b : BitVec 16 := 1 <<< (i - 0x030)
    { k with mslot := if v.getLsbD 0 then k.mslot ||| b else k.mslot &&& ~~~b }
  else k

/-- An MTC write that is due: SPINLIM is the team's (R102), EPC has its own width, the rest is the strand's. -/
def State.writeCtl (s : State) (c n : Nat) (i : BitVec 12) (v : Word) : State :=
  if i = 0x040 then s.modTeam (coreDie c) (s.teamAt c) fun t => { t with spinlim := v.setWidth 16 }
  else if i = 0x002 then s.modStrand c n fun t => { t with ctl := { t.ctl with epc := v.setWidth 42 } }
  else s.modStrand c n fun t => { t with ctl := t.ctl.write i.toNat v }

/-- Adds or removes a key of a list of marked places. -/
def markKey (l : List Nat) (k : Nat) (mark : Bool) : List Nat := if mark then insertNat k l else l.filter (· != k)

/-- The 32-bit words of a register in one kind of file, as an uncorrectable place counts them in its index: word w of vector
register r is place 16 r + w, half w of predicate r is place 2 r + w; the other files are always written whole (R356). -/
def placeWords : PlaceKind → Nat
  | .vectorReg => 16
  | .predicateReg => 2
  | _ => 1

/-- Words of a register that are written whole are no longer uncorrectable (R356). -/
def Strand.mendWords (t : Strand) (kind : PlaceKind) (group reg : Nat) (whole : Nat → Bool) : Strand :=
  { t with bad := t.bad.filter fun p => !(p.kind == kind && p.group == group && p.index / placeWords kind == reg && whole (p.index % placeWords kind)) }

/-- A register that is written whole is no longer uncorrectable (R356). -/
def Strand.mend (t : Strand) (kind : PlaceKind) (group reg : Nat) : Strand := t.mendWords kind group reg fun _ => true

/-- A register of a strand holds an uncorrectable word (R356). -/
def Strand.isBad (t : Strand) (kind : PlaceKind) (group reg : Nat) : Bool :=
  t.bad.any fun p => p.kind == kind && p.group == group && p.index / placeWords kind == reg

/-- A result for a vector register reaches the blocks that had that register saved at a trap, but for a handler's own result,
which the block would not have read (R162). -/
def Block.renew (b : Block) (seq lg reg : Nat) (v : Line) (mask : BitVec 64) (mark : Bool) : Block :=
  if b.lg = lg ∧ !(b.deaf.any fun r => r.1 ≤ seq && seq < r.2) then { b with saved := b.saved.map fun e =>
    if e.1 = reg then (reg, mergeLine e.2.1 v mask, mark || (e.2.2 && mask != BitVec.allOnes 64)) else e }
  else b

/-- A result for a vector register is seen by the blocks that a trap had suspended (R162). -/
def Write.renews (w : Write) (seq : Nat) (mark : Bool) (b : Block) : Block :=
  match w with
  | .vec lg reg v mask => b.renew seq lg reg v mask mark
  | _ => b

/-- The register that a result is for, where results of several bundles can meet (R37). -/
def Write.target : Write → Option (Nat × Nat × Nat)
  | .x r _ => some (0, 0, r.toNat)
  | .vec lg reg _ _ => some (1, lg, reg)
  | .pred lg p _ _ => some (2, lg, p)
  | .ctrl i _ => some (3, 0, i.toNat)
  | .bad p => match p.kind with
    | .scalarReg => some (0, 0, p.index)
    | .vectorReg => some (1, p.group, p.index / 16)
    | .predicateReg => some (2, p.group, p.index / 2)
    | .controlReg => some (3, 0, p.index)
    | _ => Option.none
  | _ => Option.none

/-- The write of a result that is due. -/
def State.applyWrite (s : State) (c n : Nat) (w : Write) (mark : Bool) : State :=
  match w with
  | .x r v => s.modStrand c n fun t => (t.setReg r v mark).mend .scalarReg 0 r.toNat
  | .vec lg reg v mask =>
    -- a conductor holds no registers: what it would write goes nowhere (R18; log 93)
    let s := if s.isConductor c n then s else s.modCore c fun k => k.setLine (vregAddr k.part lg n reg) v mask mark
    s.modStrand c n fun t => t.mendWords .vectorReg lg reg (fun w => mask.extractLsb' (4 * w) 4 == 15)
  | .pred lg p v mask => s.modStrand c n fun t =>
    (t.mendWords .predicateReg lg p fun w => mask.extractLsb' (32 * w) 32 == BitVec.allOnes 32).modLane lg fun l =>
      { l with
        preds := put (BitVec.allOnes 64) l.preds p ((look (BitVec.allOnes 64) l.preds p &&& ~~~mask) ||| (v &&& mask))
        pmarks := if mark then l.pmarks ||| ((1 : BitVec 8) <<< p)
          else if mask = BitVec.allOnes 64 then l.pmarks &&& ~~~((1 : BitVec 8) <<< p) else l.pmarks }
  | .ctrl i v => (s.writeCtl c n i v).modStrand c n fun t =>
    { t.mend .controlReg 0 i.toNat with ctlMarks := markKey t.ctlMarks i.toNat mark }
  | .window lg wb => s.modStrand c n fun t => t.modLane lg fun l => { l with wb := wb, wmark := mark }
  | .shape lg rows cols => s.modStrand c n fun t => t.modLane lg fun l => { l with rows := rows, cols := cols }
  | .vmode lg p => s.modStrand c n fun t => t.modLane lg fun l => { l with mode := p }
  | .geometry rows cols klim => s.modStrand c n fun t =>
      { t with geoRows := rows, geoCols := cols, geoKlim := klim, geoMark := mark }
  | .eddyMode half defer => s.modStrand c n fun t => { t with ctl :=
      { t.ctl with half := half, defer := defer, nonfin := false, gsat := false, sing := false, ovf := false } }
  | .scale o v => s.modCore c fun k =>
      { k with scale := writeBytes k.scale (256 * o) (bytesOf 256 v.toNat), scaleMarks := markKey k.scaleMarks o mark }
  | .progidx v => s.modStrand c n fun t => { t with ctl := { t.ctl with progidx := v } }
  | .phase p => (s.commitPhase c n).modStrand c n fun t =>
      { t with phase := p, ctl := { t.ctl with retry := 0, norec := false } }
  | .bad p => s.modStrand c n fun t => { t with bad := t.bad ++ [p] }
  | .none => s

/-- The unfinished blocks of a strand's level, changed. -/
def Strand.mapBlocks (t : Strand) (f : Block → Block) : Strand := { t with blocks := t.blocks.map f }

/-- One result is written: its register, its records, its consumption (R348, R358). -/
def State.deliver (s : State) (c n : Nat) (p : Pending) : State :=
  (s.applyWrite c n p.write p.mark).modStrand c n fun t =>
    ((if p.mark then t.consume else t).appendAll p.recs).mapBlocks (p.write.renews p.seq p.mark)

/-- Of results of several bundles that reach one register in the same cycle, that of the later bundle is written and the others
are discarded (R37). -/
def Pending.outdone (p : Pending) (due : List Pending) : Pending :=
  if due.any fun q => q.due == p.due && p.seq < q.seq && p.write.target.isSome && q.write.target == p.write.target then
    { p with write := .none }
  else p

/-- Every result due at or before the strand's time is written, in issue order (R37, R94). -/
def State.writeDue (s : State) (c n : Nat) : State :=
  let t := s.strand c n
  let met := t.pend.filter fun p => p.due ≤ t.time
  let due := sortBy Pending.seq (met.map (·.outdone met))
  due.foldl (fun s p => s.deliver c n p) (s.modStrand c n fun t => { t with pend := t.pend.filter fun p => t.time < p.due })

/-! ## Tokens (R115) -/

def Team.token (t : Team) (k : Nat) : Token := look Token.reset t.tokens k
def Team.setToken (t : Team) (k : Nat) (v : Token) : Team := { t with tokens := put Token.reset t.tokens k v }
def State.setToken (s : State) (d t k : Nat) (v : Token) : State := s.modTeam d t fun m => m.setToken k v

/-- A token whose state is set without a command (R117, R246). -/
def plainToken (st : TokenState) : Token := { st := st, index := 0, status := 0, cause := 0, cmd := none }

/-! ## Events of the physical function (R406) -/

/-- An event into the ring of 256 entries; with the ring full it is dropped and counted. Its detail is a free value (log 123). -/
def State.postEvent (s : State) (kind d t vf cause : Nat) : State :=
  if s.eventsOut - s.eventsIn < 256 then
    let (detail, s) := s.draw
    let e : Event := { kind := BitVec.ofNat 8 kind, die := d, team := t, vf := vf, cause := cause, detail := BitVec.ofNat 464 detail }
    { s with
      events := (s.events ++ [e]).drop (s.events.length + 1 - 256)
      eventsOut := s.eventsOut + 1 }
  else { s with eventsLost := s.eventsLost + 1 }

/-- A counter of R362 of a VF and of the physical function is raised by one (R363). -/
def State.countVf (s : State) (v i : Nat) : State :=
  s.modVf v fun f => { f with counters := put 0 f.counters i (look 0 f.counters i + 1) }
def State.countPf (s : State) (i : Nat) : State := { s with pfCounters := put 0 s.pfCounters i (look 0 s.pfCounters i + 1) }

/-- The error counters of the physical function behind the eight of R362: messages dropped or discarded (R284, R286, R287), host accesses
refused (R392), commands discarded (R396). Their places are the model's (DESIGN CHOICE, log 121). -/
def dropMessage : Nat := 8
def dropAccess : Nat := 9
def dropCommand : Nat := 10

/-- Something that comes from outside is dropped and counted. -/
def State.countDrop (s : State) (i : Nat) : State := { s.countPf i with drops := s.drops + 1 }

/-! ## Operand slots (R193) -/

def Core.slot (k : Core) (o : Nat) : Slot := look Slot.reset k.slots o

/-- The end of a holding: RELEASING while a read of the slot is pending, else FREE (R193). A load in flight still lands. -/
def Core.releaseSlot (k : Core) (o : Nat) : Core :=
  let w := { k.slot o with holder := none }
  let w := if w.readsUntil ≤ k.mtime then { w with readsUntil := 0 } else w
  let w := if w.load.isEmpty && w.loadUntil ≤ k.mtime then { w with loadUntil := 0 } else w
  { k with slots := put Slot.reset k.slots o w }

/-- Eddy time as the work of the core counts it: matrix time, which stands for the rows that a resumed team has still to enter until its
first bundle is presented (R225, R239). -/
def Core.eddyTime (k : Core) : Nat := k.rowsWait.getD k.mtime

/-- The Eddy times of a work, counted from another zero. -/
def EddyWork.shift (w : EddyWork) (f : Nat → Nat) : EddyWork :=
  { w with admits := f w.admits, clearAt := f w.clearAt, readFileUntil := f w.readFileUntil, readLines := w.readLines.map fun l => (l.1, f l.2),
           until_ := f w.until_, start := f w.start }

/-- The rows left of a resumed team's streams begin to enter: their offsets count from the first bundle after the resume (R239). -/
def Core.beginRows (k : Core) : Core :=
  match k.rowsWait with
  | none => k
  | some m =>
    let lag := k.mtime - m
    { k with rowsWait := none, eddy := k.eddy.map fun w => w.shift (· + lag), triUntil := if k.eddy.isEmpty then k.triUntil else k.triUntil + lag }

/-- A pool line that admitted Eddy work has still to read (R226). -/
def Core.eddyReads (k : Core) (line : Nat) : Bool := k.eddy.any fun e => e.readLines.any fun l => k.eddyTime < l.2 && l.1 == line

/-- The matrix cycle counter C at a matrix time. Until a resumed team's first bundle issues it stands at 0 (R200). -/
def Core.counter (k : Core) (m : Nat) : Nat := m - (if k.resumed.isSome then k.mtime else k.cBase)

/-- Every slot that a strand holds is released. -/
def Core.releaseAll (k : Core) (n : Nat) : Core :=
  (k.slots.filter fun e => e.2.holder == some n).foldl (fun k e => k.releaseSlot e.1) k

/-! ## Block stores of strands that stand still (R146, R162, R268, R270; log 12) -/

/-- A block store that has registers left to read (R146). -/
def Block.storesLeft (b : Block) : Bool := !b.idle && isBlockStore b.op && b.step < b.rows * b.cols

/-- A block store of the strand has registers left to read (R146, R277). -/
def Strand.storing (t : Strand) : Bool := t.blocks.any Block.storesLeft

/-- A strand, and what each of its traps has suspended, as strands (R342). -/
def Strand.levels (t : Strand) : List Strand :=
  t :: t.frames.map fun f => { t with time := f.at_, pend := f.pend, blocks := f.blocks }

/-- The register of step i of a block store as the step will read it, if no later bundle writes it before: as it stands, with
the results in flight that are due by then (R162). -/
def Strand.foresee (t : Strand) (k : Core) (n : Nat) (b : Block) (i : Nat) : Line × Bool :=
  let reg := blockReg (vregCount t.ctl.poolpart) b.wb b.cols (blockStoreReg b.op) i
  let now := (b.saved.find? fun e => e.1 == reg).elim ((k.vreg b.lg n reg).1, (k.vreg b.lg n reg).2 || t.isBad .vectorReg b.lg reg) (·.2)
  (sortBy Pending.due (sortBy Pending.seq t.pend)).foldl (fun (v : Line × Bool) p => match p.write with
    | .vec lg r x mask =>
      if p.due ≤ b.start + b.interval * i && lg == b.lg && r == reg then
        (mergeLine v.1 x mask, p.mark || (v.2 && mask != BitVec.allOnes 64))
      else v
    | _ => v) now

/-- The line writes that the block stores of a level still owe. -/
def Strand.owed (t : Strand) (k : Core) (n : Nat) : List PoolWrite :=
  (t.blocks.filter Block.storesLeft).flatMap fun b =>
    ((List.range (b.rows * b.cols)).drop b.step).filterMap fun i => (nth none b.offs i).map fun off =>
      let v := t.foresee k n b i
      { due := k.mtime + 6, strand := n, seq := b.poolSeq, off := off, data := v.1, mask := BitVec.allOnes 64, mark := v.2 || b.mark }

/-- No load stands between a level and the registers of its block stores. -/
def Strand.foreseeable (t : Strand) : Bool := t.pend.all fun p => p.load.isNone || (match p.write with
  | .vec _ _ _ _ => false
  | _ => true)

/-- Blocks without their stores' registers left to read. -/
def storesDone (bs : List Block) : List Block := bs.map fun b => if b.storesLeft then { b with step := b.rows * b.cols } else b

/-- The levels of a core's strands that stand still with lines owed: all but what the running strand runs. -/
def Core.stillLevels (k : Core) (n : Nat) : List Strand :=
  (if k.running == some n then (k.strand n).levels.drop 1 else (k.strand n).levels).filter fun l => l.storing && l.foreseeable

/-- The block stores that stand still are completed, so that a later bundle of the core finds their lines written (R270): their
line writes are put on their way, in bundle order. -/
def Core.settleStill (k : Core) : Core :=
  let ws := fun n => (k.stillLevels n).flatMap fun l => l.owed k n
  let finish := fun (n : Nat) (t : Strand) =>
    let here := k.running != some n && t.foreseeable
    let w : Pending := { due := t.time + 1, seq := t.nextSeq, write := .none, mark := true, load := none, recs := [] }
    { t with
      blocks := if here then storesDone t.blocks else t.blocks
      frames := t.frames.map fun f => if { t with pend := f.pend : Strand }.foreseeable then { f with blocks := storesDone f.blocks } else f
      pend := if (ws n).any (·.mark) then t.pend ++ [w] else t.pend }
  { k with
    poolWrites := k.poolWrites ++ sortBy PoolWrite.seq (k.strands.flatMap fun e => ws e.1)
    strands := k.strands.map fun e => (e.1, finish e.1 e.2) }

/-- A block store of some level of the strand has registers left to read: of what it runs, or of what its traps have suspended
(R272, R277). -/
def Strand.storingAny (t : Strand) : Bool := t.levels.any Strand.storing

/-- A write to the pool by a bundle of the core before a given one has not landed (R268, R274). -/
def Core.owesBefore (k : Core) (seq : Nat) : Bool :=
  (k.poolWrites.any fun w => w.seq < seq) ||
    k.strands.any fun e => e.2.levels.any fun l => l.blocks.any fun b => b.storesLeft && b.poolSeq < seq

/-- A pool line has landed before a write of an earlier bundle: from outside the core it is not read before (R268, R270). -/
def Core.overtakes (k : Core) (line : Nat) : Bool := k.ahead.any fun a => a.1 == line && k.owesBefore a.2

/-- Some block store of the core stands still with lines owed. -/
def Core.owesStill (k : Core) : Bool := k.strands.any fun e => !(k.stillLevels e.1).isEmpty

/-! ## The end of a strand (R24, R118, R327) -/

/-- A strand of a launch is INACTIVE: it counts as ended, or it closes (R24, R118, R277). -/
def Launch.close (l : Launch) (w : StrandName) (poisoned : Bool) (closing : Option Closing) : Launch :=
  match closing with
  | some q => { l with left := l.left.filter (· != w), closing := l.closing ++ [q] }
  | none => { l with left := l.left.filter (· != w), poisoned := l.poisoned || poisoned }

/-- The tokens of launches of which every strand counts as ended are produced (R24, R118). -/
def Team.launchesDone (t : Team) : Team :=
  (t.launches.filter fun l => l.left.isEmpty && l.closing.isEmpty).foldl (fun t l =>
    { t.setToken l.ctok (plainToken (if l.poisoned then .error else .ok)) with
      launches := t.launches.filter fun m => m.id != l.id }) t

/-- A strand of a launch is INACTIVE: the launch's token is produced when every strand of it counts as ended (R24, R118, R277). -/
def Team.launchEnd (t : Team) (id : Option Nat) (w : StrandName) (poisoned : Bool) (closing : Option Closing) : Team :=
  { t with launches := t.launches.map fun l : Launch => if some l.id = id then l.close w poisoned closing else l : Team }.launchesDone

/-- A strand of a core owes something when it becomes INACTIVE: a command without its token, a store not performed, lines of a
block store; or it counts as ended (R277). -/
def State.closingOf (s : State) (c n : Nat) (poisoned : Bool) : Option Closing :=
  let k := s.core c
  let w := s.nameOf c n
  let d := coreDie c
  let t := s.teamAt c
  if (s.cmds.any fun m => m.d == d && m.t == t && m.who == w && !m.done) || (k.stores.any fun q => q.strand == n)
      || (k.poolWrites.any fun q => q.strand == n) || (k.strand n).storingAny || s.owesCommit d t w (fun _ => true) then
    some { name := w, upTo := s.nextId, issued := k.issued, poisoned := poisoned }
  else none

/-- What a closing strand owed is done: its commands, its stores, the commits of its phases and joins (R277). -/
def State.closed (s : State) (d t : Nat) (q : Closing) : Bool :=
  !(s.cmds.any fun m => m.d == d && m.t == t && m.who == q.name && m.id < q.upTo && !m.done)
    && !s.owesCommit d t q.name (fun _ => true)
    && (match s.coreNamed d t q.name with
      | some c => !s.resident d t || !((s.core c).stores.any (fun v => v.strand == q.name.n && v.id < q.upTo)
          || (s.core c).poolWrites.any fun v => v.strand == q.name.n && v.seq < q.issued)
      | none => true)

/-- Closing strands that owe nothing any more count as ended (R277). -/
def State.closeLaunches (s : State) : State :=
  s.dies.foldl (fun s e => e.2.teams.foldl (fun s x =>
    if x.2.launches.any fun l => l.closing.any (s.closed e.1 x.1) then
      s.modTeam e.1 x.1 fun t => ({ t with launches := t.launches.map fun l : Launch =>
        { l with
          closing := l.closing.filter fun q => !s.closed e.1 x.1 q
          poisoned := l.poisoned || l.closing.any fun q => s.closed e.1 x.1 q && q.poisoned } : Team }).launchesDone
    else s) s) s

/-- A strand of a team has ended: it is no straggler of a join any more; a RELEASED join without stragglers is DONE (R319). -/
def Join.settle (j : Join) (w : StrandName) : Join :=
  let left := j.stragglers.filter fun k => j.tasks[k]? != some (.localTask w)
  { j with stragglers := left, st := if j.st = .released ∧ left = [] then .done else j.st }

def Team.settle (t : Team) (w : StrandName) : Team := { t with joins := t.joins.map fun e => (e.1, e.2.settle w) }

/-- A strand that has ended: results in flight, blocks, latches and waits are gone (R118, R327). -/
def Strand.ended (t : Strand) : Strand :=
  { t with
    mode := .inactive, pend := [], frames := [], blocks := [], nest := none, phase := none, spin := none, gather := none
    ending := false, condemned := none, parked := false, launch := none, yieldNext := false, wait := WaitInfo.reset }

/-- A strand becomes INACTIVE with its results in flight discarded and its operand slots released; the lines that its block
stores still owe are written, and it counts as ended for its launch once all that it owes is done (R118, R277, R327). -/
def State.endStrand (s : State) (c n : Nat) (poisoned : Bool) : State :=
  let d := coreDie c
  let team := s.teamAt c
  let id := (s.strand c n).launch
  let closing := s.closingOf c n poisoned
  let s := s.modCore c fun k =>
    let owed := (k.strand n).levels.flatMap fun l => l.owed k n
    let k := (k.releaseAll n).setStrand n (k.strand n).ended
    { k with
      poolWrites := k.poolWrites ++ sortBy PoolWrite.seq owed
      loads := k.loads.filter fun l => l.strand != n
      running := if k.running == some n then none else k.running }
  s.modTeam d team fun t => (t.launchEnd id (s.nameOf c n) poisoned closing).settle (s.nameOf c n)

/-- The kill of a strand (R327). -/
def State.killStrand (s : State) (c n : Nat) (poisoned : Bool) : State :=
  (s.discardHeld (s.phaseHolder c n)).endStrand c n poisoned

/-! ## Traps (R36, R338 to R347) -/

/-- The CAUSE word of R340. -/
def causeWord (code reason slot lg lane len : Nat) : Word :=
  BitVec.ofNat 64 (code % 256 + 256 * (reason % 256) + 2 ^ 16 * (slot % 32) + 2 ^ 21 * (lg % 8) + 2 ^ 24 * (lane % 16)
    + 2 ^ 32 * (len % 32))

/-- The registers that trap entry writes together (R36, R340, R341). -/
def Ctl.faulted (k : Ctl) (cause : Word) (fmask : BitVec 17) (info : Word) (epc : VAddr) : Ctl :=
  { k with cause := cause, fmask := fmask, finfo := info, epc := epc }

/-- The numbers of CAUSE, EPC, FMASK and FINFO (R101). -/
def faultControls : List Nat := [0x001, 0x002, 0x003, 0x004]

/-- The trap registers are written whole with clean data: no mark and no uncorrectable word stays in them (R348, R356). -/
def Strand.mendFaulted (t : Strand) : Strand :=
  { t with
    ctlMarks := t.ctlMarks.filter fun k => !faultControls.contains k
    bad := t.bad.filter fun p => !(p.kind == .controlReg && faultControls.contains p.index) }

def Strand.setFaulted (t : Strand) (cause : Word) (fmask : BitVec 17) (info : Word) (epc : VAddr) : Strand :=
  { t with ctl := t.ctl.faulted cause fmask info epc }

/-- The registers that the unfinished blocks of a strand have still to read, as they stand (R162). -/
def Strand.keepOperands (t : Strand) (k : Core) (n : Nat) : Strand :=
  { t with blocks := t.blocks.map fun b =>
      if b.idle then b
      else { b with saved := (b.unread (vregCount t.ctl.poolpart)).map fun r =>
        let old := b.saved.find? fun e => e.1 == r
        (r, old.elim ((k.vreg b.lg n r).1, (k.vreg b.lg n r).2 || t.isBad .vectorReg b.lg r) (·.2)) } }

/-- Trap entry (R342): results in flight, unfinished blocks and the loop nest are set aside; the level before is kept, the
strand runs at G with EXL set; the handler's first bundle issues 4 cycles after the faulting bundle was presented; what a gather has kept is discarded (R420). -/
def Strand.enterTrap (t : Strand) : Strand :=
  { t with
    frames := { at_ := t.time, seq := t.nextSeq, pend := t.pend, blocks := t.blocks, nest := t.nest } :: t.frames
    pend := []
    blocks := []
    nest := none
    ctl := { t.ctl with ppriv := t.ctl.priv, priv := true, exl := true }
    pc := BitVec.ofNat 42 (t.ctl.tvecBase.toNat * 4)
    issueAt := t.time + 4
    yieldNext := false
    gather := none
    wait := { t.wait with refused := [] } }

/-- A trap is a double trap: EXL is set or no handler is installed (R343). -/
def Strand.doubleTrap (t : Strand) : Bool := t.ctl.exl || !t.ctl.tvecEn

/-- Taking a trap: the one place where it happens (R36, R342, R343). -/
def State.takeTrap (s : State) (c n : Nat) (cause : Word) (fmask : BitVec 17) (info : Word) (epc : VAddr) : State :=
  let dbl := (s.strand c n).doubleTrap
  let s := if cause.toNat % 256 = 0x10 then s.countVf (s.team (coreDie c) (s.teamAt c)).vf 7 else s
  let s := s.modStrand c n fun t => (t.mendFaulted).setFaulted cause fmask info epc
  if dbl then
    let d := coreDie c
    let ti := s.teamAt c
    let s := s.modTeam d ti fun t => { t with
      fault := { cause := cause, fmask := fmask, finfo := info, epc := epc, strand := n, core := c } }
    (s.killStrand c n true).postEvent 1 d ti (s.team d ti).vf (cause.toNat % 256)
  else s.modStrand c n fun t => (t.keepOperands (s.core c) n).enterTrap

/-- Return from a trap (R344): the level and EXL are restored, the frame's results and blocks resume at their offsets from
the returned bundle, which issues 4 cycles after the ERET; the handler's own results do not reach those blocks (R162). -/
def Strand.returnTrap (t : Strand) : Strand :=
  let base := t.time + 4
  let t := { t with ctl := { t.ctl with priv := t.ctl.ppriv, exl := false }, pc := t.ctl.epc, issueAt := base }
  match t.frames with
  | [] => { t with nest := none }
  | f :: rest =>
    { t with
      frames := rest
      pend := t.pend ++ f.pend.map fun p => { p with due := p.due - f.at_ + base }
      blocks := t.blocks ++ f.blocks.map fun b =>
        { b with start := b.start + base - f.at_, deaf := (f.seq, t.nextSeq + 1) :: b.deaf }
      nest := f.nest }

/-! ## A bundle that does not issue -/

/-- The keys of a page request tag and of an intermediate page among those of all VFs. -/
def tagKey (v tag : Nat) : Nat := 65536 * v + tag
def pageKey (v ipa : Nat) : Nat := 2 ^ 42 * v + ipa

/-- The intermediate page that a request names. -/
def State.requestPage (s : State) (m : PageRequest) : Nat := pageKey (s.team m.die m.team).vf m.ipa

/-- The first tag from the next one on that no outstanding request has (R135). -/
def Vf.freeTag (f : Vf) : Nat :=
  let used := (f.queue ++ f.waiting).map (·.tag)
  (((List.range (used.length + 1)).map fun i => (f.nextTag + i) % 65536).find? fun k => !used.contains k).getD f.nextTag

/-- The queue's producer index names an entry that is not free (R135, R398; log 96). -/
def Vf.full (f : Vf) : Bool := f.queue.any fun r => r.place + 256 ≤ f.produced

/-- A request enters the queue (R135). -/
def Vf.enter (f : Vf) (m : PageRequest) : Vf :=
  { f with queue := f.queue ++ [{ m with place := f.produced }], produced := f.produced + 1 }

/-- The misses that wait enter while there is room (R135). -/
def Vf.fill (f : Vf) : List PageRequest → Vf
  | [] => { f with waiting := [] }
  | w :: ws => if f.full then { f with waiting := w :: ws } else (f.enter w).fill ws

/-- A page request is posted (R135): it joins an outstanding request for the same page, or takes a new tag and the queue's next
entry, or waits for one. The key of its tag. -/
def State.postRequest (s : State) (m : PageRequest) : Nat × State :=
  let v := (s.team m.die m.team).vf
  let f := s.vf v
  match (f.queue ++ f.waiting).find? fun r => r.ipa == m.ipa with
  | some r =>
    let join := fun q : PageRequest => if q.ipa = m.ipa then { q with access := q.access ||| m.access } else q
    (tagKey v r.tag, s.modVf v fun f => { f with queue := f.queue.map join, waiting := f.waiting.map join })
  | none =>
    let m := { m with tag := f.freeTag }
    let s := s.modVf v fun f => { f with nextTag := (m.tag + 1) % 65536 }
    if f.full || !f.waiting.isEmpty then (tagKey v m.tag, s.modVf v fun f => { f with waiting := f.waiting ++ [m] })
    else
      let s := s.modVf v fun f => f.enter m
      (tagKey v m.tag, if f.queue.isEmpty then s.postEvent 7 m.die m.team v 0 else s)

/-- Several requests; the keys of their tags, rising. -/
def State.postAll (s : State) (ms : List PageRequest) : List Nat × State :=
  ms.foldl (fun r m => let q := r.2.postRequest m; (insertNat q.1 r.1, q.2)) ([], s)

/-- A strand blocks (R90, R92): its bundle will be checked again in full. A condemned strand that blocks dies at once
(R336; DEDUCED, log 38). -/
def State.block (s : State) (c n reason : Nat) (posts : List PageRequest) (g : Option GatherWait) : State :=
  if (s.strand c n).condemned.isSome then s.killStrand c n false
  else
    let (tags, s) := s.postAll posts
    s.modCore c fun k =>
      let t := k.strand n
      let w : WaitInfo :=
        { reason := reason, since := k.cycle, tags := tags, refused := t.wait.refused, place := 0, yBundle := t.wait.yBundle }
      let k := k.setStrand n
        { t with
          mode := .blocked, wait := w, gather := if g.isSome then g else t.gather
          ctl := { t.ctl with waitLast := BitVec.ofNat 4 reason, waitCyc := 0 } }
      { k with running := if k.running == some n then none else k.running, last := n, frost := 0, switchLeft := 1 }

/-- The length of a block as a blocked strand records it when it becomes READY: LASTCYC and SPINCNT (R102). -/
def Ctl.waited (k : Ctl) (cycles : Nat) : Ctl :=
  { k with waitCyc := BitVec.ofNat 32 (satTo 32 cycles), spincnt := BitVec.ofNat 16 (satTo 16 (cycles / 256)) }

/-- A blocked or frozen-out strand becomes READY; the length of a block is recorded (R90, R102). -/
def State.wake (s : State) (c n : Nat) : State :=
  s.modCore c fun k =>
    let t := k.strand n
    k.setStrand n { t with
      mode := .ready
      ctl := if t.mode = .blocked then t.ctl.waited (k.cycle - t.wait.since) else t.ctl
      wait := { WaitInfo.reset with refused := t.wait.refused } }

/-- One core cycle in which a bundle is held: strand time passes, or stands still; matrix and Eddy time pass
(R95, R161, R191, R225). -/
def State.holdCycle (s : State) (c n : Nat) (timeRuns : Bool) : State :=
  s.modCore c fun k =>
    { k.setStrand n { k.strand n with time := if timeRuns then (k.strand n).time + 1 else (k.strand n).time } with
      cycle := k.cycle + 1, mtime := k.mtime + 1 }

/-- A LEASE that finds no engine asks the dispatcher for one: lease and period (R257). -/
def State.askLease (s : State) (c : Nat) (l : Option (Nat × Nat)) : State :=
  match l with
  | none => s
  | some (i, period) => s.modTeam (coreDie c) (s.teamAt c) fun t =>
      let old := look Lease.reset t.leases i
      if old.requested then t
      else { t with leases := ins t.leases i { old with period := period, left := period, requested := true } }

/-- A block with what it leaves behind: a request for a lease (R92, R257), or the die whose staging is full (R139). -/
def State.waitFor (s : State) (c n reason : Nat) (posts : List PageRequest) (g : Option GatherWait)
    (l : Option (Nat × Nat)) : State :=
  let s := s.block c n reason posts g
  if (s.strand c n).mode ≠ .blocked then s
  else if reason = 10 then s.modStrand c n fun t => { t with wait := { t.wait with place := (l.getD (0, 0)).1 } }
  else s.askLease c l

/-- What a syllable's failed check means for the issuing strand, and the record of it for the bundle. -/
def State.refuse (s : State) (v : Verdict) : State :=
  let s := { s with issue := { s.issue with verdict := some v } }
  let c := s.issue.core
  let n := s.issue.strand
  match v with
  | .fault code reason info lg lane _ =>
    s.takeTrap c n (causeWord code reason s.issue.slot lg lane s.issue.len) (BitVec.ofNat 17 (2 ^ s.issue.slot)) info
      s.issue.addr
  | .block reason posts g l => s.waitFor c n reason posts g l
  | .hold runs => s.holdCycle c n runs

end Sys2Proof.Machine
end

