-- ==== Sys2Proof/Machine/Operands.lean ====
section
/-!
DEFINITION. Operand forms: scalar sources with stream pops (R38, R88, R89), window-relative vector registers (R153), what a
syllable writes (R37), and the one way in which a syllable is issued: decode checks, blocking conditions, holds, faults,
effect (R35, R40, R91, R356).
-/

set_option Elab.async false
namespace Sys2Proof

/-! ## Which registers a syllable names -/

/-- The scalar source fields of a syllable, from bit 31 downwards (R38). -/
def Instr.sources : Instr → List (BitVec 6)
  | .add _ a b | .sub _ a b | .mul _ a b | .mulh _ a b _ | .div _ a b _ | .rem _ a b _ | .and _ a b | .or _ a b
  | .xor _ a b | .shl _ a b | .shr _ a b | .sar _ a b | .slt _ a b _ | .seq _ a b | .min _ a b _ | .max _ a b _
  | .sel _ a b | .agen _ a b _ | .fadd _ a b _ _ | .fsub _ a b _ _ | .fmul _ a b _ _ | .fdiv _ a b _ _
  | .fmin _ a b _ _ | .fmax _ a b _ _ | .ffma _ a b _ _ | .fcmp _ a b _ _ | .br _ a b _ | .cmpt a b _
  | .phaseBegin a b | .cyqr _ a b _ | .cyapply _ _ a b _ | .cygiv a b _ | .cyrot a b _ | .cysolve _ a b
  | .eset a b _ _ | .rcnt a b _ | .rsnap a b _ | .send a b _ _ _ | .ttset a b | .tready a b | .trkarm a b _
  | .qread a b _ | .qreplay a b _ => [a, b]
  | .clz _ a | .ctz _ a | .popc _ a | .brev _ a | .bfx _ a _ _ | .bfi _ a _ _ | .addi _ a _ | .andi _ a _ | .ori _ a _
  | .xori _ a _ | .shli _ a _ | .shri _ a _ | .sari _ a _ | .slti _ a _ | .fsqrt _ a _ _ | .fcvt _ a _ _ _ | .bz a _
  | .bnz a _ | .jr a _ | .jrl _ a _ | .spinw _ a _ | .mtc a _ | .ldb _ a _ | .ldbu _ a _ | .ldh _ a _ | .ldhu _ a _
  | .ldw _ a _ | .ldwu _ a _ | .ldd _ a _ | .vld _ a _ _ | .vst _ a _ _ | .vlds _ a _ _ | .vsts _ a _ _
  | .vgather _ _ a _ _ | .vgatherAll _ _ a _ | .vscatter _ _ a _ _ | .vscatterAll _ _ a _ | .old _ _ a _ | .amov _ a _
  | .mgeo a | .cyrd _ a _ _ | .cywr _ a _ | .cyang a _ _ | .cpy a _ _ | .cpyst a _ _ _ _ _ | .sacc a _ _ _ _
  | .lease a _ | .unlease a _ | .zip a _ _ _ | .unzip a _ _ _ | .repl a _ _ _ _ | .qdecl a _ _ | .qarrive a _
  | .tsave a _ _ | .tload a _ _ | .sld _ a _ | .vwin _ _ a _ => [a]
  | .stb x a _ _ | .sth x a _ _ | .stw x a _ _ | .std x a _ _ => [x, a]
  | _ => []

/-- The registers that a syllable reads through its destination field or without a field: SEL, BFI, MOVHI, MOVHH, FFMA
and SPINW read xd (R103, R106, R107, R109, R116), LAUNCH reads xa to xa + 7 (R117). -/
def Instr.alsoReads : Instr → List (BitVec 6)
  | .sel d _ _ | .bfi d _ _ _ | .movhi d _ | .movhh d _ | .ffma d _ _ _ _ | .spinw d _ _ => [d]
  | .launch _ a => (List.range 8).map fun i => a + BitVec.ofNat 6 i
  | _ => []

/-- The control registers that a syllable reads: the one that MFC names, counts and steps of LOOP (R99), EPC and STATUS of
ERET (R344), the strides of block accesses (R145, R155), RMODE where it rounds (R77, R109, R209), FTVER where it is an F64 special function (R184), CHKI (R352, R118),
TVEC of LAUNCH (R339). -/
def Instr.controls : Instr → List Nat
  | .mfc _ i => [i.toNat]
  | .loop _ p => (List.range p.toNat).flatMap fun k => [0x010 + k, 0x018 + k]
  | .eret => [0x000, 0x002]
  | .vld _ _ _ _ | .vst _ _ _ _ => [0x021]
  | .vlds _ _ _ _ | .vsts _ _ _ _ => [0x020, 0x021]
  | .chkerr _ _ _ | .endk => [0x006]
  | .launch _ _ => [0x005]
  | .amov f _ _ => if f = 0 then [] else [0x007]
  | .fadd _ _ _ _ r | .fsub _ _ _ _ r | .fmul _ _ _ _ r | .fdiv _ _ _ _ r | .fmin _ _ _ _ r | .fmax _ _ _ _ r | .fsqrt _ _ _ r
  | .ffma _ _ _ _ r | .fcvt _ _ _ _ r => if r.toNat = 7 then [0x007] else []
  | i =>
    if i.slot? = some 3 then
      let v := Machine.vfields i
      if 0x50 ≤ v.op then if v.fmt = 3 then [0x008] else []
      else if (v.fmt < 4 && [1, 2, 3, 4, 5, 10, 11, 0x40, 0x43, 0x48].contains v.op) || (0x30 ≤ v.op && v.op ≤ 0x34) then [0x007]
      else []
    else []

/-- The scalar registers that a syllable writes (R37); x0 never counts. -/
def Instr.dests (i : Instr) : List (BitVec 6) :=
  let ds : List (BitVec 6) := match i with
    | .add d _ _ | .sub d _ _ | .mul d _ _ | .mulh d _ _ _ | .div d _ _ _ | .rem d _ _ _ | .and d _ _ | .or d _ _
    | .xor d _ _ | .shl d _ _ | .shr d _ _ | .sar d _ _ | .slt d _ _ _ | .seq d _ _ | .min d _ _ _ | .max d _ _ _
    | .sel d _ _ | .clz d _ | .ctz d _ | .popc d _ | .brev d _ | .peek d _ | .bfx d _ _ _ | .bfi d _ _ _ | .agen d _ _ _
    | .addi d _ _ | .andi d _ _ | .ori d _ _ | .xori d _ _ | .shli d _ _ | .shri d _ _ | .sari d _ _ | .slti d _ _
    | .movi d _ | .movhi d _ | .movhh d _ | .fadd d _ _ _ _ | .fsub d _ _ _ _ | .fmul d _ _ _ _ | .fdiv d _ _ _ _
    | .fmin d _ _ _ _ | .fmax d _ _ _ _ | .fsqrt d _ _ _ | .ffma d _ _ _ _ | .fcvt d _ _ _ _ | .fcmp d _ _ _ _
    | .jrl d _ _ | .chkerr d _ _ | .spinw d _ _ | .mfc d _ | .launch d _ | .tkwait d _ | .tktest d _ | .qwait d _
    | .ldb d _ _ | .ldbu d _ _ | .ldh d _ _ | .ldhu d _ _ | .ldw d _ _ | .ldwu d _ _ | .ldd d _ _
    | .cygiv _ _ d | .cyrot _ _ d | .cyang _ d _ | .eget d _ _ => [d]
    | .call _ => [55]
    | .stpop x => [BitVec.ofNat 6 (2 * x.toNat), BitVec.ofNat 6 (2 * x.toNat + 1)]
    | _ => []
  ds.filter (· != 0)

/-- The streams that a syllable pops, in order (R38). -/
def Instr.pops (i : Instr) : List Nat :=
  i.sources.filterMap fun r => if 56 ≤ r.toNat then some (r.toNat - 56) else none

/-- A guarded syllable (R40, R344). -/
def Instr.guarded : Instr → Bool
  | .br _ _ _ _ | .bz _ _ | .bnz _ _ | .jmp _ | .call _ | .eret => true
  | .jr _ g | .jrl _ _ g | .stb _ _ g _ | .sth _ _ g _ | .stw _ _ g _ | .std _ _ g _ => g
  | _ => false

end Sys2Proof

namespace Sys2Proof.Machine

/-! ## Reading scalar sources -/

def Strand.stream (t : Strand) (k : Nat) : List Elem := look [] t.streams k

/-- A scalar source of the bundle: a register, or the head of a stream, which it pops (R38, R88, R89). -/
def State.src (s : State) (r : BitVec 6) : (Word × Bool) × State :=
  if r.toNat < 56 then ((s.me.reg r, s.me.regMark r), s)
  else
    let k := r.toNat - 56
    match s.me.stream k with
    | [] => ((0, false), s)
    | e :: rest =>
      let s := s.modMe fun t => { t with streams := put [] t.streams k rest }
      ((e.val, e.mark), { s with issue := { s.issue with popped := put [] s.issue.popped k (look [] s.issue.popped k ++ [e]) } })

/-- The value that a source will have, without popping it: `skip` elements of its stream go to earlier fields. -/
def State.srcPeek (s : State) (r : BitVec 6) (skip : Nat := 0) : Word :=
  if r.toNat < 56 then s.me.reg r else (nth { val := 0, mark := false } (s.me.stream (r.toNat - 56)) skip).val

/-- The second of two source fields of one syllable. -/
def State.srcPeek2 (s : State) (a b : BitVec 6) : Word := s.srcPeek b (if a = b ∧ 56 ≤ a.toNat then 1 else 0)

/-- Both sources, in field order. -/
def State.src2 (s : State) (a b : BitVec 6) : (Word × Word × Bool) × State :=
  let p := s.src a
  let q := p.2.src b
  ((p.1.1, q.1.1, p.1.2 || q.1.2), q.2)

/-! ## Vector operands (R151, R153, R156) -/

/-- The lane groups that the slot of a vector syllable names (R156). -/
def slotGroups (slot : Nat) : List Nat := if slot = 3 then List.range 8 else [slot - 4]

/-- The lane groups of a mask (R42). -/
def maskGroups (m : BitVec 8) : List Nat := (List.range 8).filter fun k => m.getLsbD k

/-- The registers of a block (R153). -/
def blockRegs (n : Nat) (l : Lane) (w : Nat) : List Nat :=
  (List.range (l.rows * l.cols)).map fun i => blockReg n l.wb l.cols w i

/-- The registers of a linear operand of m registers (R153). -/
def linearRegs (n : Nat) (l : Lane) (w m : Nat) : List Nat := (List.range m).map fun j => (l.wb + w + j) % n

/-! ## What a syllable writes (R37) -/

/-- One register that a syllable would write. -/
inductive Dest where
  | x (r : BitVec 6)
  | vec (lg reg : Nat)
  | pred (lg p : Nat)
  deriving DecidableEq, Repr

/-! ## Checks -/

/-- A fault that a syllable meets as it executes. -/
def faultWith (code reason : Nat) (info : Word) : Verdict := .fault code reason info 0 0 false

def illegalCode : Nat := 0x01
def illegalSlotCode : Nat := 0x02
def writeConflictCode : Nat := 0x03
def privilegeCode : Nat := 0x04
def formatPairCode : Nat := 0x0D

/-- A decode fault of the syllable (R35); FINFO receives the syllable word. -/
def decodeFault (code : Nat) (i : Instr) : Verdict := .fault code 0 (zext64 i.encode) 0 0 true

/-- The register that MTC names is RO (R101). -/
def ctlReadOnly (i : Nat) : Bool :=
  i == 0x001 || i == 0x003 || i == 0x004 || i == 0x009 || i == 0x00A || (0x041 ≤ i && i ≤ 0x048) || i == 0x050 || i == 0x060

/-- The register that MTC names is marked G (R101). -/
def ctlPrivileged (i : Nat) : Bool :=
  i == 0x000 || i == 0x002 || i == 0x005 || i == 0x006 || (0x030 ≤ i && i ≤ 0x040)

/-- The pairs that a multiply accepts, with K and the array's occupancy (R190). -/
def pairOf (f g : Nat) : Option (Nat × Nat) :=
  let eight := fun c : Nat => c = 8 ∨ c = 9
  if f = g ∧ (f = 1 ∨ f = 2) then some (32, 64)
  else if (eight f ∧ eight g) ∨ (f = 6 ∧ g = 6) then some (64, 64)
  else if f = g ∧ (f = 10 ∨ f = 11) then some (128, 64)
  else if (f = 12 ∧ (eight g ∨ g = 6)) ∨ (g = 12 ∧ (eight f ∨ f = 6)) then some (64, 32)
  else if (f = 12 ∧ g = 1) ∨ (f = 1 ∧ g = 12) then some (32, 16)
  else none

/-- OLD takes an operand format of R190, and transposes only BF16 and F16 (R35, R208). -/
def oldLegal (f : Nat) (transpose : Bool) : Bool :=
  f == 1 || f == 2 || (!transpose && (f == 6 || (8 ≤ f && f ≤ 12)))

/-- The destination formats of AMOV (R209). -/
def amovLegal (f : Nat) : Bool := f == 0 || f == 1 || f == 2 || f == 4 || f == 6 || f == 8 || f == 9

/-- FORMAT_PAIR (R35, R190, R208, R209). -/
def formatPairOk : Instr → Bool
  | .mma f g _ _ _ _ _ | .mmaz f g _ _ _ _ _ | .mmas f g _ _ _ _ _ | .mmasz f g _ _ _ _ _ => (pairOf f.toNat g.toNat).isSome
  | .old f _ _ t => oldLegal f.toNat t
  | .amov f _ _ => amovLegal f.toNat
  | _ => true

/-- An F64 special function (R183, R186). -/
def f64Special : Instr → Bool
  | .vrcp f _ _ _ | .vrsqrt f _ _ _ | .vexp2 f _ _ _ | .vlog2 f _ _ _ | .vexp f _ _ _ | .vlog f _ _ _ | .vsin f _ _ _
  | .vcos f _ _ _ | .vtanh f _ _ _ | .verf f _ _ _ | .vsigm f _ _ _ => f == 3
  | _ => false

/-- The function-table version in effect: VER, or the newest when VER is 0 (R184). -/
def Ctl.version (k : Ctl) : Nat := if k.ftv = 0 then 3 else k.ftv.toNat

/-- Versions 1, 2 and 3 are supported (R184). -/
def versionSupported (v : Nat) : Bool := 1 ≤ v && v ≤ 3

/-- The checks of R35 on the syllable alone, in their order. -/
def State.decodeVerdict (s : State) (i : Instr) : Option Verdict :=
  let slot := s.issue.slot
  if !i.wellFormed || (f64Special i && !versionSupported s.me.ctl.version) then some (decodeFault illegalCode i)
  else if i.sbOnly && slot == 0 then some (decodeFault illegalSlotCode i)
  else if s.meConductor && 3 ≤ slot && slot ≤ 13 then some (decodeFault illegalSlotCode i)
  else if !formatPairOk i then some (decodeFault formatPairCode i)
  else match i with
    | .launch _ _ => if s.meConductor then none else some (decodeFault illegalSlotCode i)
    | .cpyst _ _ _ _ v k => if s.meConductor && !v && k == 7 then some (decodeFault illegalSlotCode i) else none
    | .eret => if s.me.ctl.priv then none else some (decodeFault privilegeCode i)
    | .tsave _ _ _ | .tload _ _ _ => if s.me.ctl.priv then none else some (decodeFault privilegeCode i)
    | .mtc _ k =>
      if ctlReadOnly k.toNat || (ctlPrivileged k.toNat && !s.me.ctl.priv) then some (decodeFault privilegeCode i) else none
    | _ => none

/-- A pop of a stream that holds too few elements, or a PEEK of an empty one, blocks with STREAM_EMPTY (R38, R92, R105).
`before` are the streams that lower slots of the bundle pop. -/
def State.starves (s : State) (before : List Nat) (i : Instr) : Bool :=
  let all := before ++ i.pops
  (i.pops.any fun k => (s.me.stream k).length < all.count k)
    || (match i with
      | .peek _ k => (s.me.stream k.toNat).isEmpty
      | _ => false)

/-- Wait reasons (R92). -/
def waitStream : Nat := 1
def waitToken : Nat := 2
def waitEngineQueue : Nat := 3
def waitSpin : Nat := 4
def waitQuorum : Nat := 5
def waitLanding : Nat := 6
def waitMatrix : Nat := 7
def waitLease : Nat := 8
def waitPage : Nat := 9
def waitHold : Nat := 10
def waitReplica : Nat := 11
def waitPeer : Nat := 12

/-- A wait without more. -/
def blockFor (reason : Nat) : Verdict := .block reason [] none none

/-- The fault of a guarded syllable while MIRROR_PENDING is set (R40, R354). -/
def State.guardFault (s : State) (i : Instr) : Option Verdict :=
  let k := s.me.ctl
  if i.guarded && k.mirrorPending then
    some (faultWith 0x05 0 (BitVec.ofNat 64 (k.mirrorAddr.toNat + 2 ^ 40 * k.mirrorSlot.toNat)))
  else none

/-- REGISTER_UE with the FINFO of R338: file, index, lane group. -/
def ueFault (file index lg : Nat) : Verdict := faultWith 0x13 0 (BitVec.ofNat 64 (file + 16 * index + 2 ^ 16 * lg))

/-- Stream k holds an uncorrectable word in one of the elements that a syllable reads: those that it pops, and the head for a PEEK
(R38, R105, R356). -/
def State.badPop (s : State) (i : Instr) (k : Nat) : Bool :=
  ((s.me.stream k).take (i.pops.count k)).any (·.bad) || (match i with
    | .peek _ j => j.toNat == k && ((s.me.stream k).take 1).any (·.bad)
    | _ => false)

/-- The code in a scalar source field of the first stream of which the syllable reads an uncorrectable word: FINFO names it as the
scalar file's index (DESIGN CHOICE, log 119). -/
def State.badStream (s : State) (i : Instr) : Option Nat := ((List.range 8).find? fun k => s.badPop i k).map (56 + ·)

/-- Some control registers hold an uncorrectable word (R356). -/
def State.ueControls (s : State) (ks : List Nat) : Option Verdict :=
  ks.findSome? fun k => if s.me.isBad .controlReg 0 k then some (ueFault 4 k 0) else none

/-- A source register, a stream element or a control register that the syllable reads holds an uncorrectable word (R356). -/
def State.ueScalar (s : State) (i : Instr) : Option Verdict :=
  ((i.sources ++ i.alsoReads).findSome? fun r => if s.me.isBad .scalarReg 0 r.toNat then some (ueFault 0 r.toNat 0) else none).or <|
  ((s.badStream i).map fun k => ueFault 0 k 0).or
  (s.ueControls i.controls)

/-- One of some control registers carries the poison mark (R348). -/
def State.ctlMark (s : State) (ks : List Nat) : Bool := ks.any s.me.ctlMarks.contains

/-- What a syllable adds to the common checks. -/
structure Checks where
  blocks : Option Verdict := none
  holds : Option Verdict := none
  faults : Option Verdict := none

/-- The first check that a syllable fails, in the order of R91: decode, blocking, hold, execution faults. -/
def State.verdictOf (s : State) (i : Instr) (k : Checks) : Option Verdict :=
  (s.decodeVerdict i).or
    ((if s.starves [] i then some (blockFor waitStream) else none).or
      (k.blocks.or (k.holds.or ((s.guardFault i).or ((s.ueScalar i).or k.faults)))))

/-- Issue of one syllable in its slot. A syllable of an admitted bundle has passed its checks. -/
def issueWith (i : Instr) (s : State) (checks : State → Checks) (effect : State → State) : Out :=
  if s.issue.admitted then .next (effect s)
  else match s.verdictOf i (checks s) with
    | some v => .next (s.refuse v)
    | none => .next (effect s)

/-- Issue without checks of its own. -/
def issuePlain (i : Instr) (s : State) (effect : State → State) : Out := issueWith i s (fun _ => {}) effect

end Sys2Proof.Machine
end

