-- ==== Sys2Proof/Machine/Translate.lean ====
section
/-!
DEFINITION. Addresses: regions (R125 to R128), the two stages of translation with ownership and page requests (R130 to
R137), cached translations (R132, log 11), and reading and writing the bytes of a target, held lines and poison included
(R138, R139, R348).
-/

set_option Elab.async false
namespace Sys2Proof.Machine

/-- What an access needs of its page (R134). -/
inductive Acc where
  | read | write | atomic | fetch
  | mapped    -- the loader's look at a mapping, which no permission bars (R64)
  deriving DecidableEq, Repr

/-- The access byte of a page request (R135). -/
def Acc.code : Acc → BitVec 4
  | .read => 1
  | .write => 2
  | .fetch => 4
  | .atomic => 8
  | .mapped => 0

/-- The permissions of R131 that the access needs (R134). -/
def Acc.allowed (a : Acc) (r w x : Bool) : Bool :=
  match a with
  | .read => r
  | .write => w
  | .atomic => r && w
  | .fetch => x
  | .mapped => true

/-- Trap codes and reasons of memory faults (R137, R338). -/
def pageFaultCode : Nat := 0x08
def stage2Code : Nat := 0x09
def ownershipCode : Nat := 0x0A
def misalignedCode : Nat := 0x0B
def s1Invalid : Nat := 1
def s1Permission : Nat := 2
def localReason : Nat := 3
def noTeamReason : Nat := 4
def ownerReason : Nat := 5
def refusedReason : Nat := 6
def alignReason : Nat := 7

/-- The outcome of a translation: a cached or fresh complete translation with its byte offset, a fault, or a page request. -/
inductive Walk where
  | ok (e : TlbEntry) (off : Nat)
  | fault (code reason : Nat)
  | miss (m : PageRequest)
  deriving DecidableEq, Repr

/-- The physical address of a complete translation. -/
def TlbEntry.at_ (e : TlbEntry) (off : Nat) : Nat := e.pa * 65536 + off

/-- Readback view addresses (R130). -/
def inReadback (pa : Nat) : Bool := 0x20000000000 ≤ pa && pa < 0x40000000000

/-- Eight bytes of HBM. -/
def State.hbm64 (s : State) (pa : Nat) : Nat := ofBytes (readBytes s.hbm pa 8)

/-- The stage-2 leaf that maps an intermediate address, with the output address (R130, R131). -/
def Vf.stage2 (f : Vf) (ipa : Nat) : Option (S2Leaf × Nat) :=
  let try_ := fun (level size : Nat) =>
    match seek f.s2 (ipa / size * size / 65536) with
    | some l => if l.level = level then some (l, l.pa + ipa % size) else none
    | none => none
  ((try_ 1 65536).or (try_ 2 0x200000)).or (try_ 3 0x40000000)

/-- The page belongs to the partition (R133, R400); the readback view is not checked (R133). -/
def State.owns (s : State) (p pa : Nat) : Bool :=
  inReadback pa || look 0 s.owner (pa / 65536) == BitVec.ofNat 16 (64 + p)

/-- The second stage for one access: the leaf and output address, a request, or OWNERSHIP (R134). -/
def State.second (s : State) (v d t ipa : Nat) (va : Word) (acc : Acc) : Except Walk (S2Leaf × Nat) :=
  let f := s.vf v
  match f.stage2 ipa with
  | some (l, pa) =>
    if !acc.allowed l.r l.w l.x then
      .error (.miss { tag := 0, access := acc.code, die := d, team := t, ipa := ipa / 65536 * 65536, va := va })
    else if !s.owns (f.part.getD 64) pa then .error (.fault ownershipCode ownerReason)
    else .ok (l, pa)
  | none => .error (.miss { tag := 0, access := acc.code, die := d, team := t, ipa := ipa / 65536 * 65536, va := va })

/-- An entry with V = 1 breaks no rule of R131 at its level. -/
def entryLegal (level e : Nat) : Bool :=
  field e 42 22 == 0 && field e 6 2 == 0 && !flag e 5 &&
  (if flag e 1 then
    field e 8 8 == 0 && (level == 1 || (level == 2 && field e 16 5 == 0) || (level == 3 && field e 16 14 == 0))
   else (level == 3 && field e 8 4 == 0) || level == 2)

/-- The index of a VA in a table of a level and the span of a leaf there (R130). -/
def levelIndex (level va : Nat) : Nat := if level = 3 then field va 30 12 else if level = 2 then field va 21 9 else field va 16 5
def leafSpan (level : Nat) : Nat := if level = 3 then 0x40000000 else if level = 2 then 0x200000 else 0x10000

/-- Stage 1 from a table down: the leaf entry with the intermediate address (R130, R131, R134). -/
def State.first (s : State) (v d t va : Nat) (acc : Acc) : (level : Nat) → (table : Nat) → Except Walk (Nat × Nat)
  | 0, _ => .error (.fault pageFaultCode s1Invalid)
  | level + 1, table =>
    match s.second v d t (table + 8 * levelIndex (level + 1) va) 0 .read with
    | .error w => .error w
    | .ok (_, pa) =>
      let e := s.hbm64 pa
      if !flag e 0 || !entryLegal (level + 1) e then .error (.fault pageFaultCode s1Invalid)
      else if flag e 1 then
        if acc.allowed (flag e 2) (flag e 3) (flag e 4) then
          .ok (e, field e 16 26 * 65536 + va % leafSpan (level + 1))
        else .error (.fault pageFaultCode s1Permission)
      else s.first v d t va acc level (field e 8 34 * 256)

/-- The intermediate pages that a translation visits as far as it goes: those of its stage-1 tables, then that of the access. -/
def State.tablePages (s : State) (v d t va : Nat) : (level : Nat) → (table : Nat) → List Nat
  | 0, _ => []
  | level + 1, table =>
    let at_ := table + 8 * levelIndex (level + 1) va
    at_ / 65536 * 65536 :: (match s.second v d t at_ 0 .read with
      | .error _ => []
      | .ok (_, pa) =>
        let e := s.hbm64 pa
        if !flag e 0 || !entryLegal (level + 1) e then []
        else if flag e 1 then [(field e 16 26 * 65536 + va % leafSpan (level + 1)) / 65536 * 65536]
        else s.tablePages v d t va level (field e 8 34 * 256))

/-- A translation that visits a page whose request was answered REFUSED (R136). -/
def State.meetsRefused (s : State) (v d t va : Nat) (refused : List Nat) : Bool :=
  !refused.isEmpty && (s.tablePages v d t va 3 (s.vf v).s1root.toNat).any fun p => refused.contains (pageKey v p)

/-- A fresh translation of a VA of a VF for a team of a die (R130 to R134). -/
def State.walk (s : State) (v d t va : Nat) (acc : Acc) : Walk :=
  match s.first v d t va acc 3 (s.vf v).s1root.toNat with
  | .error w => w
  | .ok (e, ipa) =>
    match s.second v d t ipa (BitVec.ofNat 64 va) acc with
    | .error w => w
    | .ok (l, pa) =>
      .ok { vf := v, va := va / 65536, pa := pa / 65536, r := flag e 2 && l.r, w := flag e 3 && l.w, x := flag e 4 && l.x,
            owned := true, rpl := l.rpl, ipa := ipa / 65536 } (va % 65536)

/-- The cached translation of a VA, from a core's micro-TLB or its die's shared TLB (R132). -/
def State.cached (s : State) (c : Option Nat) (d v va : Nat) : Option TlbEntry :=
  let hit := fun e : TlbEntry => e.vf == v && e.va == va / 65536
  ((c.bind fun c => (s.core c).utlb.find? hit)).or ((s.die d).stlb.find? hit)

/-- The translation of an access. A cached translation that differs from the tables of now may be used or not, until an
invalidation (R132): a free choice, one for every core, page and cycle of the die. A cached translation that does not permit the
access is never used: the access walks afresh (DESIGN CHOICE, log 11). -/
def State.xlate (s : State) (c : Option Nat) (v d t va : Nat) (acc : Acc) : Walk :=
  let fresh := s.walk v d t va acc
  match s.cached c d v va with
  | none => fresh
  | some e =>
    if !acc.allowed e.r e.w e.x || fresh == .ok e (va % 65536) then fresh
    else if Config.staleUsed ((c.map (· + 1)).getD 0) (s.die d).now (va / 65536) then .ok e (va % 65536) else fresh

/-- A list with a new head, of at most n entries; which entry leaves a full list is a free choice (log 11). -/
def cacheInsert (pick n : Nat) (l : List TlbEntry) (e : TlbEntry) : List TlbEntry :=
  let l := l.filter fun x => !(x.vf == e.vf && x.va == e.va)
  e :: (if l.length < n then l else l.eraseIdx (pick % n))

/-- The caches after a translation, with the choices it made drawn (R132). -/
def State.noteTlb (s : State) (c : Option Nat) (v d t va : Nat) (acc : Acc) : State :=
  match s.xlate c v d t va acc with
  | .ok e _ =>
    let (pick, s) := s.draw
    let s := s.modDie d fun k => { k with stlb := cacheInsert pick 8192 k.stlb e }
    match c with
    | some c => s.modCore c fun k => { k with utlb := cacheInsert pick 64 k.utlb e }
    | none => s
  | _ => s

/-! ## Gangs and their keys (R288) -/

def State.gang (s : State) (g : BitVec 24) : Gang := look Gang.reset s.gangs g.toNat
def State.modGang (s : State) (g : BitVec 24) (f : Gang → Gang) : State := { s with gangs := ins s.gangs g.toNat (f (s.gang g)) }

/-- The key that firmware makes for a gang and epoch, shared among partitions that are not confidential. -/
def sharedKey (g : BitVec 24) (e : BitVec 8) : BitVec 256 := Config.firmwareKey (2 ^ 40 + 256 * g.toNat + e.toNat)

/-- The key that a partition may use for a gang in an epoch. -/
def Partition.gangKey (p : Partition) (g : BitVec 24) (e : BitVec 8) : Option (BitVec 256) :=
  match p.gangKeys.find? fun k => k.1 == g && k.2.1 == e with
  | some k => some k.2.2
  | none => if p.confidential then none else some (sharedKey g e)

/-! ## Regions (R125 to R128) -/

def localBase : Nat := 0x3F000000000
def windowBase : Nat := 0x3F000400000
def identBase : Nat := 0x3F002400000

/-- Where an access lands, or how it fails; `away` while another package waits on a page of its own. -/
inductive Resolved where
  | ok (t : Target) (rpl : Option Nat)
  | fault (code reason : Nat)
  | miss (m : PageRequest)
  | away
  deriving DecidableEq, Repr

/-- The place of a scratchpad offset of a core (R124, R127). -/
def State.scratchTarget (s : State) (c o : Nat) : Target :=
  match scratchAt (s.core c).part o with
  | some o => .pool c o
  | none => .hole

/-- The local region of a core (R125 to R127). -/
def State.localTarget (s : State) (c va : Nat) (acc : Acc) : Resolved :=
  if va < windowBase then .ok (s.scratchTarget c (va - localBase)) none
  else if va < identBase then
    .ok (s.scratchTarget (c / 8 * 8 + (va - windowBase) / 0x400000) ((va - windowBase) % 0x400000)) none
  else if va < identBase + 64 ∧ acc = .read then .ok (.ident (va - identBase)) none
  else .fault pageFaultCode localReason

/-- A translated team-memory access as a target. -/
def Walk.resolved : Walk → Resolved
  | .ok e off => if inReadback (e.at_ off) then .ok (.readback (e.at_ off)) none
                 else .ok (.hbm (e.at_ off)) (if e.rpl then some (e.pa) else none)
  | .fault code reason => .fault code reason
  | .miss m => .miss m

/-- The lowest-indexed team of a die with a gang identifier (R128). -/
def State.gangTeam (s : State) (d : Nat) (g : BitVec 24) : Option Nat :=
  ((s.die d).teams.find? fun e => e.2.st != 0 && e.2.gang == g).map (·.1)

/-- Dies of this package are endpoints 0 to 7 (log 20). -/
def dieOfEndpoint (e : Nat) : Option Nat := if e < 8 then some e else none

/-- Whose translation an address of team memory takes: the own team's, that of a team of a die of the package, that of a die of
another package, or nobody's. -/
inductive Route where
  | own
  | team (d t : Nat)
  | nobody
  | away
  deriving DecidableEq, Repr

/-- Two partitions hold one key for a gang in its current epoch (R288). -/
def State.shareKey (s : State) (p q : Nat) (g : BitVec 24) : Bool :=
  let key := fun p => (s.part p).gangKey g (s.gang g).epoch
  (key p).isSome && key p == key q

/-- R128; a team whose partition holds no common key with the issuing one is not reached (R288; log 95). -/
def State.route (s : State) (d t : Nat) (gang : BitVec 24) (ea : Word) : Route :=
  let e := ea.toNat / 2 ^ 42
  if e = endpointOf d then .own
  else match dieOfEndpoint e with
    | none => if ((s.part (s.team d t).part).gangKey gang (s.gang gang).epoch).isSome then .away else .nobody
    | some d2 => match s.gangTeam d2 gang with
      | none => .nobody
      | some t2 => if s.shareKey (s.team d t).part (s.team d2 t2).part gang then .team d2 t2 else .nobody

/-- What a die of another package answers: the access is accepted, faults precisely (R128), or waits on a page request there:
free values (log 95). -/
def State.awayTarget (s : State) (d : Nat) (gang : BitVec 24) (ea : Word) : Resolved :=
  match Config.outsideAnswer ea gang (s.die d).now % 7 with
  | 0 => .fault pageFaultCode noTeamReason
  | 1 => .fault pageFaultCode s1Invalid
  | 2 => .fault pageFaultCode s1Permission
  | 3 => .fault ownershipCode ownerReason
  | 4 => .fault stage2Code refusedReason
  | 5 => .away
  | _ => .ok (.outside ea) none

/-- An address of a team of a die, without a local region: what an engine command or a core reaches in HBM (R125, R128).
`c` is the core whose micro-TLB is used. -/
def State.teamTarget (s : State) (c : Option Nat) (d t : Nat) (gang : BitVec 24) (ea : Word) (acc : Acc) : Resolved :=
  let va := ea.toNat % 2 ^ 42
  match s.route d t gang ea with
  | .own => (s.xlate c (s.team d t).vf d t va acc).resolved
  | .team d2 t2 => (s.xlate none (s.team d2 t2).vf d2 t2 va acc).resolved
  | .nobody => .fault pageFaultCode noTeamReason
  | .away => s.awayTarget d gang ea

/-- An access of a team that meets a page whose request was answered REFUSED (R136). -/
def State.refusedAt (s : State) (d t : Nat) (refused : List Nat) (ea : Word) : Bool :=
  let va := ea.toNat % 2 ^ 42
  !(refused.isEmpty || localBase ≤ va) && (match s.route d t (s.team d t).gang ea with
    | .own => s.meetsRefused (s.team d t).vf d t va refused
    | .team d2 t2 => s.meetsRefused (s.team d2 t2).vf d2 t2 va refused
    | _ => false)

/-- An address as a strand of a core uses it (R125). -/
def State.resolve (s : State) (c : Nat) (ea : Word) (acc : Acc) : Resolved :=
  let va := ea.toNat % 2 ^ 42
  if localBase ≤ va then s.localTarget c va acc
  else s.teamTarget (some c) (coreDie c) (s.teamAt c) (s.team (coreDie c) (s.teamAt c)).gang ea acc

/-- The caches after an access by a core. -/
def State.noteAccess (s : State) (c : Nat) (ea : Word) (acc : Acc) : State :=
  let va := ea.toNat % 2 ^ 42
  let d := coreDie c
  if localBase ≤ va ∨ ea.toNat / 2 ^ 42 ≠ endpointOf d then s
  else s.noteTlb (some c) (s.team d (s.teamAt c)).vf d (s.teamAt c) va acc

/-- The verdict of a failed access; FINFO receives the address. A page whose request was answered REFUSED faults (R136). -/
def State.accessVerdict (s : State) (ea : Word) (r : Resolved) : Option Verdict :=
  if s.refusedAt s.myDie s.myTeamIndex s.me.wait.refused ea then some (faultWith stage2Code refusedReason ea)
  else match r with
    | .ok _ _ => none
    | .fault code reason => some (faultWith code reason ea)
    | .miss m => some (.block waitPage [m] none none)
    | .away => some (.block waitPage [] none none)

/-! ## Bytes of a target -/

/-- The identity line (R126). -/
def identLine (d : Nat) : List Byte := bytesOf 8 (endpointOf d) ++ List.replicate 56 0

/-- A staged byte that a holder reads in place of memory: the latest held line of the strand that covers it (R139). -/
def State.heldByte (s : State) (d t : Nat) (w : StrandName) (pa : Nat) : Option (Byte × Bool) :=
  s.dies.findSome? fun e =>
    (e.2.staging.reverse.find? fun l =>
      l.d == d && l.t == t && l.who == w && l.pa == pa / 64 * 64 && l.mask.getLsbD (pa % 64)).map fun l =>
        (bits l.data.toNat (8 * (pa % 64)) 8, l.mark)

/-- HBM bytes as a strand or its commands read them, with the poison mark of the lines (R139, R348). -/
def State.hbmRead (s : State) (d t : Nat) (w : StrandName) (pa n : Nat) : List Byte × Bool :=
  let raw := readBytes s.hbm pa n
  let poison := (linesOf pa n).any s.hbmPoison.contains
  if s.dies.all fun e => e.2.staging.isEmpty then (raw, poison)
  else
    let held := (List.range n).map fun i => s.heldByte d t w (pa + i)
    ((raw.zip held).map fun p => match p.2 with
      | some h => h.1
      | none => p.1, poison || held.any fun h => match h with
        | some x => x.2
        | none => false)

/-- Pool bytes of a core with the poison mark of their lines. -/
def Core.poolRead (k : Core) (a n : Nat) : List Byte × Bool :=
  (readBytes k.pool a n, (linesOf a n).any k.poolPoison.contains)

/-- A pool with bytes written. -/
def Core.poolWrite (k : Core) (a : Nat) (bs : List Byte) (mark : Bool) : Core :=
  { k with
    pool := writeBytes k.pool a bs
    written := insertNat (a / 4096) k.written
    poolPoison := if mark then (linesOf a bs.length).foldl (fun p l => insertNat l p) k.poolPoison
      else k.poolPoison.filter fun l => !(a ≤ l && l + 64 ≤ a + bs.length) }

/-- A value of n bytes that nothing in the package determines (log 19). -/
def freeBytes (k n : Nat) : List Byte := (List.range n).map fun i => BitVec.ofNat 8 (Config.free k / 256 ^ i)

end Sys2Proof.Machine
end

