-- ==== Sys2Proof/Machine/Fetch.lean ====
section
/-!
DEFINITION. Fetching the words of a bundle (R34, R62, R424).
-/

set_option Elab.async false
namespace Sys2Proof.Machine

/-- The outcome of a fetch. -/
inductive Fetched where
  | words (ws : List Word32)
  | fault (code reason : Nat)
  | wait (m : PageRequest)
  deriving DecidableEq, Repr

/-- The VF of the team on a core. -/
def State.vfAt (s : State) (c : Nat) : Nat := (s.team (coreDie c) (s.teamAt c)).vf

/-- One word of team memory, translated with the fetch access; the local region is never fetched (R424). -/
def State.fetchWord (s : State) (c va : Nat) : Except Fetched Word32 :=
  if localBase ≤ va then .error (.fault pageFaultCode localReason)
  else if s.meetsRefused (s.vfAt c) (coreDie c) (s.teamAt c) va s.me.wait.refused then .error (.fault stage2Code refusedReason)
  else match s.xlate (some c) (s.vfAt c) (coreDie c) (s.teamAt c) va .fetch with
    | .ok e off => .ok (BitVec.ofNat 32 (ofBytes (readBytes s.hbm (e.at_ off) 4)))
    | .fault code reason => .error (.fault code reason)
    | .miss m => .error (.wait m)

/-- n consecutive words. -/
def State.fetchWords (s : State) (c : Nat) : (n : Nat) → (va : Nat) → Except Fetched (List Word32)
  | 0, _ => .ok []
  | n + 1, va =>
    match s.fetchWord c va with
    | .error e => .error e
    | .ok w =>
      match s.fetchWords c n (va + 4) with
      | .error e => .error e
      | .ok ws => .ok (w :: ws)

/-- The bundle at an address: its header and its syllables (R30). -/
def State.fetchBundle (s : State) (c va : Nat) : Fetched :=
  match s.fetchWord c va with
  | .error e => e
  | .ok h =>
    match s.fetchWords c ((headerOf h).length - 1) (va + 4) with
    | .error e => e
    | .ok ws => .words (h :: ws)

/-- The bundle-start bit of a word on a die (R34), kept by VF, die and virtual address: whether it belongs to the address or to the
physical word is not said (DESIGN CHOICE, log 125). -/
def State.startBit (s : State) (d v va : Nat) : Bool := (look [] (s.vf v).starts d).contains va

/-- The address after n bundles from an address, by the lengths that their headers give (R30, R98, R99); it stops at a word
that cannot be fetched. -/
def State.skipBundles (s : State) (c : Nat) : (n : Nat) → (va : Nat) → Nat
  | 0, va => va
  | n + 1, va =>
    match s.fetchWord c va with
    | .ok h => s.skipBundles c n (va + 4 * (headerOf h).length)
    | .error _ => va

end Sys2Proof.Machine
end

