-- ==== Sys2Proof/Machine/Flags.lean ====
section
/-!
DEFINITION. Conditions and events: the relations of BR, CMPT, SPINW, FCMP and the vector compares, and the statistics
records that the events of an operation append (R111, R113, R116, R163, R168, R359).
-/

set_option Elab.async false
namespace Sys2Proof.Machine

/-- The condition of BR and CMPT: 0 EQ, 1 NE, 2 LT, 3 GE, 4 LTU, 5 GEU (R49, R113). -/
def condHolds (c : BitVec 3) (a b : Word) : Bool :=
  match c.toNat with
  | 0 => a == b
  | 1 => a != b
  | 2 => a.slt b
  | 3 => !a.slt b
  | 4 => a.ult b
  | _ => !a.ult b

/-- The condition of SPINW on the word read against xd: 0 EQ, 1 NE, 2 GE signed, 3 GEU (R116). -/
def spinHolds (c : BitVec 3) (word cmp : Word) : Bool :=
  match c.toNat with
  | 0 => word == cmp
  | 1 => word != cmp
  | 2 => !word.slt cmp
  | _ => !word.ult cmp

/-- The predicate of FCMP: 0 EQ, 1 LT, 2 LE, 3 UN (R111). -/
def fcmpHolds (c : BitVec 3) (a b : Val) : Bool :=
  match c.toNat with
  | 0 => a.beq b
  | 1 => a.lt b
  | 2 => a.lt b || a.beq b
  | _ => a.isNan || b.isNan

/-- The relation of VCEQ, VCLT and VCLE on two elements (R168). -/
def compareElems (op : Nat) (f : Nat) (a b : Nat) : Bool :=
  let x := efcDecode f a
  let y := efcDecode f b
  match op with
  | 0x20 => x.beq y
  | 0x21 => x.lt y
  | _ => x.lt y || x.beq y

/-- The event codes of R359 of a scalar result, as records of the issuing syllable with count 1 (R112, R358). -/
def State.eventRecords (s : State) (e : Events) : List StatRecord := e.codes.map fun c => s.record c 1 0

/-- Counts of events by code, added up. -/
def addEvents (acc : List (Nat × Nat)) (codes : List Nat) : List (Nat × Nat) :=
  codes.foldl (fun a c => put 0 a c (look 0 a c + 1)) acc

/-- The records of a block: one per event code, ascending, with its count (R163, R358). -/
def blockRecords (addr : VAddr) (slot : Nat) (counts : List (Nat × Nat)) (detail : Word) : List StatRecord :=
  counts.map fun e => mkRecord addr slot e.1 e.2 detail

/-- CLASS of R167 of a float element: the number of the one bit that is set. -/
def Fmt.classBit (f : Fmt) (c : Nat) : Nat :=
  let s := c / 2 ^ (f.ew + f.mw) % 2 == 1
  let e := c / 2 ^ f.mw % 2 ^ f.ew
  let m := c % 2 ^ f.mw
  if e = 2 ^ f.ew - 1 then
    if m = 0 then (if s then 0 else 7) else if m / 2 ^ (f.mw - 1) = 1 then 8 else 9
  else if e = 0 then
    if m = 0 then (if s then 3 else 4) else if s then 2 else 5
  else if s then 1 else 6

end Sys2Proof.Machine
end

