-- ==== Sys2Proof/Machine/Commands.lean ====
section
/-!
DEFINITION. What every queued engine command shares (R241 to R245, R251): the dependence word and its checks, the issue
of a command, its cancellation, the production of its token, and the checks of tokens.
-/

set_option Elab.async false
namespace Sys2Proof.Machine

/-! ## Statuses (R244) -/

def stBadDescriptor : Nat := 1
def stTranslation : Nat := 2
def stCapacity : Nat := 3
def stBadStream : Nat := 4
def stNoLease : Nat := 5
def stBusy : Nat := 6
def stBadImage : Nat := 7
def stNoReplicaSpace : Nat := 8
def stCancelled : Nat := 9
def stDependency : Nat := 10
def stRefusedVersion : Nat := 11

/-! ## Dependence words and issue (R241, R242) -/

/-- The produced token and the consumed tokens of a dependence word; 255 in a consumed field means none (R241). -/
def depProduced (w : Word) : Nat := w.toNat % 256
def depConsumed (w : Word) : List Nat :=
  [w.toNat / 2 ^ 8 % 256, w.toNat / 2 ^ 16 % 256, w.toNat / 2 ^ 24 % 256].filter (· != 255)

/-- The TOKEN fault of a dependence word, with the token that fails (R241, R338). -/
def Team.depFault (t : Team) (w : Word) : Option Verdict :=
  let p := depProduced w
  if p = 255 ∨ (t.token p).st = .pending then some (faultWith 0x0E 0 (BitVec.ofNat 64 p))
  else (depConsumed w).findSome? fun k => if (t.token k).st = .idle then some (faultWith 0x0E 0 (BitVec.ofNat 64 k)) else none

/-- A strand of a team, by name. -/
def Cmd.of_ (m : Cmd) (d t : Nat) (w : StrandName) : Bool := m.d == d && m.t == t && m.who == w

/-- The issuing strand's name. -/
def State.myName (s : State) : StrandName := s.nameOf s.issue.core s.issue.strand

/-- The strand's queued commands whose tokens are pending (R242). -/
def State.queueLength (s : State) (d t : Nat) (w : StrandName) : Nat :=
  (s.cmds.filter fun m => m.of_ d t w && !m.done).length

/-- The descriptor fields of dN, by field number (R247). -/
def Strand.descOf (t : Strand) (n : Nat) : Sparse Word :=
  t.desc.filterMap fun e => if e.1 / 32 = n then some (e.1 % 32, e.2) else none

/-- A command of the issuing strand enters its unit's queue; its token becomes pending (R242). A finished command that named
the token before is forgotten (R245). -/
def State.newCmd (s : State) (cap : Captured) (tok : Nat) (consumed : List Nat) (cancel mark : Bool) : State :=
  let d := s.myDie
  let t := s.myTeamIndex
  let m : Cmd :=
    { id := s.nextId, d := d, t := t, who := s.myName, cap := cap, seq := s.myCore.issued, gang := s.myTeam.gang,
      token := tok, consumed := consumed.filter (· != tok), started := false, done := false, seen := false, cancel := cancel,
      own := if consumed.contains tok then (s.myTeam.token tok).st else .ok, progress := 0, next := 0, window := 0, waits := [],
      refused := none, cache := [], olds := [], tees := [], out := [], pos := 0, updates := [], adds := [], crc := 0, events := [], holes := [], mark := mark, unanswered := 0,
      status := 0, cause := 0, failAddr := 0 }
  let s := { s with
    cmds := (s.cmds.filter fun k : Cmd => !(k.done && k.d == d && k.t == t && k.token == tok)) ++ [m]
    nextId := s.nextId + 1 }
  s.setToken d t tok { st := .pending, index := 0, status := 0, cause := 0, cmd := some m.id }

/-- The page requests that a command waits on. -/
def Cmd.tags (m : Cmd) : List Nat := m.waits.flatMap (·.tags)

/-- A change of one command. -/
def State.modCmd (s : State) (id : Nat) (f : Cmd → Cmd) : State :=
  { s with cmds := s.cmds.map fun m => if m.id = id then f m else m }

/-- The cancellation of unfinished commands: a waiting one will not be performed, a running one stops at its next unit
(R251). -/
def State.cancelCmds (s : State) (p : Cmd → Bool) : State :=
  { s with cmds := s.cmds.map fun m => if p m && !m.done then { m with cancel := true } else m }

/-- A copy whose destination lies in the own scratchpad, which an open phase records (R351). -/
def Cmd.recordable (m : Cmd) (firstCmd : Nat) : Bool :=
  (match m.cap.op with
    | .cpy _ _ _ => true
    | .cpyst _ _ _ t _ _ => t
    | _ => false)
  && m.id < firstCmd
  && (let va := (look 0 m.cap.desc 1).toNat % 2 ^ 42
      localBase ≤ va && va < windowBase)

/-- A check of the issuing strand has seen a token produced: an open phase records the copy that produced it (R351). -/
def State.noteSeen (s : State) (tok : Nat) : State :=
  match s.cmds.find? fun m => m.of_ s.myDie s.myTeamIndex s.myName && m.token == tok && m.done && !m.seen with
  | none => s
  | some m =>
    let s := s.modCmd m.id fun k => { k with seen := true }
    s.modMe fun t =>
      match t.phase with
      | none => t
      | some ph =>
        if !m.recordable ph.firstCmd then t
        else if ph.recorded.length < 16 then { t with phase := some { ph with recorded := ph.recorded ++ [m.cap] } }
        else { t with ctl := { t.ctl with norec := true } }

/-- PROGIDX of a check of a token (R245). -/
def State.progress (s : State) (tok : Nat) : Word :=
  let k := s.myTeam.token tok
  let index := match k.cmd.bind fun id => s.cmds.find? fun m => m.id == id && !m.done with
    | some m => m.progress
    | none => k.index
  BitVec.ofNat 64 (index % 2 ^ 40 + 2 ^ 40 * (k.status % 256) + 2 ^ 48 * (k.cause % 256) + 2 ^ 56 * tok)

/-- What TKWAIT and TKTEST write for a token's state (R115). -/
def TokenState.result : TokenState → Word
  | .ok => 0
  | .cancelled => 1
  | .error => 2
  | .pending => 3
  | .idle => 4

/-- A statistics record to a strand by name, wherever its state is kept (R244). -/
def State.recordTo (s : State) (d t : Nat) (w : StrandName) (rs : List StatRecord) (poison : Bool) : State :=
  let f := fun x : Strand => (if poison then x.consume else x).appendAll rs
  if s.resident d t then
    match s.coreNamed d t w with
    | some c => s.modStrand c w.n f
    | none => s
  else s.modTeam d t fun m => { m with saved := m.saved.map fun k =>
    if k.lcore = 8 * w.cl + w.co then { k with strands := k.strands.map fun e => if e.1 = w.n then (e.1, f e.2) else e } else k }

/-- The end of a command (R243 to R245): its records, one per event code and then ENGINE_FAULT, reach its strand; its token
is produced. -/
def State.finishCmd (s : State) (id : Nat) (st : TokenState) : State :=
  match s.cmds.find? fun m => m.id == id with
  | none => s
  | some m =>
    let failing := m.status != 0 && m.status != 9 && m.status != 10
    let detail := BitVec.ofNat 64 (m.status % 256 + 256 * (m.cause % 256) + 2 ^ 16 * m.token + 2 ^ 24 * (m.failAddr.toNat % 2 ^ 40))
    let recs := blockRecords m.cap.addr 14 m.events 0 ++ (if failing then [mkRecord m.cap.addr 14 8 1 detail] else [])
    let s := s.recordTo m.d m.t m.who recs m.mark
    let s := s.modCmd id fun k => { k with done := true, cache := [], olds := [], tees := [], holes := [], out := [], updates := [], adds := [] }
    s.setToken m.d m.t m.token { st := st, index := m.progress, status := m.status, cause := m.cause, cmd := some id }

end Sys2Proof.Machine
end

