-- ==== Sys2Proof/Machine/Scalar.lean ====
section
/-!
DEFINITION. The scalar integer instructions (R103 to R107): one meaning each over three shapes of operand.
-/

set_option Elab.async false
namespace Sys2Proof.Machine

/-! ## Shapes -/

/-- xd := f(xa), at a latency. -/
def aluOne (i : Instr) (d a : BitVec 6) (latency : Nat) (f : Word → Word) (s : State) : Out :=
  issuePlain i s fun s =>
    let p := s.src a
    p.2.result latency (.x d (f p.1.1)) p.1.2

/-- xd := f(xa, xb), at a latency. -/
def aluTwo (i : Instr) (d a b : BitVec 6) (latency : Nat) (f : Word → Word → Word) (s : State) : Out :=
  issuePlain i s fun s =>
    let p := s.src2 a b
    p.2.result latency (.x d (f p.1.1 p.1.2.1)) p.1.2.2

/-- xd := f(xd, xa), at latency 1; xd is read. -/
def aluKeep (i : Instr) (d a : BitVec 6) (f : Word → Word → Word) (s : State) : Out :=
  issuePlain i s fun s =>
    let old := s.me.reg d
    let mark := s.me.regMark d
    let p := s.src a
    p.2.result 1 (.x d (f old p.1.1)) (mark || p.1.2)

/-- xd := f(xd), at latency 1, without a source field. -/
def aluSelf (i : Instr) (d : BitVec 6) (f : Word → Word) (s : State) : Out :=
  issuePlain i s fun s => s.result 1 (.x d (f (s.me.reg d))) (s.me.regMark d)

/-! ## Operations -/

/-- Bits [127:64] of the product, signed or unsigned (R103). -/
def mulHigh (unsigned : Bool) (a b : Word) : Word :=
  if unsigned then BitVec.ofNat 64 (a.toNat * b.toNat / 2 ^ 64) else BitVec.ofInt 64 (a.toInt * b.toInt / 2 ^ 64)

/-- Quotient and remainder (R104). -/
def divide (unsigned : Bool) (a b : Word) : Word × Word :=
  if b = 0 then (BitVec.allOnes 64, a)
  else if unsigned then (BitVec.ofNat 64 (a.toNat / b.toNat), BitVec.ofNat 64 (a.toNat % b.toNat))
  else if a = BitVec.intMin 64 ∧ b = BitVec.allOnes 64 then (a, 0)
  else (BitVec.ofInt 64 (a.toInt.tdiv b.toInt), BitVec.ofInt 64 (a.toInt.tmod b.toInt))

/-- a < b, signed or unsigned. -/
def less (unsigned : Bool) (a b : Word) : Bool := if unsigned then a.ult b else a.slt b

/-- The shift amount of SHL, SHR and SAR: bits [5:0] of xb (R103). -/
def shiftBy (b : Word) : Nat := b.toNat % 64

/-- Leading zero bits; 64 for 0 (R105). -/
def leadingZeros (a : Word) : Nat := if a = 0 then 64 else 63 - Nat.log2 a.toNat

/-- Trailing zero bits; 64 for 0 (R105). -/
def trailingZeros (a : Word) : Nat := ((List.range 64).find? fun i => a.getLsbD i).getD 64

/-- Set bits (R105). -/
def popCount (a : Word) : Nat := ((List.range 64).filter fun i => a.getLsbD i).length

/-- Bit i of the result is bit 63 - i of a (R105). -/
def reverseBits (a : Word) : Word := a.reverse

/-- bits(a, pos + len - 1, pos) (R106). -/
def extractField (pos len : Nat) (a : Word) : Word := BitVec.ofNat 64 (a.toNat / 2 ^ pos % 2 ^ len)

/-- bits [pos + len - 1 : pos] of old receive bits(a, len - 1, 0) (R106). -/
def insertField (pos len : Nat) (old a : Word) : Word :=
  let mask : Word := BitVec.ofNat 64 ((2 ^ len - 1) * 2 ^ pos)
  (old &&& ~~~mask) ||| ((a <<< pos) &&& mask)

/-- SB's divide unit holds the bundle while it is busy (R104, R112). -/
def State.divHold (s : State) (sb : Bool) : Option Verdict :=
  if s.myCore.mtime < (if sb then s.myCore.divB else s.myCore.divA) then some (.hold true) else none

/-- A divide-and-root unit is busy for n cycles (R104, R112). -/
def State.useDivider (s : State) (sb : Bool) (n : Nat) : State :=
  s.modMyCore fun k => if sb then { k with divB := k.mtime + n } else { k with divA := k.mtime + n }

/-- DIV and REM (R104). -/
def divRem (i : Instr) (d a b : BitVec 6) (f : Word → Word → Word) (s : State) : Out :=
  issueWith i s (fun s => { holds := s.divHold true }) fun s =>
    let p := s.src2 a b
    (p.2.useDivider true 20).result 20 (.x d (f p.1.1 p.1.2.1)) p.1.2.2

/-! ## Meanings -/

/-- R33, R57: NOP is the empty bundle; beside its issue cycle it has no effect. -/
def execNop (y k : Bool) (s : State) : Out := .next (match y, k with
  | _, _ => s)

def execAdd (d a b : BitVec 6) (s : State) : Out := aluTwo (.add d a b) d a b 1 (· + ·) s
def execSub (d a b : BitVec 6) (s : State) : Out := aluTwo (.sub d a b) d a b 1 (· - ·) s
def execMul (d a b : BitVec 6) (s : State) : Out := aluTwo (.mul d a b) d a b 3 (· * ·) s
def execMulh (d a b : BitVec 6) (u : Bool) (s : State) : Out := aluTwo (.mulh d a b u) d a b 3 (mulHigh u) s
def execDiv (d a b : BitVec 6) (u : Bool) (s : State) : Out := divRem (.div d a b u) d a b (fun x y => (divide u x y).1) s
def execRem (d a b : BitVec 6) (u : Bool) (s : State) : Out := divRem (.rem d a b u) d a b (fun x y => (divide u x y).2) s
def execAnd (d a b : BitVec 6) (s : State) : Out := aluTwo (.and d a b) d a b 1 (· &&& ·) s
def execOr (d a b : BitVec 6) (s : State) : Out := aluTwo (.or d a b) d a b 1 (· ||| ·) s
def execXor (d a b : BitVec 6) (s : State) : Out := aluTwo (.xor d a b) d a b 1 (· ^^^ ·) s
def execShl (d a b : BitVec 6) (s : State) : Out := aluTwo (.shl d a b) d a b 1 (fun x y => x <<< shiftBy y) s
def execShr (d a b : BitVec 6) (s : State) : Out := aluTwo (.shr d a b) d a b 1 (fun x y => x >>> shiftBy y) s
def execSar (d a b : BitVec 6) (s : State) : Out := aluTwo (.sar d a b) d a b 1 (fun x y => x.sshiftRight (shiftBy y)) s
def execSlt (d a b : BitVec 6) (u : Bool) (s : State) : Out :=
  aluTwo (.slt d a b u) d a b 1 (fun x y => ofBool64 (less u x y)) s
def execSeq (d a b : BitVec 6) (s : State) : Out := aluTwo (.seq d a b) d a b 1 (fun x y => ofBool64 (x == y)) s
def execMin (d a b : BitVec 6) (u : Bool) (s : State) : Out :=
  aluTwo (.min d a b u) d a b 1 (fun x y => if less u y x then y else x) s
def execMax (d a b : BitVec 6) (u : Bool) (s : State) : Out :=
  aluTwo (.max d a b u) d a b 1 (fun x y => if less u x y then y else x) s

/-- R103: xd := xa where the old xd is nonzero, else xb. -/
def execSel (d a b : BitVec 6) (s : State) : Out :=
  issuePlain (.sel d a b) s fun s =>
    let old := s.me.reg d
    let mark := s.me.regMark d
    let p := s.src2 a b
    p.2.result 1 (.x d (if old ≠ 0 then p.1.1 else p.1.2.1)) (mark || p.1.2.2)

def execClz (d a : BitVec 6) (s : State) : Out := aluOne (.clz d a) d a 1 (fun x => BitVec.ofNat 64 (leadingZeros x)) s
def execCtz (d a : BitVec 6) (s : State) : Out := aluOne (.ctz d a) d a 1 (fun x => BitVec.ofNat 64 (trailingZeros x)) s
def execPopc (d a : BitVec 6) (s : State) : Out := aluOne (.popc d a) d a 1 (fun x => BitVec.ofNat 64 (popCount x)) s
def execBrev (d a : BitVec 6) (s : State) : Out := aluOne (.brev d a) d a 1 reverseBits s

/-- R38, R105: the head of the stream as it stood before the bundle. -/
def execPeek (d : BitVec 6) (k : BitVec 3) (s : State) : Out :=
  issuePlain (.peek d k) s fun s =>
    let q := look [] s.issue.popped k.toNat ++ s.me.stream k.toNat
    let e := q.headD { val := 0, mark := false }
    s.result 1 (.x d e.val) e.mark

def execBfx (d a p l : BitVec 6) (s : State) : Out := aluOne (.bfx d a p l) d a 1 (extractField p.toNat (l.toNat + 1)) s
def execBfi (d a p l : BitVec 6) (s : State) : Out := aluKeep (.bfi d a p l) d a (insertField p.toNat (l.toNat + 1)) s
def execAgen (d a b : BitVec 6) (sh : BitVec 3) (s : State) : Out :=
  aluTwo (.agen d a b sh) d a b 1 (fun x y => x + (y <<< sh.toNat)) s
def execAddi (d a : BitVec 6) (i : BitVec 14) (s : State) : Out := aluOne (.addi d a i) d a 1 (· + sext64 i) s
def execAndi (d a : BitVec 6) (i : BitVec 14) (s : State) : Out := aluOne (.andi d a i) d a 1 (· &&& zext64 i) s
def execOri (d a : BitVec 6) (i : BitVec 14) (s : State) : Out := aluOne (.ori d a i) d a 1 (· ||| zext64 i) s
def execXori (d a : BitVec 6) (i : BitVec 14) (s : State) : Out := aluOne (.xori d a i) d a 1 (· ^^^ zext64 i) s
def execShli (d a n : BitVec 6) (s : State) : Out := aluOne (.shli d a n) d a 1 (· <<< n.toNat) s
def execShri (d a n : BitVec 6) (s : State) : Out := aluOne (.shri d a n) d a 1 (· >>> n.toNat) s
def execSari (d a n : BitVec 6) (s : State) : Out := aluOne (.sari d a n) d a 1 (·.sshiftRight n.toNat) s
def execSlti (d a : BitVec 6) (i : BitVec 14) (s : State) : Out :=
  aluOne (.slti d a i) d a 1 (fun x => ofBool64 (x.slt (sext64 i))) s

/-- R107: xd := sext(imm20). -/
def execMovi (d : BitVec 6) (i : BitVec 20) (s : State) : Out :=
  issuePlain (.movi d i) s fun s => s.result 1 (.x d (sext64 i))

/-- R107: imm20 into [31:12], [63:32] cleared, [11:0] kept. -/
def execMovhi (d : BitVec 6) (i : BitVec 20) (s : State) : Out :=
  aluSelf (.movhi d i) d (fun x => (zext64 i <<< 12) ||| (x &&& 0xFFF)) s

/-- R107: imm20 into [63:44], the rest kept. -/
def execMovhh (d : BitVec 6) (i : BitVec 20) (s : State) : Out := aluSelf (.movhh d i) d (fun x => insertField 44 20 x (zext64 i)) s

end Sys2Proof.Machine
end

