-- ==== Sys2Proof/Machine/Control.lean ====
section
/-!
DEFINITION. Control flow and strand instructions: branches and jumps (R113, R114), loops (R98 to R100), ENDK (R118), TRAP
(R345), CMPT (R355), CHKERR with the rollback of a phase (R352, R353), SPINW (R116), phases (R119), ERET (R344). When an
admitted bundle runs its syllables, the strand's pc, issue time and nest already stand at the bundle that follows.
-/

set_option Elab.async false
namespace Sys2Proof.Machine

def loopCode : Nat := 0x0F

/-- A taken transfer, or LOOP, in a body bundle of a live nest (R100). -/
def State.loopFault (s : State) : Option Verdict := if s.me.nest.isSome then some (faultWith loopCode 0 0) else none

/-- A target by a signed displacement in words from the header (R41). -/
def State.target {w : Nat} (s : State) (disp : BitVec w) : VAddr := s.issue.addr + disp.signExtend 42 * 4

/-- The address of the next bundle, which CALL and JRL write (R113). -/
def State.link (s : State) : Word := BitVec.ofNat 64 (s.issue.addr.toNat + 4 * s.issue.len)

/-- The next bundle is the target, `delay` strand cycles after this one (R114). -/
def State.goTo (s : State) (target : VAddr) (delay : Nat) : State :=
  s.modMe fun t => { t with pc := target, issueAt := t.time + delay }

/-- A conditional branch (R113, R114). -/
def branch {w : Nat} (i : Instr) (taken : State → Bool) (disp : BitVec w) (s : State) : Out :=
  issueWith i s (fun s => { faults := if taken s then s.loopFault else none }) fun s =>
    let go := taken s
    let p := i.sources.foldl (fun (q : Bool × State) r => let v := q.2.src r; (q.1 || v.1.2, v.2)) (false, s)
    let s := p.2.consumed p.1
    if go then s.goTo (s.target disp) 2 else s

def execBr (c : BitVec 3) (a b : BitVec 6) (d : BitVec 11) (s : State) : Out :=
  branch (.br c a b d) (fun s => condHolds c (s.srcPeek a) (s.srcPeek2 a b)) d s
def execBz (a : BitVec 6) (d : BitVec 19) (s : State) : Out := branch (.bz a d) (fun s => s.srcPeek a == 0) d s
def execBnz (a : BitVec 6) (d : BitVec 19) (s : State) : Out := branch (.bnz a d) (fun s => s.srcPeek a != 0) d s

def execJmp (d : BitVec 26) (s : State) : Out :=
  issueWith (.jmp d) s (fun s => { faults := s.loopFault }) fun s => s.goTo (s.target d) 2

/-- R113: the link goes to x55 at latency 1. -/
def execCall (d : BitVec 26) (s : State) : Out :=
  issueWith (.call d) s (fun s => { faults := s.loopFault }) fun s => (s.result 1 (.x 55 s.link)).goTo (s.target d) 2

/-- The fault of a register target with bits [1:0] set (R114). -/
def misalignedTarget (v : Word) : Option Verdict :=
  if v.toNat % 4 ≠ 0 then some (faultWith misalignedCode alignReason v) else none

/-- JR (R114). In a live loop body a transfer raises LOOP (R100), also where its target is misaligned: which of the two faults of R114
comes first is not said (DESIGN CHOICE, log 112). JRL takes the same order. -/
def execJr (a : BitVec 6) (g : Bool) (s : State) : Out :=
  issueWith (.jr a g) s (fun s => { faults := s.loopFault.or (misalignedTarget (s.srcPeek a)) }) fun s =>
    let p := s.src a
    (p.2.consumed p.1.2).goTo (p.1.1.setWidth 42) 3

def execJrl (d a : BitVec 6) (g : Bool) (s : State) : Out :=
  issueWith (.jrl d a g) s (fun s => { faults := s.loopFault.or (misalignedTarget (s.srcPeek a)) }) fun s =>
    let p := s.src a
    ((p.2.consumed p.1.2).result 1 (.x d s.link)).goTo (p.1.1.setWidth 42) 3

/-! ## Loops (R98 to R100) -/

/-- The passes of a body: after the last bundle of a pass the nest ends, or its next bundle is the first of the body with
the advance of the indices due (R99). -/
def Nest.next (n : Nest) : Option Nest :=
  if n.pos + 1 < n.body then some { n with pos := n.pos + 1 }
  else if (n.idx.zip n.counts).all fun p => p.1 + 1 == p.2 then none
  else some { n with pos := 0, due := true }

/-- The indices after an advance and the dimension that advances (R99). -/
def advanceIdx : (idx counts : List Nat) → (k : Nat) → List Nat × Nat
  | [], _, k => ([], k)
  | i :: is, cs, k =>
    match cs with
    | [] => (i :: is, k)
    | c :: cs => if i + 1 = c then let r := advanceIdx is cs (k + 1); (0 :: r.1, r.2) else ((i + 1) :: is, k)

/-- The advance at the issue cycle of a pass's first bundle: indices, and the step of the dimension that advances, added to
its base register after the results due in that cycle (R99). -/
def Strand.takeStep (t : Strand) : Strand :=
  match t.nest with
  | none => t
  | some n =>
    if !n.due then t
    else
      let r := advanceIdx n.idx n.counts 0
      let w := nth (0, false) n.steps r.2
      let base : BitVec 6 := w.1.extractLsb' 48 6
      let t := { t with nest := some { n with idx := r.1, due := false } }
      if 1 ≤ base.toNat ∧ base.toNat ≤ 55 then
        (t.setReg base (t.reg base + (w.1.extractLsb' 0 48).signExtend 64) (t.regMark base || w.2)).mend .scalarReg 0 base.toNat
      else t

/-- The base register that the step of a pass's first bundle reads, when it is uncorrectable (R99, R356). -/
def Strand.badStep (t : Strand) : Option Nat :=
  t.nest.bind fun n =>
    let w := nth (0, false) n.steps (advanceIdx n.idx n.counts 0).2
    let base := (w.1.extractLsb' 48 6).toNat
    if n.due ∧ 1 ≤ base ∧ base ≤ 55 ∧ t.isBad .scalarReg 0 base then some base else none

/-- LOOP (R98, R99): the counts and steps are latched, so that a later write of LC or LSTEP serves the next LOOP; a zero count
skips the body, and the next bundle issues 2 cycles later. A marked count or step is consumed (R348). -/
def execLoop (n : BitVec 6) (p : BitVec 3) (s : State) : Out :=
  issueWith (.loop n p) s (fun s => { faults := s.loopFault }) fun s =>
    let body := if n = 0 then 64 else n.toNat
    let counts := (s.me.ctl.lc.toList.take p.toNat).map BitVec.toNat
    let steps := (s.me.ctl.lstep.toList.take p.toNat).zipIdx.map fun w => (w.1, s.me.ctlMarks.contains (0x018 + w.2))
    let s := s.consumed (s.ctlMark (Instr.loop n p).controls)
    let next := s.issue.addr.toNat + 4 * s.issue.len
    if counts.any (· == 0) then s.goTo (BitVec.ofNat 42 (s.skipBundles s.issue.core body next)) 2
    else
      let nest : Nest := { depth := p.toNat, body := body, pos := 0, first := BitVec.ofNat 42 next, counts := counts,
                           steps := steps, idx := counts.map fun _ => 0, due := false }
      s.modMe fun t => { t with nest := some nest }

/-! ## End, traps, checks -/

/-- A strand that ends leaves the core. -/
def State.leaveCore (s : State) (c n : Nat) : State :=
  s.modCore c fun k =>
    { k.setStrand n { k.strand n with mode := .blocked } with
      running := if k.running == some n then none else k.running, last := n, switchLeft := 1 }

/-- ENDK (R118): an open phase commits when the poison bits are clear, else its held stores are discarded; the strand then
waits, without issuing, until STRAND_END. It stays on the core while a block store of it has registers left to read (R277). -/
def execEndk (s : State) : Out :=
  issuePlain .endk s fun s =>
    let c := s.issue.core
    let n := s.issue.strand
    if (s.strand c n).condemned.isSome then s.killStrand c n false
    else
      let bad := (s.strand c n).ctl.poison || (s.strand c n).ctl.mm
      let s := if bad then s.dropPhase c n else s.commitPhase c n
      let s := s.modStrand c n fun t => { t with ending := true, nest := none }
      if (s.strand c n).storingAny then s else s.leaveCore c n

/-- TRAP raises TRAP_INSTR (R345). -/
def execTrap (c : BitVec 20) (s : State) : Out :=
  issueWith (.trap c) s (fun _ => { faults := some (faultWith 0x11 0 (zext64 c)) }) id

/-- CMPT (R355): COMPARE_TRAP when the relation does not hold; FINFO receives xa. -/
def execCmpt (a b : BitVec 6) (c : BitVec 3) (s : State) : Out :=
  issueWith (.cmpt a b c) s (fun s =>
    { faults := if condHolds c (s.srcPeek a) (s.srcPeek2 a b) then none
        else some (faultWith 0x06 c.toNat (s.srcPeek a)) }) fun s =>
    let p := s.src2 a b
    p.2.consumed p.1.2.2

/-- CHKI as MFC reads it (R349). -/
def Strand.chki (t : Strand) : Word :=
  BitVec.ofNat 64 ((if t.ctl.poison then 1 else 0) + (if t.ctl.mm then 2 else 0) + 4 * t.ctl.retry.toNat
    + (if t.phase.isSome then 16 else 0) + (if t.ctl.norec then 32 else 0) + 65536 * t.ctl.pcount.toNat)

/-- The error bits that CHKERR and ENDK see (R349, R352). -/
def Ctl.errorBits (k : Ctl) : Bool := k.poison || k.mm

/-- CHKERR will roll the phase back (R352). -/
def Strand.rollsBack (t : Strand) : Bool := t.ctl.errorBits && t.phase.isSome

/-- The rollback of the open phase (R353). -/
def State.rollback (s : State) : State :=
  let c := s.issue.core
  let n := s.issue.strand
  match s.me.phase with
  | none => s
  | some ph =>
    let s := s.cancelCmds fun m => m.of_ s.myDie s.myTeamIndex s.myName && ph.firstCmd ≤ m.id
    let s := s.discardHeld (s.phaseHolder c n)
    let s := s.modMe fun t =>
      { t with
        pend := [], blocks := [], frames := t.frames.map fun f => { f with pend := [], blocks := [] }
        x := ph.regs, marks := ph.marks, bad := ph.bad ++ t.bad.filter (·.kind != .scalarReg), nest := ph.nest, pc := ph.first, issueAt := t.time + 4
        spin := none, gather := none
        ctl := { t.ctl with poison := false, mm := false, retry := t.ctl.retry + 1 } }
    let s := s.countVf (s.myTeam.vf) 7
    ph.recorded.foldl (fun s m => s.newCmd m (depProduced m.dep) [] false false) s

/-- CHKERR (R352). -/
def execChkerr (d : BitVec 6) (t c : Bool) (s : State) : Out :=
  let i := Instr.chkerr d t c
  issueWith i s (fun s =>
    let k := s.me.ctl
    { faults :=
        if !k.errorBits then none
        else match s.me.phase with
          | some ph =>
            if k.retry = 3 then some (faultWith 0x10 1 (zext64 ph.first))
            else if k.norec then some (faultWith 0x10 2 (zext64 ph.first))
            else none
          | none =>
            if t then some (faultWith 0x07 0 s.me.chki)
            else none }) fun s =>
    let k := s.me.ctl
    if !k.errorBits then s.result 2 (.x d 0)
    else if s.me.phase.isSome then s.rollback
    else
      let v : Word := (if k.poison then 1 else 0) + (if k.mm then 2 else 0)
      let s := s.result 2 (.x d v)
      if c then s.modMe fun t => { t with ctl := { t.ctl with poison := false, mm := false } } else s

/-! ## Phases (R119) -/

/-- phase.begin (R119): latency 1; a length that is not a multiple of 64 is ILLEGAL_ENCODING at issue. It records the registers as they
stand at issue (DESIGN CHOICE, log 120). -/
def execPhaseBegin (a b : BitVec 6) (s : State) : Out :=
  let i := Instr.phaseBegin a b
  issueWith i s (fun s =>
    { faults := if (s.srcPeek2 a b).toNat % 64 ≠ 0 then some (faultWith illegalCode 0 (zext64 i.encode)) else none }) fun s =>
    let p := s.src2 a b
    let t := p.2.me
    p.2.result 1 (.phase (some
      { first := t.pc, nest := t.nest, regs := t.x, marks := t.marks, bad := t.bad.filter (·.kind == .scalarReg), base := p.1.1, len := p.1.2.1.toNat,
        recorded := [], firstCmd := s.nextId })) p.1.2.2

/-- phase.commit (R119). -/
def execPhaseCommit (s : State) : Out := issuePlain .phaseCommit s fun s => s.result 1 (.phase none)

/-! ## Return from a trap (R344) -/

/-- The place of a bundle in the body of a nest, the body's length for the bundle that follows the body (R98, R99). -/
def State.bodyPlace (s : State) (c : Nat) (q : Nest) (va : Nat) : Option Nat :=
  (List.range (q.body + 1)).find? fun k => s.skipBundles c k q.first.toNat == va

/-- A restored nest goes on at the body bundle that the return address names; past the last one the pass is over, and for
any other address the count of the pass stands as it was (R99, R100, R344; DEDUCED, log 37). -/
def Strand.resumeLoop (place : Option Nat) (t : Strand) : Strand :=
  match t.nest, place with
  | some q, some k =>
    if k < q.body then { t with nest := some { q with pos := k } }
    else
      let u := t.takeStep
      match u.nest with
      | none => u
      | some v =>
        match Nest.next { v with pos := v.body - 1 } with
        | none => { u with nest := none }
        | some v => { u with nest := some v, pc := v.first }
  | _, _ => t

/-- ERET: PRIVILEGE at U, MISALIGNED for an unaligned EPC, LOOP in a live body; else the strand returns and its suspended
nest, if any, is restored. -/
def execEret (s : State) : Out :=
  issueWith .eret s (fun s =>
    { faults := s.loopFault.or (misalignedTarget (zext64 s.me.ctl.epc)) }) fun s =>
      let s := (s.consumed (s.ctlMark [0x002])).modMe Strand.returnTrap
      let c := s.issue.core
      s.modMe fun t => t.resumeLoop (t.nest.bind fun q => s.bodyPlace c q t.pc.toNat)

end Sys2Proof.Machine
end

