-- ==== Sys2Proof/Machine/Special.lean ====
section
/-!
DEFINITION. The special functions (R182, R183, R187, R188). A function of a finite nonzero x is approximated by integer
arithmetic to a stated number of bits: the true magnitude lies within 2^20 units of the approximation. F32, BF16 and F16
results are rounded from an enclosure that decides the rounding; an F64 result is one of the two bracketing values, chosen
within the ulp bound of its version by Config.specialUpper (log 9).
-/

set_option Elab.async false
namespace Sys2Proof.Machine

/-! ## Series in fixed point with w fraction bits -/

/-- Sum of r^n / n! for n from k, `term` being the n = k term. -/
def expSeries (w r : Nat) : (fuel : Nat) → (k term : Nat) → Nat
  | 0, _, term => term
  | fuel + 1, k, term => if term = 0 then 0 else term + expSeries w r fuel (k + 1) (term * r / 2 ^ w / (k + 1))

/-- e^r for 0 <= r < 1. -/
def expUnit (w r : Nat) : Nat := expSeries w r (w + 8) 0 (2 ^ w)

/-- Sum of t / (2k + 1), t multiplied by z2 from term to term (atanh). -/
def atanhSeries (w z2 : Nat) : (fuel : Nat) → (k t : Nat) → Nat
  | 0, _, _ => 0
  | fuel + 1, k, t => if t = 0 then 0 else t / (2 * k + 1) + atanhSeries w z2 fuel (k + 1) (t * z2 / 2 ^ w)

/-- atanh z for 0 <= z <= 1/3. -/
def atanhFix (w z : Nat) : Nat := atanhSeries w (z * z / 2 ^ w) (w + 8) 0 z

/-- Sum of (-1)^k t / (2k + 1), t divided by n2 from term to term (arctangent of 1/n). -/
def atanSeries (n2 : Nat) : (fuel : Nat) → (k : Nat) → (t : Nat) → Int
  | 0, _, _ => 0
  | fuel + 1, k, t => if t = 0 then 0 else (t / (2 * k + 1) : Nat) - atanSeries n2 fuel (k + 1) (t / n2)

/-- pi by Machin's formula, to within one unit: 32 guard bits. -/
def piFix (w : Nat) : Nat :=
  let g := w + 32
  let a := fun n : Nat => atanSeries (n * n) (g + 8) 0 (2 ^ g / n)
  (16 * a 5 - 4 * a 239).toNat / 2 ^ 32

/-- ln 2 = 2 atanh(1/3), to within one unit. -/
def ln2Fix (w : Nat) : Nat := 2 * atanhFix (w + 32) (2 ^ (w + 32) / 3) / 2 ^ 32

/-- Sum of (-1)^k t, where t goes from term to term by r2 / ((2k + a)(2k + a + 1)) (sine with a = 2, cosine with a = 1). -/
def trigSeries (w r2 a : Nat) : (fuel : Nat) → (k t : Nat) → Int
  | 0, _, _ => 0
  | fuel + 1, k, t =>
    if t = 0 then 0 else (t : Int) - trigSeries w r2 a fuel (k + 1) (t * r2 / 2 ^ w / ((2 * k + a) * (2 * k + a + 1)))

def sinFix (w r : Nat) : Nat := (trigSeries w (r * r / 2 ^ w) 2 (w + 8) 0 r).toNat
def cosFix (w r : Nat) : Nat := (trigSeries w (r * r / 2 ^ w) 1 (w + 8) 0 (2 ^ w)).toNat

/-- Sum of t, t multiplied by 2 x^2 / (2k + 3) from term to term (erf). -/
def erfSeries (w x2 : Nat) : (fuel : Nat) → (k t : Nat) → Nat
  | 0, _, _ => 0
  | fuel + 1, k, t => if t = 0 then 0 else t + erfSeries w x2 fuel (k + 1) (t * 2 * x2 / 2 ^ w / (2 * k + 3))

/-- The magnitude m x 2^e in fixed point, rounded down. -/
def toFix (w m : Nat) (e : Int) : Nat := m * 2 ^ (e + w).toNat / 2 ^ (-(e + w)).toNat

/-- e^x for x = X / 2^w of either sign: mantissa in [1, 2) with w fraction bits, and binary exponent. -/
def expFix (w : Nat) (x : Int) : Nat × Int :=
  let l : Int := (ln2Fix (w + 32) : Nat)
  let x' := x * 2 ^ 32
  let k := x' / l
  let r := (x' - k * l).toNat / 2 ^ 32
  (expUnit w r, k)

/-! ## Approximations -/

/-- Sine (false) or cosine (true) of a positive magnitude: sign and fixed-point magnitude; the reduction is exact (R182). -/
def trigApprox (w m : Nat) (e : Int) (cosine : Bool) : Bool × Nat :=
  let g := (ilog2 m e).toNat + 64
  let v := toFix (w + g) m e
  let p := piFix (w + g) / 2
  let q := v / p + (if cosine then 1 else 0)
  let r := v % p / 2 ^ g
  (q % 4 ≥ 2, if q % 2 = 0 then sinFix w r else cosFix w r)

/-- ln of m x 2^e: sign and fixed-point magnitude, and the binary exponent and ln of the reduced mantissa. -/
def lnParts (w m : Nat) (e : Int) : Int × Int :=
  let k := ilog2 m e
  let f := toFix w m (e - k)
  let up := 3 * f > 4 * 2 ^ w
  let k := if up then k + 1 else k
  let one : Int := 2 ^ w
  let f : Int := if up then (toFix w m (e - k) : Nat) else (f : Nat)
  let z := (f - one).natAbs * 2 ^ w / (f + one).toNat
  let l : Int := 2 * (atanhFix w z : Nat)
  (k, if f < one then -l else l)

/-- F(x) for a finite nonzero x whose F(x) is no exact case: sign, magnitude, exponent of a unit. -/
def specialApprox (op : Nat) (s : Bool) (m : Nat) (e : Int) (prec : Nat) : Bool × Nat × Int :=
  let w := prec + (ilog2 m e).natAbs + 128
  let x : Int := if s then -(toFix w m e : Int) else (toFix w m e : Int)
  let big := ilog2 m e ≥ 13
  match op with
  | 0x50 => (s, 2 ^ (2 * w) / m, -e - 2 * (w : Int))
  | 0x51 =>
    let odd := e % 2 ≠ 0
    let m' := if odd then 2 * m else m
    let e' := if odd then e - 1 else e
    (false, isqrt (2 ^ (2 * w + 2 * Nat.log2 m') / m'), -e' / 2 - (w : Int) - (Nat.log2 m' : Int))
  | 0x52 =>
    if big then (false, 2 ^ w, if s then -20000 - (w : Int) else 20000 - (w : Int))
    else
      let k := x / (2 ^ w : Int)
      let f := (x - k * 2 ^ w).toNat
      (false, expUnit w (f * ln2Fix w / 2 ^ w), k - w)
  | 0x54 =>
    if big then (false, 2 ^ w, if s then -20000 - (w : Int) else 20000 - (w : Int))
    else let r := expFix w x; (false, r.1, r.2 - w)
  | 0x53 =>
    let p := lnParts w m e
    let v := p.1 * 2 ^ w + p.2 * 2 ^ w / (ln2Fix w : Int)
    (v < 0, v.natAbs, -(w : Int))
  | 0x55 =>
    let p := lnParts w m e
    let v := p.1 * (ln2Fix w : Int) + p.2
    (v < 0, v.natAbs, -(w : Int))
  | 0x56 => let r := trigApprox w m e false; (s != r.1, r.2, -(w : Int))
  | 0x57 => let r := trigApprox w m e true; (r.1, r.2, -(w : Int))
  | 0x58 =>
    if big then (s, 2 ^ w, -(w : Int))
    else
      let r := expFix w (2 * (x.natAbs : Int))
      let y := r.1 * 2 ^ r.2.toNat
      (s, (y - 2 ^ w) * 2 ^ w / (y + 2 ^ w), -(w : Int))
  | 0x59 =>
    let x2 := x.natAbs * x.natAbs / 2 ^ w
    if big ∨ x2 / 2 ^ w ≥ w then (s, 2 ^ w, -(w : Int))
    else
      let sum := erfSeries w x2 (8 * w + 64) 0 x.natAbs
      let r := expFix w (x2 : Int)
      let rootPi := isqrt (piFix w * 2 ^ w)
      (s, 2 * sum * 2 ^ w / rootPi * 2 ^ w / (r.1 * 2 ^ r.2.toNat), -(w : Int))
  | _ =>
    if big then (false, 2 ^ w, if s then -20000 - (w : Int) else -(w : Int))
    else
      let r := expFix w (x.natAbs : Int)
      let k := r.2.toNat
      if s then (false, 2 ^ (2 * w + k) / (2 ^ w + r.1 * 2 ^ k), -(w : Int) - k)
      else (false, 2 ^ w * (r.1 * 2 ^ k) / (2 ^ w + r.1 * 2 ^ k), -(w : Int))

/-! ## Results -/

/-- The table of R187 for zeros and infinities, negative arguments, and the exact cases of R182. -/
def specialExact (op : Nat) : Val → Option Val
  | .nan => some .nan
  | .inf s =>
    match op with
    | 0x50 => some (.fin s 0 0)
    | 0x51 => some (if s then .nan else .fin false 0 0)
    | 0x52 | 0x54 => some (if s then .fin false 0 0 else .inf false)
    | 0x53 | 0x55 => some (if s then .nan else .inf false)
    | 0x56 | 0x57 => some .nan
    | 0x58 | 0x59 => some (.fin s 1 0)
    | _ => some (if s then .fin false 0 0 else .fin false 1 0)
  | .fin s m e =>
    let two := 2 ^ Nat.log2 m == m
    if m = 0 then
      match op with
      | 0x50 | 0x51 => some (.inf s)
      | 0x52 | 0x54 | 0x57 => some (.fin false 1 0)
      | 0x53 | 0x55 => some (.inf true)
      | 0x5A => some (.fin false 1 (-1))
      | _ => some (.fin s 0 0)
    else
      let k := ilog2 m e
      match op with
      | 0x50 => if two then some (.fin s 1 (-k)) else none
      | 0x51 => if s then some .nan else if two ∧ k % 2 = 0 then some (.fin false 1 (-k / 2)) else none
      | 0x52 =>
        if e ≥ 0 ∨ m % 2 ^ (-e).toNat = 0 then
          if k ≥ 13 then none
          else
            let n : Int := (m * 2 ^ e.toNat / 2 ^ (-e).toNat : Nat)
            some (.fin false 1 (if s then -n else n))
        else none
      | 0x53 => if s then some .nan else if two then some (Val.ofUnits k 0) else none
      | 0x55 => if s then some .nan else if two ∧ k = 0 then some (.fin false 0 0) else none
      | _ => none

/-- The correctly rounded result of a narrow format: the enclosure is refined until both ends round alike (R182). -/
def specialNarrow (f : Fmt) (op : Nat) (s : Bool) (m : Nat) (e : Int) : (fuel : Nat) → (prec : Nat) → Nat × Events
  | 0, prec =>
    let a := specialApprox op s m e prec
    f.convFrac .rne a.1 a.2.1 1 a.2.2
  | fuel + 1, prec =>
    let a := specialApprox op s m e prec
    let lo := f.convFrac .rne a.1 (a.2.1 - 2 ^ 20) 1 a.2.2
    let hi := f.convFrac .rne a.1 (a.2.1 + 2 ^ 20) 1 a.2.2
    if lo.1 = hi.1 then hi else specialNarrow f op s m e fuel (2 * prec)

/-- The bound of R183 in thousandths of an ulp. -/
def specialBound (op version : Nat) : Nat :=
  let pick := fun a b c : Nat => if version = 1 then a else if version = 2 then b else c
  match op with
  | 0x50 => pick 502 502 501
  | 0x51 => pick 510 510 502
  | 0x52 | 0x54 => pick 550 520 507
  | 0x53 | 0x55 => pick 550 520 510
  | 0x56 | 0x57 => pick 790 560 530
  | 0x58 => pick 820 620 550
  | 0x59 => pick 860 740 580
  | _ => pick 880 660 560

/-- The F64 result: of the two bracketing values the one within the bound; where both are, the version's choice, which is
taken for |x| so that odd functions are odd and VCOS is even (R183). -/
def specialWide (op version : Nat) (s : Bool) (m : Nat) (e : Int) (x : BitVec 64) : Nat × Events :=
  let f := fmtF64
  let a := specialApprox op s m e 160
  let lo := a.2.1 - 2 ^ 20
  let hi := a.2.1 + 2 ^ 20
  let q := max (ilog2 lo a.2.2 - f.mw) f.emin
  let fl := fun n : Nat => n * pow2Num (a.2.2 - q) / pow2Den (a.2.2 - q)
  let down := fl lo
  let lower :=
    if fl hi ≠ down then fl hi
    else
      -- how far the exact value lies above the lower of the two, in parts of den
      let den := pow2Den (a.2.2 - q)
      let above := fun n : Nat => n * pow2Num (a.2.2 - q) % den
      let b := specialBound op version
      let symmetric := op == 0x56 || op == 0x57 || op == 0x58 || op == 0x59
      let x' := if symmetric then x &&& 0x7FFFFFFFFFFFFFFF else x
      if b * den < above hi * 1000 then down + 1
      else if b * den < (den - above lo) * 1000 then down
      else if Config.specialUpper op version x' then down + 1 else down
  let beyond := exceeds lower q f.top.1 f.top.2
  (if beyond then f.infCode a.1 else f.encode a.1 lower q,
    { Events.none with overflow := beyond, underflow := lower == 0 })

/-- An exact power of two as the result of a special function (R182, R183). Halfway below the least F64 value, and at 2^1024, no F64
value holds it and both bracketing values lie within the bound: the version's choice (log 9). -/
def specialPower (f : Fmt) (op fmt version : Nat) (t : Bool) (k : Nat) (g : Int) (x : BitVec 64) : Nat × Events :=
  let upper := Config.specialUpper op version x
  if fmt = 3 ∧ ilog2 k g = f.emin - 1 then
    if upper then (f.encode t 1 f.emin, Events.none) else (f.encode t 0 f.emin, { Events.none with underflow := true })
  else if fmt = 3 ∧ ilog2 k g = 1024 then
    if upper then (f.infCode t, { Events.none with overflow := true }) else (f.encode t f.top.1 f.top.2, Events.none)
  else f.convFrac .rne t k 1 g

/-- A special function of one element (R182, R183, R187, R188). -/
def specialElem (op fmt version : Nat) (n : Nat) : Nat × Events :=
  let f := (efcFmt fmt).getD fmtF32
  let v := f.decode n
  match specialExact op v with
  | some r =>
    match r with
    | .nan => (f.nan, { Events.none with nanProduced := !v.isNan })
    | .inf t => (f.infCode t, Events.none)
    | .fin t k g => if k = 0 then (f.encode t 0 f.emin, Events.none) else specialPower f op fmt version t k g (BitVec.ofNat 64 n)
  | none =>
    match v with
    | .fin s m e => if fmt = 3 then specialWide op version s m e (BitVec.ofNat 64 n) else specialNarrow f op s m e 4 96
    | _ => (f.nan, Events.none)

end Sys2Proof.Machine
end

