-- ==== Sys2Proof/Machine/EddyMath.lean ====
section
/-!
DEFINITION. The arithmetic of the Eddy array (R212 to R222, R234 to R237): rows of a triangular file, the writing of a row,
gain tables, one rotation, streams of rows, the steps of a single pair, back-substitution, angles.
-/

set_option Elab.async false
namespace Sys2Proof.Machine

/-! ## Rows (R213, R214) -/

/-- A row of a file, or an incoming row: exponent, 32 mantissas (zero left of the diagonal), count, tag. -/
structure TriRow where
  e : Nat
  m : List Int
  c : Nat
  g : Nat
  deriving DecidableEq, Repr

/-- The cleared state of a row (R213). -/
def TriRow.reset : TriRow := { e := 1, m := List.replicate 32 0, c := 0, g := 0 }

/-- A file as 32 rows. -/
def Tri.rows (t : Tri) : List TriRow :=
  (List.range 32).map fun i =>
    { e := look 1 t.e i, m := (List.range 32).map fun j => look 0 t.m (32 * i + j), c := look 0 t.c i, g := look 0 t.g i }

/-- A file from its rows; what lies below the diagonal is not stored. -/
def triOf (rows : List TriRow) (poison : Bool) : Tri :=
  let rs := rows.zipIdx
  { m := rs.flatMap fun r => r.1.m.zipIdx.filterMap fun x =>
      if r.2 ≤ x.2 ∧ x.1 ≠ 0 then some (32 * r.2 + x.2, x.1) else none
    e := rs.filterMap fun r => if r.1.e = 1 then none else some (r.2, r.1.e)
    c := rs.filterMap fun r => if r.1.c = 0 then none else some (r.2, r.1.c)
    g := rs.filterMap fun r => if r.1.g = 0 then none else some (r.2, r.1.g)
    poison := poison }

/-- u x 2^k rounded to an integer, ties to even. -/
def roundShift (u k : Int) : Int :=
  let r := roundDiv .rne (u < 0) (u.natAbs * pow2Num k) (pow2Den k)
  if u < 0 then -(r : Int) else r

/-- A row written from the exact values u x 2^q: exponent, mantissas, and whether the exponent saturated (R214). -/
def writeRow (us : List Int) (q : Int) : Nat × List Int × Bool :=
  let top := us.foldl (fun a u => max a u.natAbs) 0
  if top = 0 then (1, us.map fun _ => 0, false)
  else
    let e := max 1 ((Nat.log2 top : Int) + q + 128)
    let lim : Int := 2 ^ 39 - 1
    if e ≤ 255 then (e.toNat, us.map fun u => roundShift u (q + 164 - e), false)
    else (255, us.map fun u => max (-lim) (min lim (roundShift u (q + 164 - 255))), true)

/-! ## Gain (R215 to R217) -/

/-- Precision HALF is 1 and FULL is 0. Micro-rotations n, row interval I, stage latency S (R216). -/
def eddyN (p : Nat) : Nat := if p = 1 then 12 else 26
def eddyI (p : Nat) : Nat := if p = 1 then 3 else 7
def eddyS (p : Nat) : Nat := if p = 1 then 16 else 30

/-- 1 / K_n^2 as a fraction: the product of 1 + 4^-i for i < n. -/
def gainSquare (n : Nat) : Nat × Nat :=
  (List.range n).foldl (fun (a : Nat × Nat) i => (a.1 * (4 ^ i + 1), a.2 * 4 ^ i)) (1, 1)

/-- The square root of n / d rounded to 40 significant bits (R217): mantissa and exponent. -/
def root40 (n d : Nat) : Nat × Int :=
  let l := log2Frac n d 0
  let k := 39 - l / 2                        -- the root times 2^k lies in [2^39, 2^40)
  let x := n * pow2Num (2 * k + 2) / (d * pow2Den (2 * k + 2))
  ((isqrt x + 1) / 2, -k)

/-- K_n^c and K_n^-c to 40 significant bits; exactly 1 for c = 0 (R217). -/
def gainOf (n c : Nat) : Nat × Int :=
  if c = 0 ∨ n = 0 then (1, 0) else let s := gainSquare n; root40 (s.2 ^ c) (s.1 ^ c)
def liftOf (n c : Nat) : Nat × Int :=
  if c = 0 ∨ n = 0 then (1, 0) else let s := gainSquare n; root40 (s.1 ^ c) (s.2 ^ c)

/-- A row multiplied by a table constant and written under R214. -/
def TriRow.times (r : TriRow) (t : Nat × Int) : TriRow × Bool :=
  let w := writeRow (r.m.map fun m => m * (t.1 : Int)) ((r.e : Int) - 164 + t.2)
  ({ r with e := w.1, m := w.2.1 }, w.2.2)

/-- What the events of a stream of rows add up to: rows whose exponent saturated, file rows whose count saturated. -/
structure RowEvents where
  ovf : Nat
  gsat : List Nat
  deriving DecidableEq, Repr

def RowEvents.count (v : RowEvents) (b : Bool) : RowEvents := if b then { v with ovf := v.ovf + 1 } else v

/-- Compensation in place of a row with a foreign count (R219, step 1). -/
def TriRow.settle (r : TriRow) (p : Nat) (defer : Bool) (v : RowEvents) : TriRow × RowEvents :=
  if r.c ≠ 0 ∧ (!defer ∨ r.g ≠ p) then
    let w := r.times (gainOf (eddyN r.g) r.c)
    ({ w.1 with c := 0, g := p }, v.count w.2)
  else (r, v)

/-- Alignment of counts (R219, step 2). -/
def alignRows (p : Nat) (a b : TriRow) (v : RowEvents) : TriRow × TriRow × RowEvents :=
  if a.c < b.c then let w := a.times (liftOf (eddyN p) (b.c - a.c)); ({ w.1 with c := b.c, g := p }, b, v.count w.2)
  else if b.c < a.c then let w := b.times (liftOf (eddyN p) (a.c - b.c)); (a, { w.1 with c := a.c, g := p }, v.count w.2)
  else (a, b, v)

/-! ## One rotation (R218) -/

/-- One micro-rotation of all columns; `neg` turns in the negative direction. -/
def microStep (neg : Bool) (i : Nat) (xs ys : List Int) : List Int × List Int :=
  let d : Int := if neg then -1 else 1
  let z := xs.zip ys
  (z.map fun p => p.1 - d * (p.2 / (2 ^ i : Int)), z.map fun p => p.2 + d * (p.1 / (2 ^ i : Int)))

/-- The vectoring steps: decisions from the first column. Columns and the code's decision bits. -/
def vectorSteps (n : Nat) (xs ys : List Int) : List Int × List Int × Nat :=
  (List.range n).foldl (fun (a : List Int × List Int × Nat) i =>
    let neg := 0 ≤ nth 0 a.2.1 0
    let r := microStep neg i a.1 a.2.1
    (r.1, r.2, if neg then a.2.2 + 2 ^ i else a.2.2)) (xs, ys, 0)

/-- The boundary cell's choice for columns X, Y: the columns after the steps, and the code. -/
def vectoring (p : Nat) (xs ys : List Int) : List Int × List Int × Nat :=
  let q := nth 0 xs 0 < 0
  let nn := if nth 0 ys 0 = 0 then 0 else eddyN p
  let xs := if q then xs.map fun x => -x else xs
  let ys := if q then ys.map fun y => -y else ys
  let r := vectorSteps nn xs ys
  (r.1, r.2.1, nn * 2 ^ 27 + (if q then 2 ^ 26 else 0) + r.2.2)

/-- Stage s: file row and incoming row after one rotation (R218, R219). -/
def rotateRow (p : Nat) (defer : Bool) (s : Nat) (f x : TriRow) (v : RowEvents) : TriRow × TriRow × RowEvents :=
  let (f, v) := f.settle p defer v
  let (x, v) := x.settle p defer v
  let (f, x, v) := if defer && nth 0 x.m s != 0 then alignRows p f x v else (f, x, v)
  let ec := max f.e x.e
  let scale := fun (r : TriRow) => (r.m.drop s).map fun m => roundShift m (8 + (r.e : Int) - ec)
  let r := vectoring p (scale f) (scale x)
  let nn := r.2.2 / 2 ^ 27
  let saturated := defer && nn != 0 && f.c == 63
  let gain : Nat × Int := if nn ≠ 0 ∧ (!defer ∨ saturated) then gainOf (eddyN p) 1 else (1, 0)
  let q := (ec : Int) - 172 + gain.2
  let wf := writeRow (r.1.map fun u => u * (gain.1 : Int)) q
  let wx := writeRow ((r.2.1.drop 1).map fun u => u * (gain.1 : Int)) q
  let counted := defer && nn != 0
  let c := if counted then (if saturated then 63 else f.c + 1) else 0
  let f' : TriRow := { e := wf.1, m := List.replicate s 0 ++ wf.2.1, c := if counted then c else f.c, g := if counted then p else f.g }
  let x' : TriRow :=
    { e := wx.1, m := List.replicate (s + 1) 0 ++ wx.2.1, c := if counted then c else x.c, g := if counted then p else x.g }
  let v := (v.count wf.2.2).count wx.2.2
  (f', x', if saturated && !v.gsat.contains s then { v with gsat := s :: v.gsat } else v)

/-- One incoming row through stages 0 to 31 (R229). -/
def streamRow (p : Nat) (defer : Bool) (rows : List TriRow) (x : TriRow) (v : RowEvents) : List TriRow × RowEvents :=
  let r := rows.zipIdx.foldl (fun (a : List TriRow × TriRow × RowEvents) f =>
    let w := rotateRow p defer f.2 f.1 a.2.1 a.2.2
    (a.1 ++ [w.1], w.2.1, w.2.2)) ([], x, v)
  (r.1, r.2.2)

/-- Rows in order. -/
def streamRows (p : Nat) (defer : Bool) (rows xs : List TriRow) (v : RowEvents) : List TriRow × RowEvents :=
  xs.foldl (fun a x => streamRow p defer a.1 x a.2) (rows, v)

/-- Values as a row under R214, with count 0 and tag p; none when one is a NaN or an infinity. -/
def rowOfVals (p : Nat) (vs : List Val) (v : RowEvents) : Option (TriRow × RowEvents) :=
  if vs.any fun x => x.isNan || x.isInf then none
  else
    let q := min (minExp vs) 0
    let w := writeRow (vs.map (Val.units q)) q
    some ({ e := w.1, m := w.2.1, c := 0, g := p }, v.count w.2.2)

/-! ## Single pairs (R235, R236) -/

/-- A pair of F32 values as 48-bit columns with their exponent. -/
def pairRow (x y : Val) : Int × Int × Int :=
  let q := min (minExp [x, y]) 0
  let w := writeRow [x.units q, y.units q] q
  (nth 0 w.2.1 0 * 2 ^ 8, nth 0 w.2.1 1 * 2 ^ 8, (w.1 : Int))

/-- An integer times a table constant times 2^q as F32 under RNE. -/
def toF32 (u : Int) (t : Nat × Int) (q : Int) : Nat × Events :=
  fmtF32.conv .rne (.fin (u < 0) (u.natAbs * t.1) (q + t.2))

/-- CYGIV on two finite values: r and the code, with the events of r (R235). -/
def givens (p : Nat) (x y : Val) : Nat × Nat × Events :=
  let r := pairRow x y
  let v := vectoring p [r.1] [r.2.1]
  let t := if v.2.2 / 2 ^ 27 = 0 then (1, 0) else gainOf (eddyN p) 1
  let f := toF32 (nth 0 v.1 0) t (r.2.2 - 172)
  (f.1, v.2.2, f.2)

/-- CYROT on two finite values: x' and y' with their events (R236). -/
def rotatePair (code : Nat) (x y : Val) : Nat × Nat × Events × Events :=
  let n := min (code / 2 ^ 27) 26
  let r := pairRow x y
  let q := code / 2 ^ 26 % 2 = 1
  let start : List Int × List Int := if q then ([-r.1], [-r.2.1]) else ([r.1], [r.2.1])
  let v := (List.range n).foldl (fun (a : List Int × List Int) i => microStep (code / 2 ^ i % 2 = 1) i a.1 a.2) start
  let t := gainOf n 1
  let a := toF32 (nth 0 v.1 0) t (r.2.2 - 172)
  let b := toF32 (nth 0 v.2 0) t (r.2.2 - 172)
  (a.1, b.1, a.2, b.2)

/-! ## Solving (R234) -/

/-- n / d truncated toward zero to p significant bits, for integers n, d with n x 2^e. -/
def truncQuot (p : Nat) (n d e : Int) : Val :=
  if n = 0 then .fin false 0 0
  else
    let l := log2Frac n.natAbs d.natAbs 0
    let k := (p : Int) - 1 - l
    .fin (decide (n < 0) != decide (d < 0)) (n.natAbs * pow2Num k / (d.natAbs * pow2Den k)) (e - k)

/-- Row i of the back-substitution: the unknown, F32 code and events, and whether the diagonal is zero. The scale of a row,
its exponent and table constant, is common to the sum and the diagonal. `done` are the unknowns i + 1 to k - 1. -/
def solveRow (p k i : Nat) (r : TriRow) (done : List Val) : Val × Nat × Events × Bool :=
  let d := nth 0 r.m i
  let terms := ((r.m.drop (i + 1)).zip done).map fun t => Val.mul (.fin (t.1 < 0) t.1.natAbs 0) t.2
  let all := Val.fin (nth 0 r.m k < 0) (nth 0 r.m k).natAbs 0 :: terms.map Val.neg
  let q := min (minExp all) 0
  let s := all.foldl (fun a v => a + v.units q) 0
  if d = 0 then (.fin false 0 0, fmtF32.nan, { Events.none with nanProduced := true }, true)
  else
    let x := truncQuot p s d q
    let f := fmtF32.conv .rne x
    (x, f.1, f.2, false)

/-- Rows n - 1 down to 0: unknowns in order, codes, events, zero diagonals. -/
def solveRows (p k : Nat) (rows : List TriRow) : Nat → List Val → List (Nat × Events × Bool) → List (Nat × Events × Bool)
  | 0, _, out => out
  | n + 1, xs, out =>
    let r := solveRow p k n (nth TriRow.reset rows n) xs
    solveRows p k rows n (r.1 :: xs) ((r.2.1, r.2.2.1, r.2.2.2) :: out)

/-! ## Angles (R237) -/

/-- atan(2^-i) in fixed point with w fraction bits, to within one unit. -/
def atanFix (w i : Nat) : Int :=
  if i = 0 then (piFix (w + 4) / 64 : Nat) else atanSeries (4 ^ i) (w + 40) 0 (2 ^ (w + 32) / 2 ^ i) / 2 ^ 32

/-- The angle of a code in fixed point (R215). -/
def codeAngle (w code : Nat) : Int :=
  (List.range (min (code / 2 ^ 27) 26)).foldl
    (fun a i => if code / 2 ^ i % 2 = 1 then a - atanFix w i else a + atanFix w i)
    (if code / 2 ^ 26 % 2 = 1 then (piFix w : Int) else 0)

/-- The angle rounded to F32 from an enclosure that decides the rounding; each try doubles the bits. -/
def angleF32 (code : Nat) : (fuel : Nat) → (w : Nat) → Nat
  | 0, w => (fmtF32.conv .rne (Val.ofUnits (codeAngle w code) (-(w : Int)))).1
  | fuel + 1, w =>
    let a := codeAngle w code
    let lo := (fmtF32.conv .rne (Val.ofUnits (a - 256) (-(w : Int)))).1
    let hi := (fmtF32.conv .rne (Val.ofUnits (a + 256) (-(w : Int)))).1
    if a = 0 then 0 else if lo = hi then lo else angleF32 code fuel (2 * w)

/-- The code of an angle m x 2^e of either sign, by n steps (R237). The reduction and the steps keep 256 bits after the
point beyond those that the reduction loses. -/
def angleCode (n : Nat) (s : Bool) (m : Nat) (e : Int) : Nat :=
  let w := 320 + (if m = 0 then 0 else (ilog2 m e).toNat)
  let v : Int := if s then -(toFix w m e : Int) else (toFix w m e : Int)
  let p : Int := (piFix w : Nat)
  let r := v % (2 * p)
  let phi := if r > p then r - 2 * p else r
  let q := 2 * (phi.natAbs : Int) > p
  let z := if q then (if phi > 0 then phi - p else phi + p) else phi
  let steps := (List.range n).foldl (fun (a : Int × Nat) i =>
    if a.1 < 0 then (a.1 + atanFix w i, a.2 + 2 ^ i) else (a.1 - atanFix w i, a.2)) (z, 0)
  n * 2 ^ 27 + (if q then 2 ^ 26 else 0) + steps.2

/-! ## Images (R228, R231 to R233) -/

def Core.tri (k : Core) (f : Nat) : Tri := look Tri.reset k.tris f

/-- Counts of the events of many elements. -/
def countEvents (es : List Events) : List (Nat × Nat) := es.foldl (fun a e => addEvents a e.codes) []

/-- Lines of an image: F32 64, BF16 32, RAW 129. -/
def imageLines (f : BitVec 2) : Nat := if f = 0 then 64 else if f = 1 then 32 else 129

/-- The image of a file with the events of its conversion (R228, R231). -/
def imageOf (f : BitVec 2) (t : Tri) : List Byte × List (Nat × Nat) :=
  let rows := t.rows
  if f = 2 then
    ((rows.flatMap fun r => r.m.flatMap fun m => bytesOf 8 (wrap 64 m)) ++ (rows.map fun r => BitVec.ofNat 8 r.e)
      ++ rows.map fun r => BitVec.ofNat 8 (r.c + 128 * r.g), [])
  else
    let fm := if f = 0 then fmtF32 else fmtBF16
    let es := rows.flatMap fun r => r.m.map fun m =>
      let k := gainOf (eddyN r.g) r.c
      fm.conv .rne (.fin (m < 0) (m.natAbs * k.1) ((r.e : Int) - 164 + k.2))
    (es.flatMap fun e => bytesOf (if f = 0 then 4 else 2) e.1, countEvents (es.map (·.2)))

/-- A file from a RAW image: rows, and rows whose exponent saturated as they were rewritten (R232). -/
def rawRows (bytes : List Byte) : List (TriRow × Bool) :=
  (List.range 32).map fun i =>
    let m := (List.range 32).map fun j =>
      if j < i then 0 else signedOf 40 (ofBytes ((bytes.drop (256 * i + 8 * j)).take 8))
    let e := (nth 0 bytes (8192 + i)).toNat
    let cg := (nth 0 bytes (8224 + i)).toNat
    let r : TriRow := { e := if e = 0 then 1 else e, m := m, c := cg % 64, g := cg / 128 }
    if m.any fun x => 2 ^ 37 < x.natAbs then r.times (1, 0) else (r, false)

end Sys2Proof.Machine
end

