-- ==== Sys2Proof/Machine/Readback.lean ====
section
/-!
DEFINITION. The readback view (R404, R405): what a byte of an item reads as. Every item reads from the state. Where the spec gives
a part of an item no layout, the part is a listing of the state in words whose places are free values (log 104).
-/

set_option Elab.async false
namespace Sys2Proof.Machine

/-- The words of a team-table entry (R365). -/
def Team.entryWord (t : Team) (i : Nat) : Nat :=
  match i with
  | 0 => t.vf % 512 + 2 ^ 9 * (t.part % 64) + 2 ^ 16 * t.gang.toNat + 2 ^ 40 * t.weight.toNat + 2 ^ 48 * t.cls.toNat
      + 2 ^ 52 * (t.st % 16) + 2 ^ 56 * (t.gust % 16) + 2 ^ 60 * (t.lull % 16)
  | 1 => wrap 32 t.deficit + 2 ^ 32 * (t.cap % 2 ^ 32)
  | 2 => t.borrow % 2 ^ 32 + 2 ^ 32 * (t.used % 2 ^ 32)
  | 3 => t.lsize % 16 + 2 ^ 4 * (t.landing.length % 8192) + 2 ^ 22 * t.lbase.toNat
  | 4 => t.sbase.toNat + 2 ^ 32 * (t.fcause % 256) + 2 ^ 40 * (t.overdue % 65536)
  | _ => 0

/-- Bytes of a core record (R263): the pool, the scale buffers, tri0 to tri3 in RAW form, zero to its end. -/
def Core.recordBytes (k : Core) (off n : Nat) : List Byte :=
  let raw := if off + n ≤ 4210688 then [] else (List.range 4).flatMap fun f => (imageOf 2 (k.tri f)).1
  (List.range n).map fun i =>
    let b := off + i
    if b < 4194304 then readByte k.pool b
    else if b < 4210688 then readByte k.scale (b - 4194304)
    else nth 0 raw (b - 4210688)

/-! ## Listings: state as words of 64 bits -/

def limbs (n v : Nat) : List Nat := (List.range n).map fun k => v / 2 ^ (64 * k) % 2 ^ 64
def listed {α : Type} (f : α → List Nat) (l : List α) : List Nat := l.length :: l.flatMap f
def perhaps {α : Type} (f : α → List Nat) (o : Option α) : List Nat := listed f o.toList
def keyed {α : Type} (f : α → List Nat) (m : Sparse α) : List Nat := listed (fun e => e.1 :: f e.2) m
def lineWords (v : Line) : List Nat := limbs 8 v.toNat

def RunState.number : RunState → Nat
  | .inactive => 0
  | .ready => 1
  | .running => 2
  | .blocked => 3
  | .frozenOut => 4

def StatRecord.listing (r : StatRecord) : List Nat :=
  [r.detail.toNat, r.count.toNat + 2 ^ 16 * r.slot.toNat + 2 ^ 24 * r.event.toNat + 2 ^ 32 * r.addr.toNat]

def Nest.listing (n : Nest) : List Nat :=
  [n.depth, n.body, n.pos, n.first.toNat, n.due.toNat] ++ listed (fun c => [c]) n.counts ++ listed (fun c => [c]) n.idx
    ++ listed (fun e => [e.1.toNat, e.2.toNat]) n.steps

def Captured.listing (c : Captured) : List Nat :=
  [c.op.encode.toNat, c.xa.toNat, c.dep.toNat, c.rmode.toNat, c.addr.toNat] ++ keyed (fun w => [w.toNat]) c.desc

def Place.listing (p : Place) : List Nat := [p.core, p.strand, p.group, p.index]

def Phase.listing (p : Phase) : List Nat :=
  [p.first.toNat, p.marks.toNat, p.base.toNat, p.len, p.firstCmd] ++ perhaps Nest.listing p.nest ++ p.regs.toList.map (·.toNat)
    ++ listed Captured.listing p.recorded ++ listed Place.listing p.bad

def Write.listing : Write → List Nat
  | .x r v => [0, r.toNat, v.toNat]
  | .vec lg r v m => [1, lg, r, m.toNat] ++ lineWords v
  | .pred lg p v m => [2, lg, p, v.toNat, m.toNat]
  | .ctrl i v => [3, i.toNat, v.toNat]
  | .window lg wb => [4, lg, wb]
  | .shape lg r c => [5, lg, r, c]
  | .vmode lg p => [6, lg, p]
  | .geometry r c k => [7, r.toNat, c.toNat, k.toNat]
  | .eddyMode h e => [8, h.toNat, e.toNat]
  | .scale o v => [9, o] ++ limbs 32 v.toNat
  | .progidx v => [10, v.toNat]
  | .phase p => 11 :: perhaps Phase.listing p
  | .bad p => 12 :: Place.listing p
  | .none => [13]

def Pending.listing (p : Pending) : List Nat :=
  [p.due, p.seq, p.mark.toNat] ++ p.write.listing ++ perhaps (fun i => [i]) p.load ++ listed StatRecord.listing p.recs
    ++ perhaps (fun e => [e.1.toNat, e.2.toNat]) p.check

def Lane.listing (l : Lane) : List Nat :=
  [l.wb, l.rows, l.cols, l.mode, l.pmarks.toNat, l.wmark.toNat] ++ (List.range 16).map fun p => (look (~~~0) l.preds p).toNat

def Block.listing (b : Block) : List Nat :=
  [b.op.encode.toNat, b.slot, b.lg, b.seq, b.poolSeq, b.addr.toNat, b.wb, b.rows, b.cols, b.target, b.pred.toNat, b.rmode.toNat, b.version,
   b.start, b.interval, b.busyFor, b.step, b.mark.toNat, b.idle.toNat, b.mirror.toNat]
    ++ listed (listed lineWords) b.srcs ++ listed (listed fun m => [m.toNat]) b.marks ++ listed (fun e => [e.1, e.2]) b.events
    ++ listed (perhaps fun o => [o]) b.offs ++ listed (fun e => e.1 :: e.2.2.toNat :: lineWords e.2.1) b.saved ++ listed (fun e => [e.1, e.2]) b.deaf

def TrapFrame.listing (f : TrapFrame) : List Nat :=
  f.at_ :: f.seq :: (listed Pending.listing f.pend ++ listed Block.listing f.blocks ++ perhaps Nest.listing f.nest)

def Target.listing : Target → List Nat
  | .pool c o => [0, c, o]
  | .hole => [1]
  | .hbm pa => [2, pa]
  | .ident o => [3, o]
  | .readback pa => [4, pa]
  | .outside a => [5, a.toNat]

def GatherWait.listing (g : GatherWait) : List Nat :=
  g.write.toNat :: (listed (fun e => [e.lg, e.lane, e.ea.toNat, e.ipa] ++ perhaps (fun c => [c.1, c.2]) e.dead) g.mask
    ++ listed (fun e => [e.lg, e.lane, e.ea.toNat, e.val.toNat, e.mark.toNat, e.read.toNat] ++ e.target.listing) g.kept)

def WaitInfo.listing (w : WaitInfo) : List Nat :=
  [w.reason, w.since, w.place, w.yBundle.toNat] ++ listed (fun t => [t]) w.tags ++ listed (fun t => [t]) w.refused

def Ctl.listing (k : Ctl) : List Nat :=
  [k.priv.toNat, k.ppriv.toNat, k.exl.toNat, k.mirrorPending.toNat, k.mirrorAddr.toNat, k.mirrorSlot.toNat, k.cause.toNat, k.fmask.toNat,
   k.finfo.toNat, k.epc.toNat, k.tvecEn.toNat, k.tvecBase.toNat, k.poison.toNat, k.mm.toNat, k.retry.toNat, k.norec.toNat,
   k.pcount.toNat, k.rmode.toNat, k.ftv.toNat, k.progidx.toNat, k.waitLast.toNat, k.waitCyc.toNat, k.frostsw.toNat,
   k.vstride.toNat, k.lgstride.toNat, k.mslot.toNat, k.spincnt.toNat, k.poolpart.toNat, k.ydist.toNat, k.overdue.toNat, k.lost.toNat,
   k.nonfin.toNat, k.gsat.toNat, k.sing.toNat, k.ovf.toNat] ++ k.lc.toList.map (·.toNat) ++ k.lstep.toList.map (·.toNat)

/-- The geometry register (R201). -/
def Strand.geometry (t : Strand) : Nat := t.geoRows.toNat + 2 ^ 8 * t.geoCols.toNat + 2 ^ 16 * t.geoKlim.toNat

/-- The Eddy mode of a strand (R224). -/
def Strand.eddyMode (t : Strand) : Nat := t.ctl.half.toNat + 2 * t.ctl.defer.toNat

def Token.listing (k : Token) : List Nat :=
  [match k.st with
    | .idle => 0
    | .pending => 1
    | .ok => 2
    | .cancelled => 3
    | .error => 4, k.index, k.status, k.cause]

/-- The state of a strand, with the tokens of its team as it sees them (R382). -/
def Strand.listing (t : Strand) (tokens : Sparse Token) : List Nat :=
  [t.mode.number, t.pc.toNat, t.time, t.issueAt, t.nextSeq, t.marks.toNat, t.geometry, t.geoMark.toNat, t.eddyMode, t.newStats,
   t.ending.toNat, t.parked.toNat, t.yieldNext.toNat, t.waited] ++ t.x.toList.map (·.toNat) ++ t.ctl.listing
    ++ t.wait.listing ++ perhaps Nest.listing t.nest
    ++ (List.range 8).flatMap (fun k => (look Lane.reset t.lanes k).listing)
    ++ (List.range 8).flatMap (fun k => listed (fun e => [e.val.toNat, e.mark.toNat, e.bad.toNat]) (look [] t.streams k))
    ++ (List.range 4).flatMap (fun k => listed (fun e => e.mark.toNat :: e.bad.toNat :: lineWords e.val) (look [] t.vstreams k))
    ++ listed StatRecord.listing t.stats ++ perhaps (fun w => [w.addr.toNat, w.cond.toNat, w.cmp.toNat, w.xd.toNat, w.last]) t.spin
    ++ perhaps GatherWait.listing t.gather ++ perhaps Phase.listing t.phase ++ perhaps (fun c => [c]) t.condemned
    ++ perhaps (fun c => [c]) t.launch ++ listed Place.listing t.bad
    ++ listed (fun k => [k]) t.descMarks ++ listed (fun k => [k]) t.ctlMarks
    ++ listed Pending.listing t.pend ++ listed Block.listing t.blocks ++ listed TrapFrame.listing t.frames
    ++ keyed Token.listing tokens ++ (List.range 2048).map fun f => (look 0 t.desc f).toNat

def Task.listing : Task → List Nat
  | .localTask w => [0, w.cl, w.co, w.n]
  | .contrib tile c => [1, tile, c]

/-- A join record (R332) as bytes. -/
def maskBytes (ks : List Nat) : List Byte := bytesOf 512 (ks.foldl (fun a k => a + 2 ^ k) 0)

def JoinRecord.bytes (r : JoinRecord) : List Byte :=
  bytesOf 4 0x43524A51 ++ bytesOf 2 1 ++ bytesOf 1 r.join ++ [r.flags] ++ bytesOf 2 r.n ++ bytesOf 2 r.q ++ bytesOf 1 r.fill
    ++ bytesOf 3 0 ++ bytesOf 8 r.serial ++ bytesOf 8 r.stamp ++ bytesOf 4 r.wAll ++ bytesOf 4 r.wArr
    ++ bytesOf 2 r.mask.length ++ bytesOf 22 0 ++ maskBytes r.mask

def Join.listing (j : Join) : List Nat :=
  [match j.st with
    | .free => 0
    | .open_ => 1
    | .releasing => 2
    | .released => 3
    | .done => 4, j.fill, j.num, j.den, j.slotBase.toNat, j.stride, j.slotLen, j.subst.toNat, j.serial, j.slotFault.toNat]
    ++ listed Task.listing j.tasks ++ listed (fun w => [w]) j.weights ++ listed (fun r => [r.1.toNat, r.2]) j.ranges
    ++ listed (fun k => [k]) j.arrived ++ perhaps (listed fun k => [k]) j.replay ++ listed (fun k => [k]) j.stragglers
    ++ listed (fun k => [k]) j.todo ++ perhaps (fun r => limbs 72 (ofBytes r.bytes)) j.record

def Lease.listing (l : Lease) : List Nat := [l.period, l.left, l.held, l.requested.toNat] ++ perhaps (fun e => [e]) l.engine

def messageWords (m : Message) : List Nat :=
  [m.dst.toNat, m.src.toNat, m.gang.toNat, m.epoch.toNat, m.vf.toNat, m.byGang.toNat, m.kind.toNat, m.seq.toNat, m.wordA.toNat,
   m.wordB.toNat, m.bytes.toNat] ++ limbs 512 (ofBytes m.payload)

/-! ## Items -/

/-- A part of an item: the byte of the unit at which it begins, its length in bytes, its bytes. -/
structure ItemPart where
  base : Nat
  size : Nat
  byte : Nat → Byte

/-- A part whose bytes the spec lays out. -/
def ItemPart.ofBytes (base : Nat) (bs : List Byte) : ItemPart := { base := base, size := bs.length, byte := nth 0 bs }

/-- A part without a layout: which word of its listing stands where is a free value. -/
def ItemPart.ofWords (cls part base : Nat) (ws : List Nat) : ItemPart :=
  { base := base, size := 8 * ws.length
    byte := fun b => BitVec.ofNat 8 (nth 0 ws (Config.itemWord cls part (b / 8)) / 2 ^ (8 * (b % 8))) }

/-- A tile-table entry (R297): TILE and every reserved field read as zero. -/
def Tile.entryWord (e : Tile) (i : Nat) : Nat :=
  let w := (look 0 e.words i).toNat
  match i with
  | 2 => w % 2 ^ 61
  | 3 | 4 => w % 2 ^ 44
  | 5 => w % 2 ^ 56
  | 7 => w % 2 ^ 32
  | 0 | 1 | 6 | 8 | 9 => w
  | 11 => e.status % 256 + 2 ^ 8 * (e.cause % 256) + 2 ^ 16 * e.ready.toNat + 2 ^ 17 * (e.st % 8) + 2 ^ 20 * e.repeated.toNat
  | 12 => e.sent.toNat
  | 13 => e.recv.toNat
  | 14 => e.scused.toNat + 2 ^ 16 * e.emaxv.toNat
  | _ => 0

/-- The fault record of a team (R405): FCAUSE, and of the last double trap its CAUSE, FMASK, FINFO, EPC, strand and core. -/
def Team.faultWord (t : Team) (i : Nat) : Nat :=
  match i with
  | 0 => t.fcause % 256
  | 1 => t.fault.cause.toNat
  | 2 => t.fault.fmask.toNat
  | 3 => t.fault.finfo.toNat
  | 4 => t.fault.epc.toNat
  | 5 => t.fault.strand
  | 6 => t.fault.core
  | _ => 0

/-- A page request as its entry in the ring (R135). -/
def PageRequest.bytes (r : PageRequest) : List Byte :=
  bytesOf 2 r.tag ++ bytesOf 1 r.access.toNat ++ bytesOf 1 r.die ++ bytesOf 1 r.team ++ bytesOf 3 0 ++ bytesOf 8 r.ipa
    ++ bytesOf 8 r.va.toNat ++ bytesOf 8 0

/-- The consumer index of a VF's queue: the oldest unanswered entry, or the producer index (R398). -/
def Vf.consumer (f : Vf) : Nat := (f.queue.map (·.place)).foldl min f.produced

/-- A byte of the ring (R135); what an entry without an outstanding request holds is not said, it reads as zero here (log 96). -/
def Vf.ringByte (f : Vf) (b : Nat) : Byte :=
  match f.queue.find? fun r => r.place % 256 == b / 32 with
  | some r => nth 0 r.bytes (b % 32)
  | none => 0

/-- The translation context of a VF: S1ROOT, the partition, the stage-2 leaves, the indices of its queue. -/
def Vf.context (f : Vf) : List Nat :=
  [f.s1root.toNat, f.produced, f.consumer] ++ perhaps (fun p => [p]) f.part
    ++ keyed (fun l => [l.level, l.pa, l.r.toNat + 2 * l.w.toNat + 4 * l.x.toNat + 8 * l.rpl.toNat]) f.s2

/-- The bytes of a core's shadow SRAM that an image takes, and whose image it is: team and logical core (R15, R382). -/
def State.shadowOn (s : State) (c : Nat) : Option (Nat × Nat × Nat) :=
  (s.placeOf c).bind fun q =>
    let sh := look Shadow.reset (s.die (coreDie c)).shadow q.1
    let lcore := 8 * q.2 + coreIn c
    (sh.staged.or sh.draining).map fun t => (look 0 sh.held lcore, t, lcore)

/-- The team whose state an item of a core holds: the team on the core, or the one whose image its shadow SRAM holds. -/
def State.itemTeam (s : State) (cls c : Nat) : Option Nat := if cls = 3 then (s.shadowOn c).map (·.2.1) else s.teamOn c

/-- The strands of a core: those that are on it. -/
def State.strandParts (s : State) (c : Nat) : List ItemPart :=
  let tokens := (s.team (coreDie c) (s.teamAt c)).tokens
  (List.range 4).map fun n => { ItemPart.ofWords 1 n (65536 * n) ((s.strand c n).listing tokens) with size := 65536 }

/-- The image in the shadow SRAM of a core: the register file, then the state of the strands, as far as it lies there (R15, R382). -/
def State.shadowParts (s : State) (c : Nat) : List ItemPart :=
  let on := (s.shadowOn c).getD (0, 0, 0)
  let held := on.1
  let image := (s.shadowOn c).bind fun x =>
    ((s.team (coreDie c) x.2.1).saved.find? fun v => v.lcore == x.2.2).map fun v => (x.2.1, v)
  let rest : ItemPart := { base := held, size := 1048576 - held, byte := fun _ => 0 }
  match image with
  | none => [rest]
  | some (t, v) =>
    let file := if v.ran then vrfSize v.part else 0
    let words := v.strands.flatMap fun e => e.2.listing (s.team (coreDie c) t).tokens
    [rest, { base := 0, size := file, byte := fun b => readByte v.pool (4194304 - file + b) },
     { ItemPart.ofWords 3 0 file words with size := held - file }]

/-- Tile table, joins, routing counters, leases, geometry and Eddy modes of a team. -/
def State.tableParts (s : State) (d t : Nat) : List ItemPart :=
  let k := s.team d t
  let strands : List Strand :=
    if s.resident d t then (s.coresOf k.part d).flatMap fun c => (List.range 4).map fun n => s.strand c n
    else k.saved.flatMap fun v => (List.range 4).map fun n => look Strand.reset v.strands n
  [{ base := 0, size := 131072, byte := fun b =>
      BitVec.ofNat 8 ((look Tile.reset k.tiles (b / 128)).entryWord (b % 128 / 8) / 2 ^ (8 * (b % 8))) },
   ItemPart.ofWords 4 1 (Config.itemBase 4 1) ((List.range 16).flatMap fun q => (look Join.reset k.joins q).listing),
   { base := Config.itemBase 4 2, size := 1024, byte := fun b => BitVec.ofNat 8 ((look 0 k.counters (b / 4)).toNat / 2 ^ (8 * (b % 4))) },
   ItemPart.ofWords 4 3 (Config.itemBase 4 3) (keyed Lease.listing k.leases),
   ItemPart.ofWords 4 4 (Config.itemBase 4 4) (strands.flatMap fun x => [x.geometry, x.eddyMode])]

/-- Team-table entry, fault record, landing state of a team. -/
def State.entryParts (s : State) (d t : Nat) : List ItemPart :=
  let k := s.team d t
  [{ base := 0, size := 40, byte := fun b => BitVec.ofNat 8 (k.entryWord (b / 8) / 2 ^ (8 * (b % 8))) },
   { base := Config.itemBase 5 1, size := 64, byte := fun b => BitVec.ofNat 8 (k.faultWord (b / 8) / 2 ^ (8 * (b % 8))) },
   ItemPart.ofWords 5 2 (Config.itemBase 5 2) (listed (fun l => l.slot :: messageWords l.m) k.landing)]

/-- The cooling allowance in W: inlet in 0.1 degrees C, flow in mL/min (R409). -/
def allowance (inlet : Int) (flow : Nat) : Nat :=
  if flow < 2000 ∨ inlet < 150 ∨ 450 < inlet then 600
  else if inlet < 350 then 2600
  else if 3000 ≤ flow then 2600 else 2000

/-- The telemetry of a die; die 0 adds what the package reports (R409). -/
def State.telemetry (s : State) (d : Nat) : List Nat :=
  let k := s.die d
  [k.power, k.junction, k.hbmTemp, k.throttled] ++
    (if d = 0 then [s.packagePower, wrap 64 s.inlet, s.flow, min s.powerLimit (allowance s.inlet s.flow)] else [])

/-- The logical core map of a die: for each physical cluster its partition and logical number (R22). -/
def State.clusterMap (s : State) (d : Nat) : List Nat :=
  (List.range 16).map fun ph => match s.placeOf (128 * d + 8 * ph) with
    | some q => 1 + 2 ^ 8 * q.1 + 2 ^ 16 * q.2
    | none => 0

/-- Ownership table, slot tables, parameter block (R366) and logical core map of a die. -/
def State.dieParts (s : State) (d : Nat) : List ItemPart :=
  let k := s.die d
  [{ base := 0, size := 1572864, byte := fun b =>
      BitVec.ofNat 8 ((look 0 s.owner (786432 * d + b / 2)).toNat / 2 ^ (8 * (b % 2))) },
   { base := Config.itemBase 7 1, size := 2048, byte := fun b => (look 0 k.slotTable b).setWidth 8 },
   ItemPart.ofBytes (Config.itemBase 7 2) (bytesOf 4 k.qbase ++ bytesOf 4 k.quantum ++ bytesOf 4 k.grace ++ bytesOf 4 k.bcap ++ bytesOf 8 k.wdwait),
   ItemPart.ofWords 7 3 (Config.itemBase 7 3) (s.clusterMap d)]

/-! ### The certificate (R402) -/

/-- The private attestation key of a boot (log 10). -/
def attestKey (bootSerial : Word) : BitVec 256 := Config.firmwareKey (2 ^ 80 + bootSerial.toNat)

/-- A public key or a signature as bytes. -/
def pairBytes (p : BitVec 256 × BitVec 256) : List Byte := bytesOf 32 p.1.toNat ++ bytesOf 32 p.2.toNat

/-- The 136-byte certificate. -/
def certificate (bootSerial : Word) : List Byte :=
  let b := pairBytes (Config.p256Public (attestKey bootSerial)) ++ bytesOf 8 bootSerial.toNat
  b ++ pairBytes (Config.ecdsaSign Config.identityKey (Config.sha256 b) 0)

/-- The parts of an item, in the order of R404's table; the first begins its unit (log 104). -/
def State.itemParts (s : State) (cls d unit : Nat) : List ItemPart :=
  let c := 128 * d + unit
  match cls with
  | 1 => if unit < 128 then s.strandParts c else []
  | 2 => if unit < 128 then [{ base := 0, size := 4259840, byte := fun b => nth 0 ((s.core c).recordBytes b 1) 0 }] else []
  | 3 => if unit < 128 then s.shadowParts c else []
  | 4 => if unit < 128 then s.tableParts d unit else []
  | 5 => if unit < 128 then s.entryParts d unit else []
  | 6 =>
    if unit < 512 then
      [ItemPart.ofWords 6 0 0 (s.vf unit).context,
       { base := Config.itemBase 6 1, size := 8192, byte := (s.vf unit).ringByte }]
    else []
  | 7 => s.dieParts d
  | 8 =>
    let cs := if unit = 512 then s.pfCounters else (s.vf unit).counters
    if unit ≤ 512 then [{ base := 0, size := if unit = 512 then 88 else 64, byte := fun b => BitVec.ofNat 8 ((look 0 cs (b / 8)).toNat / 2 ^ (8 * (b % 8))) }] else []
  | 9 => [ItemPart.ofWords 9 0 0 (s.telemetry d)]
  | 10 =>
    [ItemPart.ofBytes 0 (pairBytes (Config.p256Public Config.identityKey)), ItemPart.ofBytes (Config.itemBase 10 1) (certificate s.bootSerial)]
  | _ => []

/-- The byte of a readback item: class, die, unit, byte within the unit (R404). None beside the parts of an item, where the spec
says nothing; another class reads zero. -/
def State.itemByte (s : State) (cls d unit b : Nat) : Option Byte :=
  if cls = 0 ∨ 0x0A < cls then some 0
  else ((s.itemParts cls d unit).find? fun p => p.base ≤ b && b < p.base + p.size).map fun p => p.byte (b - p.base)

/-- The VF that owns an item, and the partition whose readback key covers it. -/
def State.itemOwner (s : State) (cls d unit : Nat) : Option Nat × Nat :=
  match cls with
  | 1 | 2 | 3 =>
    let c := 128 * d + unit
    ((s.itemTeam cls c).map fun t => (s.team d t).vf, ((s.placeOf c).map (·.1)).getD 64)
  | 4 | 5 =>
    let k := s.team d unit
    if k.st = 0 then (none, 64) else (some k.vf, k.part)
  | 6 | 8 => (if unit < 512 then some unit else none, ((s.vf unit).part).getD 64)
  | _ => (none, 64)

/-- A requester receives the item in plaintext (R404). -/
def State.plainFor (s : State) (fn cls d unit : Nat) : Bool :=
  let own := (s.itemOwner cls d unit).1 == some fn && fn < 512
  match cls with
  | 1 | 2 | 3 | 4 => own
  | 5 | 6 | 8 => own || fn == 512
  | _ => true

/-- The readback key of a partition: the tenant's, else one of firmware. -/
def State.readKeyOf (s : State) (p : Nat) : BitVec 256 := (s.part p).readKey.getD (Config.firmwareKey (2 ^ 70 + p))

/-- The 64 bytes of a line of an item; bytes whose place no rule gives are free (log 23). -/
def State.itemLine (s : State) (cls d unit b : Nat) : List Byte :=
  let free := freeBytes s.fresh 64
  (List.range 64).map fun i => (s.itemByte cls d unit (b + i)).getD (nth 0 free i)

/-- The readback serial of a requester, and the state with it raised. -/
def State.takeSerial (s : State) (fn : Nat) : BitVec 32 × State :=
  if fn < 512 then ((s.vf fn).serial, s.modVf fn fun f => { f with serial := f.serial + 1 })
  else (s.serial, { s with serial := s.serial + 1 })

/-- A line of the aperture as a requester reads it (R404, R405): plaintext of an item that it may read so, ciphertext of another's
confidential item; of an item that is neither, free bytes. -/
def State.readbackLine (s : State) (fn line : Nat) : List Byte × State :=
  let cls := line / 2 ^ 40
  let d := field line 37 3
  let unit := field line 24 13
  let plain := s.itemLine cls d unit (line % 2 ^ 24)
  let s := s.draw.2
  if cls = 0 ∨ 10 < cls ∨ s.plainFor fn cls d unit then (plain, s)
  else if cls ≤ 4 then
    let key := s.readKeyOf (s.itemOwner cls d unit).2
    let (n, s) := s.takeSerial fn
    let nonce : BitVec 96 := (BitVec.ofNat 48 line ++ n) ++ (0 : BitVec 16)
    let cipher := plain.zipIdx.map fun x => x.1 ^^^ Config.gcmStream key nonce x.2
    (cipher, { s with lastTag := ins s.lastTag (2 ^ 48 * fn + line) (Config.gcmTag key nonce [] cipher, n) })
  else (freeBytes s.fresh 64, s.draw.2)

/-- The aperture offset of a device physical address of the readback view (R404). -/
def apertureOf (pa : Nat) : Nat :=
  let a := pa - 0x20000000000
  2 ^ 40 * (a / 2 ^ 37 % 16) + 2 ^ 37 * (a / 2 ^ 34 % 8) + 2 ^ 24 * (a / 2 ^ 24 % 1024) + a % 2 ^ 24

/-- Bytes of the readback view at a device physical address as a VF reads them: in plaintext what it may read so, free where no rule
gives them; a leaf that was installed for an item that is another's by now shows that item as the host's aperture would (R4, R404, R405). -/
def State.viewBytes (s : State) (fn pa n : Nat) : List Byte × State :=
  if (linesOf pa n).all fun l => let a := l - 0x20000000000; s.plainFor fn (a / 2 ^ 37 % 16) (a / 2 ^ 34 % 8) (a / 2 ^ 24 % 1024) then
    let free := freeBytes s.fresh n
    let bs := (List.range n).map fun i =>
      let a := pa + i - 0x20000000000
      (s.itemByte (a / 2 ^ 37 % 16) (a / 2 ^ 34 % 8) (a / 2 ^ 24 % 1024) (a % 2 ^ 24)).getD (nth 0 free i)
    (bs, (s.draw).2)
  else
    let r := (linesOf pa n).foldl (fun (r : List Byte × State) l => let v := r.2.readbackLine fn (apertureOf l); (r.1 ++ v.1, v.2)) ([], s)
    ((r.1.drop (pa % 64)).take n, r.2)

end Sys2Proof.Machine
end

