-- ==== Sys2Proof/Machine/Places.lean ====
section
/-!
DEFINITION. Places outside a register: whether accesses meet in a location, what a place reads as and a write of it, held-store
staging, replicated pages and their locks, and the order of one strand's accesses (R138 to R142, R265, R270).
-/

set_option Elab.async false
namespace Sys2Proof.Machine

/-! ## Places -/

/-- Two ranges of bytes in targets share a byte. -/
def overlaps (a : Target) (n : Nat) (b : Target) (m : Nat) : Bool :=
  let meet := fun (x y : Nat) => decide (x < y + m) && decide (y < x + n)
  match a, b with
  | .pool c x, .pool d y => c == d && meet x y
  | .hbm x, .hbm y => meet x y
  | .outside x, .outside y => meet x.toNat y.toNat
  | _, _ => false

/-- Two accesses meet in an aligned 8-byte location (R265, R270). -/
def sameLocation (a : Target) (n : Nat) (b : Target) (m : Nat) : Bool :=
  let meet := fun (x y : Nat) => decide (x / 8 ≤ (y + m - 1) / 8) && decide (y / 8 ≤ (x + n - 1) / 8)
  match a, b with
  | .pool c x, .pool d y => c == d && meet x y
  | .hbm x, .hbm y => meet x y
  | .outside x, .outside y => meet x.toNat y.toNat
  | _, _ => false

/-- The place of a byte within a target's memory, for the overlay of a strand's own stores. -/
def Target.offset : Target → Nat
  | .pool _ o => o
  | .hbm pa => pa
  | .outside a => a.toNat
  | .readback pa => pa
  | .ident o => o
  | .hole => 0

/-- The replicated page that holds a device physical address (R140). -/
def State.replicaOf (s : State) (pa : Nat) : Option Replica :=
  s.replicas.find? fun r => r.home == pa / 65536 && (!r.copies.isEmpty || r.locked.isSome)

/-- A target on a replicated page. -/
def State.isReplicated (s : State) : Target → Bool
  | .hbm pa => (s.replicaOf pa).isSome
  | _ => false

/-- A target whose replicas are locked, to which no write is performed (R141, R142, R262). -/
def State.isLocked (s : State) : Target → Bool
  | .hbm pa => match s.replicaOf pa with
    | some r => r.locked.isSome
    | none => false
  | _ => false

/-- A target that no read is served from: its replicas are locked by an update. While REPL holds the lock of a page, a read
is served from a copy (R141, R262). -/
def State.readLocked (s : State) : Target → Bool
  | .hbm pa => match s.replicaOf pa with
    | some r => match r.locked with
      | some id => !s.cmds.any fun m => m.id == id
      | none => false
    | none => false
  | _ => false

/-- Bytes of a target as a strand of a team reads them, with the poison mark. Bytes of another package are free values. -/
def State.readTarget (s : State) (d t : Nat) (w : StrandName) (tgt : Target) (n : Nat) : (List Byte × Bool) × State :=
  match tgt with
  | .pool c off => ((s.core c).poolRead off n, s)
  | .hole => ((List.replicate n 0, false), s)
  | .hbm pa => (s.hbmRead d t w pa n, s)
  | .ident off => ((((identLine d).drop off).take n, false), s)
  | .readback pa => let v := s.viewBytes (s.team d t).vf pa n; ((v.1, false), v.2)
  | .outside _ => ((freeBytes s.fresh n, false), s.draw.2)

/-- Some lines with bytes of a range written over them. -/
def patchLines (ls : Sparse (Line × Bool)) (a : Nat) (bs : List Byte) (mark : Bool) : Sparse (Line × Bool) :=
  ls.map fun e =>
    let from_ := max a e.1
    let upto := min (a + bs.length) (e.1 + 64)
    let part := (bs.drop (from_ - a)).take (upto - from_)
    if upto ≤ from_ then e
    else
      let mask := BitVec.ofNat 64 ((2 ^ part.length - 1) * 2 ^ (from_ - e.1))
      (e.1, mergeLine e.2.1 (BitVec.ofNat 512 (ofBytes part * 2 ^ (8 * (from_ - e.1)))) mask, mark || (e.2.2 && part.length != 64))

/-- A write of a pool that no core syllable of the core makes: the commands of the core find it in the lines that they have not read,
in those that a later bundle has written since among them (R274). -/
def State.poolPut (s : State) (c off : Nat) (bytes : List Byte) (mark : Bool) : State :=
  let s := s.modCore c fun k => k.poolWrite off bytes mark
  { s with cmds := s.cmds.map fun m =>
      if m.olds.isEmpty || s.coreNamed m.d m.t m.who != some c then m else { m with olds := patchLines m.olds off bytes mark } }

/-- Bytes written at a target that no range holds. Bytes for another package leave this one. -/
def State.writeTarget (s : State) (tgt : Target) (bytes : List Byte) (mark : Bool) : State :=
  match tgt with
  | .pool c off => s.poolPut c off bytes mark
  | .hbm pa => s.hbmWrite pa bytes mark
  | _ => s

/-- Bytes into held-store staging, line by line (R138): they merge into the writer's latest line at the place if that has the same
holders. -/
def State.stage (s : State) (d t : Nat) (w : StrandName) (holders : List Holder) (task : Nat) (va : Word) (pa : Nat)
    (bytes : List Byte) (mark : Bool) : State :=
  (linesOf pa bytes.length).foldl (fun s l =>
    let from_ := max pa l
    let upto := min (pa + bytes.length) (l + 64)
    let part := (bytes.drop (from_ - pa)).take (upto - from_)
    let mask := BitVec.ofNat 64 ((2 ^ part.length - 1) * 2 ^ (from_ - l))
    let data := BitVec.ofNat 512 (ofBytes part * 2 ^ (8 * (from_ - l)))
    let new : HeldLine := { pa := l, data := data, mask := mask, who := w, d := d, t := t, holders := holders, order := s.nextId,
                            task := task, mark := mark, va := va - BitVec.ofNat 64 pa + BitVec.ofNat 64 l }
    let s := s.modDie (stackOf l) fun k =>
      { k with staging :=
          match k.staging.reverse.find? fun h => h.pa == l && h.who == w && h.d == d && h.t == t with
          | some last =>
            if last.holders = holders then
              k.staging.map fun h => if h.order = last.order then
                  { h with data := mergeLine h.data data mask, mask := h.mask ||| mask, mark := h.mark || mark } else h
            else k.staging ++ [new]
          | none => k.staging ++ [new] }
    { s with nextId := s.nextId + 1 }) s

/-- Lines of staging in use on a die, with the held stores on their way to it: each of those counts as one line, though it may
merge into a line already staged (DESIGN CHOICE, log 98). 16 MiB are 262,144 lines (R139). -/
def State.stagingUsed (s : State) (d : Nat) : Nat :=
  (s.die d).staging.length + (s.cores.map fun e => (e.2.stores.filter fun w => !w.holders.isEmpty &&
    (match w.target with
      | .hbm pa => stackOf pa == d
      | _ => false)).length).sum

/-- Room in the staging of the die that holds a physical address (R139). -/
def State.stagingRoom (s : State) (pa : Nat) : Bool := s.stagingUsed (stackOf pa) < 262144

/-- The task number among some holders, which orders the lines of one release (R328). -/
def taskOf (hs : List Holder) : Nat :=
  hs.foldl (fun a h => match h with
    | .phase _ _ _ => a
    | h => h.task) 0

/-- The task whose lines commit k writes, for a held line. -/
def HeldLine.taskIn (l : HeldLine) (k : Nat) : Nat := ((l.holders.find? (Holder.isCommit k)).map Holder.task).getD l.task

/-- A commit's writes are performed on a die: no held store of it is on its way, no page is locked; they go in ascending task,
then in their order, and other observers see all of them at once (R141, R278, R325). -/
def State.performCommit (s : State) (d k : Nat) : State :=
  let coming := s.cores.any fun e => e.2.stores.any fun w => w.holders.any (Holder.isCommit k) && (match w.target with
    | .hbm pa => stackOf pa == d
    | _ => false)
  let free := fun l : HeldLine => l.holders.any (Holder.isCommit k) && l.holders.all (Holder.isCommit k)
  let lines := sortBy (·.taskIn k) (sortBy HeldLine.order ((s.die d).staging.filter free))
  if coming || lines.any fun l => s.isLocked (.hbm l.pa) then s
  else
    let s := s.modDie d fun e => { e with staging := (e.staging.filter fun l => !free l).map fun l =>
      { l with holders := l.holders.filter fun h => !h.isCommit k } }
    lines.foldl (fun s l => s.hbmMerge l.pa l.data l.mask l.mark) s

/-! ## Order of one strand's accesses (R270) -/

/-- The size of a load's read. -/
def Load.size (l : Load) : Nat :=
  match l.kind with
  | .scalar _ n _ => n
  | .spin _ => 8
  | .gather => 4

/-- The places that a load has still to read. -/
def Load.places (l : Load) : List Target :=
  if l.got.isSome then []
  else match l.kind with
  | .gather => (l.elems.filter fun e => !e.read).map (·.target)
  | _ => [l.target]

/-- An earlier load of the strand from the location has not been answered. -/
def Core.loadBefore (k : Core) (n seq : Nat) (tgt : Target) (size : Nat) : Bool :=
  k.loads.any fun l => l.strand == n && l.seq < seq && l.places.any fun p => sameLocation p l.size tgt size

/-- Stores of the strand before an access that have not been performed and touch a location of it, oldest first. -/
def Core.storesBefore (k : Core) (n seq : Nat) (tgt : Target) (size : Nat) : List Store :=
  k.stores.filter fun w => w.strand == n && w.seq < seq && sameLocation w.target w.bytes.length tgt size

/-- A line of a pool is not read now: by its own core, while a write of it is on its way; from outside, while it is ahead of a write
of an earlier bundle (R95, R268, R270). -/
def State.poolBusy (s : State) (c : Nat) : Target → Bool
  | .pool d off =>
    let k := s.core d
    let line := off / 64 * 64
    if d = c then (k.poolWrites.any fun w => w.off == line) || k.strands.any fun e => e.2.levels.any fun l =>
        l.blocks.any fun b => (b.offs.drop b.step).contains (some line)
    else k.overtakes line
  | _ => false

/-- A read of the place may be performed: its replica is unlocked, no line of a pool is in the way, no earlier access of the strand to
the location is ahead of it but stores that it sees early, and none of those is held or on a replicated page (R139, R142, R268,
R270, R279). -/
def State.mayRead (s : State) (c n seq : Nat) (tgt : Target) (size : Nat) : Bool :=
  let k := s.core c
  let before := k.storesBefore n seq tgt size
  !s.readLocked tgt && !s.poolBusy c tgt && !k.loadBefore n seq tgt size && before.all (fun w => w.holders.isEmpty)
    && (before.isEmpty || !s.isReplicated tgt)

/-- The strand has a committed line at the place that is not yet performed (R270, R278). -/
def State.commitBefore (s : State) (c n : Nat) (tgt : Target) (size : Nat) : Bool :=
  s.owesCommit (coreDie c) (s.teamAt c) (s.nameOf c n) fun l => sameLocation (.hbm l.pa) 64 tgt size

/-- Bytes of a place with the strand's own earlier stores over them (R270). -/
def State.readOwn (s : State) (c n seq : Nat) (tgt : Target) (size : Nat) : (List Byte × Bool) × State :=
  let r := s.readTarget (coreDie c) (s.teamAt c) (s.nameOf c n) tgt size
  let ws := ((s.core c).storesBefore n seq tgt size).filter fun w => overlaps w.target w.bytes.length tgt size
  let bytes := ws.foldl (fun (bs : List Byte) w =>
    bs.zipIdx.map fun b =>
      let p := tgt.offset + b.2
      if w.target.offset ≤ p ∧ p < w.target.offset + w.bytes.length then nth 0 w.bytes (p - w.target.offset) else b.1) r.1.1
  ((bytes, r.1.2 || ws.any (·.mark)), r.2)

end Sys2Proof.Machine
end

