-- ==== Sys2Proof/Machine/System.lean ====
section
/-!
DEFINITION. Control-register access (R101, R102, R120), LAUNCH and the start of node strands (R117, R277), token checks
(R115, R245), TKSET (R246), STPOP (R360), ESET and EGET (R248).
-/

set_option Elab.async false
namespace Sys2Proof.Machine

/-! ## Control registers -/

/-- The bundle of LC k or LSTEP k. -/
def bitOf (b : Bool) (k : Nat) : Nat := if b then 2 ^ k else 0

/-- A control register as MFC of the issuing strand reads it (R98, R101, R102, R121, R145, R155, R184, R199, R224, R245,
R339 to R341, R349, R359, R377). A syllable of an admitted bundle reads what stood when the bundle issued. -/
def State.readCtl (s : State) (i : Nat) : Word :=
  let seen := s.issue.seen.getD (s.me.ctl, (s.me.nest.map (·.idx)).getD [])
  let k := seen.1
  let t := { s.me with ctl := k }
  let team := s.myTeam
  let c := s.issue.core
  BitVec.ofNat 64 <|
    if i = 0x000 then bitOf k.priv 0 + bitOf k.ppriv 1 + bitOf k.exl 2 + bitOf k.mirrorPending 3
    else if i = 0x001 then k.cause.toNat
    else if i = 0x002 then k.epc.toNat
    else if i = 0x003 then k.fmask.toNat
    else if i = 0x004 then k.finfo.toNat
    else if i = 0x005 then bitOf k.tvecEn 0 + 4 * k.tvecBase.toNat
    else if i = 0x006 then t.chki.toNat
    else if i = 0x007 then k.rmode.toNat
    else if i = 0x008 then k.ftv.toNat + 256 * k.version + 2 ^ 16 * 0x0E
    else if i = 0x009 then k.progidx.toNat
    else if i = 0x00A then 16 * k.waitLast.toNat + 256 * k.waitCyc.toNat
    else if i = 0x00B then k.frostsw.toNat
    else if 0x010 ≤ i ∧ i < 0x016 then
      ((k.lc.toList[i - 0x010]?).getD 0).toNat + 2 ^ 32 * nth 0 seen.2 (i - 0x010)
    else if 0x018 ≤ i ∧ i < 0x01E then ((k.lstep.toList[i - 0x018]?).getD 0).toNat
    else if i = 0x020 then k.vstride.toNat
    else if i = 0x021 then k.lgstride.toNat
    else if 0x030 ≤ i ∧ i < 0x040 then bitOf (k.mslot.getLsbD (i - 0x030)) 0
    else if i = 0x040 then team.spinlim.toNat
    else if i = 0x041 then k.spincnt.toNat
    else if i = 0x042 then s.myTeamIndex + 2 ^ 16 * team.vf + 2 ^ 25 * team.part
    else if i = 0x043 then team.gang.toNat
    else if i = 0x044 then s.issue.strand + bitOf s.meConductor 2
    else if i = 0x045 then coreIn c
    else if i = 0x046 then s.logicalCluster c
    else if i = 0x047 then k.poolpart.toNat
    else if i = 0x048 then k.ydist.toNat + bitOf k.overdue 32
    else if i = 0x050 then t.stats.length + 2 ^ 16 * k.lost.toNat
    else if i = 0x060 then
      bitOf k.half 0 + bitOf k.defer 1 + bitOf k.nonfin 2 + bitOf k.gsat 3 + bitOf k.sing 4 + bitOf k.ovf 5
    else 0

/-- REGISTER_UE of a control register (R356). -/
def State.ueControl (s : State) (i : BitVec 12) : Option Verdict :=
  if s.me.isBad .controlReg 0 i.toNat then some (ueFault 4 i.toNat 0) else none

/-- MFC (R120). -/
def execMfc (d : BitVec 6) (i : BitVec 12) (s : State) : Out :=
  issueWith (.mfc d i) s (fun s => { faults := s.ueControl i }) fun s =>
    s.result 1 (.x d (s.readCtl i.toNat)) (s.me.ctlMarks.contains i.toNat)

/-- MTC (R120). -/
def execMtc (a : BitVec 6) (i : BitVec 12) (s : State) : Out :=
  issuePlain (.mtc a i) s fun s =>
    let p := s.src a
    p.2.result 1 (.ctrl i p.1.1) p.1.2

/-! ## Launch (R117, R395) -/

/-- The fields of the three elements of a launch record that LAUNCH reads (R395). -/
structure LaunchRecord where
  entry : Word
  arg : Word
  pool : Word32
  mask : BitVec 16
  ctok : Nat
  deriving DecidableEq, Repr

def launchRecord (e0 e1 e2 : Word) : LaunchRecord :=
  { entry := e0, arg := e1, pool := e2.setWidth 32, mask := e2.extractLsb' 32 16, ctok := e2.toNat / 2 ^ 48 % 256 }

/-- The logical clusters of a mask. -/
def maskBitsOf (m : BitVec 16) : List Nat := (List.range 16).filter fun k => m.getLsbD k

/-- The node strands of a launch, in the order of their index (R18, R117). -/
def launchStrands (clusters : List Nat) (conductorCluster : Option Nat) (part : Word32) : List StrandName :=
  clusters.flatMap fun cl => (List.range 8).flatMap fun co =>
    let t := partStrands part
    let n := if conductorCluster = some cl ∧ co = 0 ∧ t = 4 then 3 else t
    (List.range n).map fun k => { cl := cl, co := co, n := k }

/-- TSAVE and TLOAD commands that run on a cluster of a team (R263). -/
def Cmd.imageOf (m : Cmd) (d t : Nat) (mask : BitVec 16) : Bool :=
  m.d == d && m.t == t && m.started && !m.done &&
  (match m.cap.op with
    | .tsave _ _ _ | .tload _ _ _ => (look 0 m.cap.desc 2).setWidth 16 &&& mask != 0
    | _ => false)

/-- The status that LAUNCH answers: the first check that fails (R117, R395, R424). -/
def State.launchStatus (s : State) (r : LaunchRecord) : Nat :=
  let d := s.myDie
  let t := s.myTeamIndex
  let team := s.myTeam
  let clusters := maskBitsOf r.mask
  if r.ctok = 255 ∨ (team.token r.ctok).st = .pending then 5
  else if !partLegal r.pool then 1
  else if r.mask = 0 ∨ !clusters.all (s.clustersOn team.part d).contains then 2
  else if (team.launches.any fun l => l.left.any fun w => clusters.contains w.cl)
      || s.cmds.any (·.imageOf d t r.mask) then 3
  else if 2 ^ 42 ≤ r.entry.toNat ∨ localBase ≤ r.entry.toNat ∨ !s.startBit d team.vf r.entry.toNat then 4
  else 0

/-- LAUNCH (R117): the status at latency 2; on OK the token is pending and the node strands start within 2 µs
(NODE_STRAND_START). It issues once every earlier access of the conductor is performed, those to its own pool among them
(R277). -/
def execLaunch (d a : BitVec 6) (s : State) : Out :=
  issueWith (.launch d a) s (fun s =>
    { holds := if s.me.storing then some (.hold true)
        else if s.me.storingAny then some (.hold false)
        else if (s.myCore.loads.any fun l => l.strand == s.issue.strand)
          || (s.myCore.stores.any fun w => w.strand == s.issue.strand)
          || (s.myCore.poolWrites.any fun w => w.strand == s.issue.strand)
          || s.owesCommit s.myDie s.myTeamIndex s.myName (fun _ => true) then some (.hold false) else none }) fun s =>
    let t := s.me
    let r := launchRecord (t.reg a) (t.reg (a + 1)) (t.reg (a + 2))
    let mark := ((List.range 8).any fun i => t.regMark (a + BitVec.ofNat 6 i)) || s.ctlMark (Instr.launch d a).controls
    let st := s.launchStatus r
    let s := s.result 2 (.x d (BitVec.ofNat 64 st)) mark
    if st = 5 then s
    else if st ≠ 0 then s.setToken s.myDie s.myTeamIndex r.ctok (plainToken .error)
    else
      let team := s.myTeam
      let first := (s.clustersOn team.part s.myDie).head?
      let l : Launch :=
        { id := s.nextId, d := s.myDie, t := s.myTeamIndex, ctok := r.ctok, part := r.pool, entry := r.entry.setWidth 42,
          arg := r.arg, argMark := t.regMark (a + 1), mask := r.mask, tvecEn := t.ctl.tvecEn, tvecBase := t.ctl.tvecBase,
          tvecMark := s.ctlMark (Instr.launch d a).controls, started := false,
          startedAt := (s.die s.myDie).now, left := launchStrands (maskBitsOf r.mask) first r.pool, poisoned := false }
      let s := { s with nextId := s.nextId + 1 }
      (s.setToken s.myDie s.myTeamIndex r.ctok (plainToken .pending)).modMyTeam fun m => { m with launches := m.launches ++ [l] }

/-- A node strand as LAUNCH starts it (R117, R152, R184, R199, R201, R339, R341, R349). -/
def launchedStrand (l : Launch) (index total n : Nat) : Strand :=
  let r := Strand.reset
  let own := (List.range 16).foldl (fun (m : BitVec 16) k =>
    if k % partStrands l.part = n then m ||| ((1 : BitVec 16) <<< k) else m) 0
  let r := ((r.setReg 1 l.arg l.argMark).setReg 2 (BitVec.ofNat 64 index) false).setReg 3 (BitVec.ofNat 64 total) false
  { r with
    mode := .ready
    pc := l.entry
    launch := some l.id
    ctlMarks := if l.tvecMark then [0x005] else []
    ctl := { r.ctl with tvecEn := l.tvecEn, tvecBase := l.tvecBase, poolpart := l.part, mslot := own } }

/-- NODE_STRAND_START (R117, R121, R200): on every core of the launch POOLPART is set and its node strands are READY; C restarts
in the cycle that follows where no node strand of the team ran before. -/
def execNodeStrandStart (id : Nat) (s : State) : Out :=
  match s.dies.findSome? fun e => e.2.teams.findSome? fun m => m.2.launches.find? fun l => l.id == id && !l.started with
  | none => .next s
  | some l =>
    if !s.resident l.d l.t then .next s
    else
      let total := l.left.length
      let s := l.left.zipIdx.foldl (fun s p =>
        match s.coreNamed l.d l.t p.1 with
        | none => s
        | some c => s.modCore c fun k =>
          let k := k.catchUp (s.die l.d).now
          { k.setStrand p.1.n (launchedStrand l p.2 total p.1.n) with
            part := l.part, ran := true, cBase := if k.ran then k.cBase else k.mtime, resumed := if k.ran then k.resumed else none }) s
      .next (s.modTeam l.d l.t fun m =>
        { m with launches := m.launches.map fun k => if k.id = id then { k with started := true } else k })

/-! ## Tokens (R115, R245, R246) -/

/-- A message of the command that last named a token waits out its retry interval (R92, R293). -/
def State.tokenInRetry (s : State) (d t tok : Nat) : Bool :=
  match ((s.team d t).token tok).cmd with
  | none => false
  | some id => s.sent.any fun m => m.cmd == some id && m.resting

/-- A message of the command goes to a team that is LOST (R92, R361, R388). -/
def State.tokenPeerLost (s : State) (d t tok : Nat) : Bool :=
  match ((s.team d t).token tok).cmd with
  | none => false
  | some id => s.sent.any fun m => m.cmd == some id &&
      (match dieOfEndpoint m.m.dst.toNat with
        | some d => (s.die d).teams.any fun e => e.2.st == 9 && e.2.gang == m.m.gang
        | none => false)

/-- The reason of a wait on a pending token of a team (R92). -/
def State.tokenReason (s : State) (d t tok : Nat) : Nat :=
  if s.tokenPeerLost d t tok then waitPeer else if s.tokenInRetry d t tok then waitLanding else waitToken

def State.inRetry (s : State) (tok : Nat) : Bool := s.tokenInRetry s.myDie s.myTeamIndex tok
def State.peerLost (s : State) (tok : Nat) : Bool := s.tokenPeerLost s.myDie s.myTeamIndex tok

/-- The results of a token check: xd, and PROGIDX at the same latency (R115, R245). -/
def State.tokenResult (s : State) (d : BitVec 6) (tok : Nat) : State :=
  let st := (s.myTeam.token tok).st
  let p := s.progress tok
  let s := (s.result 2 (.x d st.result)).result 2 (.progidx p)
  if st = .ok ∨ st = .cancelled ∨ st = .error then s.noteSeen tok else s

/-- TKWAIT (R115). -/
def execTkwait (d : BitVec 6) (t : BitVec 8) (s : State) : Out :=
  issueWith (.tkwait d t) s (fun s =>
    match (s.myTeam.token t.toNat).st with
    | .pending => { blocks := some (blockFor (s.tokenReason s.myDie s.myTeamIndex t.toNat)) }
    | .idle => { faults := some (faultWith 0x0E 0 (zext64 t)) }
    | _ => {}) fun s => s.tokenResult d t.toNat

/-- TKTEST (R115). -/
def execTktest (d : BitVec 6) (t : BitVec 8) (s : State) : Out :=
  issuePlain (.tktest d t) s fun s => s.tokenResult d t.toNat

/-- TKSET (R246): TKSET of a pending token raises TOKEN; the command that named the token before is forgotten. -/
def execTkset (k : BitVec 2) (t : BitVec 8) (s : State) : Out :=
  issueWith (.tkset k t) s (fun s =>
    { faults := if (s.myTeam.token t.toNat).st = .pending then some (faultWith 0x0E 0 (zext64 t)) else none }) fun s =>
    let st : TokenState := match k.toNat with
      | 0 => .ok
      | 1 => .cancelled
      | _ => .error
    s.setToken s.myDie s.myTeamIndex t.toNat (plainToken st)

/-! ## The statistics queue and descriptors (R248, R360) -/

/-- A record as two registers: bits [63:0] and [127:64] (R358, R360). -/
def StatRecord.low (r : StatRecord) : Word := r.detail
def StatRecord.high (r : StatRecord) : Word :=
  BitVec.ofNat 64 (r.count.toNat + 2 ^ 16 * r.slot.toNat + 2 ^ 24 * r.event.toNat + 2 ^ 32 * r.addr.toNat)

/-- STPOP (R360): it sees the queue as it stood at the start of its cycle; an empty queue writes 0 to both registers. -/
def execStpop (x : BitVec 5) (s : State) : Out :=
  issuePlain (.stpop x) s fun s =>
    let even : BitVec 6 := BitVec.ofNat 6 (2 * x.toNat)
    match s.me.stats.take (s.me.stats.length - s.me.newStats) with
    | [] => (s.result 2 (.x even 0)).result 2 (.x (even + 1) 0)
    | r :: _ =>
      let s := s.modMe fun t => { t with stats := t.stats.drop 1 }
      (s.result 2 (.x even r.low)).result 2 (.x (even + 1) r.high)

/-- A descriptor field with its poison mark. -/
def Strand.setDesc (t : Strand) (n f : Nat) (v : Word) (mark : Bool) : Strand :=
  { t.mend .descriptorReg f n with
    desc := put 0 t.desc (32 * n + f) v
    descMarks := markKey t.descMarks (32 * n + f) mark }

/-- ESET (R248): fields f and f + 1 of dN. -/
def execEset (a b d : BitVec 6) (f : BitVec 5) (s : State) : Out :=
  issuePlain (.eset a b d f) s fun s =>
    let p := s.src a
    let q := p.2.src b
    (q.2.modMe fun t => (t.setDesc d.toNat f.toNat p.1.1 p.1.2).setDesc d.toNat (f.toNat + 1) q.1.1 q.1.2).consumed
      (p.1.2 || q.1.2)

/-- REGISTER_UE of a descriptor that a command captures (R356). -/
def State.ueDescriptor (s : State) (d : BitVec 6) : Option Verdict :=
  if s.me.bad.any fun p => p.kind == .descriptorReg && p.index == d.toNat then some (ueFault 3 d.toNat 0) else none

/-- EGET (R248): field f of dN at latency 2. -/
def execEget (x d : BitVec 6) (f : BitVec 5) (s : State) : Out :=
  issueWith (.eget x d f) s (fun s =>
    { faults := if s.me.isBad .descriptorReg f.toNat d.toNat then some (ueFault 3 d.toNat 0) else none }) fun s =>
    let k := 32 * d.toNat + f.toNat
    s.result 2 (.x x (look 0 s.me.desc k)) (s.me.descMarks.contains k)

end Sys2Proof.Machine
end

