-- ==== Sys2Proof/Machine/LoadStore.lean ====
section
/-!
DEFINITION. The LS slot: scalar loads and stores (R143, R144), block loads and stores (R145, R146), gather and scatter
(R147, R148), VPOP (R149), DRAIN and FENCE (R150, R272, R273), with held stores (R138, R139) and early touch (R95, R197, R226).
-/

set_option Elab.async false
namespace Sys2Proof.Machine

/-! ## Holds -/

/-- Lines of blocks of the strand that will still be written: a VST has not read their registers yet. -/
def Strand.unwritten (t : Strand) : List Nat := t.blocks.flatMap fun b => (b.offs.drop b.step).filterMap id

/-- The same of what stands still on the core: other strands, and what a trap of this one has suspended (R268, R270). -/
def Core.unwrittenStill (k : Core) (n : Nat) : List Nat :=
  k.strands.flatMap fun e => ((if e.1 = n then e.2.levels.drop 1 else e.2.levels).flatMap Strand.unwritten)

/-- The hold of a syllable that touches pool lines whose writes are pending, or writes lines that the Eddy array has not
read (R95, R197, R226; log 12 for the lines of a VST that is still reading registers). -/
def State.lineHold (s : State) (reads writes : List Nat) : Option Verdict :=
  let k := s.myCore
  let all := reads ++ writes
  if all.any s.me.unwritten.contains then some (.hold true)
  else if all.any (k.unwrittenStill s.issue.strand).contains then some (.hold false)
  else if k.poolWrites.any fun w => all.contains (w.off / 64 * 64) then some (.hold false)
  else if writes.any k.eddyReads then some (.hold false)
  else none

/-- A lane group of the strand is occupied (R160, R161). -/
def Strand.busy (t : Strand) (lg : Nat) : Bool := t.blocks.any fun b => b.lg == lg && t.time < b.start + b.busyFor

/-- The hold on occupied lane groups (R161). -/
def State.laneHold (s : State) (lgs : List Nat) : Option Verdict := if lgs.any s.me.busy then some (.hold true) else none

/-! ## Held stores (R138, R139, R326, R328) -/

/-- An address lies in a range. -/
def inRange (ea base : Word) (len : Nat) : Bool := base.toNat ≤ ea.toNat && ea.toNat < base.toNat + len

/-- The joins of a team under which a strand is a task and in one of whose held ranges an address lies: join and task. -/
def Team.joinsOver (t : Team) (w : StrandName) (ea : Word) : List (Nat × Nat × Join) :=
  t.joins.flatMap fun q =>
    if q.2.st != .free && q.2.ranges.any (fun r => inRange ea r.1 r.2) then
      (q.2.tasks.zipIdx.filter fun k => k.1 == .localTask w).map fun k => (q.1, k.2, q.2)
    else []

/-- The holders of a write of a strand: its open phase and its open joins; from a release on, stores are ordinary (R138, R323,
R328). A command that was issued before a join opened does not write under it; `id` is the command's number (R322, R412). -/
def State.holders (s : State) (c n : Nat) (ea : Word) (id : Nat := s.nextId) : List Holder :=
  let d := coreDie c
  let t := s.teamAt c
  let ph : List Holder := match (s.strand c n).phase with
    | some p => if inRange ea p.base p.len then [s.phaseHolder c n] else []
    | none => []
  ph ++ ((s.team d t).joinsOver (s.nameOf c n) ea).filterMap fun q =>
    if q.2.2.st = .open_ ∧ q.2.2.opened ≤ id then some (.join d t q.1 q.2.1) else none

/-- A condemned strand's store into the held ranges of the join that condemned it is discarded (R326). -/
def State.discards (s : State) (c n : Nat) (ea : Word) (id : Nat := s.nextId) : Bool :=
  (s.strand c n).condemned.isSome &&
    ((s.team (coreDie c) (s.teamAt c)).joinsOver (s.nameOf c n) ea).any fun q => q.2.2.opened ≤ id && q.2.2.stragglers.contains q.2.1

/-- The HBM lines of a syllable's stores that are held, each once. -/
def State.heldLines (s : State) (ws : List (Word × Target)) : List Nat :=
  let c := s.issue.core
  let n := s.issue.strand
  (ws.filterMap fun w => match w.2 with
    | .hbm pa => if (s.holders c n w.1).isEmpty || s.discards c n w.1 then none else some (pa / 64 * 64)
    | _ => none).eraseDups

/-- Held stores that find staging full block with HOLD_FULL, waiting for room on that die (R92, R139): a syllable needs a line of
staging for each line it stores to (log 98). -/
def State.holdFull (s : State) (ws : List (Word × Target)) : Option Verdict :=
  let lines := s.heldLines ws
  let dies := (lines.map stackOf).eraseDups
  (dies.find? fun d => 262144 < s.stagingUsed d + (lines.filter fun l => stackOf l == d).length).map fun d =>
    .block waitHold [] none (some (d, 0))

/-- The place of an access that can be made. -/
def Resolved.places (ea : Word) : Resolved → List (Word × Target)
  | .ok tgt _ => [(ea, tgt)]
  | _ => []

/-- A posted store of the issuing strand (R144, R265). -/
def State.postStore (s : State) (ea : Word) (target : Target) (bytes : List Byte) (mark : Bool) : State :=
  let c := s.issue.core
  let n := s.issue.strand
  if s.discards c n ea then s
  else
    let held := match target with
      | .hbm _ => s.holders c n ea
      | _ => []
    let w : Store :=
      { id := s.nextId, strand := n, seq := s.me.nextSeq, target := target, bytes := bytes, mark := mark, holders := held, va := ea }
    { s.modMyCore fun k => { k with stores := k.stores ++ [w] } with nextId := s.nextId + 1 }

/-- A write of the issuing strand to its own pool, in matrix time (R144; log 16); through the core's own cluster window or not. -/
def State.poolStore (s : State) (latency off : Nat) (bytes : List Byte) (mark : Bool) (window : Bool := false) : State :=
  let line := off / 64 * 64
  let mask := BitVec.ofNat 64 ((2 ^ bytes.length - 1) * 2 ^ (off - line))
  let data := BitVec.ofNat 512 (ofBytes bytes * 2 ^ (8 * (off - line)))
  s.modMyCore fun k => { k with poolWrites := k.poolWrites ++
    [{ due := k.mtime + latency, strand := s.issue.strand, seq := k.issued, off := line, data := data, mask := mask, mark := mark, window := window }] }

/-! ## Scalar loads and stores -/

/-- xa + sext(disp10) x size (R143). -/
def lsAddress (base : Word) (disp : BitVec 10) (size : Nat) : Word := base + sext64 disp * BitVec.ofNat 64 size

/-- The address lies in the own scratchpad region, not in a window (R125). -/
def ownRegion (ea : Word) : Bool := localBase ≤ ea.toNat % 2 ^ 42 && ea.toNat % 2 ^ 42 < windowBase

/-- The byte of the own pool of a core that a target names, in the scratchpad region or through the core's own cluster window. -/
def ownByte (c : Nat) : Target → Option Nat
  | .pool d off => if d = c then some off else none
  | _ => none

/-- The line of the own pool that an access of a core touches, for early touch: accesses to the own pool are made in bundle order,
whichever region names it (R95, R144, R270). -/
def touchedLine (c : Nat) : Resolved → List Nat
  | .ok tgt _ => ((ownByte c tgt).map fun off => off / 64 * 64).toList
  | _ => []

/-- The cycles after which a store through the core's own cluster window lands: the 24 of a window access (R144; log 117). -/
def windowLatency : Nat := 24

/-- Bytes of the own pool that a late load through the core's own window reads at its issue, in bundle order (R270); none for any
other place. -/
def State.readAtIssue (s : State) (tgt : Target) (n : Nat) : Option (List Byte × Bool) :=
  (ownByte s.issue.core tgt).map fun off => s.myCore.poolRead off n

/-- The checks of an access to memory at ea: alignment before any region, translation, early touch (R143, R134, R95). -/
def State.accessChecks (s : State) (ea : Word) (size : Nat) (acc : Acc) : Checks :=
  if ea.toNat % size ≠ 0 then { faults := some (faultWith misalignedCode alignReason ea) }
  else
    let r := s.resolve s.issue.core ea acc
    let lines := touchedLine s.issue.core r
    let holds := if acc = .read then s.lineHold lines [] else s.lineHold [] lines
    match s.accessVerdict ea r with
    | some (.block a b c l) => { blocks := some (.block a b c l) }
    | some v => { faults := some v }
    | none => { blocks := if acc = .write then s.holdFull (r.places ea) else none, holds := holds }

/-- The register value of a load: sign- or zero-extended (R143). -/
def extendLoad (size : Nat) (signed : Bool) (bytes : List Byte) : Word :=
  if signed then BitVec.ofInt 64 (signedOf (8 * size) (ofBytes bytes)) else BitVec.ofNat 64 (ofBytes bytes)

/-- A load: at issue + 4 from the own scratchpad and the identity line; late from everywhere else (R144). From the own pool it reads
at its issue, in bundle order (R270). -/
def load (i : Instr) (x a : BitVec 6) (disp : BitVec 10) (size : Nat) (signed : Bool) (s : State) : Out :=
  issueWith i s (fun s => s.accessChecks (lsAddress (s.srcPeek a) disp size) size .read) fun s =>
    let p := s.src a
    let ea := lsAddress p.1.1 disp size
    let mark := p.1.2
    let r := p.2.resolve p.2.issue.core ea .read
    let s := p.2.noteAccess p.2.issue.core ea .read
    let late := fun (tgt : Target) (pg : Option Nat) =>
      let id := s.nextId
      let l : Load := { id := id, strand := s.issue.strand, seq := s.me.nextSeq, kind := .scalar x size signed, target := tgt,
                        elems := [], page := pg, got := s.readAtIssue tgt size }
      let s := s.modMyCore fun k => { k with loads := k.loads ++ [l] }
      let w : Pending := { due := s.me.time + 4, seq := s.me.nextSeq, write := .x x 0, mark := mark, load := some id,
                           recs := if tgt == .hole then [s.record 7 1 0] else [] }
      { s.modMe fun t => { t with pend := t.pend ++ [w] } with nextId := id + 1 }
    match r with
    | .ok tgt pg =>
      if ownRegion ea then
        match tgt with
        | .pool c off =>
          let v := (s.core c).poolRead off size
          s.result 4 (.x x (extendLoad size signed v.1)) (mark || v.2)
        | _ => s.result 4 (.x x 0) mark [s.record 7 1 0]
      else match tgt with
        | .ident off => s.result 4 (.x x (extendLoad size signed (((identLine s.myDie).drop off).take size))) mark
        | _ => late tgt pg
    | _ => s

/-! ## Waits on memory (R116) -/

/-- SPINW (R116): the bundle commits; the first read is a late load, and the next bundle waits for the condition. -/
def execSpinw (d a : BitVec 6) (c : BitVec 3) (s : State) : Out :=
  issueWith (.spinw d a c) s (fun s => s.accessChecks (s.srcPeek a) 8 .read) fun s =>
    let cmp := s.me.reg d
    let mark := s.me.regMark d
    let p := s.src a
    let ea := p.1.1
    let r := p.2.resolve p.2.issue.core ea .read
    let s := p.2.noteAccess p.2.issue.core ea .read
    match r with
    | .ok tgt pg =>
      let id := s.nextId
      let s := s.modMyCore fun k =>
        { k with loads := k.loads ++ [{ id := id, strand := s.issue.strand, seq := s.me.nextSeq, kind := .spin d,
                                        target := tgt, elems := [], page := pg, got := s.readAtIssue tgt 8 }] }
      let s := s.modMe fun t =>
        { t with
          spin := some { addr := ea, cond := c, cmp := cmp, xd := d, last := s.myCore.cycle }
          pend := t.pend ++ [{ due := t.time + 1, seq := t.nextSeq, write := .none, mark := mark || p.1.2,
                               load := some id, recs := if tgt == .hole then [s.record 7 1 0] else [] }] }
      { s with nextId := id + 1 }
    | _ => s

/-- A store: into the own scratchpad at issue + 4, through the core's own window in bundle order, posted everywhere else (R144, R270). -/
def store (i : Instr) (x a : BitVec 6) (disp : BitVec 10) (size : Nat) (s : State) : Out :=
  issueWith i s (fun s => s.accessChecks (lsAddress (s.srcPeek2 x a) disp size) size .write) fun s =>
    let p := s.src2 x a
    let ea := lsAddress p.1.2.1 disp size
    let bytes := bytesOf size p.1.1.toNat
    let mark := p.1.2.2
    let r := p.2.resolve p.2.issue.core ea .write
    let s := (p.2.noteAccess p.2.issue.core ea .write).consumed mark
    match r with
    | .ok tgt _ =>
      match tgt with
      | .pool c off =>
        if ownRegion ea then s.poolStore 4 off bytes mark
        else if c = s.issue.core then s.poolStore windowLatency off bytes mark true
        else s.postStore ea tgt bytes mark
      | .hole => s.result 4 .none false [s.record 7 1 0]
      | _ => s.postStore ea tgt bytes mark
    | _ => s

def execLdb (x a : BitVec 6) (d : BitVec 10) (s : State) : Out := load (.ldb x a d) x a d 1 true s
def execLdbu (x a : BitVec 6) (d : BitVec 10) (s : State) : Out := load (.ldbu x a d) x a d 1 false s
def execLdh (x a : BitVec 6) (d : BitVec 10) (s : State) : Out := load (.ldh x a d) x a d 2 true s
def execLdhu (x a : BitVec 6) (d : BitVec 10) (s : State) : Out := load (.ldhu x a d) x a d 2 false s
def execLdw (x a : BitVec 6) (d : BitVec 10) (s : State) : Out := load (.ldw x a d) x a d 4 true s
def execLdwu (x a : BitVec 6) (d : BitVec 10) (s : State) : Out := load (.ldwu x a d) x a d 4 false s
def execLdd (x a : BitVec 6) (d : BitVec 10) (s : State) : Out := load (.ldd x a d) x a d 8 false s
def execStb (x a : BitVec 6) (g : Bool) (d : BitVec 10) (s : State) : Out := store (.stb x a g d) x a d 1 s
def execSth (x a : BitVec 6) (g : Bool) (d : BitVec 10) (s : State) : Out := store (.sth x a g d) x a d 2 s
def execStw (x a : BitVec 6) (g : Bool) (d : BitVec 10) (s : State) : Out := store (.stw x a g d) x a d 4 s
def execStd (x a : BitVec 6) (g : Bool) (d : BitVec 10) (s : State) : Out := store (.std x a g d) x a d 8 s

/-! ## Block loads and stores (R146) -/

/-- Registers of a strand in one lane group (R151). -/
def State.regCount (s : State) : Nat := vregCount s.me.ctl.poolpart

/-- One line of a block access: lane group, index in the block, scratchpad offset as a 64-bit number, register. -/
structure BlockLine where
  lg : Nat
  i : Nat
  off : Nat
  reg : Nat
  deriving DecidableEq, Repr

/-- The lines of VLD, VST (strided false), VLDS, VSTS (strided true) for one lane group (R145, R146, R155). -/
def State.blockLines (s : State) (w : BitVec 7) (base : Word) (o : BitVec 5) (strided : Bool) (lg : Nat) : List BlockLine :=
  let l := s.me.lane lg
  let lgs : Word := (s.me.ctl.lgstride.signExtend 64) * 64
  let start := base + zext64 o * 64 + BitVec.ofNat 64 lg * lgs
  let stride : Word := s.me.ctl.vstride.signExtend 64
  (List.range (l.rows * l.cols)).map fun i =>
    let step : Word := if strided then BitVec.ofNat 64 (i / l.cols) * stride + BitVec.ofNat 64 (i % l.cols) else BitVec.ofNat 64 i
    { lg := lg, i := i, off := (start + step * 64).toNat, reg := blockReg s.regCount l.wb l.cols w.toNat i }

/-- Its pool bytes (R124). -/
def State.poolLine (s : State) (off : Nat) : Option Nat := scratchAt s.myCore.part off

/-- REGISTER_UE of vector registers, as lane group and register of the share (R356). -/
def State.ueVector (s : State) (regs : List (Nat × Nat)) : Option Verdict :=
  (regs.find? fun r => s.me.isBad .vectorReg r.1 r.2).map fun r => ueFault 1 r.2 r.1

/-- A vector register of the issuing strand; a conductor has none, and reads a free value (R18; log 93). -/
def State.myVreg (s : State) (lg reg : Nat) : Line × Bool :=
  if s.meConductor then (Config.conductorReg s.myCore.issued lg reg, false) else s.myCore.vreg lg s.issue.strand reg

/-- The block that a block access leaves on a lane group (R146, R160). -/
def State.newBlock (s : State) (i : Instr) (lg interval busyFor : Nat) (idle : Bool) : Block :=
  let l := s.me.lane lg
  { op := i, slot := s.issue.slot, lg := lg, seq := s.me.nextSeq, poolSeq := s.myCore.issued, addr := s.issue.addr,
    wb := l.wb, rows := l.rows, cols := l.cols, target := 0, pred := look (BitVec.allOnes 64) l.preds l.mode,
    rmode := s.me.ctl.rmode, version := s.me.ctl.version, start := s.me.time, interval := interval, busyFor := busyFor,
    step := 0, srcs := [], marks := [], events := [], mark := l.wmark, offs := [], idle := idle, mirror := s.issue.mirrored,
    saved := [] }

def State.addBlock (s : State) (b : Block) : State := s.modMe fun t => { t with blocks := t.blocks ++ [b] }

/-- Checks shared by the block accesses. -/
def State.blockChecks (s : State) (w : BitVec 7) (a : BitVec 6) (m : BitVec 8) (o : BitVec 5) (strided write : Bool) : Checks :=
  let base := s.srcPeek a
  let lines := (maskGroups m).flatMap (s.blockLines w base o strided)
  let pool := lines.filterMap fun l => s.poolLine l.off
  { holds := (s.laneHold (maskGroups m)).or (if write then s.lineHold [] pool else s.lineHold pool [])
    faults := if base.toNat % 64 ≠ 0 then some (faultWith misalignedCode alignReason base)
      else if write then s.ueVector (lines.map fun l => (l.lg, l.reg)) else none }

/-- VLD and VLDS: the lines are read at issue, in bundle order (R270; log 14); register i is written at issue + 6 + i. -/
def vload (i : Instr) (w : BitVec 7) (a : BitVec 6) (m : BitVec 8) (o : BitVec 5) (strided : Bool) (s : State) : Out :=
  issueWith i s (fun s => s.blockChecks w a m o strided false) fun s =>
    let p := s.src a
    let s := p.2
    let lines := (maskGroups m).flatMap (s.blockLines w p.1.1 o strided)
    let holes := (lines.filter fun l => (s.poolLine l.off).isNone).length
    let s := lines.foldl (fun s l =>
      let v := match s.poolLine l.off with
        | some a => s.myCore.line a
        | none => (0, false)
      s.result (6 + l.i) (.vec l.lg l.reg v.1 (BitVec.allOnes 64)) (v.2 || p.1.2 || s.ctlMark i.controls || (s.me.lane l.lg).wmark)) s
    let s := if holes = 0 then s else s.result 6 .none false [s.record 7 holes 0]
    (maskGroups m).foldl (fun s lg =>
      s.addBlock (s.newBlock i lg 1 ((s.me.lane lg).rows * (s.me.lane lg).cols) true)) s

/-- VST and VSTS: register i is read at issue + i and its line written at issue + 6 + i. -/
def vstore (i : Instr) (w : BitVec 7) (a : BitVec 6) (m : BitVec 8) (o : BitVec 5) (strided : Bool) (s : State) : Out :=
  issueWith i s (fun s => s.blockChecks w a m o strided true) fun s =>
    let p := s.src a
    let s := p.2.consumed (p.1.2 || p.2.ctlMark i.controls)
    let lines := (maskGroups m).flatMap (s.blockLines w p.1.1 o strided)
    let holes := (lines.filter fun l => (s.poolLine l.off).isNone).length
    let s := if holes = 0 then s else s.result 6 .none false [s.record 7 holes 0]
    (maskGroups m).foldl (fun s lg =>
      let mine := s.blockLines w p.1.1 o strided lg
      let b := s.newBlock i lg 1 mine.length false
      let b := { b with mark := b.mark || p.1.2 || s.ctlMark i.controls }
      let own := if s.meConductor then mine.map fun l => (l.reg, s.myVreg lg l.reg) else []
      s.addBlock { b with offs := mine.map fun l => s.poolLine l.off, saved := own }) s

def execVld (w : BitVec 7) (a : BitVec 6) (m : BitVec 8) (o : BitVec 5) (s : State) : Out := vload (.vld w a m o) w a m o false s
def execVlds (w : BitVec 7) (a : BitVec 6) (m : BitVec 8) (o : BitVec 5) (s : State) : Out := vload (.vlds w a m o) w a m o true s
def execVst (w : BitVec 7) (a : BitVec 6) (m : BitVec 8) (o : BitVec 5) (s : State) : Out := vstore (.vst w a m o) w a m o false s
def execVsts (w : BitVec 7) (a : BitVec 6) (m : BitVec 8) (o : BitVec 5) (s : State) : Out := vstore (.vsts w a m o) w a m o true s

/-! ## Gather and scatter (R147, R148) -/

/-- The register of one lane group that an index w names, single (R147, R153). -/
def State.singleReg (s : State) (lg : Nat) (w : BitVec 7) : Nat := ((s.me.lane lg).wb + w.toNat) % s.regCount

/-- The element addresses: lane group, lane, address (R147). -/
def State.gatherAddrs (s : State) (lgs : List Nat) (wi : BitVec 7) (base : Word) (sc : BitVec 2) : List (Nat × Nat × Word) :=
  lgs.flatMap fun lg =>
    let idx := (s.myVreg lg (s.singleReg lg wi)).1
    (List.range 16).map fun j => (lg, j, base + (((BitVec.ofNat 32 (elemOf 32 idx j)).signExtend 64) <<< sc.toNat))

/-- One element's access: a remote address is refused with NO_TEAM (R147). -/
def State.elemResolve (s : State) (c : Nat) (ea : Word) (acc : Acc) : Resolved :=
  if ea.toNat % 4 ≠ 0 then .fault misalignedCode alignReason
  else if ea.toNat % 2 ^ 42 < localBase ∧ ea.toNat / 2 ^ 42 ≠ endpointOf (coreDie c) then .fault pageFaultCode noTeamReason
  else s.resolve c ea acc

/-- Every element's access, in ascending lane group and lane. -/
def State.elemResolves (s : State) (addrs : List (Nat × Nat × Word)) (acc : Acc) : List ((Nat × Nat × Word) × Resolved) :=
  addrs.map fun e => (e, s.elemResolve s.issue.core e.2.2 acc)

/-- An element of a gather can be read at once: no write of its pool line is pending, and no access of the strand is ahead of it
(R95, R144, R270). A place of the readback view is read at issue. -/
def State.elemReady (s : State) (tgt : Target) : Bool :=
  match tgt with
  | .readback _ => false
  | .pool c off => if c = s.issue.core then (s.lineHold [off / 64 * 64] []).isNone
      else s.mayRead s.issue.core s.issue.strand s.me.nextSeq tgt 4
  | _ => s.mayRead s.issue.core s.issue.strand s.me.nextSeq tgt 4

/-- An element of a gather is read. -/
def State.readKept (s : State) (c n : Nat) (e : KeptElem) : KeptElem × State :=
  let v := s.readOwn c n (s.strand c n).nextSeq e.target 4
  ({ e with val := BitVec.ofNat 32 (ofBytes v.1.1), mark := v.1.2, read := true }, v.2)

/-- The elements of a gather that satisfy a test are read, in their order. -/
def State.readAll (s : State) (c n : Nat) (p : KeptElem → Bool) : List KeptElem → List KeptElem × State
  | [] => ([], s)
  | e :: es =>
    let q := if e.read || !p e then (e, s) else s.readKept c n e
    let r := q.2.readAll c n p es
    (q.1 :: r.1, r.2)

/-- A translated element, not read. -/
def keepElem (e : Nat × Nat × Word) (tgt : Target) : KeptElem :=
  { lg := e.1, lane := e.2.1, ea := e.2.2, target := tgt, val := 0, mark := false, read := false }

/-- A translated element of a gather that waits, read if it can be (R148). -/
def State.keep (s : State) (e : Nat × Nat × Word) (tgt : Target) : KeptElem :=
  if s.elemReady tgt then (s.readKept s.issue.core s.issue.strand (keepElem e tgt)).1 else keepElem e tgt

/-- An element that a waiting gather keeps unread can be read, or is one of the own pool, which is read at issue in bundle order
(R144, R148, R270). -/
def State.mayReadKept (s : State) (c n : Nat) (e : KeptElem) : Bool :=
  ownRegion e.ea || (ownByte c e.target).isSome || s.mayRead c n (s.strand c n).nextSeq e.target 4

/-- A gather reads the elements that its wait leaves to read, as the wait ends (R148). -/
def State.readLeft (s : State) (c n : Nat) : State :=
  match (s.strand c n).gather with
  | some g =>
    if g.write then s
    else
      let r := s.readAll c n (fun e => !ownRegion e.ea && (ownByte c e.target).isNone) g.kept
      r.2.modStrand c n fun t => { t with gather := some { g with kept := r.1 } }
  | none => s

/-- The checks of a gather or scatter (R136, R137, R148). A syllable that presents again after its wait has its mask empty,
or raises the refusal; a gather is held while an element that it has still to read cannot be read. -/
def State.gatherChecks (s : State) (lgs : List Nat) (wi : BitVec 7) (base : Word) (sc : BitVec 2) (write : Bool) : Checks :=
  let ue := s.ueVector (lgs.map fun lg => (lg, s.singleReg lg wi))
  match s.me.gather with
  | some g =>
    match g.mask.find? fun e => e.dead.isSome with
    | some e => { faults := some (.fault (e.dead.getD (0, 0)).1 (e.dead.getD (0, 0)).2 e.ea e.lg e.lane false) }
    | none =>
      let ready := write || g.kept.all fun e => e.read || s.elemReady e.target || (match e.target with
        | .readback _ => true
        | _ => false)
      { blocks := if write then s.holdFull (g.kept.map fun e => (e.ea, e.target)) else none
        holds := (s.laneHold lgs).or (if ready then none else some (.hold false)), faults := ue }
  | none =>
    let rs := s.elemResolves (s.gatherAddrs lgs wi base sc) (if write then .write else .read)
    let fault := rs.findSome? fun r =>
      if s.refusedAt s.myDie s.myTeamIndex s.me.wait.refused r.1.2.2 then
        some (Verdict.fault stage2Code refusedReason r.1.2.2 r.1.1 r.1.2.1 false)
      else match r.2 with
        | .fault code reason => some (.fault code reason r.1.2.2 r.1.1 r.1.2.1 false)
        | _ => none
    let waits := rs.filterMap fun r => match r.2 with
      | .miss m => some (r.1, m)
      | _ => none
    let lines := rs.flatMap fun r => touchedLine s.issue.core r.2
    let full := if write then s.holdFull (rs.flatMap fun r => r.2.places r.1.2.2) else none
    let holds := (s.laneHold lgs).or (if write then s.lineHold [] lines else s.lineHold lines [])
    if fault.isSome then { holds := holds, faults := fault }
    else if !waits.isEmpty then
      let kept := rs.filterMap fun r => match r.2 with
        | .ok tgt _ => some (if write then keepElem r.1 tgt else s.keep r.1 tgt)
        | _ => none
      let mask := waits.map fun w => { lg := w.1.1, lane := w.1.2.1, ea := w.1.2.2, ipa := s.requestPage w.2, dead := none : WaitElem }
      { blocks := some (.block waitPage (waits.map (·.2)) (some { write := write, mask := mask, kept := kept }) none) }
    else { blocks := full, holds := holds, faults := ue }

/-- The elements of an issue: those kept through a wait, else all of them fresh (R148). -/
def State.gatherElems (s : State) (addrs : List (Nat × Nat × Word)) (acc : Acc) : List KeptElem :=
  match s.me.gather with
  | some g => g.kept
  | none => (s.elemResolves addrs acc).filterMap fun r => match r.2 with
    | .ok tgt _ => some (keepElem r.1 tgt)
    | _ => none

/-- A register from the 16 elements of one lane group. -/
def gatherLine (es : List KeptElem) (lg : Nat) : Line × Bool :=
  let mine := es.filter fun e => e.lg == lg
  (packElems 32 ((List.range 16).map fun j => match mine.find? fun e => e.lane == j with
    | some e => e.val.toNat
    | none => 0), mine.any (·.mark))

/-- The mark of what addresses the elements of a lane group: the base, its index register, its window (R348). -/
def State.indexMark (s : State) (lg : Nat) (wi : BitVec 7) (base : Bool) : Bool :=
  base || (s.myVreg lg (s.singleReg lg wi)).2 || (s.me.lane lg).wmark

/-- VGATHER (R147, R148). Elements in the own pool are read at issue, in bundle order (R144, R270); after a wait every element that
has not been read is. An element outside the own scratchpad region makes the result late. -/
def gather (i : Instr) (lgs : List Nat) (w wi : BitVec 7) (a : BitVec 6) (sc : BitVec 2) (latency : Nat) (s : State) : Out :=
  issueWith i s (fun s => s.gatherChecks lgs wi (s.srcPeek a) sc false) fun s =>
    let p := s.src a
    let imark := fun lg => p.2.indexMark lg wi p.1.2
    let addrs := p.2.gatherAddrs lgs wi p.1.1 sc
    let waited := p.2.me.gather.isSome
    let es := p.2.gatherElems addrs .read
    let s := addrs.foldl (fun s e => s.noteAccess s.issue.core e.2.2 .read) p.2
    let r := (s.modMe fun t => { t with gather := none }).readAll s.issue.core s.issue.strand (fun e => waited || ownRegion e.ea || (ownByte s.issue.core e.target).isSome) es
    let es := r.1
    let s := r.2
    let holes := (es.filter fun e => e.target == .hole).length
    let s := if holes = 0 then s else s.result latency .none false [s.record 7 holes 0]
    if es.all fun e => e.read && (waited || ownRegion e.ea) then
      lgs.foldl (fun s lg =>
        let v := gatherLine es lg
        s.result latency (.vec lg (s.singleReg lg w) v.1 (BitVec.allOnes 64)) (v.2 || imark lg)) s
    else
      let id := s.nextId
      let l : Load := { id := id, strand := s.issue.strand, seq := s.me.nextSeq, kind := .gather, target := .hole, elems := es,
                        page := none }
      let s := s.modMyCore fun k => { k with loads := k.loads ++ [l] }
      let s := lgs.foldl (fun s lg =>
        let q : Pending := { due := s.me.time + latency, seq := s.me.nextSeq,
                             write := .vec lg (s.singleReg lg w) 0 (BitVec.allOnes 64), mark := imark lg, load := some id, recs := [] }
        s.modMe fun t => { t with pend := t.pend ++ [q] }) s
      { s with nextId := id + 1 }

/-- VSCATTER (R147, R148): elements in ascending lane group and lane. -/
def scatter (i : Instr) (lgs : List Nat) (w wi : BitVec 7) (a : BitVec 6) (sc : BitVec 2) (latency : Nat) (s : State) : Out :=
  issueWith i s (fun s =>
    let k := s.gatherChecks lgs wi (s.srcPeek a) sc true
    { k with faults := k.faults.or (s.ueVector (lgs.map fun lg => (lg, s.singleReg lg w))) }) fun s =>
    let p := s.src a
    let addrs := p.2.gatherAddrs lgs wi p.1.1 sc
    let es := p.2.gatherElems addrs .write
    let s := addrs.foldl (fun s e => s.noteAccess s.issue.core e.2.2 .write) p.2
    let s := s.modMe fun t => { t with gather := none }
    let holes := (es.filter fun e => e.target == .hole).length
    let s := if holes = 0 then s else s.result latency .none false [s.record 7 holes 0]
    let s := s.consumed (lgs.any fun lg => (s.myVreg lg (s.singleReg lg w)).2 || s.indexMark lg wi p.1.2)
    addrs.foldl (fun s e =>
      match es.find? fun k => k.lg == e.1 && k.lane == e.2.1 with
      | none => s
      | some k =>
        let reg := s.myVreg e.1 (s.singleReg e.1 w)
        let src := (reg.1, reg.2 || s.indexMark e.1 wi p.1.2)
        let bytes := bytesOf 4 (elemOf 32 src.1 e.2.1)
        match k.target with
        | .pool c off =>
          if ownRegion k.ea then s.poolStore latency off bytes src.2
          else if c = s.issue.core then s.poolStore windowLatency off bytes src.2 true
          else s.postStore k.ea k.target bytes src.2
        | .hole => s
        | _ => s.postStore k.ea k.target bytes src.2) s

def execVgather (w i : BitVec 7) (a : BitVec 6) (k : BitVec 3) (sc : BitVec 2) (s : State) : Out :=
  gather (.vgather w i a k sc) [k.toNat] w i a sc 12 s
def execVgatherAll (w i : BitVec 7) (a : BitVec 6) (sc : BitVec 2) (s : State) : Out :=
  gather (.vgatherAll w i a sc) (List.range 8) w i a sc 20 s
def execVscatter (w i : BitVec 7) (a : BitVec 6) (k : BitVec 3) (sc : BitVec 2) (s : State) : Out :=
  scatter (.vscatter w i a k sc) [k.toNat] w i a sc 12 s
def execVscatterAll (w i : BitVec 7) (a : BitVec 6) (sc : BitVec 2) (s : State) : Out :=
  scatter (.vscatterAll w i a sc) (List.range 8) w i a sc 20 s

/-! ## Vector stream pops (R149) -/

def Strand.vstream (t : Strand) (k : Nat) : List VElem := look [] t.vstreams k

/-- VPOP: one element for each lane group of the mask, ascending, at latency 2. An uncorrectable word of one of them is reported as
register vsN of the vector file (R356; DESIGN CHOICE, log 119). -/
def execVpop (w : BitVec 7) (k : BitVec 2) (m : BitVec 8) (s : State) : Out :=
  issueWith (.vpop w k m) s (fun s =>
    { blocks := if (s.me.vstream k.toNat).length < (maskGroups m).length then some (blockFor waitStream) else none
      holds := s.laneHold (maskGroups m)
      faults := if ((s.me.vstream k.toNat).take (maskGroups m).length).any (·.bad) then some (ueFault 1 k.toNat 0) else none }) fun s =>
    (maskGroups m).foldl (fun s lg =>
      match s.me.vstream k.toNat with
      | [] => s
      | e :: rest =>
        let s := s.modMe fun t => { t with vstreams := put [] t.vstreams k.toNat rest }
        s.result 2 (.vec lg (s.singleReg lg w) e.val (BitVec.allOnes 64)) (e.mark || (s.me.lane lg).wmark)) s

/-! ## DRAIN and FENCE (R150, R272, R273) -/

/-- DRAIN: the core is held until every earlier store of the strand has been performed at its target, its commits among them
(R273, R278). -/
def execDrain (s : State) : Out :=
  issueWith .drain s (fun s =>
    { holds := if (s.myCore.stores.any fun w => w.strand == s.issue.strand)
          || (s.myCore.poolWrites.any fun w => w.strand == s.issue.strand && w.window)
          || s.owesCommit s.myDie s.myTeamIndex s.myName (fun _ => true) then some (.hold false) else none }) id

/-- A target lies in the places of a scope (R272). -/
def inScope (scope d : Nat) : Target → Bool
  | .pool _ _ => 2 ≤ scope
  | .hbm pa => if stackOf pa = d then 3 ≤ scope else 4 ≤ scope
  | .outside _ => 5 ≤ scope
  | .readback _ => 3 ≤ scope
  | _ => false

/-- FENCE: scopes 0 and 1 complete in one cycle; wider ones hold the core until the strand's earlier accesses in the scope
have been performed, those to the own pool, the block stores that a trap has suspended and the writes of its commits among them
(R272, R278). -/
def execFence (sc : BitVec 3) (s : State) : Out :=
  issueWith (.fence sc) s (fun s =>
    let d := s.myDie
    let n := s.issue.strand
    { holds := if 2 ≤ sc.toNat && s.me.storing then some (.hold true)
        else if 2 ≤ sc.toNat && s.me.storingAny then some (.hold false)
        else if (2 ≤ sc.toNat && s.myCore.poolWrites.any fun w => w.strand == n)
                  || (s.myCore.stores.any fun w => w.strand == n && inScope sc.toNat d w.target)
                  || (s.myCore.loads.any fun l => l.strand == n &&
                       (inScope sc.toNat d l.target || l.elems.any fun e => inScope sc.toNat d e.target))
                  || s.owesCommit d s.myTeamIndex s.myName (fun l => inScope sc.toNat d (.hbm l.pa))
        then some (.hold false) else none }) id

end Sys2Proof.Machine
end

