-- ==== Sys2Proof/Machine/Matrix.lean ====
section
/-!
DEFINITION. The matrix array (R190 to R211): operand slots, scale buffers, accumulator tiles, the slot table, and every
instruction of slot MX with SLD. Admitted work keeps the lines that it will write, and its events land them in matrix time.
-/

set_option Elab.async false
namespace Sys2Proof.Machine

def operandSlotCode : Nat := 0x0C

/-- OPERAND_SLOT; FINFO names the slot (R193) or the tile (R196, R338). -/
def slotFault (o : Nat) : Verdict := faultWith operandSlotCode 0 (BitVec.ofNat 64 o)
def tileFault (t : Nat) : Verdict := faultWith operandSlotCode 0 (BitVec.ofNat 64 (256 + t))

/-- The first of some verdicts. -/
def firstOf (vs : List (Option Verdict)) : Option Verdict := vs.findSome? id

/-- An early touch (R95, R197): strand time stands still. -/
def touchWhile (b : Bool) : Option Verdict := if b then some (.hold false) else none

/-- A busy resource (R161, R198, R225): strand time advances. -/
def busyWhile (b : Bool) : Option Verdict := if b then some (.hold true) else none

/-! ## Slots and tiles -/

/-- A slot that the issuing strand does not hold, or that does not exist (R192, R193). -/
def State.slotCheck (s : State) (o : Nat) : Option Verdict :=
  if slotCount s.myCore.part ≤ o ∨ (s.myCore.slot o).holder ≠ some s.issue.strand then some (slotFault o) else none

/-- A tile at or above ACC (R196). -/
def State.tileCheck (s : State) (t : Nat) : Option Verdict := if partAcc s.myCore.part ≤ t then some (tileFault t) else none

/-- An OLD into the slot has not completed (R197). -/
def Core.loading (k : Core) (o : Nat) : Bool := k.mtime < (k.slot o).loadUntil

/-- A multiply's reads of the slot are pending (R197, R204). -/
def Core.reading (k : Core) (o : Nat) : Bool := k.mtime < (k.slot o).readsUntil

/-- A pending write of the tile from a multiply; from ACLR or AADD; reads of an AMOV (R197). -/
def Core.multPending (k : Core) (t : Nat) : Bool := k.mults.any fun m => m.tile == t
def Core.portPending (k : Core) (t : Nat) : Bool := k.tileWork.any fun w => w.tile == t && !w.reads
def Core.amovReading (k : Core) (t : Nat) : Bool := k.tileWork.any fun w => w.tile == t && w.reads && k.mtime < w.start + 64

/-- Lines that land (R205, R208, R209). -/
def Core.landLines (k : Core) (ls : List PoolLine) : Core := ls.foldl (fun k l => k.setLine l.off l.data l.mask l.mark) k

/-- The 256 lines of a tile, with their poison marks. -/
def Core.tileLines (k : Core) (t : Nat) : List (Line × Bool) := (List.range 256).map fun i => k.line (tileAddr k.part t + 64 * i)

/-- The tile as a multiply that starts now finds it: the results of earlier multiplies included (R204, R205). -/
def Core.tileChained (k : Core) (t : Nat) : List (Line × Bool) :=
  (k.tileLines t).zipIdx.map fun p =>
    let off := tileAddr k.part t + 64 * p.2
    k.mults.foldl (fun (v : Line × Bool) m =>
      if m.tile = t then
        match m.lines.find? fun l => l.off == off with
        | some l => (mergeLine v.1 l.data l.mask, l.mark || (v.2 && l.mask != BitVec.allOnes 64))
        | none => v
      else v) p.1

/-- Element (i, j) of a tile's lines: tile byte 4 x (64 i + j) (R196). -/
def tileElem (ls : List (Line × Bool)) (i j : Nat) : Nat × Bool :=
  let l := nth (0, false) ls ((64 * i + j) / 16)
  (elemOf 32 l.1 (j % 16), l.2)

/-! ## OCLAIM and ORELEASE (R193, R207) -/

def execOclaim (a : BitVec 6) (s : State) : Out :=
  issueWith (.oclaim a) s (fun s =>
    let k := s.myCore
    let o := a.toNat
    { holds := touchWhile ((k.slot o).holder.isNone && k.reading o)
      faults := if slotCount k.part ≤ o ∨ (k.slot o).holder.isSome then some (slotFault o) else none }) fun s =>
    s.modMyCore fun k => { k with slots := put Slot.reset k.slots a.toNat { k.slot a.toNat with holder := some s.issue.strand } }

def execOrelease (a : BitVec 6) (s : State) : Out :=
  issueWith (.orelease a) s (fun s =>
    { holds := touchWhile (s.myCore.loading a.toNat), faults := s.slotCheck a.toNat }) fun s =>
    s.modMyCore fun k => k.releaseSlot a.toNat

/-- OPERAND_SLOT_FREE (R193): a RELEASING slot whose pending reads are done is FREE; nothing is left of it once its last load has landed too. -/
def execOperandSlotFree (c o : Nat) (s : State) : Out :=
  let k := s.core c
  if (k.slot o).holder.isNone && !k.loading o && !k.reading o && (k.slot o).load.isEmpty then
    .next (s.modCore c fun k => { k with slots := dropKey k.slots o })
  else .next s

/-! ## OLD (R208) and SLD (R195) -/

/-- The pool lines of consecutive scratchpad lines from an offset, none in the hole (R124). -/
def State.scratchLines (s : State) (off n : Nat) : List (Option Nat) :=
  (List.range n).map fun i => scratchAt s.myCore.part (off + 64 * i)

/-- Their contents with their marks; a line in the hole reads zero. -/
def Core.readLines (k : Core) (ls : List (Option Nat)) : List (Line × Bool) :=
  ls.map fun l => match l with
    | some a => k.line a
    | none => (0, false)

/-- The SCRATCH_HOLE record of a syllable that touches lines (R124). -/
def State.holeRecord (s : State) (ls : List (Option Nat)) : List StatRecord :=
  let n := (ls.filter Option.isNone).length
  if n = 0 then [] else [s.record 7 n 0]

/-- The lines that OLD writes into a slot: the source, or for a 16-bit format its transpose (R208). -/
def oldLines (src : List (Line × Bool)) (transpose : Bool) : List (Line × Bool) :=
  if !transpose then src
  else (List.range 64).map fun i =>
    let es := (List.range 32).map fun k => let l := nth (0, false) src (2 * k + i / 32); (elemOf 16 l.1 (i % 32), l.2)
    (packElems 16 (es.map (·.1)), es.any (·.2))

/-- OLD (R208). When its SCRATCH_HOLE record and the mark in CHKI appear is not said: at strand time issue + 20, while the slot is
complete at issue + 20 in matrix time (DESIGN CHOICE, log 114). -/
def execOld (f : BitVec 4) (a x : BitVec 6) (t : Bool) (s : State) : Out :=
  issueWith (.old f a x t) s (fun s =>
    let k := s.myCore
    let o := a.toNat
    let off := s.srcPeek x
    { holds := firstOf [touchWhile (k.loading o || k.reading o),
        s.lineHold ((s.scratchLines off.toNat 64).filterMap id) [], busyWhile (k.mtime < k.loaderUntil)]
      faults := if off.toNat % 64 ≠ 0 then some (faultWith misalignedCode alignReason off) else s.slotCheck o }) fun s =>
    let p := s.src x
    let s := p.2
    let ls := s.scratchLines p.1.1.toNat 64
    let src := s.myCore.readLines ls
    let s := s.result 20 .none (p.1.2 || src.any (·.2)) (s.holeRecord ls)
    s.modMyCore fun k =>
      let w := k.slot a.toNat
      let load := (oldLines src t).zipIdx.map fun q =>
        { off := slotAddr k.part a.toNat + 64 * q.2, data := q.1.1, mask := BitVec.allOnes 64, mark := q.1.2 || p.1.2 : PoolLine }
      { k with
        slots := put Slot.reset k.slots a.toNat { w with loadUntil := k.mtime + 20, load := load }
        loaderUntil := k.mtime + 16 }

/-- OPERAND_LOAD_COMPLETE (R208): the slot is complete at issue + 20. -/
def execOperandLoadComplete (c o : Nat) (s : State) : Out :=
  let k := s.core c
  if (k.slot o).load.isEmpty || k.loading o then .next s
  else
    let w := { k.slot o with load := [] }
    let w := if w.holder.isNone && !k.reading o then Slot.reset else w
    .next (s.setCore c { k.landLines (k.slot o).load with slots := put Slot.reset k.slots o w })

def execSld (o a : BitVec 6) (i : BitVec 14) (s : State) : Out :=
  let off := fun (s : State) => s.srcPeek a + zext64 i * 256
  issueWith (.sld o a i) s (fun s =>
    { holds := s.lineHold ((s.scratchLines (off s).toNat 4).filterMap id) []
      faults := if (off s).toNat % 64 ≠ 0 then some (faultWith misalignedCode alignReason (off s)) else s.slotCheck o.toNat }) fun s =>
    let p := s.src a
    let ls := p.2.scratchLines (p.1.1 + zext64 i * 256).toNat 4
    let src := p.2.myCore.readLines ls
    let v := BitVec.ofNat 2048 (ofBytes (src.flatMap fun l => lineBytes l.1))
    p.2.result 24 (.scale o.toNat v) (p.1.2 || src.any (·.2)) (p.2.holeRecord ls)

/-! ## The slot table (R199, R200) -/

/-- Entry e belongs to strand n or is open. Node strands alone claim entries: a launch has started them. -/
def Core.mayUse (k : Core) (e n : Nat) : Bool :=
  match (List.range (partStrands k.part)).find? fun i =>
      (k.strand i).launch.isSome && (k.strand i).mode != .inactive && (k.strand i).ctl.mslot.getLsbD e with
  | some i => i == n
  | none => true

/-- A multiply of occupancy D of strand n may start at matrix time m. -/
def Core.mayStart (k : Core) (n D m : Nat) : Bool :=
  let C := k.counter m
  k.arrayUntil ≤ m && k.mayUse (C / 64 % 16) n && C % 64 + D ≤ 64

/-- The bundle starts now, holds because a start lies less than 64 cycles ahead, or blocks with MATRIX_SLOT (R200). -/
def Core.matrixWait (k : Core) (n D : Nat) : Option Nat := (List.range 64).find? fun i => k.mayStart n D (k.mtime + i)

/-- MATRIX_SLOT_WAKE (R200): at a team's return, when C restarts, and else two cycles before the start of an entry that belongs to the strand or is open. -/
def Core.matrixWakes (k : Core) (n : Nat) : Bool :=
  let C := k.counter (k.mtime + 2)
  (k.strand n).mode == .blocked && (k.strand n).wait.reason == waitMatrix &&
    (k.resumed.isSome || (C % 64 == 0 && k.mayUse (C / 64 % 16) n))

def execMatrixSlotWake (c n : Nat) (s : State) : Out := .next (if (s.core c).matrixWakes n then s.wake c n else s)

/-! ## Multiplies (R203 to R206) -/

/-- An operand as values: 64 lines of K elements in a format (R192). -/
def operandVals (f K : Nat) (ls : List (Line × Bool)) : List (List Val) :=
  ls.map fun l => (List.range K).map fun k => efcDecode f (elemOf (efcWidth f) l.1 k)

/-- One element without scales (R81). -/
def macPlain (c : Val) (a b : List Val) : Nat × Events :=
  let ps := (a.zip b).map fun p => p.1.mul p.2
  accumulate (c.isNan || a.any Val.isNan || b.any Val.isNan) (c :: ps)

/-- The exponent of a scale code; a 16-bit operand takes 0 (R76). None for 0xFF. -/
def scaleExp (f code : Nat) : Option Int :=
  if f = 1 ∨ f = 2 then some 0 else if code = 0xFF then none else some ((code : Int) - 127)

/-- One element with block scales (R82, R204): `sa` and `sb` are the codes of the blocks. -/
def macScaled (f g : Nat) (c : Val) (a b : List Val) (sa sb : List Nat) : Nat × Events :=
  let blocks := (chunksOf 32 a.length (a.zip b)).zipIdx.map fun p =>
    match scaleExp f (nth 0 sa p.2), scaleExp g (nth 0 sb p.2) with
    | some x, some y => some ((exactSum .rne (p.1.map fun q => q.1.mul q.2)).shift (x + y))
    | _, _ => none
  if blocks.any Option.isNone then (fmtF32.nan, Events.none)
  else accumulate (c.isNan || a.any Val.isNan || b.any Val.isNan) (c :: blocks.filterMap id)

/-- The tile elements of a multiply, row by row, with marks and events (R204). -/
def multiplyElems (f g K kl rows cols : Nat) (scaled : Bool) (start : Nat → Nat → Nat × Bool) (a b : List (Line × Bool))
    (sa sb : List Byte) : List (List (Nat × Bool × Events)) :=
  let av := (operandVals f K a).map fun r => r.take (kl + 1)
  let bv := (operandVals g K b).map fun r => r.take (kl + 1)
  let code := fun (t : List Byte) (i : Nat) => ((t.drop (i * (K / 32))).take (K / 32)).map BitVec.toNat
  (List.range (rows + 1)).map fun i => (List.range (cols + 1)).map fun j =>
    let c := start i j
    let x := nth [] av i
    let y := nth [] bv j
    let r := if scaled then macScaled f g (fmtF32.decode c.1) x y (code sa i) (code sb j) else macPlain (fmtF32.decode c.1) x y
    (r.1, c.2 || (nth (0, false) a i).2 || (nth (0, false) b j).2, r.2)

/-- Rows of tile elements as line writes: 16 elements a line. -/
def elemLines (base : Nat) (rows : List (List (Nat × Bool))) : List PoolLine :=
  rows.zipIdx.flatMap fun r => (chunksOf 16 4 r.1).zipIdx.map fun l =>
    { off := base + 256 * r.2 + 64 * l.2, data := packElems 32 (l.1.map (·.1)), mask := BitVec.ofNat 64 (2 ^ (4 * l.1.length) - 1)
      mark := l.1.any (·.2) : PoolLine }

/-- The scale buffer of a slot (R194). -/
def Core.scaleBuffer (k : Core) (o : Nat) : List Byte := readBytes k.scale (256 * o) 256

/-- A multiply: it starts at the cycle of its issue and takes everything it reads as it stands there. -/
def multiply (i : Instr) (f g : BitVec 4) (a b : BitVec 6) (t : BitVec 5) (ra rb zero scaled : Bool) (s : State) : Out :=
  let kd := (pairOf f.toNat g.toNat).getD (32, 64)
  issueWith i s (fun s =>
    let k := s.myCore
    let w := k.matrixWait s.issue.strand kd.2
    { blocks := if w.isNone then some (blockFor waitMatrix) else none
      holds := firstOf [touchWhile (k.loading a.toNat || k.loading b.toNat || k.portPending t.toNat || k.amovReading t.toNat),
        busyWhile (w != some 0)]
      faults := firstOf [s.slotCheck a.toNat, s.slotCheck b.toNat, s.tileCheck t.toNat] }) fun s =>
    let k := s.myCore
    let n := s.issue.strand
    let lines := fun (o : BitVec 6) => (List.range 64).map fun i => k.line (slotAddr k.part o.toNat + 64 * i)
    let la := lines a
    let lb := lines b
    let old := k.tileChained t.toNat
    let uses := fun (f : BitVec 4) (o : BitVec 6) => f != 1 && f != 2 && k.scaleMarks.contains o.toNat
    let sm := scaled && (uses f a || uses g b)
    let es := multiplyElems f.toNat g.toNat kd.1 (min s.me.geoKlim.toNat (kd.1 - 1)) s.me.geoRows.toNat s.me.geoCols.toNat scaled
      (fun i j => if zero then (0, sm) else let c := tileElem old i j; (c.1, c.2 || sm)) la lb
      (k.scaleBuffer a.toNat) (k.scaleBuffer b.toNat)
    let m : Multiply :=
      { strand := n, start := k.mtime, tile := t.toNat
        lines := elemLines (tileAddr k.part t.toNat) (es.map fun r => r.map fun e => (e.1, e.2.1))
        recs := blockRecords s.issue.addr 12 (countEvents (es.flatMap fun r => r.map (·.2.2))) (zext64 t)
        mark := sm || s.me.geoMark || la.any (·.2) || lb.any (·.2) || es.any fun r => r.any (·.2.1) }
    s.modMyCore fun k =>
      let until_ := k.mtime + kd.2
      let keep := fun (k : Core) (o : BitVec 6) =>
        { k with slots := put Slot.reset k.slots o.toNat { k.slot o.toNat with readsUntil := until_ } }
      let k := keep (keep { k with mults := k.mults ++ [m], arrayUntil := until_ } a) b
      let k := if ra then k.releaseSlot a.toNat else k
      if rb && !(ra && a == b) then k.releaseSlot b.toNat else k

def execMma (f g : BitVec 4) (a b : BitVec 6) (t : BitVec 5) (rb ra : Bool) (s : State) : Out :=
  multiply (.mma f g a b t rb ra) f g a b t ra rb false false s
def execMmaz (f g : BitVec 4) (a b : BitVec 6) (t : BitVec 5) (rb ra : Bool) (s : State) : Out :=
  multiply (.mmaz f g a b t rb ra) f g a b t ra rb true false s
def execMmas (f g : BitVec 4) (a b : BitVec 6) (t : BitVec 5) (rb ra : Bool) (s : State) : Out :=
  multiply (.mmas f g a b t rb ra) f g a b t ra rb false true s
def execMmasz (f g : BitVec 4) (a b : BitVec 6) (t : BitVec 5) (rb ra : Bool) (s : State) : Out :=
  multiply (.mmasz f g a b t rb ra) f g a b t ra rb true true s

/-- MMA_RESULT (R205): the oldest multiply of a core whose results are due lands; its records and its consumption reach its
strand. -/
def execMmaResult (c : Nat) (s : State) : Out :=
  let k := s.core c
  match k.mults with
  | [] => .next s
  | m :: rest =>
    if k.mtime < m.start + 200 then .next s
    else
      .next ((s.setCore c { k.landLines m.lines with mults := rest }).modStrand c m.strand fun t =>
        (if m.mark then t.consume else t).appendAll m.recs)

/-! ## The accumulator port (R209) -/

/-- Work of the port. -/
def State.portWork (s : State) (busy : Nat) (w : TileWork) : State :=
  s.modMyCore fun k => { k with tileWork := k.tileWork ++ [w], portUntil := k.mtime + busy }

def execAclr (t : BitVec 5) (s : State) : Out :=
  issueWith (.aclr t) s (fun s =>
    let k := s.myCore
    { holds := firstOf [touchWhile (k.portPending t.toNat), busyWhile (k.mtime < k.portUntil)], faults := s.tileCheck t.toNat }) fun s =>
    let k := s.myCore
    let zeros := (List.range 256).map fun i =>
      { off := tileAddr k.part t.toNat + 64 * i, data := 0, mask := BitVec.allOnes 64, mark := false : PoolLine }
    s.portWork 4 { strand := s.issue.strand, tile := t.toNat, start := k.mtime, until_ := k.mtime + 4, reads := false, lines := zeros,
                   recs := [], mark := false }

def execAadd (x t : BitVec 5) (s : State) : Out :=
  issueWith (.aadd x t) s (fun s =>
    let k := s.myCore
    { holds := firstOf [touchWhile (k.portPending t.toNat || k.portPending x.toNat || k.multPending t.toNat || k.multPending x.toNat),
        busyWhile (k.mtime < k.portUntil)]
      faults := (s.tileCheck t.toNat).or (s.tileCheck x.toNat) }) fun s =>
    let k := s.myCore
    let a := k.tileLines t.toNat
    let b := k.tileLines x.toNat
    let es := (List.range 64).map fun i => (List.range 64).map fun j =>
      let u := tileElem a i j
      let v := tileElem b i j
      let x := fmtF32.decode u.1
      let y := fmtF32.decode v.1
      let r := fmtF32.result .rne (x.isNan || y.isNan) (Val.add .rne x y)
      (r.1, u.2 || v.2, r.2)
    s.portWork 64
      { strand := s.issue.strand, tile := t.toNat, start := k.mtime, until_ := k.mtime + 70, reads := false
        lines := elemLines (tileAddr k.part t.toNat) (es.map fun r => r.map fun e => (e.1, e.2.1))
        recs := blockRecords s.issue.addr 12 (countEvents (es.flatMap fun r => r.map (·.2.2))) (zext64 t)
        mark := a.any (·.2) || b.any (·.2) }

/-- The scratchpad lines that AMOV writes: 64 rows of 64 elements. -/
def State.amovLines (s : State) (f : BitVec 4) (off : Nat) : List (Option Nat) := s.scratchLines off (8 * efcWidth f.toNat)

def execAmov (f : BitVec 4) (x : BitVec 6) (t : BitVec 5) (s : State) : Out :=
  issueWith (.amov f x t) s (fun s =>
    let k := s.myCore
    let off := s.srcPeek x
    { holds := firstOf [touchWhile (k.portPending t.toNat || k.multPending t.toNat),
        s.lineHold [] ((s.amovLines f off.toNat).filterMap id), busyWhile (k.mtime < k.portUntil)]
      faults := if off.toNat % 64 ≠ 0 then some (faultWith misalignedCode alignReason off) else s.tileCheck t.toNat }) fun s =>
    let p := s.src x
    let s := p.2
    let k := s.myCore
    let w := efcWidth f.toNat
    let tl := k.tileLines t.toNat
    let es := (List.range 64).map fun i => (List.range 64).map fun j =>
      let u := tileElem tl i j
      let r := efcConv f.toNat (RMode.ofBits s.me.ctl.rmode) (fmtF32.decode u.1)
      (r.1, u.2, r.2)
    let ls := s.amovLines f p.1.1.toNat
    let rm := s.ctlMark (Instr.amov f x t).controls
    -- line l of the image holds elements of row l / (w / 8)
    let per := 512 / w
    let data := (chunksOf per ls.length es.flatten).zip ls
    let writes := data.zipIdx.filterMap fun q => q.1.2.map fun off =>
      { due := k.mtime + q.2 * per / 64 + 6, strand := s.issue.strand, seq := k.issued, off := off, data := packElems w (q.1.1.map (·.1))
        mask := BitVec.allOnes 64, mark := q.1.1.any (fun e => e.2.1) || p.1.2 || rm : PoolWrite }
    let s := s.portWork 64
      { strand := s.issue.strand, tile := t.toNat, start := k.mtime, until_ := k.mtime + 70, reads := true, lines := []
        recs := s.holeRecord ls ++ blockRecords s.issue.addr 12 (countEvents (es.flatMap fun r => r.map (·.2.2))) (zext64 t)
        mark := p.1.2 || tl.any (·.2) || rm }
    s.modMyCore fun k => { k with poolWrites := k.poolWrites ++ writes }

/-- ACCUMULATOR_PORT_COMPLETE (R209): the oldest work of the port that is due ends. -/
def execAccumulatorPortComplete (c : Nat) (s : State) : Out :=
  let k := s.core c
  match k.tileWork.find? fun w => w.until_ ≤ k.mtime with
  | none => .next s
  | some w =>
    .next ((s.setCore c { k.landLines w.lines with tileWork := k.tileWork.erase w }).modStrand c w.strand fun t =>
      (if w.mark then t.consume else t).appendAll w.recs)

/-! ## MGEO (R202) -/

def execMgeo (x : BitVec 6) (s : State) : Out :=
  issuePlain (.mgeo x) s fun s =>
    let p := s.src x
    let v := p.1.1
    p.2.result 1 (.geometry (v.extractLsb' 0 6) (v.extractLsb' 8 6) (v.extractLsb' 16 7)) p.1.2

end Sys2Proof.Machine
end

