-- ==== Sys2Proof/Machine/Eddy.lean ====
section
/-!
DEFINITION. The instructions of slot CY (R212 to R239). Work is admitted with what it will write; EDDY_WORK_COMPLETE ends it
in Eddy time, which is the core's matrix time (R225). What a work reads is taken at its issue: the early touches of R226 keep
its files and lines unchanged until their read cycles.
-/

set_option Elab.async false
namespace Sys2Proof.Machine

/-! ## Files and waits (R213, R226) -/

/-- A work's pending write of a file, its clearing included. -/
def EddyWork.writes (w : EddyWork) (now f : Nat) : Bool :=
  (w.file == f && w.value.isSome && now < w.until_) || (w.clearFile == some f && now < w.clearAt)

/-- A pending write that a stream into the file follows. -/
def EddyWork.chains (w : EddyWork) (f : Nat) : Bool := w.streams && w.file == f && w.clearFile != some f

/-- A syllable that names a file waits for its pending writes; a stream into it waits for those of other kinds alone. -/
def Core.triWritten (k : Core) (f : Nat) (stream : Bool) : Bool :=
  k.eddy.any fun w => w.writes k.eddyTime f && !(stream && w.chains f)

/-- Reads of a file by an admitted CYAPPLY or CYRD are pending. -/
def Core.triRead (k : Core) (f : Nat) : Bool := k.eddy.any fun w => w.readFile == some f && k.eddyTime < w.readFileUntil

/-- The file as a stream that issues now finds it: after every earlier stream into it (R229). -/
def Core.triChained (k : Core) (f : Nat) : Tri :=
  k.eddy.foldl (fun t w => if w.file = f ∧ w.streams then w.value.getD t else t) (k.tri f)

/-- The precision of the issuing strand: 1 HALF, 0 FULL. -/
def State.eddyP (s : State) : Nat := if s.me.ctl.half then 1 else 0

/-- Admission of a work. -/
def State.addEddy (s : State) (w : EddyWork) : State := s.modMyCore fun k => { k with eddy := k.eddy ++ [w] }

/-- A work of the issuing strand that writes no file and reads nothing, until a time. -/
def State.plainWork (s : State) (until_ : Nat) : EddyWork :=
  { strand := s.issue.strand, streams := false, file := 0, value := none, clearFile := none, clearAt := 0, readFile := none,
    readFileUntil := 0, readLines := [], admits := 0, stopped := none, until_ := until_, steps := [], start := 0, every := 0, tail := 0, flags := 0, recs := [], mark := false }

/-- Counts by event code, rising; zero counts are left out. -/
def eventCounts (es : List (Nat × Nat)) : List (Nat × Nat) := es.foldl (fun a e => if e.2 = 0 then a else put 0 a e.1 e.2) []

/-- The records of an Eddy instruction: slot 13, detail the file, or 0xFF (R238). -/
def State.eddyRecords (s : State) (es : List (Nat × Nat)) (file : Nat) : List StatRecord :=
  blockRecords s.issue.addr 13 (eventCounts es) (BitVec.ofNat 64 file)

/-- Sticky bits by NONFIN, GSAT, SING, OVF (R224). -/
def stickyBits (nonfin gsat sing ovf : Bool) : BitVec 4 :=
  BitVec.ofNat 4 ((if nonfin then 1 else 0) + (if gsat then 2 else 0) + (if sing then 4 else 0) + (if ovf then 8 else 0))

def Ctl.stick (k : Ctl) (f : BitVec 4) : Ctl :=
  { k with nonfin := k.nonfin || f.getLsbD 0, gsat := k.gsat || f.getLsbD 1, sing := k.sing || f.getLsbD 2,
           ovf := k.ovf || f.getLsbD 3 }

/-- MISALIGNED of a scratchpad offset (R227). -/
def offsetFault (v : Word) : Option Verdict := if v.toNat % 64 ≠ 0 then some (faultWith misalignedCode alignReason v) else none

/-- Lines in the hole. -/
def holesIn (ls : List (Option Nat)) : Nat := (ls.filter Option.isNone).length

/-! ## CYMODE (R223) -/

def execCymode (g p : Bool) (s : State) : Out := issuePlain (.cymode g p) s fun s => s.result 1 (.eddyMode p g)

/-! ## Streams (R229, R230) -/

/-- Rows of 32 elements from lines: F32 rows of two lines, BF16 rows of one. -/
def rowsOfLines (bf16 : Bool) (ls : List (Line × Bool)) : List (List Val) :=
  if bf16 then ls.map fun l => (elemsOf 16 l.1).map fmtBF16.decode
  else (chunksOf 2 ls.length ls).map fun p => (p.flatMap fun l => elemsOf 32 l.1).map fmtF32.decode

/-- Rows streamed into a file with their events: the new rows, events, rows skipped (R229). -/
def streamVals (p : Nat) (defer : Bool) (rows : List TriRow) (vs : List (List Val)) : List TriRow × RowEvents × Nat :=
  vs.foldl (fun (a : List TriRow × RowEvents × Nat) v =>
    match rowOfVals p v a.2.1 with
    | none => (a.1, a.2.1, a.2.2 + 1)
    | some x => let r := streamRow p defer a.1 x.1 x.2; (r.1, r.2, a.2.2)) (rows, ⟨0, []⟩, 0)

/-- The file after each row of a stream, with a poison mark. -/
def streamSteps (p : Nat) (defer : Bool) (rows : List TriRow) (poison : Bool) (vs : List (List Val)) : List Tri :=
  (vs.foldl (fun (a : List TriRow × List Tri) v =>
    let r := (streamVals p defer a.1 [v]).1
    (r, a.2 ++ [triOf r poison])) (rows, [])).2

/-- The rows of CYQR: bits(xb, 12, 0). -/
def cyqrRows (v : Word) : Nat := v.toNat % 8192

/-- The lines of a CYQR, in order. -/
def State.cyqrLines (s : State) (off count : Nat) (bf16 : Bool) : List (Option Nat) :=
  s.scratchLines off (if bf16 then count else 2 * count)

def execCyqr (t : BitVec 2) (a b : BitVec 6) (f : Bool) (s : State) : Out :=
  issueWith (.cyqr t a b f) s (fun s =>
    let k := s.myCore
    let off := s.srcPeek a
    let ls := s.cyqrLines off.toNat (cyqrRows (s.srcPeek2 a b)) f
    { holds := firstOf [touchWhile (k.triWritten t.toNat true), s.lineHold (ls.filterMap id) [], busyWhile (k.eddyTime < k.triUntil)]
      faults := offsetFault off }) fun s =>
    let r := s.src2 a b
    let s := r.2
    let k := s.myCore
    let p := s.eddyP
    let count := cyqrRows r.1.2.1
    let ls := s.cyqrLines r.1.1.toNat count f
    let src := k.readLines ls
    let old := k.triChained t.toNat
    let mark := r.1.2.2 || src.any (·.2)
    let n := streamVals p s.me.ctl.defer old.rows (rowsOfLines f src)
    let per := if f then 1 else 2
    let w := s.plainWork (if count = 0 then k.mtime + 1 else k.mtime + 4 + (count - 1) * eddyI p + 32 * eddyS p)
    let s := s.addEddy { w with
      streams := true
      admits := k.mtime + eddyI p * count
      file := t.toNat
      value := if count = 0 then none else some (triOf n.1 (old.poison || mark))
      steps := streamSteps p s.me.ctl.defer old.rows (old.poison || mark) (rowsOfLines f src)
      start := k.mtime
      every := eddyI p
      tail := 4 + 32 * eddyS p
      readLines := ls.zipIdx.filterMap fun l => l.1.map fun o => (o, k.mtime + l.2 / per * eddyI p)
      flags := stickyBits (n.2.2 != 0) (!n.2.1.gsat.isEmpty) false (n.2.1.ovf != 0)
      recs := s.eddyRecords [(1, n.2.1.ovf), (5, n.2.2), (7, holesIn ls), (9, n.2.1.gsat.length)] t.toNat
      mark := mark }
    s.modMyCore fun k => { k with triUntil := k.mtime + eddyI p * count }

/-- The first row and the count of CYAPPLY (R230). -/
def cyapplyRange (a b : Word) : Nat × Nat := (a.toNat % 32, min (b.toNat % 64) (32 - a.toNat % 32))

def execCyapply (t u : BitVec 2) (a b : BitVec 6) (keep : Bool) (s : State) : Out :=
  issueWith (.cyapply t u a b keep) s (fun s =>
    let k := s.myCore
    { holds := firstOf [touchWhile (k.triWritten t.toNat true || k.triWritten u.toNat false
          || (!keep && (k.triRead t.toNat || k.triRead u.toNat))), busyWhile (k.eddyTime < k.triUntil)] }) fun s =>
    let r := s.src2 a b
    let s := r.2
    let k := s.myCore
    let p := s.eddyP
    let f := cyapplyRange r.1.1 r.1.2.1
    let count := f.2
    let src := k.tri u.toNat
    let old := k.triChained t.toNat
    let n := streamRows p s.me.ctl.defer old.rows ((src.rows.drop f.1).take count) ⟨0, []⟩
    let mark := count != 0 && (src.poison || r.1.2.2)
    let lastRead := k.mtime + (count - 1) * eddyI p + 1
    let w := s.plainWork (if count = 0 then k.mtime + 1 else k.mtime + 4 + (count - 1) * eddyI p + 32 * eddyS p)
    let s := s.addEddy { w with
      streams := true
      admits := k.mtime + eddyI p * count
      file := t.toNat
      value := if count = 0 then none else some (triOf n.1 (old.poison || mark))
      steps := (((src.rows.drop f.1).take count).foldl (fun (a : List TriRow × List Tri) x =>
        let r := (streamRows p s.me.ctl.defer a.1 [x] ⟨0, []⟩).1
        (r, a.2 ++ [triOf r (old.poison || mark)])) (old.rows, [])).2
      start := k.mtime
      every := eddyI p
      tail := 4 + 32 * eddyS p
      clearFile := if keep || count == 0 then none else some u.toNat
      clearAt := lastRead
      readFile := if count = 0 then none else some u.toNat
      readFileUntil := lastRead
      flags := stickyBits false (!n.2.gsat.isEmpty) false (n.2.ovf != 0)
      recs := s.eddyRecords [(1, n.2.ovf), (9, n.2.gsat.length)] t.toNat
      mark := mark }
    s.modMyCore fun k => { k with triUntil := k.mtime + eddyI p * count }

/-! ## Images (R228, R231 to R233) -/

/-- Every row compensated in place (R231). -/
def settleAll (p : Nat) (t : Tri) : Tri × Nat :=
  let rs := t.rows.map fun r => let w := r.times (gainOf (eddyN r.g) r.c); ({ w.1 with c := 0, g := p }, w.2)
  (triOf (rs.map (·.1)) t.poison, (rs.filter (·.2)).length)

def execCyrd (t : BitVec 2) (a : BitVec 6) (c : Bool) (f : BitVec 2) (s : State) : Out :=
  issueWith (.cyrd t a c f) s (fun s =>
    let k := s.myCore
    let off := s.srcPeek a
    { holds := firstOf [touchWhile (k.triWritten t.toNat false), s.lineHold [] ((s.scratchLines off.toNat (imageLines f)).filterMap id),
        busyWhile (k.mtime < k.filePortUntil)]
      faults := offsetFault off }) fun s =>
    let r := s.src a
    let s := r.2
    let k := s.myCore
    let tri := k.tri t.toNat
    let n := imageLines f
    let ls := s.scratchLines r.1.1.toNat n
    let im := imageOf f tri
    let data := (chunksOf 64 n im.1).map lineOf
    -- the last line of a RAW image holds 64 bytes: exponents and counts; nothing beyond them belongs to it (R228)
    let writes := (data.zip ls).zipIdx.filterMap fun q => q.1.2.map fun off =>
      { due := k.mtime + 8 + q.2, strand := s.issue.strand, seq := k.issued, off := off, data := q.1.1, mask := BitVec.allOnes 64
        mark := tri.poison || r.1.2, eddy := true : PoolWrite }
    let inPlace := settleAll s.eddyP tri
    let w := s.plainWork (k.mtime + 8 + (n - 1))
    let s := s.addEddy { w with
      file := t.toNat
      value := if c then some inPlace.1 else none
      readFile := some t.toNat
      readFileUntil := k.mtime + n
      flags := stickyBits false false false (c && inPlace.2 != 0)
      recs := s.eddyRecords (im.2 ++ [(7, holesIn ls)] ++
        (if c && inPlace.2 != 0 then [(1, look 0 im.2 1 + inPlace.2)] else [])) t.toNat
      mark := tri.poison || r.1.2 }
    s.modMyCore fun k => { k with poolWrites := k.poolWrites ++ writes, filePortUntil := k.mtime + n }

def execCywr (t : BitVec 2) (a : BitVec 6) (f : BitVec 2) (s : State) : Out :=
  issueWith (.cywr t a f) s (fun s =>
    let k := s.myCore
    let off := s.srcPeek a
    { holds := firstOf [touchWhile (k.triWritten t.toNat false || k.triRead t.toNat),
        s.lineHold ((s.scratchLines off.toNat (imageLines f)).filterMap id) [], busyWhile (k.mtime < k.filePortUntil)]
      faults := offsetFault off }) fun s =>
    let r := s.src a
    let s := r.2
    let k := s.myCore
    let n := imageLines f
    let ls := s.scratchLines r.1.1.toNat n
    let src := k.readLines ls
    let clean := !src.any (·.2)
    let rows : List (TriRow × Bool × Bool) :=
      if f = 2 then (rawRows (src.flatMap fun l => lineBytes l.1)).map fun r => (r.1, r.2, false)
      else (rowsOfLines (f == 1) src).zipIdx.map fun v =>
        match rowOfVals s.eddyP (List.replicate v.2 (.fin false 0 0) ++ v.1.drop v.2) ⟨0, []⟩ with
        | some x => (x.1, x.2.ovf != 0, false)
        | none => (TriRow.reset, false, true)
    let ovf := (rows.filter fun r => r.2.1).length
    let bad := (rows.filter fun r => r.2.2).length
    let w := s.plainWork (k.mtime + 8 + n)
    let s := s.addEddy { w with
      file := t.toNat
      value := some (triOf (rows.map (·.1)) !clean)
      readLines := ls.zipIdx.filterMap fun l => l.1.map fun o => (o, k.mtime + l.2)
      flags := stickyBits (bad != 0) false false (ovf != 0)
      recs := s.eddyRecords [(1, ovf), (5, bad), (7, holesIn ls)] t.toNat
      mark := r.1.2 || !clean }
    s.modMyCore fun k => { k with filePortUntil := k.mtime + n }

def execCyclr (t : BitVec 2) (s : State) : Out :=
  issueWith (.cyclr t) s (fun s =>
    let k := s.myCore
    { holds := firstOf [touchWhile (k.triWritten t.toNat false || k.triRead t.toNat), busyWhile (k.mtime < k.filePortUntil)] }) fun s =>
    let k := s.myCore
    let s := s.addEddy { s.plainWork (k.mtime + 2) with file := t.toNat, value := some Tri.reset }
    s.modMyCore fun k => { k with filePortUntil := k.mtime + 2 }

/-! ## CYSOLVE (R234) -/

/-- The scratchpad lines that CYSOLVE writes. -/
def State.solveLines (s : State) (off k : Nat) : List (Option Nat) := s.scratchLines off (ceilDiv (4 * k) 64)

def execCysolve (t : BitVec 2) (a b : BitVec 6) (s : State) : Out :=
  issueWith (.cysolve t a b) s (fun s =>
    let k := s.myCore
    let off := s.srcPeek2 a b
    { holds := firstOf [touchWhile (k.triWritten t.toNat false),
        s.lineHold [] ((s.solveLines off.toNat ((s.srcPeek a).toNat % 32)).filterMap id), busyWhile (k.eddyTime < k.triUntil)]
      faults := offsetFault off }) fun s =>
    let r := s.src2 a b
    let s := r.2
    let k := s.myCore
    let p := s.eddyP
    let n := r.1.1.toNat % 32
    let tri := k.tri t.toNat
    let out := solveRows (if p = 1 then 14 else 28) n tri.rows n [] []
    let ls := s.solveLines r.1.2.1.toNat n
    let due := k.mtime + (n + 1) * eddyS p + 4
    let mark := tri.poison || r.1.2.2
    let data := chunksOf 16 ls.length (out.map (·.1))
    let writes := (data.zip ls).filterMap fun q => q.2.map fun off =>
      { due := due, strand := s.issue.strand, seq := k.issued, off := off, data := packElems 32 q.1, mask := BitVec.allOnes 64, mark := mark,
        eddy := true : PoolWrite }
    let s := s.addEddy { s.plainWork due with
      flags := stickyBits false false (out.any fun o => o.2.2) false
      recs := s.eddyRecords (countEvents (out.map (·.2.1)) ++ [(7, holesIn ls)]) t.toNat
      mark := mark }
    s.modMyCore fun k => { k with poolWrites := k.poolWrites ++ writes, triUntil := k.mtime + eddyS p * (n + 1) }

/-! ## Single pairs and angles (R235 to R237) -/

/-- A result of the scalar cell at a latency: sticky bits and records with it. -/
def State.cellResult (s : State) (d : BitVec 6) (v : Nat) (latency : Nat) (mark nonfin : Bool) (es : List Events) : State :=
  let recs := s.eddyRecords (countEvents es) 0xFF
  let s := s.result latency (.x d (BitVec.ofNat 64 v)) mark recs
  let s := if nonfin then s.addEddy { s.plainWork (s.myCore.mtime + latency) with flags := stickyBits true false false false } else s
  s.modMyCore fun k => { k with cellUntil := k.mtime + eddyI s.eddyP }

/-- The checks of a syllable of the scalar cell. -/
def State.cellChecks (s : State) : Checks := { holds := busyWhile (s.myCore.mtime < s.myCore.cellUntil) }

/-- The F32 value in 32 bits of a word from a bit. -/
def f32At (v : Word) (lo : Nat) : Val := fmtF32.decode (v.toNat / 2 ^ lo % 2 ^ 32)

def notFinite (v : Val) : Bool := v.isNan || v.isInf

def execCygiv (a b d : BitVec 6) (s : State) : Out :=
  issueWith (.cygiv a b d) s State.cellChecks fun s =>
    let r := s.src2 a b
    let s := r.2
    let x := f32At r.1.1 0
    let y := f32At r.1.2.1 0
    let L := eddyN s.eddyP + 6
    if notFinite x || notFinite y then
      let v := if x.isNan || y.isNan then fmtF32.nan else fmtF32.infCode false
      s.cellResult d (v * 2 ^ 32) L r.1.2.2 true []
    else
      let g := givens s.eddyP x y
      s.cellResult d (g.1 * 2 ^ 32 + g.2.1) L r.1.2.2 false [g.2.2]

def execCyrot (a b d : BitVec 6) (s : State) : Out :=
  issueWith (.cyrot a b d) s State.cellChecks fun s =>
    let r := s.src2 a b
    let s := r.2
    let x := f32At r.1.1 0
    let y := f32At r.1.1 32
    let code := r.1.2.1.toNat % 2 ^ 32
    let L := min (code / 2 ^ 27) 26 + 6
    if notFinite x || notFinite y then
      -- an infinity without a NaN produces both NaNs (R70)
      let made : Events := { Events.none with nanProduced := !(x.isNan || y.isNan) }
      s.cellResult d (fmtF32.nan * 2 ^ 32 + fmtF32.nan) L r.1.2.2 true [made, made]
    else
      let g := rotatePair code x y
      s.cellResult d (g.2.1 * 2 ^ 32 + g.1) L r.1.2.2 false [g.2.2.1, g.2.2.2]

def execCyang (a d : BitVec 6) (c : Bool) (s : State) : Out :=
  issueWith (.cyang a d c) s State.cellChecks fun s =>
    let r := s.src a
    let s := r.2
    if !c then s.cellResult d (angleF32 (r.1.1.toNat % 2 ^ 32) 4 128) 8 r.1.2 false []
    else
      match f32At r.1.1 0 with
      | .fin sg m e => s.cellResult d (angleCode (eddyN s.eddyP) sg m e) 8 r.1.2 false []
      | _ => s.cellResult d 0 8 r.1.2 true [{ Events.none with nanToFinite := true }]

/-! ## The end of a work -/

/-- Streams into one file enter it in their order, whichever ends first (R229, R230): those before w that have not ended will
leave the file as w does. -/
def EddyWork.yields (w e : EddyWork) : EddyWork :=
  if e.streams && w.streams && e.file == w.file && e.value.isSome && w.value.isSome then { e with value := w.value } else e

/-- What a work leaves in its file: a mark that the file has received since stays, but where CYCLR or CYWR writes it (R238). -/
def EddyWork.leaves (w : EddyWork) (now t : Tri) : Tri := if w.streams || w.readFile.isSome then { t with poison := t.poison || now.poison } else t

/-- One work at an Eddy time: its clearing, and at its end its file, sticky bits and records. A work that a forced pre-emption
has stopped rests. The strand that holds the core's slot by then is its strand (DESIGN CHOICE, log 118). -/
def State.endEddy (s : State) (c : Nat) (w : EddyWork) : State :=
  let k := s.core c
  let clear := fun (k : Core) => match w.clearFile with
    | some u => if w.clearAt ≤ k.mtime && w.stopped.isNone then { k with tris := dropKey k.tris u } else k
    | none => k
  if k.mtime < w.until_ || w.stopped.isSome then
    s.modCore c fun k =>
      let k := clear k
      { k with eddy := k.eddy ++ [if w.clearAt ≤ k.mtime && w.stopped.isNone then { w with clearFile := none } else w] }
  else
    let s := s.modCore c fun k =>
      let k := clear k
      match w.value with
      | some t => { k with tris := put Tri.reset k.tris w.file (w.leaves (k.tri w.file) t), eddy := k.eddy.map w.yields }
      | none => k
    s.modStrand c w.strand fun t =>
      let t := (if w.mark then t.consume else t).appendAll w.recs
      { t with ctl := t.ctl.stick w.flags }

/-- EDDY_WORK_COMPLETE (R229 to R235): every work of a core whose clearing or end is due, in admission order. The rows left of a
resumed team's streams wait for its first bundle (R239). -/
def execEddyWorkComplete (c : Nat) (s : State) : Out :=
  let ws := (s.core c).eddy
  .next <| if (s.core c).rowsWait.isSome then s else (ws.foldl (fun s w => s.endEddy c w) (s.modCore c fun k => { k with eddy := [] }))

end Sys2Proof.Machine
end

