-- ==== Sys2Proof/Machine/Late.lean ====
section
/-!
DEFINITION. Accesses outside the own pool (R95, R116, R138 to R142, R144, R265, R270): late results, posted stores, the
re-reads of SPINW, updates of replicated pages.
-/

set_option Elab.async false
namespace Sys2Proof.Machine

/-! ## Late results (R95) -/

/-- What the answer of a load turns a result in flight into: the value to write by lane group for a gather. -/
def Pending.answer (p : Pending) (w : Write) (mark : Bool) : Pending := { p with write := w, mark := p.mark || mark, load := none }

/-- A change of the results that wait for a load, in flight or in the latches of a suspended level (R96). -/
def Strand.answerLoad (t : Strand) (id : Nat) (f : Pending → Pending) : Strand :=
  let g := fun p : Pending => if p.load = some id then f p else p
  { t with pend := t.pend.map g, frames := t.frames.map fun r => { r with pend := r.pend.map g } }

/-- A result due has not arrived. -/
def Strand.late (t : Strand) : Bool := t.pend.any fun p => p.load.isSome && p.due ≤ t.time

/-- A strand that left the core for a late result becomes READY when none is outstanding (R97, R142). -/
def State.thaw (s : State) (c n : Nat) : State :=
  let t := s.strand c n
  if (t.mode == .frozenOut || (t.mode == .blocked && t.wait.reason == waitReplica)) && !t.late then s.wake c n else s

/-- One element of a gather is read. -/
def State.readElem (s : State) (c : Nat) (l : Load) (e : KeptElem) : KeptElem × State :=
  let v := s.readOwn c l.strand l.seq e.target 4
  ({ e with val := BitVec.ofNat 32 (ofBytes v.1.1), mark := v.1.2, read := true }, v.2)

/-- The first elements of a gather that have not been read are, where they can be: as many as a free choice says, so that
others may change memory between them (R269, R271). -/
def State.readGather (s : State) (c : Nat) (l : Load) : (n : Nat) → List KeptElem → List KeptElem × State
  | _, [] => ([], s)
  | n, e :: es =>
    if e.read then let r := s.readGather c l n es; (e :: r.1, r.2)
    else match n with
      | 0 => (e :: es, s)
      | n + 1 =>
        if !s.mayRead c l.strand l.seq e.target 4 then let r := s.readGather c l (n + 1) es; (e :: r.1, r.2)
        else
          let q := s.readElem c l e
          let r := q.2.readGather c l n es
          (q.1 :: r.1, r.2)

/-- A gather goes on: some of its elements are read; it is answered once all of them are (R144, R147, R269). -/
def State.gatherOn (s : State) (c : Nat) (l : Load) : State :=
  let n := l.strand
  let left := (l.elems.filter fun e => !e.read).length
  let pick := s.draw.1 % (2 * left + 1)
  let r := s.draw.2.readGather c l (if pick = 0 then left else min pick left) l.elems
  if r.1.all (·.read) then
    let s := (r.2.modCore c fun k => { k with loads := k.loads.filter fun m => m.id != l.id }).modStrand c n fun t =>
      t.answerLoad l.id fun p => match p.write with
        | .vec lg reg _ mask => let v := gatherLine r.1 lg; p.answer (.vec lg reg v.1 mask) v.2
        | w => p.answer w false
    s.thaw c n
  else r.2.modCore c fun k => { k with loads := k.loads.map fun m => if m.id = l.id then { m with elems := r.1 } else m }

/-- LATE_RESULT (R95): a load is answered; a gather may be read element by element. -/
def execLateResult (c id : Nat) (s : State) : Out :=
  match (s.core c).loads.find? fun l => l.id == id with
  | none => .next s
  | some l =>
    let n := l.strand
    if !l.places.isEmpty && !l.places.any fun p => s.mayRead c n l.seq p l.size then .next s
    else
      let drop := fun s : State => s.modCore c fun k => { k with loads := k.loads.filter fun m => m.id != id }
      match l.kind with
      | .scalar r size signed =>
        let v := (l.got.map fun b => (b, s)).getD (s.readOwn c n l.seq l.target size)
        let s := (drop v.2).modStrand c n fun t =>
          t.answerLoad id fun p => p.answer (.x r (extendLoad size signed v.1.1)) v.1.2
        .next (s.thaw c n)
      | .spin r =>
        let v := (l.got.map fun b => (b, s)).getD (s.readOwn c n l.seq l.target 8)
        let word : Word := BitVec.ofNat 64 (ofBytes v.1.1)
        let s := (drop v.2).modStrand c n fun t =>
          match t.spin with
          | none => t.answerLoad id fun p => p.answer .none v.1.2
          | some w =>
            if spinHolds w.cond word w.cmp then { t.answerLoad id fun p => p.answer (.x r word) v.1.2 with spin := none }
            else t.answerLoad id fun p => p.answer .none v.1.2
        .next (s.thaw c n)
      | .gather => .next (s.gatherOn c l)

/-! ## SPINW (R116) -/

/-- The strand waits on a SPINW whose first read did not meet the condition. -/
def State.spinning (s : State) (c n : Nat) : Bool :=
  (s.strand c n).spin.isSome && !(s.core c).loads.any fun l => l.strand == n && (match l.kind with
    | .spin _ => true
    | _ => false)

/-- The word of a waiting SPINW as a re-read finds it, when its place can be read: like a load it sees the strand's own earlier
stores (R116, R270). -/
def State.spinWord (s : State) (c n : Nat) (w : SpinWait) : Option ((List Byte × Bool) × State) :=
  match s.resolve c w.addr .read with
  | .ok tgt _ =>
    if s.mayRead c n (s.strand c n).nextSeq tgt 8 then some (s.readOwn c n (s.strand c n).nextSeq tgt 8) else none
  | _ => none

/-- SPINW_REREAD (R116): the word is read again; a word that meets the condition is written and the strand becomes READY. A word of
the own pool waits for the writes of the core that are on their way; block stores that stand still are completed (log 12). -/
def execSpinwReread (c n : Nat) (s : State) : Out :=
  match (s.strand c n).spin with
  | none => .next s
  | some w =>
    if !s.spinning c n then .next s
    else match s.spinWord c n w with
      | none => .next (if (s.core c).owesStill then s.modCore c Core.settleStill else s)
      | some v =>
        let word : Word := BitVec.ofNat 64 (ofBytes v.1.1)
        let s := v.2.modStrand c n fun t => { t with spin := some { w with last := (v.2.core c).cycle } }
        if !spinHolds w.cond word w.cmp then .next s
        else
          let s := s.modStrand c n fun t =>
            { t with
              spin := none
              pend := t.pend ++ [{ due := t.time, seq := t.nextSeq, write := .x w.xd word, mark := v.1.2, load := none, recs := [] }] }
          .next (if (s.strand c n).mode == .blocked && (s.strand c n).wait.reason == waitSpin then s.wake c n else s)

/-! ## Posted stores (R139, R144, R265) -/

/-- A store of a core. -/
def Core.store (k : Core) (id : Nat) : Option Store := k.stores.find? fun w => w.id == id
def Core.dropStores (k : Core) (p : Store → Bool) : Core := { k with stores := k.stores.filter fun w => !p w }

/-- No access of an earlier bundle of the strand to the store's location is outstanding (R270). -/
def Core.bundleFirst (k : Core) (w : Store) : Bool :=
  !k.loadBefore w.strand w.seq w.target w.bytes.length && (k.storesBefore w.strand w.seq w.target w.bytes.length).isEmpty

/-- No earlier access of the strand to the store's location is outstanding, of its own bundle neither (R270). -/
def Core.storeFirst (k : Core) (w : Store) : Bool :=
  k.bundleFirst w
    && !k.stores.any fun v => v.strand == w.strand && v.seq == w.seq && v.id < w.id && sameLocation v.target v.bytes.length w.target w.bytes.length

/-- Nothing of the strand is ahead of a store (R270, R278). -/
def State.mayStore (s : State) (c : Nat) (w : Store) : Bool :=
  (s.core c).storeFirst w && !s.commitBefore c w.strand w.target w.bytes.length

/-- STORE_PERFORMED (R265): a store is performed at its target, or reaches staging. A store to a replicated page is performed
by its update. -/
def execStorePerformed (c id : Nat) (s : State) : Out :=
  match (s.core c).store id with
  | none => .next s
  | some w =>
    if !((s.core c).storeFirst w && (!w.holders.isEmpty || s.mayStore c w)) then .next s
    else
      let done := fun s : State => s.modCore c fun k => k.dropStores fun v => v.id == id
      match w.target, w.holders with
      | .hbm pa, h :: hs =>
        .next (done (s.stage (coreDie c) (s.teamAt c) (s.nameOf c w.strand) (h :: hs) (taskOf (h :: hs)) w.va pa w.bytes w.mark))
      | tgt, _ => if s.isReplicated tgt then .next s else .next (done (s.writeTarget tgt w.bytes w.mark))

/-! ## Replicated pages (R141) -/

/-- The stores of one update: those of one syllable to one page. -/
def Store.sameUpdate (w v : Store) : Bool :=
  v.strand == w.strand && v.seq == w.seq && v.holders.isEmpty &&
  (match w.target, v.target with
    | .hbm a, .hbm b => a / 65536 == b / 65536
    | _, _ => false)

/-- A change of the replica record of a page. -/
def State.modReplica (s : State) (page : Nat) (f : Replica → Replica) : State :=
  { s with replicas := s.replicas.map fun r => if r.home = page then f r else r }

/-- Nothing of an earlier bundle of the strand is ahead of a store of an update, whose own stores are written together, in their
order (R141, R270, R278). -/
def State.mayUpdate (s : State) (c : Nat) (w : Store) : Bool :=
  (s.core c).bundleFirst w && !s.commitBefore c w.strand w.target w.bytes.length

/-- REPLICA_UPDATE (R141): an update first locks every replica of its page, once nothing of an earlier bundle of the strand is ahead of
any of its stores (R270); at its next occurrence it writes every replica and unlocks them. Every replica holds the bytes of the home page. -/
def execReplicaUpdate (id : Nat) (s : State) : Out :=
  match s.cores.findSome? fun e => (e.2.store id).map fun w => (e.1, w) with
  | none => .next s
  | some (c, w) =>
    match w.target with
    | .hbm pa =>
      match s.replicaOf pa with
      | none => .next s
      | some r =>
        if !w.holders.isEmpty then .next s
        else if r.locked.isNone then
          if ((s.core c).stores.filter w.sameUpdate).all (s.mayUpdate c) then .next (s.modReplica r.home fun r => { r with locked := some id }) else .next s
        else if r.locked = some id then
          let ws := (s.core c).stores.filter w.sameUpdate
          let s := ws.foldl (fun s v => s.writeTarget v.target v.bytes v.mark) s
          let s := s.modCore c fun k => k.dropStores w.sameUpdate
          .next (s.modReplica r.home fun r => { r with locked := none })
        else .next s
    | _ => .next s

/-! ## A core without its strands -/

/-- The state after a meaning. -/
def State.after (s : State) (f : State → Out) : State :=
  match f s with
  | .next t => t
  | _ => s

/-- What a core waits for outside its pool is answered: its stores are performed, its loads answered (R95, R144, R265). -/
def State.serveCore (s : State) (c : Nat) : State :=
  let s := (s.core c).stores.foldl (fun s w =>
    ((s.after (execStorePerformed c w.id)).after (execReplicaUpdate w.id)).after (execReplicaUpdate w.id)) s
  (s.core c).loads.foldl (fun s l => s.after (execLateResult c l.id)) s

end Sys2Proof.Machine
end

