-- ==== Sys2Proof/Machine/Vector.lean ====
section
/-!
DEFINITION. Vector blocks (R151 to R163): the fields, intervals and latencies of every vector syllable, the operation on
one element (R165 to R168, R172, R186), and the step that a running block takes in each strand cycle: which registers it
reads, and what it writes and when.
-/

set_option Elab.async false
namespace Sys2Proof.Machine

/-! ## Timing -/

/-- Interval c and latency L (R165 to R181, R189). -/
def vectorTiming (v : VFields) : Nat × Nat :=
  let f64 := v.fmt == 3
  let isInt := 4 ≤ v.fmt
  let c2 := if f64 then 2 else 1
  let fl := if f64 then 6 else 4
  match v.op with
  | 0x01 | 0x02 => (c2, if isInt then 2 else fl)
  | 0x03 | 0x04 | 0x05 => (c2, if isInt then 3 else fl)
  | 0x06 | 0x07 | 0x08 | 0x09 | 0x15 | 0x16 | 0x23 | 0x44 | 0x48 => (c2, 2)
  | 0x0A | 0x0B => if f64 then (16, 30) else (4, 16)
  | 0x0C | 0x0D | 0x0E | 0x0F | 0x10 | 0x11 | 0x12 | 0x13 | 0x14 | 0x17 | 0x46 => (1, 2)
  | 0x30 | 0x31 | 0x32 | 0x33 | 0x34 => (1, 4)
  | 0x40 | 0x41 | 0x42 => (c2, 4)
  | 0x43 => (c2, 6)
  | 0x45 => (1, 6)
  | 0x47 => (1, 2)
  | 0x50 | 0x51 | 0x52 | 0x53 => if f64 then (8, 40) else (1, 10)
  | 0x54 | 0x55 => if f64 then (8, 48) else (2, 14)
  | 0x56 | 0x57 | 0x58 | 0x59 | 0x5A => if f64 then (16, 64) else (2, 18)
  | _ => (1, 2)

/-! ## One element -/

/-- An element of an integer format as an integer (R71). -/
def intOf (c n : Nat) : Int := if c = 7 then (n % 256 : Nat) else signedOf (efcWidth c) n

/-- The immediate of VMOVI in a format (R166). -/
def vmoviValue (c imm : Nat) : Nat :=
  let code := imm * 4 % 65536
  if c = 0 then code * 65536
  else if c = 1 ∨ c = 2 then code
  else if c = 3 then
    -- a NaN keeps its sign and its fraction, at the top of the wider one, as it does in F32
    if (fmtBF16.decode code).isNan then code / 32768 * 2 ^ 63 + 0x7FF * 2 ^ 52 + code % 128 * 2 ^ 45
    else (fmtF64.conv .rne (fmtBF16.decode code)).1
  else wrap (efcWidth c) (signedOf 14 imm)

/-- The largest integral value not above x, with the sign rules of R165. -/
def floorVal : Val → Val
  | .fin s m e =>
    if m = 0 ∨ e ≥ 0 then .fin s m e
    else
      let n : Int := if s then -(m : Int) else m
      let q := n / (2 ^ (-e).toNat : Int)
      if q = 0 then .fin s 0 0 else Val.ofUnits q 0
  | v => v

/-- wd := op(wa, wb, wd) on one element (R165, R186); `version` is the function-table version. -/
def elemOp (op c version : Nat) (rm : RMode) (a b d : Nat) : Nat × Events :=
  let w := efcWidth c
  let quiet := fun n : Nat => (n, Events.none)
  match op with
  | 0x0C => quiet (a &&& b)
  | 0x0D => quiet (a ||| b)
  | 0x0E => quiet (a ^^^ b)
  | 0x0F => quiet (2 ^ w - 1 - a)
  | 0x10 => quiet (a * 2 ^ (b % w) % 2 ^ w)
  | 0x11 => quiet (a / 2 ^ (b % w))
  | 0x12 => quiet (wrap w (signedOf w a / (2 ^ (b % w) : Int)))
  | 0x13 => quiet a
  | _ =>
    if 0x50 ≤ op then specialElem op c version a
    else match efcFmt c with
      | some f =>
        let x := f.decode a
        let y := f.decode b
        let z := f.decode d
        let nan2 := x.isNan || y.isNan
        let nan3 := nan2 || z.isNan
        match op with
        | 0x01 => f.result rm nan2 (Val.add rm x y)
        | 0x02 => f.result rm nan2 (Val.sub rm x y)
        | 0x03 => f.result rm nan2 (x.mul y)
        | 0x04 => f.result rm nan3 (Val.add rm z (x.mul y))
        | 0x05 => f.result rm nan3 (Val.add rm z (x.mul y).neg)
        | 0x06 => f.result rm nan2 (x.min y)
        | 0x07 => f.result rm nan2 (x.max y)
        | 0x08 => quiet (a % 2 ^ (w - 1))
        | 0x09 => quiet ((a + 2 ^ (w - 1)) % 2 ^ w)
        | 0x0A => f.divide rm x y
        | 0x0B => f.sqrt rm x
        | 0x15 => f.result rm x.isNan (floorVal x)
        | 0x16 => quiet (2 ^ f.classBit a)
        | _ => quiet a
      | none =>
        let x := intOf c a
        let y := intOf c b
        let z := intOf c d
        let lim := efcLimits c
        match op with
        | 0x01 => quiet (wrap w (x + y))
        | 0x02 => quiet (wrap w (x - y))
        | 0x03 => quiet (wrap w (x * y))
        | 0x04 => quiet (wrap w (z + x * y))
        | 0x05 => quiet (wrap w (z - x * y))
        | 0x06 => quiet (if x ≤ y then a else b)
        | 0x07 => quiet (if x ≥ y then a else b)
        | 0x08 => quiet (wrap w (x.natAbs : Int))
        | 0x09 => quiet (wrap w (-x))
        | 0x17 =>
          let s := x + y
          if s < lim.1 then (wrap w lim.1, { Events.none with saturation := true })
          else if s > lim.2 then (wrap w lim.2, { Events.none with saturation := true })
          else quiet (wrap w s)
        | _ => quiet a

/-! ## Masks -/

/-- The byte mask of the elements of a format whose position bits are set (R158, R159). -/
def elemMask (c : Nat) (pred : BitVec 64) : BitVec 64 :=
  let bytes := efcWidth c / 8
  BitVec.ofNat 64 ((List.range (perReg c)).foldl (fun a e => if pred.getLsbD e then a + (2 ^ bytes - 1) * 2 ^ (bytes * e) else a) 0)

/-! ## What a block writes -/

/-- One result of a step: offset of its due time from the step's time, register, value, byte mask, the steps whose registers
it is computed from, events. -/
structure BlockOut where
  latency : Nat
  lg : Nat
  reg : Nat
  val : Line
  mask : BitVec 64
  from_ : List Nat
  events : List Nat
  deriving DecidableEq, Repr

/-- Element lists of registers read by block steps. -/
def elemsOfRegs (c : Nat) (ls : List Line) : List Nat := ls.flatMap (elemsOf (efcWidth c))

/-- The elements of some lines that the predicate includes, position by position (R175, R176). -/
def included (m : Bool) (pred : BitVec 64) (c : Nat) (ls : List Line) : List Nat :=
  ls.flatMap fun l => (elemsOf (efcWidth c) l).zipIdx.filterMap fun p => if !m || pred.getLsbD p.2 then some p.1 else none

/-- The reductions of R175 over the included elements. -/
def reduceElems (op c : Nat) (rm : RMode) (es : List Nat) : Nat × Events :=
  match efcFmt c with
  | some f =>
    let vs := es.map f.decode
    match op with
    | 0x40 => f.result rm (vs.any Val.isNan) (exactSum rm vs)
    | 0x41 =>
      if vs.isEmpty then (f.infCode true, Events.none)
      else ((f.conv rm (vs.foldl Val.max .nan)).1, Events.none)
    | _ =>
      if vs.isEmpty then (f.infCode false, Events.none)
      else ((f.conv rm (vs.foldl Val.min .nan)).1, Events.none)
  | none =>
    let lim := efcLimits c
    let vs := es.map (intOf c)
    let w := efcWidth c
    match op with
    | 0x40 =>
      let s := vs.foldl (· + ·) 0
      if s < lim.1 then (wrap w lim.1, { Events.none with saturation := true })
      else if s > lim.2 then (wrap w lim.2, { Events.none with saturation := true })
      else (wrap w s, Events.none)
    | 0x41 => (wrap w (vs.foldl max lim.1), Events.none)
    | _ => (wrap w (vs.foldl min lim.2), Events.none)

/-- The largest magnitude of a quantised format (R173). -/
def quantMax (c : Nat) : Nat :=
  match c with
  | 6 => 127
  | 8 => 480
  | 9 => 114688
  | 10 => 6
  | 11 => 7
  | _ => 2

/-- The smallest s in -127 .. 127 with amax <= M x 2^s, clamped (R173). -/
def quantScale (c : Nat) (amax : Val) : Int :=
  match amax with
  | .fin _ m e =>
    if m = 0 then 0
    else
      let fits := fun s : Int => !exceeds m e (quantMax c) s
      ((List.range 255).map fun (k : Nat) => (k : Int) - 127).find? fits |>.getD 127
  | _ => 127

/-- Codes, scale code and events of one scale block (R173). -/
def quantBlock (c : Nat) (rm : RMode) (vs : List Val) : List Nat × Nat × List Nat :=
  if vs.any Val.isNan then (vs.map fun _ => if c = 12 then 0x77 else 0, 0xFF, [])
  else
    let s := quantScale c ((vs.map Val.abs).foldl Val.max (.fin false 0 0))
    let rs := vs.map fun x => efcConv c rm (x.shift (-s))
    (rs.map (·.1), (s + 127).toNat, rs.flatMap fun r => r.2.codes)

/-- Every scale block of a quantised source (R173). -/
def quantAll (c : Nat) (rm : RMode) (vs : List Val) : List (List Nat × Nat × List Nat) :=
  (chunksOf 32 vs.length vs).map (quantBlock c rm)

/-- A register from elements of a format, zero bits beyond them; for DP2, where a zero bit pattern is no zero (R74), "written as
zero" (R171) is read as zero bits, PRESUMED (log 94). -/
def packReg (c : Nat) (es : List Nat) : Line := packElems (efcWidth c) es

/-- The results that a block forms once step i has been read. -/
def Block.outs (b : Block) (count i : Nat) : List BlockOut :=
  let v := vfields b.op
  let n := b.rows * b.cols
  let rm := RMode.ofBits b.rmode
  let c := v.fmt
  let L := (vectorTiming v).2
  let mask := if v.m then elemMask c b.pred else BitVec.allOnes 64
  let full := BitVec.allOnes 64
  let now := nth [] b.srcs i
  let dst := blockReg count b.wb b.cols v.wd i
  let e := perReg c
  let one := fun (val : Line) (mask : BitVec 64) (ev : List Nat) =>
    [{ latency := L, lg := b.lg, reg := dst, val := val, mask := mask, from_ := [i], events := ev : BlockOut }]
  let every := List.range n
  match v.op with
  | 0x14 => one (packReg c (List.replicate e (vmoviValue c (v.wa * 128 + v.wb)))) mask []
  | 0x48 =>
    let rs := (List.range e).map fun k =>
      match efcFmt c with
      | some f => (f.conv rm (.fin false (i * e + k) 0)).1
      | none => (i * e + k) % 2 ^ efcWidth c
    one (packReg c rs) mask []
  | 0x23 => one (mergeLine (nth 0 now 1) (nth 0 now 0) (elemMask c b.pred)) full []
  | 0x44 =>
    let a := elemsOf (efcWidth c) (nth 0 now 0)
    let u := elemsOf (efcWidth c) (nth 0 now 1)
    one (packReg c (u.map fun k => nth 0 a (k % e))) mask []
  | 0x46 =>
    let x := elemOf (efcWidth c) (nth 0 (nth [] b.srcs 0) 0) (v.wb % e)
    [{ latency := L, lg := b.lg, reg := dst, val := packReg c (List.replicate e x), mask := mask, from_ := [0], events := [] }]
  | 0x45 =>
    [{ latency := L, lg := (b.lg + v.wb) % 8, reg := (b.target + v.wd + 32 * (i / b.cols) + i % b.cols) % count,
       val := nth 0 now 0, mask := full, from_ := [i], events := [] }]
  | 0x47 =>
    if i + 1 < n then []
    else
      let xs := b.srcs.map fun r => elemOf (efcWidth c) (nth 0 r 0) (v.wb % e)
      ((chunksOf e n xs).zipIdx).map fun p =>
        { latency := 3, lg := b.lg, reg := (b.wb + v.wd + p.2) % count, val := packReg c p.1, mask := full,
          from_ := (every.drop (p.2 * e)).take e, events := [] }
  | 0x40 | 0x41 | 0x42 =>
    if i + 1 < n then []
    else
      let r := reduceElems v.op c rm (included v.m b.pred c b.srcs.flatten)
      [{ latency := (vectorTiming v).1 + 4, lg := b.lg, reg := (b.wb + v.wd) % count, val := packReg c [r.1], mask := full,
         from_ := every, events := r.2.codes }]
  | 0x43 =>
    let before := included v.m b.pred c (b.srcs.take i).flatten
    let rs := (elemsOf (efcWidth c) (nth 0 now 0)).zipIdx.map fun p =>
      let upto := before ++ (included v.m b.pred c [nth 0 now 0 &&& BitVec.ofNat 512 (2 ^ (efcWidth c * (p.2 + 1)) - 1)]).take
        (if v.m then ((List.range (p.2 + 1)).filter fun k => b.pred.getLsbD k).length else p.2 + 1)
      if v.m && !b.pred.getLsbD p.2 then (0, Events.none) else reduceElems 0x40 c rm upto
    [{ latency := L, lg := b.lg, reg := dst, val := packReg c (rs.map (·.1)), mask := mask, from_ := List.range (i + 1),
       events := rs.flatMap fun r => r.2.codes }]
  | 0x30 | 0x31 | 0x32 | 0x33 | 0x34 =>
    let (sc, dc) := convSides v
    let es := perReg sc
    let ed := perReg dc
    if es ≤ ed then
      -- the source is a block: register j of the destination is complete once its last source register is read
      let vs := (elemsOfRegs sc b.srcs.flatten).map (efcDecode sc)
      let k := narrowCount n es ed
      let sources := fun j => (every.drop (j * ed / es)).take (max 1 (ed / es))
      let mine := if es = ed then [i] else (List.range k).filter fun j => min (n - 1) (ceilDiv ((j + 1) * ed) es - 1) = i
      if v.op = 0x31 then
        let q := quantAll dc rm vs
        let codes := q.flatMap (·.1)
        let last := if mine.contains (k - 1) then
            [{ latency := 4, lg := b.lg, reg := (b.wb + v.wd + k) % count,
               val := packElems 8 (q.map (·.2.1)), mask := full, from_ := every, events := [] : BlockOut }] else []
        (mine.map fun j =>
          let blocks := (q.drop (j * ed / 32)).take (ed / 32)
          { latency := 4, lg := b.lg, reg := if es = ed then dst else (b.wb + v.wd + j) % count,
            val := packReg dc ((codes.drop (j * ed)).take ed), mask := full, from_ := sources j, events := blocks.flatMap (·.2.2) }) ++ last
      else
        mine.map fun j =>
          let rs := ((vs.drop (j * ed)).take ed).map (efcConv dc rm)
          { latency := 4, lg := b.lg, reg := if es = ed then dst else (b.wb + v.wd + j) % count,
            val := packReg dc (rs.map (·.1)), mask := full, from_ := sources j, events := rs.flatMap fun r => r.2.codes }
    else
      -- the source is linear: elements of destination register i
      let regs := b.srcs.flatten
      let scales := if v.op = 0x32 then nth 0 regs 0 else 0
      let es' := elemsOfRegs sc (if v.op = 0x32 then regs.drop 1 else regs)
      let rs := (List.range ed).map fun k =>
        let g := i * ed + k
        let x := efcDecode sc (nth 0 es' g)
        if v.op = 0x32 then
          let s := elemOf 8 scales (g / 32)
          if s = 0xFF then efcConv dc rm .nan else efcConv dc rm (x.shift ((s : Int) - 127))
        else efcConv dc rm x
      [{ latency := L, lg := b.lg, reg := dst, val := packReg dc (rs.map (·.1)), mask := full,
         from_ := [i * ed / es * es / ed], events := rs.flatMap fun r => r.2.codes }]
  | _ =>
    let a := elemsOf (efcWidth c) (nth 0 now 0)
    let y := elemsOf (efcWidth c) (nth 0 now 1)
    let z := elemsOf (efcWidth c) (nth 0 now 2)
    let rs := (List.range e).map fun k =>
      if v.m && !b.pred.getLsbD k then (0, Events.none)
      else elemOp v.op c b.version rm (nth 0 a k) (nth 0 y k) (nth 0 z k)
    one (packReg c (rs.map (·.1))) mask (rs.flatMap fun r => r.2.codes)

/-! ## The step of a block -/

/-- The mark of a result that is computed from the registers of some steps (R348). The scales of VDEQ, the first register of
its first step, enter every result; its codes of that step enter only their own. -/
def Block.markOf (b : Block) (steps : List Nat) : Bool :=
  let dq := (vfields b.op).op == 0x32
  b.mark || (dq && nth false (nth [] b.marks 0) 0)
    || steps.any fun i => ((nth [] b.marks i).drop (if dq && i == 0 then 1 else 0)).any id

/-- A block that has steps left at a strand time. -/
def Block.due (b : Block) (now : Nat) : Bool := !b.idle && b.step < b.rows * b.cols && b.start + b.interval * b.step == now

/-- One step of a block of a strand: the registers due are read, and what they complete is put in flight. The records of the
block go with its last result (R163; log 15). -/
def State.blockStep (s : State) (c n : Nat) (b : Block) : Block × State :=
  let t := s.strand c n
  let k := s.core c
  let count := vregCount t.ctl.poolpart
  let read := fun r : Nat =>
    (b.saved.find? fun e => e.1 == r).elim ((k.vreg b.lg n r).1, (k.vreg b.lg n r).2 || t.isBad .vectorReg b.lg r) (·.2)
  if isBlockStore b.op then
    let v := read (blockReg count b.wb b.cols (blockStoreReg b.op) b.step)
    let v := (v.1, v.2 || b.mark)
    let s := match nth none b.offs b.step with
      | none => s
      | some off => s.modCore c fun k => { k with poolWrites := k.poolWrites ++
          [{ due := k.mtime + 6, strand := n, seq := b.poolSeq, off := off, data := v.1, mask := BitVec.allOnes 64, mark := v.2 }] }
    let w : Pending := { due := t.time + 1, seq := b.seq, write := .none, mark := v.2, load := none, recs := [] }
    let s := if v.2 then s.modStrand c n fun t => { t with pend := t.pend ++ [w] } else s
    ({ b with step := b.step + 1 }, s)
  else
    let vs : List (Line × Bool) := (b.reads count b.step).map read
    let b : Block := { b with srcs := b.srcs ++ [vs.map (·.1)], marks := b.marks ++ [vs.map (·.2)] }
    let outs : List BlockOut := b.outs count b.step
    let events := outs.foldl (fun (a : List (Nat × Nat)) (o : BlockOut) => addEvents a o.events) b.events
    let last := b.step + 1 == b.rows * b.cols
    let recs := if last then blockRecords b.addr b.slot events (BitVec.ofNat 64 b.lg) else []
    let ps := outs.zipIdx.map fun (p : BlockOut × Nat) =>
      ({ due := t.time + p.1.latency, seq := b.seq, write := .vec p.1.lg p.1.reg p.1.val p.1.mask,
         mark := b.markOf p.1.from_, load := none,
         recs := if p.2 + 1 = outs.length then recs else []
         check := if b.mirror then some (b.addr, BitVec.ofNat 5 (b.slot + 1)) else none } : Pending)
    ({ b with step := b.step + 1, events := events }, s.modStrand c n fun t => { t with pend := t.pend ++ ps })

/-- Every block of a strand takes the step that is due; a block that has ended leaves (R160). -/
def State.stepBlocks (s : State) (c n : Nat) : State :=
  let bs := (s.strand c n).blocks
  let r := bs.foldl (fun (a : List Block × State) b =>
    if b.due (s.strand c n).time then let q := a.2.blockStep c n b; (a.1 ++ [q.1], q.2) else (a.1 ++ [b], a.2)) ([], s)
  r.2.modStrand c n fun t => { t with blocks := r.1.filter fun b =>
    t.time + 1 < b.start + b.busyFor || (!b.idle && b.step < b.rows * b.cols) }

/-! ## Issue -/

/-- Registers that a vector block writes, as lane group and register (R37, R153, R171, R173, R175, R179, R181). -/
def Block.writes (b : Block) (count : Nat) : List (Nat × Nat) :=
  let v := vfields b.op
  let n := b.rows * b.cols
  let lin := fun (m : Nat) => (List.range m).map fun j => (b.lg, (b.wb + v.wd + j) % count)
  let blk := (List.range n).map fun i => (b.lg, blockReg count b.wb b.cols v.wd i)
  match v.op with
  | 0x45 => (List.range n).map fun i => ((b.lg + v.wb) % 8, (b.target + v.wd + 32 * (i / b.cols) + i % b.cols) % count)
  | 0x40 | 0x41 | 0x42 => lin 1
  | 0x47 => lin (ceilDiv n (perReg v.fmt))
  | 0x30 | 0x31 | 0x32 | 0x33 | 0x34 =>
    let (sc, dc) := convSides v
    let k := narrowCount n (perReg sc) (perReg dc)
    if perReg sc < perReg dc then lin (if v.op = 0x31 then k + 1 else k)
    else blk ++ (if v.op = 0x31 then [(b.lg, (b.wb + v.wd + k) % count)] else [])
  | _ => blk

/-- The block that a vector syllable starts on a lane group (R152, R159, R160, R181, R185). -/
def State.vecBlock (s : State) (i : Instr) (lg : Nat) : Block :=
  let l := s.me.lane lg
  let v := vfields i
  let b := s.newBlock i lg (vectorTiming v).1 ((vectorTiming v).1 * (l.rows * l.cols)) false
  { b with
    target := (s.me.lane ((lg + v.wb) % 8)).wb
    mark := l.wmark || (v.op == 0x45 && (s.me.lane ((lg + v.wb) % 8)).wmark) || ((v.m || v.op = 0x23) && l.pmarks.getLsbD l.mode)
      || s.ctlMark i.controls }

/-- REGISTER_UE of a predicate (R356). -/
def State.uePredicate (s : State) (ps : List (Nat × Nat)) : Option Verdict :=
  (ps.find? fun p => s.me.isBad .predicateReg p.1 p.2).map fun p => ueFault 2 p.2 p.1

/-- The lane groups that a vector syllable occupies: its own, and its mirror's (R156, R157). -/
def State.vecGroups (s : State) : List Nat :=
  slotGroups s.issue.slot ++ (if s.issue.mirrored then [s.issue.slot - 3] else [])

/-- The mirror occupies its lane group as long as the primary occupies its own (R157). -/
def State.mirrorBlock (s : State) (i : Instr) (busyFor : Nat) : State :=
  if s.issue.mirrored then s.addBlock { s.newBlock i (s.issue.slot - 3) 1 busyFor true with } else s

/-- The mode predicate of a lane group, when a syllable is masked by it. -/
def State.modePred (s : State) (masked : Bool) (lg : Nat) : List (Nat × Nat) := if masked then [(lg, (s.me.lane lg).mode)] else []

/-- A vector syllable that runs over a block (R156 to R163). -/
def vector (i : Instr) (s : State) : Out :=
  let v := vfields i
  issueWith i s (fun s =>
    let bs := (slotGroups s.issue.slot).map (s.vecBlock i)
    let regs := bs.flatMap fun b => ((List.range (b.rows * b.cols)).flatMap (b.reads s.regCount)).map fun r => (b.lg, r)
    { holds := s.laneHold s.vecGroups
      faults := (s.ueVector regs).or (s.uePredicate ((slotGroups s.issue.slot).flatMap (s.modePred (v.m || v.op = 0x23)))) }) fun s =>
    let bs := (slotGroups s.issue.slot).map (s.vecBlock i)
    bs.foldl (fun s b => (s.addBlock b).mirrorBlock i b.busyFor) s

/-- A compare (R168): single registers, a predicate at T + 2, one cycle of its lane group. -/
def compare (i : Instr) (s : State) : Out :=
  let v := vfields i
  let e := perReg v.fmt
  issueWith i s (fun s =>
    { holds := s.laneHold s.vecGroups
      faults := (s.ueVector ((slotGroups s.issue.slot).flatMap fun lg =>
          [(lg, ((s.me.lane lg).wb + v.wa) % s.regCount), (lg, ((s.me.lane lg).wb + v.wb) % s.regCount)])).or
        (s.uePredicate ((slotGroups s.issue.slot).flatMap (s.modePred v.m))) }) fun s =>
    (slotGroups s.issue.slot).foldl (fun s lg =>
      let l := s.me.lane lg
      let a := s.myVreg lg ((l.wb + v.wa) % s.regCount)
      let b := s.myVreg lg ((l.wb + v.wb) % s.regCount)
      let r := (List.range e).foldl (fun (acc : Nat) k =>
        if compareElems v.op v.fmt (elemOf (efcWidth v.fmt) a.1 k) (elemOf (efcWidth v.fmt) b.1 k) then acc + 2 ^ k else acc) 0
      let mask := if v.m then look (BitVec.allOnes 64) l.preds l.mode else BitVec.allOnes 64
      let s := s.result 2 (.pred lg (v.wd % 8) (BitVec.ofNat 64 r) mask) (a.2 || b.2 || l.wmark || (v.m && l.pmarks.getLsbD l.mode))
      (s.addBlock (s.newBlock i lg 1 1 true)).mirrorBlock i 1) s

/-- A predicate operation (R170): whole predicates, written at T + 1. -/
def predicate (i : Instr) (f : BitVec 64 → BitVec 64 → BitVec 64) (two : Bool) (s : State) : Out :=
  let v := vfields i
  issueWith i s (fun s =>
    { holds := s.laneHold s.vecGroups
      faults := s.uePredicate ((slotGroups s.issue.slot).flatMap fun lg =>
        (lg, v.wa % 8) :: (if two then [(lg, v.wb % 8)] else [])) }) fun s =>
    (slotGroups s.issue.slot).foldl (fun s lg =>
      let l := s.me.lane lg
      let get := fun k => look (BitVec.allOnes 64) l.preds k
      let mark := l.pmarks.getLsbD (v.wa % 8) || (two && l.pmarks.getLsbD (v.wb % 8))
      let s := s.result 1 (.pred lg (v.wd % 8) (f (get (v.wa % 8)) (get (v.wb % 8))) (BitVec.allOnes 64)) mark
      (s.addBlock (s.newBlock i lg 1 1 true)).mirrorBlock i 1) s

end Sys2Proof.Machine
end

