-- ==== Sys2Proof/Machine/Engine.lean ====
section
/-!
DEFINITION. Engine commands (R240 to R263), first part: the issue of queued commands, cancellation, leases, the reads and
writes that a command makes, its windows of 64 units, copies (R252 to R254), scatter-accumulate (R255), routing counters (R256).
-/

set_option Elab.async false
namespace Sys2Proof.Machine

/-! ## The descriptor of a copy (R252, R253) -/

structure CopyShape where
  src : Word
  dst : Word
  srcf : Nat
  dstf : Nat
  conv : Bool
  rnd : RMode
  counts : List Nat
  ss : List Word
  ts : List Word
  deriving DecidableEq, Repr

/-- A field of a captured descriptor. -/
def Captured.f (m : Captured) (k : Nat) : Word := look 0 m.desc k

def Captured.dims (m : Captured) : Nat := field (m.f 2).toNat 12 3
def Captured.rnd (m : Captured) : Nat := field (m.f 2).toNat 9 3

def copyShape (m : Captured) : CopyShape :=
  let w := (m.f 2).toNat
  let conv := flag w 8
  let counts := [3, 4, 5].flatMap fun k => [(m.f k).toNat % 2 ^ 32, (m.f k).toNat / 2 ^ 32]
  { src := m.f 0, dst := m.f 1, srcf := field w 0 4, dstf := if conv then field w 4 4 else field w 0 4, conv := conv
    rnd := if m.rnd = 7 then RMode.ofBits m.rmode else RMode.ofBits (BitVec.ofNat 2 m.rnd)
    counts := counts.take m.dims
    ss := (List.range (m.dims - 1)).map fun k => m.f (6 + k)
    ts := (List.range (m.dims - 1)).map fun k => m.f (11 + k) }

/-- Elements of a copy. -/
def CopyShape.total (c : CopyShape) : Nat := c.counts.foldl (· * ·) 1

/-- Index i0 of element u and the address of its row on one side. -/
def CopyShape.row (c : CopyShape) (base : Word) (strides : List Word) (u : Nat) : Nat × Word :=
  let n0 := c.counts.headD 1
  ((u % n0), ((c.counts.drop 1).zip strides).foldl (fun (a : Nat × Word) p =>
    (a.1 / p.1, a.2 + BitVec.ofNat 64 (a.1 % p.1) * p.2)) (u / n0, base) |>.2)

/-- The ranges that the rows of the destination fill: address and bytes. -/
def CopyShape.rows (c : CopyShape) : List (Word × Nat) :=
  let n0 := c.counts.headD 0
  (List.range (if n0 = 0 then 0 else c.total / n0)).map fun r =>
    ((c.row c.dst c.ts (r * n0)).2, ceilDiv (n0 * efcWidth c.dstf) 8)

/-! ## Issue (R226, R241, R242) -/

/-- The whole scratchpad of the issuing core, as a range. -/
def wholeScratch : Word × Nat := (BitVec.ofNat 64 localBase, 4194304)

/-- The ranges that a command may write, by its descriptor and registers. Which lines a core-unit SACC writes depends on its data: it may
write every line (log 99). -/
def Captured.writes (m : Captured) : List (Word × Nat) :=
  match m.op with
  | .cpy _ _ _ | .cpyst _ _ _ true _ _ => (copyShape m).rows
  | .rsnap _ _ _ => [(m.xa, 1024)]
  | .zip _ _ _ _ => [(m.f 1, (m.f 5).toNat)]
  | .unzip _ _ _ _ => [(m.f 1, 8 * (m.f 3).toNat)]
  | .qread _ _ _ => [(m.xa, 576)]
  | .sacc _ _ _ false _ => [wholeScratch]
  | _ => []

/-- A range of the own scratchpad region touches a pool line (R124). -/
def touchesLine (part : Word32) (line : Nat) (r : Word × Nat) : Bool :=
  let size := scratchMod part
  let ahead := (line + size - (r.1.toNat % 2 ^ 42 - localBase) % size) % size
  ownRegion r.1 && r.2 != 0 && (ahead < r.2 || size - ahead < 64)

/-- The core holds an engine command that writes scratchpad lines which an admitted CYQR or CYWR has not read, or to which a
write of CYRD or CYSOLVE is pending (R226). -/
def State.commandHold (s : State) (m : Captured) : Option Verdict :=
  let k := s.myCore
  let lines := (k.eddy.flatMap fun e => (e.readLines.filter fun l => k.eddyTime < l.2).map (·.1))
    ++ (k.poolWrites.filter (·.eddy)).map (·.off)
  -- a TLOAD whose image names the issuing core writes all of its pool (R263)
  let loads := match m.op with
    | .tload _ _ _ => if (maskBitsOf ((m.f 2).setWidth 16)).contains (s.logicalCluster s.issue.core) then [wholeScratch] else []
    | _ => []
  if !lines.isEmpty && (m.writes ++ loads).any fun r => lines.any fun l => touchesLine k.part l r then some (.hold false) else none

/-- The control registers that a command reads at its capture: RMODE for a copy whose rounding field names it (R242, R252). -/
def Captured.controls (m : Captured) : List Nat :=
  match m.op with
  | .cpy _ _ _ | .cpyst _ _ _ _ _ _ => if m.rnd = 7 then [0x007] else []
  | _ => []

/-- What a queued command captures at its issue (R242). -/
def State.captures (s : State) (i : Instr) (xa dep : Word) (dN : Option (BitVec 6)) : Captured :=
  { op := i, xa := xa, dep := dep, desc := (dN.map fun d => s.me.descOf d.toNat).getD [], rmode := s.me.ctl.rmode,
    addr := s.issue.addr }

/-- A command of a condemned strand is cancelled at its issue (R324, R326): its token is produced-cancelled. -/
def State.cancelNew (s : State) (id : Nat) : State := (s.modCmd id fun m => { m with status := stCancelled }).finishCmd id .cancelled

/-- A queued command: `xa` is its first register, `xb` its dependence word, `dN` its descriptor. -/
def queued (i : Instr) (xa : Option (BitVec 6)) (xb : BitVec 6) (dN : Option (BitVec 6)) (s : State) : Out :=
  issueWith i s (fun s =>
    let dep := match xa with
      | some a => s.srcPeek2 a xb
      | none => s.srcPeek xb
    let first := match xa with
      | some a => s.srcPeek a
      | none => 0
    { blocks := if 32 ≤ s.queueLength s.myDie s.myTeamIndex s.myName then some (blockFor waitEngineQueue) else none
      holds := s.commandHold (s.captures i first dep dN)
      faults := (s.myTeam.depFault dep).or ((dN.bind s.ueDescriptor).or (s.ueControls (s.captures i first dep dN).controls)) }) fun s =>
    let p := match xa with
      | some a => s.src a
      | none => ((0, false), s)
    let q := p.2.src xb
    let s := q.2
    let marked := match dN with
      | some d => s.me.descMarks.any fun k => k / 32 == d.toNat
      | none => false
    let condemned := s.me.condemned.isSome
    let m := s.captures i p.1.1 q.1.1 dN
    let r := s.newCmd m (depProduced q.1.1) (depConsumed q.1.1) condemned (p.1.2 || q.1.2 || marked || s.ctlMark m.controls)
    if condemned then r.cancelNew s.nextId else r

def execCpy (b d : BitVec 6) (c : Bool) (s : State) : Out := queued (.cpy b d c) none b (some d) s
def execCpyst (b d : BitVec 6) (c t v : Bool) (k : BitVec 3) (s : State) : Out := queued (.cpyst b d c t v k) none b (some d) s
def execSacc (b d : BitVec 6) (c m : Bool) (p : BitVec 2) (s : State) : Out := queued (.sacc b d c m p) none b (some d) s
def execRcnt (a b : BitVec 6) (c : Bool) (s : State) : Out := queued (.rcnt a b c) (some a) b none s
def execRsnap (a b : BitVec 6) (c : Bool) (s : State) : Out := queued (.rsnap a b c) (some a) b none s
def execUnlease (b : BitVec 6) (l : BitVec 2) (s : State) : Out := queued (.unlease b l) none b none s
def execZip (b d : BitVec 6) (c : Bool) (l : BitVec 2) (s : State) : Out := queued (.zip b d c l) none b (some d) s
def execUnzip (b d : BitVec 6) (c : Bool) (l : BitVec 2) (s : State) : Out := queued (.unzip b d c l) none b (some d) s
def execRepl (b d : BitVec 6) (c w : Bool) (l : BitVec 2) (s : State) : Out := queued (.repl b d c w l) none b (some d) s
def execTsave (b d : BitVec 6) (l : BitVec 2) (s : State) : Out := queued (.tsave b d l) none b (some d) s
def execTload (b d : BitVec 6) (l : BitVec 2) (s : State) : Out := queued (.tload b d l) none b (some d) s

/-- The run whose completion token is named is asked to end (R315). -/
def Team.cancelRun (t : Team) (tok : Nat) : Team :=
  { t with tiles := t.tiles.map fun e => match e.2.run with
    | some r => if r.token = tok then (e.1, { e.2 with run := some { r with cancel := true } }) else e
    | none => e }

/-- ECANCEL (R251, R315): the unfinished command or run that last named the token is asked to end. -/
def execEcancel (t : BitVec 8) (s : State) : Out :=
  issuePlain (.ecancel t) s fun s =>
    if (s.myTeam.token t.toNat).st != .pending then s
    else match (s.myTeam.token t.toNat).cmd with
      | some id => s.cancelCmds fun m => m.id == id
      | none => s.modMyTeam fun m => m.cancelRun t.toNat

/-! ## Leases (R257, R258) -/

/-- The 16 bulk engines of a die; a free one, the lowest. -/
def Die.freeEngine (k : Die) : Option Nat := (List.range 16).find? fun e => (seek k.engines e).isNone

/-- The period of LEASE in cycles: 0 means 1,000 us, values above 16,000 mean 16,000 us. -/
def leasePeriod (v : Word) : Nat := 1700 * (if v = 0 then 1000 else min v.toNat 16000)

/-- A lease of a team. -/
def Team.lease (t : Team) (l : Nat) : Lease := look Lease.reset t.leases l

/-- An engine is bound to a lease for its time left. -/
def State.bindLease (s : State) (d t l e : Nat) : State :=
  let s := s.modDie d fun k => { k with engines := ins k.engines e (t, l) }
  s.modTeam d t fun m => { m with leases := ins m.leases l { m.lease l with engine := some e, held := 0, requested := false } }

/-- The engine of a lease is returned and the time held is charged (R257). -/
def State.returnLease (s : State) (d t l : Nat) : State :=
  match ((s.team d t).lease l).engine with
  | none => s
  | some e =>
    let s := s.modDie d fun k => { k with engines := dropKey k.engines e }
    s.modTeam d t fun m =>
      { m with
        leaseDeficit := m.leaseDeficit - (m.lease l).held
        leases := ins m.leases l { m.lease l with engine := none, held := 0 } }

/-- Leases of a die's teams that wait for an engine: team and lease. -/
def Die.leaseRequests (k : Die) : List (Nat × Nat) :=
  k.teams.flatMap fun e => (e.2.leases.filter fun l => l.2.requested).map fun l => (e.1, l.1)

/-- Among the requests of the teams on the die's cores, only one's own is left: a free engine is granted at once (R257). -/
def State.leaseTurn (s : State) (d t l : Nat) : Bool :=
  ((s.die d).leaseRequests.filter fun r => s.resident d r.1).all fun r => r.1 == t && r.2 == l

def execLease (a : BitVec 6) (l : BitVec 2) (s : State) : Out :=
  issueWith (.lease a l) s (fun s =>
    if (s.myTeam.lease l.toNat).engine.isSome then {}
    else
      if s.leaseTurn s.myDie s.myTeamIndex l.toNat && (s.die s.myDie).freeEngine.isSome then {}
      else { blocks := some (.block waitLease [] none (some (l.toNat, leasePeriod (s.srcPeek a)))) }) fun s =>
    let p := s.src a
    let s := p.2.consumed p.1.2
    if (s.myTeam.lease l.toNat).engine.isSome then s
    else match (s.die s.myDie).freeEngine with
      | none => s
      | some e =>
        let period := leasePeriod p.1.1
        let s := s.modMyTeam fun m =>
          { m with leases := ins m.leases l.toNat { m.lease l.toNat with period := period, left := period } }
        s.bindLease s.myDie s.myTeamIndex l.toNat e

/-- LEASE_GRANT (R257): a free engine goes to the request whose team has the largest lease deficit, ties to the lower team
index. -/
def execLeaseGrant (d : Nat) (s : State) : Out :=
  let k := s.die d
  let reqs := k.leaseRequests.filter fun r => s.resident d r.1
  let best := reqs.foldl (fun (a : Option (Nat × Nat)) r =>
    match a with
    | none => some r
    | some b => if (k.team b.1).leaseDeficit < (k.team r.1).leaseDeficit then some r else a) none
  match best, k.freeEngine with
  | some r, some e => .next (s.bindLease d r.1 r.2 e)
  | _, _ => .next s

/-- LEASE_EXPIRY (R258): the engine is returned and the lease is requested again with the full period. -/
def execLeaseExpiry (d t : Nat) (l : BitVec 2) (s : State) : Out :=
  let w := (s.team d t).lease l.toNat
  if w.engine.isNone || w.left != 0 then .next s
  else
    let s := s.returnLease d t l.toNat
    .next (s.modTeam d t fun m => { m with leases := ins m.leases l.toNat { m.lease l.toNat with left := w.period, requested := true } })

/-! ## The reads and writes of a command -/

/-- The core of the strand that issued a command. -/
def State.cmdCore (s : State) (m : Cmd) : Option Nat := s.coreNamed m.d m.t m.who

/-- An address as a command uses it: the local region is the issuing core's own view (R125). -/
def State.cmdResolve (s : State) (m : Cmd) (ea : Word) (acc : Acc) : Resolved :=
  let va := ea.toNat % 2 ^ 42
  if localBase ≤ va then
    match s.cmdCore m with
    | some c => s.localTarget c va acc
    | none => .fault pageFaultCode localReason
  else s.teamTarget none m.d m.t m.gang ea acc

/-- The shared TLB after an access of a command (R132). -/
def State.noteCmd (s : State) (m : Cmd) (ea : Word) (acc : Acc) : State :=
  let va := ea.toNat % 2 ^ 42
  if localBase ≤ va ∨ ea.toNat / 2 ^ 42 ≠ endpointOf m.d then s
  else s.noteTlb none (s.team m.d m.t).vf m.d m.t va acc

/-- What an access of a command meets; a wait or a fault with the address that meets it. -/
inductive Got (α : Type) where
  | ok (v : α) (s : State)
  | wait (m : PageRequest) (addr : Word)
  | stuck
  | fail (cause : Nat) (addr : Word)

/-- A command by its identifier. -/
def State.cmd? (s : State) (id : Nat) : Option Cmd := s.cmds.find? fun m => m.id == id

/-- A block store of an earlier bundle that has not read the register of a line yet. -/
def Block.owes (b : Block) (line seq : Nat) : Bool := b.poolSeq < seq && (b.offs.drop b.step).contains (some line)

/-- Earlier bundles' stores to a line of the own pool that have not landed (R274). -/
def Core.landsLater (k : Core) (line seq : Nat) : Bool :=
  (k.poolWrites.any fun w => w.off == line && w.seq < seq)
    || k.strands.any fun e => (e.2.blocks ++ e.2.frames.flatMap (·.blocks)).any fun b => b.owes line seq

/-- A line of the own pool as a command reads it: whole, and the same from its first read on. The read waits until the writes of
earlier bundles have landed; a line that a later bundle has written since may have been kept (R274). -/
def State.snapLine (s : State) (m : Cmd) (c line : Nat) : Got (Line × Bool) :=
  match seek m.cache line with
  | some v => .ok v s
  | none =>
    let k := s.core c
    if k.landsLater line m.seq then .stuck
    else
      let v := (seek m.olds line).getD (k.line line)
      .ok v (s.modCmd m.id fun m => { m with cache := ins m.cache line v, olds := dropKey m.olds line })

/-- One event of a command's run (R244). -/
def State.cmdEvents (s : State) (id : Nat) (codes : List Nat) : State :=
  if codes.isEmpty then s else s.modCmd id fun m => { m with events := addEvents m.events codes }

/-- The key under which a line counts among what has met the hole; elements and pairs count under their numbers. -/
def lineKey (ea : Word) : Nat := 2 ^ 64 + ea.toNat / 64

/-- Elements, lines or pairs of a command meet the hole: each counts once in the record of SCRATCH_HOLE (R124, R244). -/
def State.noteHoles (s : State) (id : Nat) (keys : List Nat) : State :=
  s.modCmd id fun m => keys.foldl (fun (m : Cmd) k =>
    if m.holes.contains k then m else { m with holes := k :: m.holes, events := addEvents m.events [7] }) m

/-- Bytes within one line of a command's source, with their mark; `keys` numbers the elements, lines or pairs that read them. -/
def State.cmdRead (s : State) (m : Cmd) (ea : Word) (n : Nat) (keys : List Nat := [lineKey ea]) : Got (List Byte × Bool) :=
  match s.cmdResolve m ea .read with
  | .fault cause _ => .fail cause ea
  | .miss r => .wait r ea
  | .away => .stuck
  | .ok tgt _ =>
    let s := s.noteCmd m ea .read
    let got := fun (v : List Byte × Bool) (s : State) =>
      Got.ok v (if v.2 then s.modCmd m.id fun m => { m with mark := true } else s)
    match tgt with
    | .pool c off =>
      if s.cmdCore m = some c then
        match s.snapLine m c (off / 64 * 64) with
        | .ok v s => got (((lineBytes v.1).drop (off % 64)).take n, v.2) s
        | _ => .stuck
      else if (s.core c).overtakes (off / 64 * 64) then .stuck
      else got ((s.core c).poolRead off n) s
    | .hole => .ok (List.replicate n 0, false) (s.noteHoles m.id keys)
    | tgt => if s.readLocked tgt then .stuck else let r := s.readTarget m.d m.t m.who tgt n; got r.1 r.2

/-- The holders of a command's write, and whether a condemned strand's is discarded (R138, R326). -/
def State.cmdHolders (s : State) (m : Cmd) (ea : Word) : List Holder × Bool :=
  match s.cmdCore m with
  | some c => (s.holders c m.who.n ea m.id, s.discards c m.who.n ea m.id)
  | none => ([], false)

/-- Bytes within one line written by a command: into a pool, staging, a pending update, or memory (R138, R141). A write of a line of
the own pool waits for the stores of earlier bundles to it, and for its reads by the Eddy array (R226). -/
def State.cmdWrite (s : State) (m : Cmd) (ea : Word) (bytes : List Byte) (mark neverHeld : Bool) (keys : List Nat := [lineKey ea]) : Got Unit :=
  match s.cmdResolve m ea .write with
  | .fault cause _ => .fail cause ea
  | .miss r => .wait r ea
  | .away => .stuck
  | .ok tgt _ =>
    let s := s.noteCmd m ea .write
    match tgt with
    | .pool c off =>
      let k := s.core c
      let line := off / 64 * 64
      if s.cmdCore m = some c && (k.eddyReads line
          || k.poolWrites.any fun w => w.off == line && w.seq < m.seq) then .stuck
      else .ok () (s.writeTarget tgt bytes mark)
    | .hole => .ok () (s.noteHoles m.id keys)
    | .hbm pa =>
      let hs := if neverHeld then [] else (s.cmdHolders m ea).1
      if (s.cmdHolders m ea).2 then .ok () s
      else if !hs.isEmpty then
        if s.stagingRoom pa then .ok () (s.stage m.d m.t m.who hs (taskOf hs) ea pa bytes mark) else .stuck
      else if s.isReplicated tgt then .ok () (s.modCmd m.id fun m => { m with updates := m.updates ++ [(pa, bytes, mark)] })
      else .ok () (s.writeTarget tgt bytes mark)
    | _ => .ok () s

/-- Pieces of a range that lie within one line each: address and length. -/
def piecesOf (ea : Word) (n : Nat) : List (Word × Nat) :=
  if n = 0 then []
  else
    let first := min n (64 - ea.toNat % 64)
    (ea, first) :: (List.range (ceilDiv (n - first) 64)).map fun i =>
      (ea + BitVec.ofNat 64 (first + 64 * i), min 64 (n - first - 64 * i))

/-- Bytes of a range of any length. -/
def State.cmdReadRange (s : State) (m : Cmd) (ea : Word) (n : Nat) : Got (List Byte × Bool) :=
  (piecesOf ea n).foldl (fun (g : Got (List Byte × Bool)) p =>
    match g with
    | .ok v s =>
      match s.cmdRead ((s.cmd? m.id).getD m) p.1 p.2 with
      | .ok w s => .ok (v.1 ++ w.1, v.2 || w.2) s
      | .wait r a => .wait r a
      | .stuck => .stuck
      | .fail c a => .fail c a
    | g => g) (.ok ([], false) s)

/-- What keeps a range from being written at once: a page that is missing, or a fault, with the address of the line. -/
def State.rangeBar (s : State) (m : Cmd) (ea : Word) (n : Nat) (acc : Acc) : Option (Word × Resolved) :=
  (piecesOf ea n).findSome? fun p => match s.cmdResolve m p.1 acc with
    | .ok _ _ => none
    | r => some (p.1, r)

/-- A range of any length, written only once every line of it can be. -/
def State.cmdWriteRange (s : State) (m : Cmd) (ea : Word) (bytes : List Byte) (mark neverHeld : Bool) : Got Unit :=
  match s.rangeBar m ea bytes.length .write with
  | some (a, .miss r) => .wait r a
  | some (a, .fault c _) => .fail c a
  | some (_, .away) => .stuck
  | _ =>
    ((piecesOf ea bytes.length).foldl (fun (a : Got Unit × Nat) p =>
      match a.1 with
      | .ok _ s => (s.cmdWrite ((s.cmd? m.id).getD m) p.1 ((bytes.drop a.2).take p.2) mark neverHeld, a.2 + p.2)
      | _ => a) (.ok () s, 0)).1

/-! ## The end of a command (R243 to R245, R251) -/

/-- The values of one index of SACC combined into one, then into the target: codes and events (R255). -/
def saccCombine (f op : Nat) (vs : List Nat) (old : Nat) : Nat × List Nat :=
  if f = 4 then
    let is := vs.map (signedOf 32)
    let o := signedOf 32 old
    match op with
    | 0 => (wrap 32 (o + is.foldl (· + ·) 0), [])
    | 1 => (wrap 32 (is.foldl min o), [])
    | _ => (wrap 32 (is.foldl max o), [])
  else
    let fm := if f = 0 then fmtF32 else fmtBF16
    let xs := vs.map fm.decode
    let o := fm.decode old
    match op with
    | 0 =>
      let v := fm.result .rne (xs.any Val.isNan) (exactSum .rne xs)
      let x := fm.decode v.1
      let r := fm.result .rne (x.isNan || o.isNan) (Val.add .rne o x)
      (r.1, v.2.codes ++ r.2.codes)
    | 1 => ((fm.conv .rne (xs.foldl Val.min o)).1, [])
    | _ => ((fm.conv .rne (xs.foldl Val.max o)).1, [])

/-- Bytes of an element; a pair of 4-bit elements counts as one byte. -/
def elemBytes (f : Nat) : Nat := max 1 (efcWidth f / 8)

/-- The value format and the operation of a SACC. -/
def saccFormat (m : Captured) : Nat := (m.f 2).toNat % 16
def saccOp : Instr → Nat
  | .sacc _ _ _ _ p => p.toNat
  | _ => 0

/-- One read-modify-write of memory, or of the pool, by a SACC: atomic (R255, R266, R280). -/
def State.saccApply (s : State) (m : Cmd) (tgt : Target) (vs : List Nat) (mark : Bool) : State :=
  let f := saccFormat m.cap
  let old := s.readTarget m.d m.t m.who tgt (elemBytes f)
  let r := saccCombine f (saccOp m.cap.op) vs (ofBytes old.1.1)
  let mark := mark || old.1.2
  (old.2.modCmd m.id fun k => { k with mark := k.mark || mark, events := addEvents k.events r.2 }).writeTarget tgt
    (bytesOf (elemBytes f) r.1) mark

/-- The updates of replicated pages that a command leaves (R141): they wait for a locked page. -/
def State.flushUpdates (s : State) (m : Cmd) : Option State :=
  if m.updates.any (fun u => s.isLocked (.hbm u.1)) || m.adds.any (fun u => s.isLocked (.hbm u.1)) then none
  else
    let s := m.updates.foldl (fun s u => s.writeTarget (.hbm u.1) u.2.1 u.2.2) s
    let s := m.adds.foldl (fun s u => s.saccApply m (.hbm u.1) u.2.1 u.2.2) s
    some (s.modCmd m.id fun k => { k with updates := [], adds := [] })

/-- A command ends with a status; none while an update of it waits for a lock. -/
def State.endCmd (s : State) (id status cause : Nat) (addr : Word) : Option State :=
  match s.cmd? id with
  | none => none
  | some m =>
    match s.flushUpdates m with
    | none => none
    | some s =>
      let s := s.modCmd id fun m => { m with status := status, cause := cause, failAddr := addr }
      let st : TokenState := if status = 0 then .ok else if status = stCancelled then .cancelled else .error
      some (s.finishCmd id st)

/-! ## Units and windows (R249) -/

/-- What an attempt at one unit gives. -/
inductive Tried where
  | done (s : State)
  | wait (ms : List PageRequest) (addr : Word)
  | stuck
  | fail (status cause : Nat) (addr : Word) (s : State)

/-- A command that delivers its units into a stream. -/
def Instr.streams : Instr → Bool
  | .cpyst _ _ _ _ _ _ => true
  | _ => false

/-- Bytes of a core record and of the header of a team image; its clusters, its size, its lines (R263). -/
def coreRecord : Nat := 4259840
def headerSize : Nat := 4096
def imageClusters (m : Captured) : List Nat := maskBitsOf ((m.f 2).setWidth 16)
def imageSize (m : Captured) : Nat := headerSize + 8 * (imageClusters m).length * coreRecord
def imageLines_ (m : Captured) : Nat := imageSize m / 64

/-- The completion of a unit counts in the progress index at once. An element of a CPYST counts when it has entered the stream
(R254), an index of RCNT when its increment has been made (R256); a line of TLOAD counts when it is loaded, not when it is checked
(R263; log 50). -/
def Cmd.counts (m : Cmd) (u : Nat) : Bool :=
  match m.cap.op with
  | .tload _ _ _ => imageLines_ m.cap ≤ u
  | .rcnt _ _ _ => false
  | i => !Instr.streams i

/-- A change of a unit's attempt in a command: the unit is complete. -/
def Cmd.complete (m : Cmd) (u : Nat) : Cmd :=
  { m with
    next := max m.next (u + 1)
    window := m.window &&& ~~~((1 : BitVec 64) <<< (u % 64))
    waits := m.waits.filter fun w => w.unit != u
    holes := m.holes.filter (· != u)
    progress := if m.counts u then m.progress + 1 else m.progress }

/-- The unit waits on page requests. -/
def Cmd.await (m : Cmd) (u : Nat) (tags : List Nat) (addr : Word) : Cmd :=
  { m with
    next := max m.next (u + 1)
    window := m.window ||| ((1 : BitVec 64) <<< (u % 64))
    waits := m.waits.filter (fun w => w.unit != u) ++ [{ unit := u, tags := tags, addr := addr }] }

/-- No page request of a unit is unanswered. -/
def Cmd.ready (m : Cmd) (u : Nat) : Bool := m.waits.all fun w => w.unit != u || w.tags.isEmpty

/-- The first unit of the current window. -/
def Cmd.windowBase (m : Cmd) : Nat := (m.next - 1) / 64 * 64

/-- The lowest unit of the mask whose requests have been answered. -/
def Cmd.masked (m : Cmd) : Option Nat :=
  (((List.range 64).filter fun i => m.window.getLsbD i).map (m.windowBase + ·)).find? m.ready

/-- The unit that a command tries next, of so many: a masked one whose requests are answered, else the next of the window,
else, with the mask empty, the first of the next window. -/
def Cmd.nextUnit (m : Cmd) (total : Nat) : Option Nat :=
  m.masked.or (if m.next < total ∧ (m.window = 0 ∨ m.next % 64 ≠ 0) then some m.next else none)

/-- A command's step that posts a page request and waits for it as a whole. -/
def State.awaitPage (s : State) (id : Nat) (r : PageRequest) (addr : Word) : State :=
  let p := s.postAll [r]
  p.2.modCmd id fun m => { m with waits := [{ unit := m.next, tags := p.1, addr := addr }] }

/-- What an attempt at one unit leaves behind. None when nothing can be done. -/
def State.tried (s : State) (m : Cmd) (u : Nat) (t : Tried) : Option State :=
  match t with
  | .done s => some (s.modCmd m.id fun m => m.complete u)
  | .wait ms addr => let p := s.postAll ms; some (p.2.modCmd m.id fun m => m.await u p.1 addr)
  | .stuck => none
  | .fail status cause addr s => s.endCmd m.id status cause addr

/-- One attempt at one unit. -/
def State.tryUnit (s : State) (m : Cmd) (u : Nat) (f : State → Cmd → Nat → Tried) : Option State := s.tried m u (f s m u)

/-- Every unit is complete. -/
def Cmd.allDone (m : Cmd) (total : Nat) : Bool := total ≤ m.next && m.window == 0

/-- Turns what an access meets into what a unit meets. -/
def Got.tried {α : Type} (g : Got α) (s : State) (k : α → State → Tried) : Tried :=
  match g with
  | .ok v s => k v s
  | .wait r a => .wait [r] a
  | .stuck => .stuck
  | .fail c a => .fail stTranslation c a s

/-! ## Copies (R252 to R254) -/

/-- Address and bit offset of element u on one side. -/
def CopyShape.place (c : CopyShape) (f : Nat) (base : Word) (strides : List Word) (u : Nat) : Word × Nat :=
  let r := c.row base strides u
  (r.2 + BitVec.ofNat 64 (r.1 * efcWidth f / 8), r.1 * efcWidth f % 8)

/-- The status, cause and address with which a copy stops before it moves a byte (R252). -/
def copyCheck (m : Captured) (writes : Bool) : Option (Nat × Nat × Word) :=
  let c := copyShape m
  let narrow := fun f : Nat => efcWidth f == 4
  if (m.f 2).toNat / 2 ^ 15 ≠ 0 ∨ 12 < c.srcf ∨ 12 < c.dstf ∨ m.dims = 0 ∨ m.dims = 7 ∨ (4 ≤ m.rnd ∧ m.rnd ≤ 6)
      ∨ ((narrow c.srcf || narrow c.dstf) ∧ c.counts.headD 0 % 2 = 1) then some (stBadDescriptor, 0, 0)
  else
    let bad := fun (f : Nat) (base : Word) (strides : List Word) => (base :: strides).any fun v => v.toNat % elemBytes f != 0
    if bad c.srcf c.src c.ss then some (stTranslation, misalignedCode, c.src)
    else if writes && bad c.dstf c.dst c.ts then some (stTranslation, misalignedCode, c.dst)
    else none

/-- Element u as its source holds it, with its mark. -/
def State.copyRaw (s : State) (m : Cmd) (c : CopyShape) (u : Nat) : Got (Nat × Bool) :=
  let p := c.place c.srcf c.src c.ss u
  match s.cmdRead m p.1 (elemBytes c.srcf) [u] with
  | .ok v s => .ok (ofBytes v.1 / 2 ^ p.2 % 2 ^ efcWidth c.srcf, v.2) s
  | .wait r a => .wait r a
  | .stuck => .stuck
  | .fail k a => .fail k a

/-- An element converted: its code and events. -/
def CopyShape.converted (c : CopyShape) (raw : Nat) : Nat × List Nat :=
  if c.conv then let r := efcConv c.dstf c.rnd (efcDecode c.srcf raw); (r.1, r.2.codes) else (raw, [])

/-- A pair of 4-bit elements is one byte: it is read, and it is written, at once (R266). The elements that are read, and those that are
written, together with element u; the element that stands for those written together. -/
def pairUnits (f u : Nat) : List Nat := if efcWidth f = 4 then [u / 2 * 2, u / 2 * 2 + 1] else [u]
def CopyShape.reads (c : CopyShape) (u : Nat) : List Nat := pairUnits c.srcf u
def CopyShape.elems (c : CopyShape) (u : Nat) : List Nat := pairUnits c.dstf u
def CopyShape.leads (c : CopyShape) (u : Nat) : Bool := (c.elems u).head? == some u

/-- The elements that are read together with element u are read: they wait as their source holds them. -/
def copyRead (s : State) (m : Cmd) (u : Nat) : Tried :=
  let c := copyShape m.cap
  ((c.reads u).filter fun k => (seek m.out k).isNone).foldl (fun t k => match t with
    | .done s => (s.copyRaw ((s.cmd? m.id).getD m) c k).tried s fun x s =>
        .done (s.modCmd m.id fun q => { q with out := ins q.out k x })
    | t => t) (.done s)

/-- Unit u of a copy, which has been read, is converted and written. -/
def copyWrite (s : State) (m : Cmd) (u : Nat) : Tried :=
  let c := copyShape m.cap
  let es := (c.elems u).map fun k => look (0, false) m.out k
  let rs := es.map fun x => c.converted x.1
  let code := rs.zipIdx.foldl (fun a e => a + e.1.1 * 2 ^ (4 * e.2)) 0
  (s.cmdWrite m (c.place c.dstf c.dst c.ts u).1 (bytesOf (elemBytes c.dstf) code) (es.any (·.2)) false (c.elems u)).tried s fun _ s =>
    .done ((s.cmdEvents m.id (rs.flatMap (·.2))).modCmd m.id fun q => { q with out := (c.elems u).foldl dropKey q.out })

/-- Every element that is written together with element u has been read. -/
def CopyShape.here (c : CopyShape) (m : Cmd) (u : Nat) : Bool := (c.elems u).all fun k => (seek m.out k).isSome

/-- The first element that is written together with element u and has not been read. -/
def CopyShape.missing (c : CopyShape) (m : Cmd) (u : Nat) : Nat := ((c.elems u).find? fun k => (seek m.out k).isNone).getD u

/-- Units are read as far as they can be. -/
def State.readUnits (m : Cmd) : (us : List Nat) → State → State
  | [], s => s
  | u :: us, s => match copyRead s ((s.cmd? m.id).getD m) u with
    | .done s => State.readUnits m us s
    | _ => s

/-- One step of CPY (R253): a unit that has been read is written; else the next unit is read, and of those after it in its window as
many as a free choice says, since nothing orders the elements of a copy among themselves or against others (R268, R269). -/
def State.stepCpy (s : State) (m : Cmd) : Option State :=
  let c := copyShape m.cap
  if m.allDone c.total then s.endCmd m.id 0 0 0
  else match m.out.find? fun e => m.ready e.1 && c.leads e.1 && c.here m e.1 with
    | some e => s.tryUnit m e.1 copyWrite
    | none => match m.nextUnit c.total with
      | none => none
      | some u =>
        if !c.leads u then s.tryUnit m u fun s _ _ => .done s
        else
          let first := c.missing m u
          match copyRead s m first with
          | .done t =>
            let ahead := ((List.range 64).map (max (first + 1) m.next + ·)).filter fun v => v < c.total && v / 64 == u / 64
            some (t.draw.2.readUnits m (ahead.take (t.draw.1 % 64)))
          | t => s.tried m u t

/-- The elements that are read together with element u are read and converted; they wait for the stream, and with `tee` for their
writes to the destination. -/
def copyTake (tee : Bool) (s : State) (m : Cmd) (u : Nat) : Tried :=
  let c := copyShape m.cap
  let new := (c.reads u).filter fun k => (seek m.out k).isNone
  match copyRead s m u with
  | .done s =>
    let raw := ((s.cmd? m.id).getD m).out
    let rs := new.map fun k => let x := look (0, false) raw k; (k, c.converted x.1, x.2)
    .done ((s.cmdEvents m.id (rs.flatMap (·.2.1.2))).modCmd m.id fun q =>
      { q with
        out := rs.foldl (fun o e => ins o e.1 (e.2.1.1, e.2.2)) q.out
        tees := if tee then q.tees ++ (new.map fun k => (c.elems k).headD k).filter (fun k => !q.tees.contains k) |>.eraseDups else q.tees })
  | t => t

/-- The write of a teed unit that has been converted (R254). -/
def copyTee (s : State) (m : Cmd) (u : Nat) : Tried :=
  let c := copyShape m.cap
  let es := (c.elems u).map fun k => look (0, false) m.out k
  let code := es.zipIdx.foldl (fun a e => a + e.1.1 * 2 ^ (4 * e.2)) 0
  (s.cmdWrite m (c.place c.dstf c.dst c.ts u).1 (bytesOf (elemBytes c.dstf) code) (es.any (·.2)) false (c.elems u)).tried s fun _ s =>
    .done (s.modCmd m.id fun q => { q with tees := q.tees.filter (· != u) })

/-- The strand's stream register that a CPYST fills. -/
structure Binding where
  vector : Bool
  k : Nat
  deriving DecidableEq, Repr

def Instr.binding : Instr → Option Binding
  | .cpyst _ _ _ _ v k => some { vector := v, k := k.toNat }
  | _ => none

/-- An element has entered the stream. -/
def Cmd.delivered (m : Cmd) (u : Nat) : Bool :=
  match Instr.binding m.cap.op with
  | some b => u < m.pos * ((if b.vector then 512 else 64) / efcWidth (copyShape m.cap).dstf)
  | none => false

/-- What a CPYST does next with unit u: the write of a teed unit whose elements are all there, or a read (R254). -/
def copyUnit (tee : Bool) (s : State) (m : Cmd) (u : Nat) : Tried :=
  let c := copyShape m.cap
  if m.tees.contains u && c.here m u then copyTee s m u
  else if c.here m u || m.delivered u || (tee && !c.leads u) then .done s
  else copyTake tee s m (c.missing m u)

/-- An earlier CPYST of the strand bound to the same stream has not ended (R254). -/
def State.boundBefore (s : State) (m : Cmd) : Bool :=
  s.cmds.any fun k => k.id < m.id && !k.done && k.of_ m.d m.t m.who && (Instr.binding k.cap.op).isSome
    && Instr.binding k.cap.op == Instr.binding m.cap.op

/-- The stream has room: 16 elements of 8 bytes or 64 of 64 bytes (R89, R149). -/
def Strand.hasRoom (t : Strand) (b : Binding) : Bool :=
  if b.vector then (t.vstream b.k).length < 64 else (t.stream b.k).length < 16

/-- An element enters a stream. -/
def Strand.deliver (t : Strand) (b : Binding) (v : Nat) (mark : Bool) : Strand :=
  if b.vector then
    { t with vstreams := put [] t.vstreams b.k (t.vstream b.k ++ [{ val := BitVec.ofNat 512 v, mark := mark }]) }
  else
    { t with streams := put [] t.streams b.k (t.stream b.k ++ [{ val := BitVec.ofNat 64 v, mark := mark }]) }

/-- The next stream element of a CPYST, once all it packs has been converted and the copy's writes are performed (R254, R276). -/
def State.deliverNext (s : State) (m : Cmd) (b : Binding) : Option State :=
  let c := copyShape m.cap
  let w := efcWidth c.dstf
  let per := (if b.vector then 512 else 64) / w
  let lo := m.pos * per
  let n := min per (c.total - lo)
  match s.cmdCore m with
  | none => none
  | some core =>
    let es := (List.range n).map fun i => seek m.out (lo + i)
    let owed := (List.range n).any fun i => m.tees.any fun u => (c.elems u).contains (lo + i)
    if n = 0 ∨ es.any Option.isNone ∨ owed ∨ !m.updates.isEmpty ∨ s.boundBefore m ∨ !(s.strand core m.who.n).hasRoom b then none
    else
      let es := es.filterMap id
      let v := es.foldr (fun e a => e.1 % 2 ^ w + 2 ^ w * a) 0
      let s := s.modStrand core m.who.n fun t => t.deliver b v (es.any (·.2))
      some (s.modCmd m.id fun m =>
        { m with pos := m.pos + 1, progress := m.progress + n, out := m.out.filter fun e => e.1 < lo || lo + n ≤ e.1 })

def Tried.failed : Tried → Bool
  | .fail _ _ _ _ => true
  | _ => false

/-- The next stream element of a CPYST has been converted and waits to enter the stream. -/
def Cmd.elementWaits (m : Cmd) (b : Binding) : Bool :=
  let c := copyShape m.cap
  let per := (if b.vector then 512 else 64) / efcWidth c.dstf
  let n := min per (c.total - m.pos * per)
  0 < n && (List.range n).all fun i => (seek m.out (m.pos * per + i)).isSome && !m.tees.any fun u => (c.elems u).contains (m.pos * per + i)

/-- The stream of a CPYST is full: the copy waits (R254). -/
def State.streamFull (s : State) (m : Cmd) (b : Binding) : Bool :=
  match s.cmdCore m with
  | some c => !(s.strand c m.who.n).hasRoom b
  | none => true

/-- The unit that a CPYST goes on with: a teed one whose write has still to be made, else the next to be read. -/
def Cmd.copyNext (m : Cmd) (c : CopyShape) : Option Nat :=
  (m.tees.find? fun u => m.ready u && c.here m u).or (m.nextUnit c.total)

/-- One step of CPYST. An element that cannot be copied stops it once the elements before it have entered the stream. Its update of a
replicated page is made once nothing is left to copy into the page (R141), and elements enter after it. While the stream is full it
copies nothing (R254). -/
def State.stepCopy (s : State) (m : Cmd) (tee : Bool) (b : Binding) : Option State :=
  let c := copyShape m.cap
  let blocked := match m.copyNext c with
    | some u => m.elementWaits b && (copyUnit tee s m u).failed
    | none => false
  match s.deliverNext m b with
  | some s => some s
  | none =>
    if ((m.allDone c.total && m.tees.isEmpty) || blocked) && !m.updates.isEmpty then s.flushUpdates m
    else if m.allDone c.total && m.tees.isEmpty && m.out.isEmpty && !s.boundBefore m then s.endCmd m.id 0 0 0
    else if blocked || s.streamFull m b then none
    else (m.copyNext c).bind fun u =>
      let t := copyUnit tee s m u
      match t with
      -- a unit of a teed copy is complete when it has been written to the destination
      | .done q => if ((q.cmd? m.id).map fun k => k.tees.contains u || !(c.here k u || k.delivered u || (tee && !c.leads u))).getD false then some q else s.tried m u t
      | _ => s.tried m u t

/-! ## Scatter-accumulate (R255) -/

def saccBase (m : Captured) : Word := m.f 4
def saccCount (m : Captured) : Nat := (m.f 3).toNat % 2 ^ 40

def saccCheck (m : Captured) (mem : Bool) : Option (Nat × Nat × Word) :=
  let f := saccFormat m
  let base := (saccBase m).toNat % 2 ^ 42
  if (m.f 2).toNat / 16 ≠ 0 ∨ !(f = 0 ∨ f = 1 ∨ f = 4) ∨ (mem ∧ localBase ≤ base) ∨ (!mem ∧ !(localBase ≤ base ∧ base < windowBase)) then
    some (stBadDescriptor, 0, 0)
  else if (m.f 0).toNat % 4 ≠ 0 then some (stTranslation, misalignedCode, m.f 0)
  else if (m.f 1).toNat % elemBytes f ≠ 0 then some (stTranslation, misalignedCode, m.f 1)
  else if (saccBase m).toNat % elemBytes f ≠ 0 then some (stTranslation, misalignedCode, saccBase m)
  else none

/-- The target of index u: a scratchpad offset for the core unit, an address for the memory-side unit. -/
def State.saccTarget (s : State) (m : Cmd) (mem : Bool) (u : Nat) : Word × Resolved :=
  let ea := saccBase m.cap + BitVec.ofNat 64 (u * elemBytes (saccFormat m.cap))
  if mem then
    (ea, if localBase ≤ ea.toNat % 2 ^ 42 then .fault pageFaultCode localReason else s.teamTarget none m.d m.t m.gang ea .atomic)
  else match s.cmdCore m with
    | some c => (ea, .ok (s.scratchTarget c (ea.toNat % 2 ^ 42 - localBase)) none)
    | none => (ea, .fault pageFaultCode localReason)

/-- One read-modify-write. That of an element of a replicated page is made when the command's update of the page is (R141); that of
an element whose write is held, or goes to another package, is a read and a write. `pairs` numbers the pairs of the index. -/
def State.saccUpdate (s : State) (m : Cmd) (mem : Bool) (u : Nat) (pairs : List Nat) (vs : List (Nat × Bool)) : Tried :=
  let n := elemBytes (saccFormat m.cap)
  let p := s.saccTarget m mem u
  match p.2 with
  | .fault c _ => .fail stTranslation c p.1 s
  | .miss r => .wait [r] p.1
  | .away => .stuck
  | .ok .hole _ => .done (s.noteHoles m.id pairs)
  | .ok tgt _ =>
    let s := if mem then s.noteCmd m p.1 .atomic else s
    let ready := match tgt with
      | .pool c off => !(s.core c).landsLater (off / 64 * 64) m.seq && !(s.core c).eddyReads (off / 64 * 64)
      | _ => !s.isLocked tgt
    let values := vs.map (·.1)
    let mark := vs.any (·.2)
    let held := match tgt with
      | .hbm _ => !(s.cmdHolders m p.1).1.isEmpty || (s.cmdHolders m p.1).2
      | _ => false
    if !ready then .stuck
    else if held then
      let old := s.readTarget m.d m.t m.who tgt n
      let r := saccCombine (saccFormat m.cap) (saccOp m.cap.op) values (ofBytes old.1.1)
      let mark := mark || old.1.2
      let s := old.2.modCmd m.id fun k => { k with mark := k.mark || mark, events := addEvents k.events r.2 }
      (s.cmdWrite m p.1 (bytesOf n r.1) mark false pairs).tried s fun _ s => .done s
    else match tgt with
      | .hbm pa =>
        if s.isReplicated tgt then .done (s.modCmd m.id fun k => { k with adds := k.adds ++ [(pa, values, mark)] })
        else .done (s.saccApply m tgt values mark)
      | _ => .done (s.saccApply m tgt values mark)

/-- What one pair is read as: index, value and mark; or what it waits for, with the index if that has been read. -/
inductive Pair where
  | ok (u v : Nat) (mark : Bool)
  | wait (u : Option Nat) (m : PageRequest) (addr : Word)
  | stuck (u : Option Nat)
  | fail (cause : Nat) (addr : Word)
  deriving DecidableEq, Repr

def Pair.index : Pair → Option Nat
  | .ok u _ _ => some u
  | .wait u _ _ => u
  | .stuck u => u
  | .fail _ _ => none

/-- Pair i is read. -/
def State.saccPair (s : State) (m : Cmd) (i : Nat) : Pair × State :=
  let n := elemBytes (saccFormat m.cap)
  match s.cmdRead ((s.cmd? m.id).getD m) (m.cap.f 0 + BitVec.ofNat 64 (4 * i)) 4 [i] with
  | .wait r a => (.wait none r a, s)
  | .stuck => (.stuck none, s)
  | .fail c a => (.fail c a, s)
  | .ok u s =>
    let k := ofBytes u.1
    match s.cmdRead ((s.cmd? m.id).getD m) (m.cap.f 1 + BitVec.ofNat 64 (n * i)) n [i] with
    | .wait r a => (.wait (some k) r a, s)
    | .stuck => (.stuck (some k), s)
    | .fail c a => (.fail c a, s)
    | .ok v s => (.ok k (ofBytes v.1) (u.2 || v.2), s)

/-- Some pairs are read, in order. -/
def State.saccPairs (s : State) (m : Cmd) : List Nat → List (Nat × Pair) × State
  | [] => ([], s)
  | i :: is =>
    let p := s.saccPair m i
    let r := p.2.saccPairs m is
    ((i, p.1) :: r.1, r.2)

/-- What a window of SACC has come to: the state, units that wait with requests and address, a fault, whether anything was done. -/
structure SaccPass where
  s : State
  waits : List (Nat × List PageRequest × Word)
  failed : Option (Nat × Word)
  moved : Bool

/-- The pairs of one index: they wait together, or make one read-modify-write (R249, R255; log 46). -/
def State.saccGroup (m : Cmd) (mem : Bool) (ps : List (Nat × Pair)) (a : SaccPass) (u : Nat) : SaccPass :=
  let mine := ps.filter fun p => p.2.index == some u
  let hold := fun (rs : List PageRequest) (addr : Word) =>
    { a with waits := a.waits ++ mine.map fun p => (p.1, rs, addr) }
  let waiting := mine.findSome? fun p => match p.2 with
    | .wait _ r addr => some ([r], addr)
    | .stuck _ => some ([], 0)
    | _ => none
  if a.failed.isSome then a
  else match waiting with
    | some w => hold w.1 w.2
    | none =>
      let vs := mine.filterMap fun p => match p.2 with
        | .ok _ v mark => some (v, mark)
        | _ => none
      match a.s.saccUpdate ((a.s.cmd? m.id).getD m) mem u (mine.map (·.1)) vs with
      | .done s => { a with s := s.modCmd m.id fun k => { k with progress := k.progress + mine.length }, moved := true }
      | .wait rs addr => hold rs addr
      | .stuck => hold [] 0
      | .fail _ c addr s => { a with s := s, failed := some (c, addr) }

/-- Units wait on requests that are posted. -/
def State.postWaits (s : State) (ws : List (Nat × List PageRequest × Word)) : List UnitWait × State :=
  ws.foldl (fun a w => let p := a.2.postAll w.2.1; (a.1 ++ [{ unit := w.1, tags := p.1, addr := w.2.2 }], p.2)) ([], s)

/-- One step of SACC: the pairs of a window of 64 that can be tried, one distinct index after another; the units that wait stay in
the mask. -/
def State.stepSacc (s : State) (m : Cmd) (mem : Bool) : Option State :=
  let total := saccCount m.cap
  let lo := if m.window = 0 then m.next else m.windowBase
  let hi := min total (lo + 64)
  let left := ((List.range (hi - lo)).filter fun i => m.window = 0 || m.window.getLsbD i).map (lo + ·)
  let todo := left.filter m.ready
  if m.allDone total then s.endCmd m.id 0 0 0
  else if todo.isEmpty then none
  else
    let r := s.saccPairs m todo
    match r.1.findSome? fun p => match p.2 with
        | .fail c a => some (c, a)
        | _ => none with
    | some f => r.2.endCmd m.id stTranslation f.1 f.2
    | none =>
      let us := (r.1.filterMap fun p => p.2.index).foldl (fun (l : List Nat) u => if l.contains u then l else l ++ [u]) []
      let unread := r.1.filterMap fun p => match p.2 with
        | .wait none q a => some (p.1, [q], a)
        | .stuck none => some (p.1, [], (0 : Word))
        | _ => none
      let a := us.foldl (State.saccGroup m mem r.1) { s := r.2, waits := unread, failed := none, moved := false }
      match a.failed with
      | some f => a.s.endCmd m.id stTranslation f.1 f.2
      | none =>
        if !a.moved && a.waits.all (·.2.1.isEmpty) then none
        else
          let p := a.s.postWaits a.waits
          let old := m.waits.filter fun w => left.contains w.unit && !todo.contains w.unit
          let mask := (old ++ p.1).foldl (fun (k : BitVec 64) w => k ||| ((1 : BitVec 64) <<< (w.unit % 64))) 0
          some (p.2.modCmd m.id fun k => { k with next := hi, window := mask, waits := old ++ p.1 })

/-! ## Routing counters (R256) -/

/-- RCNT's count of indices: bits [63:32] of its dependence word. -/
def rcntCount (m : Captured) : Nat := m.dep.toNat / 2 ^ 32

/-- One index of RCNT is read; its increment is still to be made. -/
def rcntUnit (s : State) (m : Cmd) (u : Nat) : Tried :=
  (s.cmdRead m (m.cap.xa + BitVec.ofNat 64 u) 1 [u]).tried s fun v s =>
    .done (s.modCmd m.id fun k => { k with out := ins k.out u (ofBytes v.1, v.2) })

/-- The increment of an index that has been read is made, whole (R256, R280). -/
def State.rcntAdd (s : State) (m : Cmd) (e : Nat × Nat × Bool) : State :=
  let old := look 0 (s.team m.d m.t).counters e.2.1
  let s := s.modCmd m.id fun k => { k with out := dropKey k.out e.1, progress := k.progress + 1 }
  if old = BitVec.allOnes 32 then s.cmdEvents m.id [3]
  else s.modTeam m.d m.t fun t => { t with counters := put 0 t.counters e.2.1 (old + 1) }

/-- One step of RCNT: the next index is read, or the increment of one that has been read is made. Which, and of which index, is a free
choice: nothing orders the increments among themselves or against an RSNAP that does not consume the token (R256, R269, R423). -/
def State.stepRcnt (s : State) (m : Cmd) : Option State :=
  let total := rcntCount m.cap
  if m.allDone total && m.out.isEmpty then s.endCmd m.id 0 0 0
  else
    let pick := s.draw.1
    let read := (m.nextUnit total).bind fun u => s.draw.2.tryUnit m u rcntUnit
    let add := m.out[pick / 2 % m.out.length]?.map fun e => s.draw.2.rcntAdd m e
    if pick % 2 = 0 then read.or add else add.or read

/-- RSNAP: the 16 lines are translated first; snapshot and clear are one step; then the lines are written, in any order (R256, R266). -/
def State.stepRsnap (s : State) (m : Cmd) : Option State :=
  if !m.tags.isEmpty then none
  else if m.pos = 0 then match s.rangeBar m m.cap.xa 1024 .write with
    | some (a, .miss r) => some (s.awaitPage m.id r a)
    | some (a, .fault c _) => s.endCmd m.id stTranslation c a
    | some (_, .away) => none
    | _ =>
      let cs := (s.team m.d m.t).counters
      let line := fun k => ((List.range 16).map fun i => (look 0 cs (16 * k + i)).toNat * 2 ^ (32 * i)).sum
      let s := s.modTeam m.d m.t fun t => { t with counters := [] }
      some (s.modCmd m.id fun k => { k with pos := 1, out := (List.range 16).map fun i => (i, line i, k.mark) })
  else match m.out[s.draw.1 % m.out.length]? with
    | none => (s.modCmd m.id fun m => { m with progress := 256 }).endCmd m.id (if m.cancel then stCancelled else 0) 0 0
    | some e => match s.draw.2.cmdWrite m (m.cap.xa + BitVec.ofNat 64 (64 * e.1)) (bytesOf 64 e.2.1) e.2.2 false with
      | .ok _ s => some (s.modCmd m.id fun k => { k with out := dropKey k.out e.1 })
      | .wait r a => some (s.awaitPage m.id r a)
      | .stuck => none
      | .fail c a => s.endCmd m.id stTranslation c a

end Sys2Proof.Machine
end

