-- ==== Sys2Proof/Machine/Zip.lean ====
section
/-!
DEFINITION. Error-bounded compression (R259 to R261): the coding of one block, ZIP and UNZIP.
-/

set_option Elab.async false
namespace Sys2Proof.Machine

/-! ## One block (R260, R261) -/

/-- zigzag(k) and its inverse. -/
def zigzag (k : Int) : Nat := if 0 ≤ k then (2 * k).toNat else (-2 * k - 1).toNat
def unzigzag (n : Nat) : Int := if n % 2 = 0 then (n / 2 : Nat) else -((n / 2 : Nat) + 1 : Int)

/-- The quotient d / 2 eps as an integer, rounded once to nearest even; d and eps finite, eps not zero. -/
def stepsOf (d eps : Val) : Int :=
  match d, eps with
  | .fin s m e, .fin _ n f =>
    let k := roundDiv .rne s (m * pow2Num (e - f - 1)) (n * pow2Den (e - f - 1))
    if s then -(k : Int) else k
  | _, _ => 0

/-- x' = round(round(p + round(k x 2 eps, F64), F64), EFC), all to nearest even. -/
def rebuild (efc : Nat) (p eps : Val) (k : Int) : Nat :=
  let step := fmtF64.decode (fmtF64.conv .rne ((Val.ofUnits k 0).mul (eps.shift 1))).1
  (efcConv efc .rne (fmtF64.decode (fmtF64.conv .rne (Val.add .rne p step)).1)).1

/-- What an element becomes: a code, or a literal. -/
inductive Coded where
  | code (n : Nat)
  | literal (bits : Nat)
  deriving DecidableEq, Repr

/-- The predictor after an element whose reconstruction has these bits. -/
def predictor (efc bits : Nat) : Val :=
  let v := efcDecode efc bits
  if v.isNan || v.isInf then .fin false 0 0 else v

/-- One element of ZIP, with the bits of its reconstruction (R261). -/
def zipElem (efc : Nat) (eps p : Val) (bits : Nat) : Coded × Nat :=
  let x := efcDecode efc bits
  if efc = 4 then (.code (zigzag (signedOf 32 bits - Val.units 0 p)), bits)
  else if x.isNan || x.isInf || eps.isZero then (.literal bits, bits)
  else
    let d := fmtF64.decode (fmtF64.conv .rne (Val.sub .rne x p)).1
    if d.isInf || d.isNan then (.literal bits, bits)
    else
      let k := stepsOf d eps
      let y := rebuild efc p eps k
      let v := efcDecode efc y
      if 2 ^ 62 ≤ k.natAbs || v.isNan || v.isInf || eps.lt (Val.sub .rne x v).abs then (.literal bits, bits)
      else (.code (zigzag k), y)

/-- The elements of a block, coded in order from the predictor 0. -/
def zipElems (efc : Nat) (eps : Val) : (p : Val) → List Nat → List Coded
  | _, [] => []
  | p, x :: rest => let r := zipElem efc eps p x; r.1 :: zipElems efc eps (predictor efc r.2) rest

/-- Codes of w bits packed from bit 0 upward, as bytes. -/
def packCodes (w : Nat) (cs : List Nat) : List Byte :=
  bytesOf (ceilDiv (w * cs.length) 8) (cs.foldr (fun c a => c + 2 ^ w * a) 0)

/-- Bytes padded with zeros to a multiple of 8. -/
def padded (bs : List Byte) : List Byte := bs ++ List.replicate ((8 - bs.length % 8) % 8) 0

/-- The bytes of a block. -/
def zipBlock (efc : Nat) (eps : Val) (xs : List Nat) : List Byte :=
  let es := zipElems efc eps (.fin false 0 0) xs
  let codes := es.filterMap fun e => match e with
    | .code n => some n
    | .literal _ => none
  let lits := es.filterMap fun e => match e with
    | .literal n => some n
    | .code _ => none
  let w := codes.foldl (fun a c => max a (if c = 0 then 0 else Nat.log2 c + 1)) 0
  let map := es.zipIdx.foldl (fun a e => match e.1 with
    | .literal _ => a + 2 ^ e.2
    | .code _ => a) 0
  padded (bytesOf 1 w ++ bytesOf 2 lits.length ++ [0] ++ (if lits.isEmpty then [] else bytesOf 32 map)
    ++ packCodes w codes ++ lits.flatMap (bytesOf (elemBytes efc)))

/-- The elements of a block from its codes and literals (R261). -/
def unzipElems (efc : Nat) (eps : Val) : (p : Val) → List Coded → List Nat
  | _, [] => []
  | p, e :: rest =>
    let bits := match e with
      | .literal n => n
      | .code n =>
        if efc = 4 then wrap 32 (Val.units 0 p + unzigzag n) else rebuild efc p eps (unzigzag n)
    bits :: unzipElems efc eps (predictor efc bits) rest

/-! ## ZIP -/

def zipEfc (m : Captured) : Nat := (m.f 2).toNat % 16

/-- The bound as a value. -/
def zipEps (m : Captured) : Val := fmtF64.decode (m.f 4).toNat

/-- The limits of R259, then alignment (R244). -/
def zipCheck (m : Captured) : Option (Nat × Nat × Word) :=
  let efc := zipEfc m
  let lossless := flag (m.f 2).toNat 4
  let eps := zipEps m
  if (m.f 2).toNat / 32 ≠ 0 ∨ !(efc = 0 ∨ efc = 3 ∨ efc = 4) ∨ lossless ≠ (efc == 4) ∨ 2 ^ 40 ≤ (m.f 3).toNat
      ∨ eps.isNan ∨ eps.isInf ∨ (eps.isNeg ∧ !eps.isZero) ∨ (efc = 4 ∧ m.f 4 ≠ 0) then some (stBadDescriptor, 0, 0)
  else if (m.f 0).toNat % elemBytes efc ≠ 0 then some (stTranslation, misalignedCode, m.f 0)
  else none

/-- The header of a stream (R260). -/
def zipHeader (efc n : Nat) (eps : Word) (len : Nat) : List Byte :=
  bytesOf 4 0x315A4C59 ++ bytesOf 1 efc ++ bytesOf 1 (if efc = 4 then 1 else 0) ++ bytesOf 2 0 ++ bytesOf 8 n
    ++ bytesOf 8 eps.toNat ++ bytesOf 8 len

/-- The descriptor of a syllable. -/
def descriptorOf : Instr → Nat
  | .cpy _ d _ | .cpyst _ d _ _ _ _ | .sacc _ d _ _ _ | .zip _ d _ _ | .unzip _ d _ _ | .repl _ d _ _ _ | .qdecl _ d _
  | .tsave _ d _ | .tload _ d _ => d.toNat
  | _ => 0

/-- A change of a strand by name, on its core or saved. -/
def State.modNamed (s : State) (d t : Nat) (w : StrandName) (f : Strand → Strand) : State :=
  if s.resident d t then
    match s.coreNamed d t w with
    | some c => s.modStrand c w.n f
    | none => s
  else s.modTeam d t fun m => { m with saved := m.saved.map fun k =>
    if k.lcore = 8 * w.cl + w.co then { k with strands := k.strands.map fun e => if e.1 = w.n then (e.1, f e.2) else e } else k }

/-- The end of a command that succeeds with a write-back of field 6 (R248, R259). -/
def State.endWithField (s : State) (m : Cmd) (v : Nat) : Option State :=
  (s.endCmd m.id 0 0 0).map fun s =>
    s.modNamed m.d m.t m.who fun t => t.setDesc (descriptorOf m.cap.op) 6 (BitVec.ofNat 64 v) false

/-- Element u of ZIP is read, and counts as completed in INDEX (R249; DESIGN CHOICE, log 130). -/
def zipUnit (s : State) (m : Cmd) (u : Nat) : Tried :=
  let n := elemBytes (zipEfc m.cap)
  (s.cmdRead m (m.cap.f 0 + BitVec.ofNat 64 (u * n)) n [u]).tried s fun v s =>
    .done (s.modCmd m.id fun k => { k with out := ins k.out u (ofBytes v.1, v.2) })

/-- The whole block that is read and not yet written, if there is one: its elements. -/
def Cmd.wholeBlock (m : Cmd) (total : Nat) : Option (List (Nat × Bool)) :=
  match m.out.head? with
  | none => none
  | some e =>
    let b := e.1 / 256 * 256
    let n := min 256 (total - b)
    let es := m.out.filter fun e => b ≤ e.1 && e.1 < b + n
    if es.length = n then some (es.map (·.2)) else none

/-- One step of ZIP: a whole block is written, else an element is read; at the end the header, which
holds the length, and f6: a ZIP that CAPACITY stops leaves no header (R261; DESIGN CHOICE, log 131). -/
def State.stepZip (s : State) (m : Cmd) : Option State :=
  let total := (m.cap.f 3).toNat
  let efc := zipEfc m.cap
  let cap := (m.cap.f 5).toNat
  let at_ := m.cap.f 1 + BitVec.ofNat 64 (32 + m.pos)
  match m.wholeBlock total with
  | some es =>
    if !m.tags.isEmpty then none
    else
      let bytes := zipBlock efc (zipEps m.cap) (es.map (·.1))
      if cap < 32 + m.pos + bytes.length then s.endCmd m.id stCapacity 0 at_
      else match s.cmdWriteRange m at_ bytes (es.any (·.2)) false with
        | .ok _ s => some (s.modCmd m.id fun k => { k with pos := k.pos + bytes.length, out := k.out.drop es.length })
        | .wait r a => some (s.awaitPage m.id r a)
        | .stuck => none
        | .fail c a => s.endCmd m.id stTranslation c a
  | none =>
    if m.allDone total then
      if !m.tags.isEmpty then none
      else if cap < 32 + m.pos then s.endCmd m.id stCapacity 0 (m.cap.f 1)
      else match s.cmdWriteRange m (m.cap.f 1) (zipHeader efc total (m.cap.f 4) (32 + m.pos)) m.mark false with
        | .ok _ s => s.endWithField m (32 + m.pos)
        | .wait r a => some (s.awaitPage m.id r a)
        | .stuck => none
        | .fail c a => s.endCmd m.id stTranslation c a
    else match m.nextUnit total with
      | some u => s.tryUnit m u zipUnit
      | none => none

/-! ## UNZIP -/

/-- What UNZIP keeps of the header it has read: EFC, N, epsilon, length, how many elements it has decoded, the poison mark of the
header; beside the captured descriptor, at fields 32 to 37. -/
def Cmd.keep (m : Cmd) (k : Nat) (v : Nat) : Cmd := { m with cap := { m.cap with desc := ins m.cap.desc k (BitVec.ofNat 64 v) } }
def Cmd.kept (m : Cmd) (k : Nat) : Nat := (m.cap.f k).toNat

def unzipCheck (m : Captured) : Option (Nat × Nat × Word) := if m.f 2 ≠ 0 then some (stBadDescriptor, 0, 0) else none

/-- The header is read and checked (R260, R261). -/
def State.unzipHeader (s : State) (m : Cmd) : Option State :=
  let src := m.cap.f 0
  if !m.tags.isEmpty then none
  else if (m.cap.f 5).toNat < 32 then s.endCmd m.id stBadStream 0 src
  else match s.cmdReadRange m src 32 with
    | .wait r a => some (s.awaitPage m.id r a)
    | .stuck => none
    | .fail c a => s.endCmd m.id stTranslation c a
    | .ok v s =>
      let num := fun (o n : Nat) => ofBytes ((v.1.drop o).take n)
      let efc := num 4 1
      let n := num 8 8
      let eps := fmtF64.decode (num 16 8)
      if num 0 4 ≠ 0x315A4C59 ∨ !(efc = 0 ∨ efc = 3 ∨ efc = 4) ∨ num 5 1 ≠ (if efc = 4 then 1 else 0) ∨ num 6 2 ≠ 0 ∨ eps.isNan
          ∨ eps.isInf ∨ (eps.isNeg ∧ !eps.isZero) ∨ num 24 8 < 32 ∨ (m.cap.f 5).toNat < num 24 8 then
        s.endCmd m.id stBadStream 0 src
      else if (m.cap.f 3).toNat < n then s.endCmd m.id stCapacity 0 src
      else if (m.cap.f 1).toNat % elemBytes efc ≠ 0 then s.endCmd m.id stTranslation misalignedCode (m.cap.f 1)
      else some (s.modCmd m.id fun k =>
        (((((k.keep 32 (efc + 256)).keep 33 n).keep 34 (num 16 8)).keep 35 (num 24 8)).keep 36 0).keep 37 (if v.2 then 1 else 0))

/-- The elements of a block as bytes give it: none where it breaks the format. `count` elements, widths by the header.
The padding bits of the last code byte and the padding bytes of the block are not looked at (R261; DESIGN CHOICE, log 132). -/
def parseBlock (efc : Nat) (eps : Val) (count : Nat) (bs : List Byte) : Option (List Nat) :=
  let w := ofBytes (bs.take 1)
  let lc := ofBytes ((bs.drop 1).take 2)
  let map := if lc = 0 then 0 else ofBytes ((bs.drop 4).take 32)
  let lit := fun i : Nat => flag map i
  let inside := ((List.range count).filter lit).length
  let all := ((List.range 256).filter lit).length
  if inside ≠ lc ∨ all ≠ lc then none
  else
    let body := bs.drop (if lc = 0 then 4 else 36)
    let nc := ceilDiv (w * (count - lc)) 8
    let codes := ofBytes (body.take nc)
    let size := elemBytes efc
    let lits := body.drop nc
    let es := (List.range count).foldl (fun (a : List Coded × Nat × Nat) i =>
      if lit i then (a.1 ++ [.literal (ofBytes ((lits.drop (size * a.2.2)).take size))], a.2.1, a.2.2 + 1)
      else (a.1 ++ [.code (codes / 2 ^ (w * a.2.1) % 2 ^ w)], a.2.1 + 1, a.2.2)) ([], 0, 0)
    some (unzipElems efc eps (.fin false 0 0) es.1)

/-- The length of a block from its first four bytes; none where they break the format (R260, R261). -/
def blockLength (efc count : Nat) (head : List Byte) : Option Nat :=
  let w := ofBytes (head.take 1)
  let lc := ofBytes ((head.drop 1).take 2)
  if 63 < w ∨ ofBytes (head.drop 3) ≠ 0 ∨ count < lc ∨ (efc = 4 ∧ lc ≠ 0) then none
  else
    let n := 4 + (if lc = 0 then 0 else 32) + ceilDiv (w * (count - lc)) 8 + lc * elemBytes efc
    some ((n + 7) / 8 * 8)

/-- The next block is read and decoded. A poisoned header poisons every element, a poisoned block its own (R261). -/
def State.unzipBlock (s : State) (m : Cmd) : Option State :=
  let efc := m.kept 32 % 256
  let count := min 256 (m.kept 33 - m.kept 36)
  let at_ := m.cap.f 0 + BitVec.ofNat 64 (32 + m.pos)
  let left := m.kept 35 - 32 - m.pos
  let bad := s.endCmd m.id stBadStream 0 at_
  if !m.tags.isEmpty then none
  else if left < 4 then bad
  else match s.cmdReadRange m at_ 4 with
    | .wait r a => some (s.awaitPage m.id r a)
    | .stuck => none
    | .fail c a => s.endCmd m.id stTranslation c a
    | .ok h s =>
      match blockLength efc count h.1 with
      | none => bad
      | some n =>
        if left < n then bad
        else match s.cmdReadRange m at_ n with
          | .wait r a => some (s.awaitPage m.id r a)
          | .stuck => none
          | .fail c a => s.endCmd m.id stTranslation c a
          | .ok v s =>
            match parseBlock efc (fmtF64.decode (m.kept 34)) count v.1 with
            | none => bad
            | some es => some (s.modCmd m.id fun k =>
                { (k.keep 36 (m.kept 36 + count)) with
                  pos := k.pos + n
                  out := es.zipIdx.foldl (fun o e => ins o (m.kept 36 + e.2) (e.1, v.2 || m.kept 37 == 1)) k.out })

/-- Element u of UNZIP is delivered. -/
def unzipUnit (s : State) (m : Cmd) (u : Nat) : Tried :=
  let n := elemBytes (m.kept 32 % 256)
  let e := look (0, false) m.out u
  (s.cmdWrite m (m.cap.f 1 + BitVec.ofNat 64 (u * n)) (bytesOf n e.1) e.2 false [u]).tried s fun _ s =>
    .done (s.modCmd m.id fun k => { k with out := dropKey k.out u })

/-- One step of UNZIP. -/
def State.stepUnzip (s : State) (m : Cmd) : Option State :=
  if m.kept 32 = 0 then s.unzipHeader m
  else
    let n := m.kept 33
    let decoded := m.kept 36
    if m.allDone decoded then
      if decoded < n then s.unzipBlock m
      else if !m.tags.isEmpty then none
      else if 32 + m.pos ≠ m.kept 35 then s.endCmd m.id stBadStream 0 (m.cap.f 0)
      else s.endWithField m n
    else match m.nextUnit decoded with
      | some u => s.tryUnit m u unzipUnit
      | none => none

end Sys2Proof.Machine
end

