-- ==== Sys2Proof/Machine/Bulk.lean ====
section
/-!
DEFINITION. The other bulk commands: page replication (R262), team save and load (R263), UNLEASE (R258).
-/

set_option Elab.async false
namespace Sys2Proof.Machine

/-! ## REPL (R262) -/

/-- The dies of REPL's mask. -/
def replDies (m : Captured) : List Nat := (List.range 8).filter fun k => flag (m.f 2).toNat k

def replCheck (m : Captured) (d : Nat) : Option (Nat × Nat × Word) :=
  let n := (m.f 3).toNat
  if (replDies m).isEmpty ∨ n = 0 ∨ 65536 < n then some (stBadDescriptor, 0, 0)
  else if (m.f 0).toNat % 65536 ≠ 0 then some (stTranslation, misalignedCode, m.f 0)
  else if (m.f 0).toNat / 2 ^ 42 ≠ endpointOf d then some (stBadDescriptor, 0, 0)
  else none

/-- The replica record of a page of HBM; one with no replica when none is kept. -/
def State.replicaAt (s : State) (page : Nat) : Replica :=
  (s.replicas.find? fun r => r.home == page).getD { home := page, copies := [], locked := none }

/-- The replica record of a page is set; a page without replicas and without a lock has none. -/
def State.setReplica (s : State) (r : Replica) : State :=
  let rest := s.replicas.filter fun x => x.home != r.home
  { s with replicas := if r.copies.isEmpty && r.locked.isNone then rest else rest ++ [r] }

/-- The stage-2 leaf of an intermediate page carries RPL or not (R131). -/
def Vf.setRpl (f : Vf) (ipa : Nat) (rpl : Bool) : Vf :=
  { f with s2 := f.s2.map fun e => if e.1 = ipa / 65536 then (e.1, { e.2 with rpl := rpl }) else e }

/-- One page of REPL: first its lock is taken, then the replicas are added or withdrawn and the lock is released. -/
def replUnit (withdraw : Bool) (s : State) (m : Cmd) (u : Nat) : Tried :=
  let ea := m.cap.f 0 + BitVec.ofNat 64 (65536 * u)
  let va := ea.toNat % 2 ^ 42
  let v := (s.team m.d m.t).vf
  let p := ((s.vf v).part).getD 64
  if localBase ≤ va then .fail stTranslation pageFaultCode ea s
  else match s.walk v m.d m.t va .read with
    | .fault c _ => .fail stTranslation c ea s
    | .miss r => .wait [r] ea
    | .ok e _ =>
      let ipa := e.ipa * 65536
      match (s.vf v).stage2 ipa with
      | none => .stuck
      | some (leaf, _) =>
        if leaf.level ≠ 1 then .fail stBadDescriptor 0 ea s
        else
          let r := s.replicaAt e.pa
          let home := stackOf (e.pa * 65536)
          let named := (replDies m.cap).filter (· != home)
          let gone := r.copies.filter named.contains
          let new := named.filter fun k => !r.copies.contains k
          let reserve := (s.part p).reserve
          if r.locked.isSome ∧ r.locked ≠ some m.id then .stuck
          else if !withdraw && reserve < new.length then .fail stNoReplicaSpace 0 ea (s.setReplica { r with locked := none })
          else
            let copies := if withdraw then r.copies.filter fun k => !named.contains k else new.foldl (fun l k => insertNat k l) r.copies
            let s := s.setReplica { r with copies := copies, locked := none }
            let s := s.modPart p fun q => { q with reserve := if withdraw then q.reserve + gone.length else q.reserve - new.length }
            .done (s.modVf v fun f => f.setRpl ipa (!copies.isEmpty))

/-- REPL takes the lock of the page that it handles next; an update that holds it goes first. -/
def State.replLock (s : State) (m : Cmd) (u : Nat) : Option State :=
  let ea := m.cap.f 0 + BitVec.ofNat 64 (65536 * u)
  match s.walk (s.team m.d m.t).vf m.d m.t (ea.toNat % 2 ^ 42) .read with
  | .ok e _ =>
    let r := s.replicaAt e.pa
    if r.locked.isNone then some (s.setReplica { r with locked := some m.id }) else none
  | _ => none

/-- One step of REPL. -/
def State.stepRepl (s : State) (m : Cmd) (withdraw : Bool) : Option State :=
  let total := (m.cap.f 3).toNat
  if m.allDone total then s.endCmd m.id 0 0 0
  else match m.nextUnit total with
    | none => none
    | some u =>
      match s.replLock m u with
      | some s => some s
      | none => s.tryUnit m u (replUnit withdraw)

/-- A command that ends releases the locks that it holds. -/
def State.dropLocks (s : State) (id : Nat) : State :=
  { s with replicas := (s.replicas.map fun r => if r.locked = some id then { r with locked := none } else r).filter fun r =>
      !(r.copies.isEmpty && r.locked.isNone) }

/-! ## Team images (R263) -/

/-- CRC-64 of ECMA-182: one bit, one byte, bytes. -/
def crcBit (c : BitVec 64) : BitVec 64 := if c.getLsbD 63 then (c <<< 1) ^^^ 0x42F0E1EBA9EA3693 else c <<< 1
def crcByte (c : BitVec 64) (b : Byte) : BitVec 64 :=
  (List.range 8).foldl (fun c _ => crcBit c) (c ^^^ (zext64 b <<< 56))
def crcBytes (c : BitVec 64) (bs : List Byte) : BitVec 64 := bs.foldl crcByte c
def crc64 (bs : List Byte) : BitVec 64 := crcBytes 0 bs

/-- The versions that an image requires. -/
def imageReqv (m : Captured) : Nat := (m.f 4).toNat % 2 ^ 24

/-- The cores that an image names, by logical cluster and core. -/
def State.imageCores (s : State) (m : Cmd) : List Nat :=
  (imageClusters m.cap).flatMap fun cl => (List.range 8).filterMap fun co => s.physCore (s.team m.d m.t).part m.d cl co

/-- A named core runs a node strand. -/
def State.imageBusy (s : State) (m : Cmd) : Bool :=
  (s.imageCores m).any fun c => (s.core c).strands.any fun e => e.2.mode != .inactive && !s.isConductor c e.1

def State.imageCheck (s : State) (m : Cmd) : Option (Nat × Nat × Word) :=
  if !(imageClusters m.cap).all (s.clustersOn (s.team m.d m.t).part m.d).contains then some (stBadDescriptor, 0, 0)
  else if (m.cap.f 0).toNat % 65536 ≠ 0 then some (stTranslation, misalignedCode, m.cap.f 0)
  else if (m.cap.f 5).toNat < imageSize m.cap then some (stCapacity, 0, m.cap.f 0)
  else if s.imageBusy m then some (stBusy, 0, 0)
  else none

/-- A line of a core record carries the poison mark. -/
def Core.recordMark (k : Core) (off : Nat) : Bool :=
  if off < 4194304 then k.poolPoison.contains off
  else if off < 4210688 then k.scaleMarks.contains ((off - 4194304) / 256)
  else if off < 4243712 then (k.tri ((off - 4210688) / 8256)).poison
  else false

/-- The stores of earlier bundles to the pool of the issuing core have landed, where the image names that core (R274). -/
def State.imageSettled (s : State) (m : Cmd) : Bool :=
  match s.cmdCore m with
  | none => true
  | some c => !(s.imageCores m).contains c || !(s.core c).owesBefore m.seq

/-- The header of an image. -/
def imageHeader (m : Captured) (crc : BitVec 64) : List Byte :=
  let h := bytesOf 4 0x4D49544C ++ bytesOf 2 1 ++ bytesOf 2 0 ++ bytesOf 8 ((m.f 2).toNat % 65536) ++ bytesOf 8 (imageReqv m)
    ++ bytesOf 8 (imageSize m) ++ bytesOf 8 crc.toNat
  h ++ List.replicate (headerSize - h.length) 0

/-- Line i of the image, as TSAVE counts its units: the lines of the records first, those of the header last (R263). -/
def saveLine (m : Captured) (u : Nat) : Nat :=
  let records := imageLines_ m - headerSize / 64
  if u < records then headerSize / 64 + u else u - records

/-- The address of line i of an image. -/
def imageAt (m : Captured) (i : Nat) : Word := m.f 0 + BitVec.ofNat 64 (64 * i)

/-- Line i of the records of an image, counted from the first record: its core and byte in the record. -/
def State.recordPlace (s : State) (m : Cmd) (i : Nat) : Option Nat × Nat :=
  ((s.imageCores m)[i / (coreRecord / 64)]?, 64 * (i % (coreRecord / 64)))

/-- A pool line of another core that an image names is ahead of a write of an earlier bundle (R268). -/
def State.lineAhead (s : State) (m : Cmd) (u : Nat) : Bool :=
  let i := saveLine m.cap u
  headerSize / 64 ≤ i && (let p := s.recordPlace m (i - headerSize / 64)
    (p.1.map fun c => (s.core c).overtakes p.2).getD false)

/-- The next line of the image is formed: a line of a record enters the CRC, a line of the header takes it. -/
def State.formLine (s : State) (m : Cmd) (u : Nat) : State :=
  let i := saveLine m.cap u
  if i < headerSize / 64 then
    let bs := ((imageHeader m.cap m.crc).drop (64 * i)).take 64
    s.modCmd m.id fun k => { k with out := ins k.out u (ofBytes bs, k.mark) }
  else
    let p := s.recordPlace m (i - headerSize / 64)
    -- a line of the own pool that the command's own bundle has written since is saved as it stood (R274)
    let old := if p.1 = s.cmdCore m ∧ p.2 < 4194304 then seek m.olds p.2 else none
    let bs := (old.map fun v => bytesOf 64 v.1.toNat).getD ((p.1.map fun c => (s.core c).recordBytes p.2 64).getD (List.replicate 64 0))
    let mark := (old.map (·.2)).getD ((p.1.map fun c => (s.core c).recordMark p.2).getD false)
    s.modCmd m.id fun k => { k with out := ins k.out u (ofBytes bs, mark), crc := crcBytes k.crc bs, mark := k.mark || mark }

/-- A line of the image is written. -/
def saveUnit (s : State) (m : Cmd) (u : Nat) : Tried :=
  let v := look (0, false) m.out u
  (s.cmdWrite m (imageAt m.cap (saveLine m.cap u)) (bytesOf 64 v.1) v.2 true).tried s fun _ s =>
    .done (s.modCmd m.id fun k => { k with out := dropKey k.out u })

/-- One step of TSAVE: a line is formed when its turn comes, then written; the header is written last (R249, R263). -/
def State.stepTsave (s : State) (m : Cmd) : Option State :=
  let total := imageLines_ m.cap
  if m.allDone total then s.endCmd m.id 0 0 0
  else match m.nextUnit total with
    | none => none
    | some u =>
      if (seek m.out u).isNone then
        if !s.imageSettled m || s.lineAhead m u || (total - headerSize / 64 ≤ u && m.window != 0) then none else some (s.formLine m u)
      else s.tryUnit m u saveUnit

/-- The checks of an image that TLOAD reads, by the first line of its header and the CRC of its records: its status. -/
def imageVerdict (m : Captured) (head : List Byte) (crc : BitVec 64) : Nat :=
  let num := fun (o n : Nat) => ofBytes ((head.drop o).take n)
  if num 0 4 ≠ 0x4D49544C ∨ num 4 2 ≠ 1 ∨ num 8 8 ≠ (m.f 2).toNat % 65536 ∨ num 32 8 ≠ crc.toNat then
    stBadImage
  else if num 16 8 % 2 ^ 24 &&& (0xFFFFFF ^^^ 0x0E) ≠ 0 then stRefusedVersion
  else 0

/-- A line of the image is read, to be checked or to be loaded. -/
def loadUnit (total : Nat) (s : State) (m : Cmd) (u : Nat) : Tried :=
  (s.cmdRead m (imageAt m.cap (u % total)) 64).tried s fun v s =>
    .done (s.modCmd m.id fun k => { k with out := ins k.out u (ofBytes v.1, v.2) })

/-- The lines of a record that are written together: a pool line alone, the four of a scale buffer, the 129 of a triangular file;
the first line and how many. -/
def recordGroup (i : Nat) : Nat × Nat :=
  if i < 65536 then (i, 1)
  else if i < 65792 then ((i - 65536) / 4 * 4 + 65536, 4)
  else if i < 66308 then ((i - 65792) / 129 * 129 + 65792, 129)
  else (i, 1)

/-- A core with a group of lines of a record behind its pool: a scale buffer or a triangular file. -/
def Core.loadGroup (k : Core) (first : Nat) (ls : List (List Byte × Bool)) : Core :=
  let bytes := ls.flatMap (·.1)
  let mark := ls.any (·.2)
  if first < 65792 then
    { k with
      scale := writeBytes k.scale (64 * (first - 65536)) bytes
      scaleMarks := markKey k.scaleMarks ((first - 65536) / 4) mark }
  else if first < 66308 then
    { k with tris := put Tri.reset k.tris ((first - 65792) / 129) (triOf ((rawRows bytes).map (·.1)) mark) }
  else k

/-- A group of lines of a record is not written yet: Eddy work of the core has still to read the pool line or a write of it is on its
way, or work on the triangular file is pending (R226). -/
def Core.loadBarred (k : Core) (first : Nat) : Bool :=
  if first < 65536 then
    k.eddyReads (64 * first) || k.poolWrites.any fun w => w.off == 64 * first
  else if first < 65792 then false
  else k.eddy.any fun e => e.file == (first - 65792) / 129 || e.readFile == some ((first - 65792) / 129)

/-- A group of lines that has been read is loaded into its core. -/
def State.loadLines (s : State) (m : Cmd) (total : Nat) : Option State :=
  m.out.findSome? fun e =>
    if e.1 < total then none
    else
      let i := e.1 - total
      if i < headerSize / 64 then some (s.modCmd m.id fun k => { k with out := dropKey k.out e.1 })
      else
        let p := s.recordPlace m (i - headerSize / 64)
        let g := recordGroup (p.2 / 64)
        let first := e.1 - (p.2 / 64 - g.1)
        let keys := (List.range g.2).map (first + ·)
        let ls := keys.map fun u => seek m.out u
        let barred := match p.1 with
          | some c => (s.core c).loadBarred g.1
          | none => false
        if ls.any Option.isNone || barred then none
        else
          let lines : List (List Byte × Bool) := (ls.filterMap id).map fun l => (bytesOf 64 l.1, l.2)
          let s := match p.1 with
            | some c => if g.1 < 65536 then s.poolPut c (64 * g.1) (lines.flatMap fun (x : List Byte × Bool) => x.1) (lines.any (·.2))
                else s.modCore c fun k => k.loadGroup g.1 lines
            | none => s
          some (s.modCmd m.id fun k => { k with out := k.out.filter fun (x : Nat × Nat × Bool) => !keys.contains x.1 })

/-- The next line of the check enters the CRC, in order; the first line of the header is kept. -/
def State.checkLine (s : State) (m : Cmd) (total : Nat) : Option State :=
  if total ≤ m.pos then none
  else (seek m.out m.pos).map fun v => s.modCmd m.id fun k =>
    { k with
      pos := k.pos + 1
      crc := if k.pos < headerSize / 64 then k.crc else crcBytes k.crc (bytesOf 64 v.1)
      out := if k.pos = 0 then k.out else dropKey k.out k.pos }

/-- One step of TLOAD: the whole image is read and checked; then it is read again, line by line, into the pools, scale buffers and
files (R263; log 50). -/
def State.stepTload (s : State) (m : Cmd) : Option State :=
  let total := imageLines_ m.cap
  match s.checkLine m total with
  | some s => some s
  | none =>
    if m.pos = total && (seek m.out 0).isSome then
      let st := imageVerdict m.cap (bytesOf 64 ((seek m.out 0).getD (0, false)).1) m.crc
      if st ≠ 0 then s.endCmd m.id st 0 (m.cap.f 0)
      else some (s.modCmd m.id fun k => { k with out := dropKey k.out 0 })
    else match s.loadLines m total with
      | some s => some s
      | none =>
        if m.allDone (2 * total) then (if m.out.isEmpty then s.endCmd m.id 0 0 0 else none)
        else match m.nextUnit (if m.pos < total then total else 2 * total) with
          | some u => s.tryUnit m u (loadUnit total)
          | none => none

/-! ## UNLEASE (R258) -/

/-- The lease that a bulk command names. -/
def Instr.bulkLease : Instr → Option Nat
  | .zip _ _ _ l | .unzip _ _ _ l | .repl _ _ _ _ l | .tsave _ _ l | .tload _ _ l => some l.toNat
  | _ => none

/-- One step of UNLEASE: of a lease that is not held it is done at once; else it waits for the commands queued to the lease before it,
through an expiry or a swap-out that comes before they have finished (R258). -/
def State.stepUnlease (s : State) (m : Cmd) (l : Nat) : Option State :=
  let w := (s.team m.d m.t).lease l
  if w.ending ≠ some m.id then
    if w.engine.isNone then s.endCmd m.id 0 0 0
    else some (s.modTeam m.d m.t fun t => { t with leases := ins t.leases l { w with ending := some m.id } })
  else if s.cmds.any fun k => k.d == m.d && k.t == m.t && k.id < m.id && !k.done && Instr.bulkLease k.cap.op == some l then none
  else
    let s := s.returnLease m.d m.t l
    (s.modTeam m.d m.t fun t => { t with leases := dropKey t.leases l }).endCmd m.id 0 0 0

end Sys2Proof.Machine
end

