-- ==== Sys2Proof/Machine/Join.lean ====
section
/-!
DEFINITION. Quorum joins as their home keeps them (R317 to R332): task tables, arrivals, the release with its condemnations,
commits, slot fills and record.
-/

set_option Elab.async false
namespace Sys2Proof.Machine

/-! ## Tasks (R318) -/

/-- A task-table entry; none where it breaks R318. -/
def taskOfWord (w : Nat) : Option Task :=
  let kind := field w 30 2
  if kind = 1 ∧ field w 9 21 = 0 then
    some (.localTask { cl := field w 0 4, co := field w 4 3, n := field w 7 2 })
  else if kind = 2 ∧ field w 26 4 = 0 then some (.contrib (field w 0 10) (field w 10 16))
  else none

def Team.joinAt (t : Team) (q : Nat) : Join := look Join.reset t.joins q
def State.modJoin (s : State) (d t q : Nat) (f : Join → Join) : State :=
  s.modTeam d t fun m => { m with joins := ins m.joins q (f (m.joinAt q)) }

/-- The number of a task of a join. -/
def Join.number (j : Join) (k : Task) : Option Nat := (j.tasks.zipIdx.find? fun e => e.1 == k).map (·.2)

/-- Q = ceil(NUM x N / DEN) (R320). -/
def Join.quorum (j : Join) : Nat := ceilDiv (j.num * j.tasks.length) j.den

/-- The release condition (R320). -/
def Join.met (j : Join) : Bool :=
  match j.replay with
  | none => j.arrived.length == j.quorum
  | some m => m.all j.arrived.contains

/-- The sum of the weights of tasks, in units of 2^-8. -/
def Join.weightOf (j : Join) (ks : List Nat) : Nat := (ks.map fun k => nth 0 j.weights k).sum
def Join.weightAll (j : Join) : Nat := j.weights.sum

/-! ## Bytes of team memory that the home moves (R329, R331) -/

/-- What keeps a range of team memory from being accessed; none when nothing does. -/
def State.teamBar (s : State) (d t : Nat) (ea : Word) (n : Nat) (acc : Acc) : Option Resolved :=
  (piecesOf ea n).findSome? fun p =>
    if localBase ≤ p.1.toNat % 2 ^ 42 then some (.fault pageFaultCode localReason)
    else match s.teamTarget none d t (s.team d t).gang p.1 acc with
      | .ok _ _ => none
      | r => some r

/-- A name that no strand of a core has: the home's own accesses see no held line. -/
def homeName : StrandName := { cl := 16, co := 0, n := 0 }

/-- Bytes of a range that nothing bars. -/
def State.teamRead (s : State) (d t : Nat) (ea : Word) (n : Nat) : (List Byte × Bool) × State :=
  (piecesOf ea n).foldl (fun (a : (List Byte × Bool) × State) p =>
    match a.2.teamTarget none d t (a.2.team d t).gang p.1 .read with
    | .ok tgt _ => let r := a.2.readTarget d t homeName tgt p.2; ((a.1.1 ++ r.1.1, a.1.2 || r.1.2), r.2)
    | _ => a) (([], false), s)

/-- A write of a range that nothing bars. -/
def State.teamWrite (s : State) (d t : Nat) (ea : Word) (bytes : List Byte) (mark : Bool) : State :=
  ((piecesOf ea bytes.length).foldl (fun (a : State × Nat) p =>
    match a.1.teamTarget none d t (a.1.team d t).gang p.1 .write with
    | .ok tgt _ => (a.1.writeTarget tgt ((bytes.drop a.2).take p.2) mark, a.2 + p.2)
    | _ => (a.1, a.2 + p.2)) (s, 0)).1

/-! ## Condemnation (R326, R327) -/

/-- A saved core with the lines written that the block stores of a strand still owe (R162, R327). -/
def SavedCore.landOwed (v : SavedCore) (n : Nat) : SavedCore :=
  let k : Core := { Core.reset with strands := v.strands, part := v.part, pool := v.pool, poolPoison := v.poolPoison }
  let ws := sortBy PoolWrite.seq ((k.strand n).levels.flatMap fun l => l.owed k n)
  let k := ws.foldl (fun k w => k.setLine w.off w.data w.mask w.mark) k
  { v with pool := k.pool, poolPoison := k.poolPoison }

/-- A saved strand is killed where its state is kept: the held stores of its phase are discarded; what its block stores owe to a
pool that has been saved is written. -/
def State.killSaved (s : State) (d t : Nat) (w : StrandName) : State :=
  let s := s.discardHeld (.phase d t w)
  let id := ((s.team d t).saved.findSome? fun k =>
    if k.lcore = 8 * w.cl + w.co then (seek k.strands w.n).bind (·.launch) else none)
  let s := s.modTeam d t fun m => { m with saved := m.saved.map fun k =>
    if k.lcore = 8 * w.cl + w.co then
      { (if m.spilled then k.landOwed w.n else k) with
        strands := k.strands.map fun e => if e.1 = w.n then (e.1, e.2.ended) else e
        slots := k.slots.filter fun e => e.2.holder != some w.n }
    else k }
  let owes := (s.cmds.any fun m => m.of_ d t w && !m.done) || s.owesCommit d t w (fun _ => true)
  let closing : Closing := { name := w, upTo := s.nextId, issued := 0, poisoned := false }
  s.modTeam d t fun m => (m.launchEnd id w false (if owes then some closing else none)).settle w

/-- The strand of a task, where its state is kept. -/
def State.namedStrand (s : State) (d t : Nat) (w : StrandName) : Option Strand :=
  if s.resident d t then (s.coreNamed d t w).map fun c => s.strand c w.n
  else (s.team d t).saved.findSome? fun k => if k.lcore = 8 * w.cl + w.co then seek k.strands w.n else none

/-- A strand is condemned: its commands are cancelled; a blocked or frozen-out one dies at once (R326). -/
def State.condemn (s : State) (d t : Nat) (w : StrandName) : State :=
  match s.namedStrand d t w with
  | none => s
  | some x =>
    if x.mode = .inactive then s
    else
      let s := s.cancelCmds fun m => m.of_ d t w
      if x.mode = .blocked ∨ x.mode = .frozenOut then
        if s.resident d t then match s.coreNamed d t w with
          | some c => s.killStrand c w.n false
          | none => s
        else s.killSaved d t w
      else s.modNamed d t w fun x => { x with condemned := if x.condemned.isSome then x.condemned else some x.time }

/-- A task's strand is alive. -/
def State.taskAlive (s : State) (d t : Nat) (k : Task) : Bool :=
  match k with
  | .localTask w => match s.namedStrand d t w with
    | some x => x.mode != .inactive
    | none => false
  | .contrib _ _ => false

/-! ## Release (R325) -/

/-- The contribution slot and the substitute slot of a task. -/
def Join.slotAt (j : Join) (k : Nat) : Word := j.slotBase + BitVec.ofNat 64 (k * j.stride)
def Join.substAt (j : Join) (k : Nat) : Word := j.subst + BitVec.ofNat 64 (k * j.stride)

/-- What the fill of one slot meets. -/
inductive Filled where
  | done (s : State)
  | wait (m : PageRequest)
  | fault

/-- The fill of the slot of a LOCAL task (R329). -/
def State.fillSlot (s : State) (d t : Nat) (j : Join) (k : Nat) : Filled :=
  let inMask := j.arrived.contains k
  let plan : Option (Option Word × Word) :=
    if j.fill = 2 then (if inMask then some (some (j.slotAt k), j.substAt k) else some (some (j.substAt k), j.slotAt k))
    else if inMask then none else some (none, j.slotAt k)
  match plan with
  | none => .done s
  | some (src, dst) =>
    let bar := (match src with
      | some a => s.teamBar d t a j.slotLen .read
      | none => none).or (s.teamBar d t dst j.slotLen .write)
    match bar with
    | some (.miss r) => .wait r
    | some _ => .fault
    | none => match src with
      | some a => let v := s.teamRead d t a j.slotLen; .done (v.2.teamWrite d t dst v.1.1 v.1.2)
      | none => .done (s.teamWrite d t dst (List.replicate j.slotLen 0) false)

/-- Step 5: the runs of entries that the join owns learn its mask and fill (R331). -/
def State.tellTiles (s : State) (d t q : Nat) : State :=
  s.modTeam d t fun m =>
    let j := m.joinAt q
    { m with tiles := m.tiles.map fun e =>
      let w2 := (look 0 e.2.words 2).toNat
      let idx := (look 0 e.2.words 5).toNat / 2 ^ 16 % 2 ^ 16
      match e.2.run with
      | some r => if flag w2 60 ∧ field w2 56 4 = q ∧ idx = 0 then (e.1, { e.2 with run := some { r with join := some j } }) else e
      | none => e }

/-- Step 6: the record is formed; RELEASED, or DONE when no straggler is alive (R319, R332). -/
def State.formRecord (s : State) (d t q : Nat) : State :=
  let j := (s.team d t).joinAt q
  let wArr := j.weightOf j.arrived
  let rfall := j.fill == 1 && wArr == 0
  let flags := (if j.replay.isSome then 1 else 0) + (if rfall then 2 else 0) + (if j.slotFault then 4 else 0)
  let r : JoinRecord :=
    { join := q, flags := BitVec.ofNat 8 flags, n := j.tasks.length, q := j.quorum, fill := j.fill, serial := j.serial + 1,
      stamp := j.stamp, wAll := j.weightAll, wArr := wArr, mask := j.arrived }
  let alive := j.stragglers.filter fun k => match j.tasks[k]? with
    | some x => s.taskAlive d t x
    | none => false
  s.modJoin d t q fun j =>
    { j with record := some r, serial := j.serial + 1, stragglers := alive, st := if alive.isEmpty then .done else .released, tag := none }

/-- Step 4 for the slots still to fill, then steps 5 and 6; it stops where a slot waits on a page. -/
def State.fillSlots (s : State) (d t q : Nat) : (todo : List Nat) → State
  | [] => ((s.modJoin d t q fun j => { j with todo := [] }).tellTiles d t q).formRecord d t q
  | k :: rest =>
    match s.fillSlot d t ((s.team d t).joinAt q) k with
    | .done s => s.fillSlots d t q rest
    | .fault => (s.modJoin d t q fun j => { j with slotFault := true }).fillSlots d t q rest
    | .wait r =>
      let p := s.postAll [r]
      p.2.modJoin d t q fun j => { j with todo := k :: rest, tag := p.1.head? }

/-- The release (R325): mask, condemnation, commit, slots, tiles, record. The slots wait until the commit has been performed. -/
def State.releaseJoin (s : State) (d t q : Nat) : State :=
  let j := (s.team d t).joinAt q
  let locals := (List.range j.tasks.length).filter fun k => match j.tasks[k]? with
    | some (.localTask _) => true
    | _ => false
  let out := locals.filter fun k => !j.arrived.contains k
  let s := s.modJoin d t q fun j => { j with st := .releasing, stragglers := out, slotFault := false, stamp := (s.die d).now }
  let s := out.foldl (fun s k => match j.tasks[k]? with
    | some (.localTask w) => (s.condemn d t w).discardHeld (.join d t q k)
    | _ => s) s
  let k := s.nextId
  let s := j.arrived.foldl (fun s i => s.commitHeld (.join d t q i) k) { s with nextId := k + 1 }
  let todo := if j.slotBase = 0 then [] else locals
  if s.commitDone k then s.fillSlots d t q todo
  else s.modJoin d t q fun j => { j with todo := todo, commit := some k }

/-- The releases that a commit held back go on once it has been performed on every die (R325): their teams and joins. -/
def State.committed (s : State) (k : Nat) : List (Nat × Nat × Nat) :=
  if s.commitDone k then
    s.dies.flatMap fun e => e.2.teams.flatMap fun t => (t.2.joins.filter fun j => j.2.commit == some k).map fun j => (e.1, t.1, j.1)
  else []

/-- A release whose commit has been performed goes on with its slots (R325). -/
def State.slotsOn (s : State) (d t q : Nat) : State :=
  let s := s.modJoin d t q fun j => { j with commit := none }
  s.fillSlots d t q ((s.team d t).joinAt q).todo

/-- An answered page request lets a release go on; one answered REFUSED skips the slot (R325). -/
def State.resumeRelease (s : State) (d t q : Nat) (refused : Bool) : State :=
  let j := (s.team d t).joinAt q
  let s := s.modJoin d t q fun j => { j with tag := none, slotFault := j.slotFault || refused }
  s.fillSlots d t q (if refused then j.todo.drop 1 else j.todo)

/-- How an arrival is taken (R320, R323). -/
inductive Arrival where
  | counted | already | late | excluded | noJoin | noTask
  deriving DecidableEq, Repr

def Join.arrival (j : Join) (k : Task) : Arrival :=
  if j.st = .free then .noJoin
  else match j.number k with
    | none => .noTask
    | some i =>
      if j.st ≠ .open_ then .late
      else if j.arrived.contains i then .already
      else match j.replay with
        | some m => if m.contains i then .counted else .excluded
        | none => .counted

/-- An arrival of a task reaches the home in a later cycle: in this one a task of a higher index has been taken (R320, R336; log
103). -/
def State.arrivesLater (s : State) (d t q i : Nat) : Bool :=
  match ((s.team d t).joinAt q).taken with
  | some (cycle, k) => cycle == (s.die d).now && i < k
  | none => false

/-- An arrival at the home: it is counted, and the join releases when the condition is met. -/
def State.arrive (s : State) (d t q : Nat) (k : Task) : State :=
  let j := (s.team d t).joinAt q
  match j.arrival k, j.number k with
  | .counted, some i =>
    let s := s.modJoin d t q fun j => { j with arrived := insertNat i j.arrived, taken := some ((s.die d).now, i) }
    if ((s.team d t).joinAt q).met then s.releaseJoin d t q else s
  | _, _ => s

end Sys2Proof.Machine
end

