-- ==== Sys2Proof/Machine/Fabric.lean ====
section
/-!
DEFINITION. Messages (R284 to R296): sealing, sending, answers, the one-sided writes with landing buffers, retries, SEND.
Payloads are kept as plaintext; the tag is that of the ciphertext under AES-256-GCM, whose algorithm is opaque (log 10).
-/

set_option Elab.async false

/-! ## Link frames (R283) -/

namespace Sys2Proof

/-- The sequence number of a frame: control bits [23:0]. -/
def Frame.number (f : Frame) : BitVec 24 := f.control.setWidth 24

/-- What the CRC-32 of a frame covers: its flits and control bits [31:0]. -/
def Frame.covered (f : Frame) : List Byte := f.flits.flatMap Machine.lineBytes ++ Machine.bytesOf 4 f.control.toNat

/-- The CRC-32 of a frame matches: control bits [63:32]. -/
def Frame.crcOk (f : Frame) : Bool := Machine.crc32 f.covered == f.control.extractLsb' 32 32

end Sys2Proof

namespace Sys2Proof.Machine

/-- Flits as a frame of a number, under its CRC. -/
def frameOf (number : BitVec 24) (flits : List Line) : Frame :=
  let f : Frame := { flits := flits, control := number.setWidth 64 }
  { f with control := f.control ||| ((crc32 f.covered).setWidth 64 <<< 32) }

/-! ## The form of a message (R285, R286) -/

/-- Header bytes 0x00 to 0x2F. -/
def headerBytes (m : Message) : List Byte :=
  bytesOf 4 m.dst.toNat ++ bytesOf 4 m.src.toNat ++ bytesOf 4 (m.gang.toNat + 2 ^ 24 * m.epoch.toNat)
    ++ bytesOf 2 (m.vf.toNat + (if m.byGang then 512 else 0)) ++ bytesOf 1 m.kind.toNat ++ bytesOf 1 m.flits.toNat
    ++ bytesOf 8 m.seq.toNat ++ bytesOf 8 m.wordA.toNat ++ bytesOf 8 m.wordB.toNat ++ bytesOf 2 m.bytes.toNat ++ bytesOf 6 0

/-- The type is one of R286, the payload count agrees with the length, and every field that R285 and R286 mark zero is zero. A
chunk phase that R286 does not give counts as none of its types (log 54). -/
def messageOk (m : Message) : Bool :=
  m.reserved == 0 && m.payload.length == m.bytes.toNat && m.bytes.toNat ≤ 4096 && m.flits.toNat == ceilDiv m.bytes.toNat 64 &&
  (match m.kind.toNat with
    | 1 => m.wordB == 0
    | 2 => m.wordB == 0 && m.wordA.toNat / 2 ^ 49 == 0
    | 3 => m.wordB == 0 && m.wordA.toNat / 2 ^ 12 == 0 && 8 ≤ m.bytes.toNat && m.bytes.toNat ≤ 128 && m.bytes.toNat % 8 == 0
    | 4 => field m.wordA.toNat 26 6 == 0 && m.wordB.toNat / 2 ^ 9 == 0 && m.wordB.toNat % 256 ≤ 2
    | 5 => m.wordB.toNat / 2 ^ 24 == 0 && m.bytes == 0
    | 6 => m.wordA.toNat / 2 ^ 10 == 0 && m.wordB == 0 && m.bytes == 0
    | 7 => m.wordA.toNat / 2 ^ 10 == 0 && m.wordB.toNat / 2 == 0 && m.bytes == 0
    | _ => false)

/-! ## Keys and sealing (R288) -/

/-- The nonce: sequence number, source endpoint, key epoch, zeros. -/
def nonceOf (m : Message) : BitVec 96 := ((m.seq ++ m.src) ++ m.epoch) ++ (0 : BitVec 18)

/-- The ciphertext of a payload. -/
def cipherOf (key : BitVec 256) (m : Message) : List Byte :=
  m.payload.zipIdx.map fun b => b.1 ^^^ Config.gcmStream key (nonceOf m) b.2

/-- The tag of a message under a key. -/
def tagOf (key : BitVec 256) (m : Message) : BitVec 128 := Config.gcmTag key (nonceOf m) (headerBytes m) (cipherOf key m)

/-- A message numbered and sealed by its die under the gang's current epoch (R288). -/
def State.seal (s : State) (d : Nat) (key : BitVec 256) (m : Message) : Message × State :=
  let g := s.gang m.gang
  let m := { m with epoch := g.epoch, seq := BitVec.ofNat 48 (look 0 g.seqs d), src := BitVec.ofNat 22 (endpointOf d) }
  ({ m with tag := tagOf key m }, s.modGang m.gang fun g => { g with seqs := ins g.seqs d (look 0 g.seqs d + 1) })

/-- The local port of its die by which a message leaves the package: that of its tile (R303); for a write by SEND the spec
names none, and it is a free value (log 35). -/
def portOf (m : Message) : Nat :=
  (if m.kind = 4 ∨ m.kind = 6 ∨ m.kind = 7 then m.wordA.toNat % 2 ^ 10 else Config.free m.seq.toNat) % 3

/-- The flits of a message: its header with the tag, its payload, encrypted (R285). -/
def flitsOf (key : BitVec 256) (m : Message) : List Line :=
  (chunksOf 64 65 (headerBytes m ++ bytesOf 16 m.tag.toNat ++ cipherOf key m)).map lineOf

/-- Flits as frames of 16, the last filled with empty flits, numbered from a number (R283). -/
def framesOf (number : BitVec 24) (fs : List Line) : List Frame :=
  (chunksOf 16 (fs.length + 1) fs).zipIdx.map fun f =>
    frameOf (number + BitVec.ofNat 24 f.2) (f.1 ++ List.replicate (16 - f.1.length) 0)

/-- A message for another package leaves by its port; the port keeps its last 256 frames (R283). -/
def State.depart (s : State) (d : Nat) (key : BitVec 256) (m : Message) : State :=
  if (dieOfEndpoint m.dst.toNat).isSome then s
  else s.modDie d fun k =>
    let p := look Port.reset k.ports (portOf m)
    let fs := framesOf p.out (flitsOf key m)
    let kept := p.sent ++ fs
    let q : Port := { p with out := p.out + BitVec.ofNat 24 fs.length, sent := kept.drop (kept.length - 256) }
    { k with ports := put Port.reset k.ports (portOf m) q }

/-- A message stays in the package, or the port by which it leaves is up. -/
def State.portUp (s : State) (d : Nat) (m : Message) : Bool :=
  (dieOfEndpoint m.dst.toNat).isSome || (look Port.reset (s.die d).ports (portOf m)).up

/-- A message of a partition of a die is sealed and leaves; else the status of R315: the partition has no key for the gang
(16), or the port is down (12). -/
def State.transmit (s : State) (d p : Nat) (m : Message) : Except Nat (Message × State) :=
  match (s.part p).gangKey m.gang (s.gang m.gang).epoch with
  | none => .error 16
  | some k =>
    let r := s.seal d k m
    if r.2.portUp d r.1 then
      let s := r.2.depart d k r.1
      .ok (r.1, { s with wire := s.wire ++ [r.1] })
    else .error 12

/-- A message without the fields that its die fills in. -/
def bareMessage (dst : Nat) (gang : BitVec 24) (kind : Nat) (a b : Word) (payload : List Byte) (mark : Bool) : Message :=
  { dst := BitVec.ofNat 22 dst, src := 0, gang := gang, epoch := 0, vf := 0, byGang := true, kind := BitVec.ofNat 8 kind,
    flits := BitVec.ofNat 8 (ceilDiv payload.length 64), seq := 0, wordA := a, wordB := b, bytes := BitVec.ofNat 16 payload.length,
    reserved := 0, tag := 0, payload := payload, mark := mark }

/-! ## Answers (R287) -/

/-- A RESPONSE to a message: answer, cause, reason. Under which key an answer of NO_TEAM or AUTH_FAIL is sealed the spec
does not say: the key shared among partitions stands in (log 34). -/
def State.respond (s : State) (d : Nat) (p : Option Nat) (m : Message) (answer cause reason : Nat) : State :=
  let b := BitVec.ofNat 64 (answer + 256 * cause + 65536 * reason)
  let r := { bareMessage m.src.toNat m.gang 5 (zext64 m.seq) b [] false with vf := m.vf }
  match p.map fun p => s.transmit d p r with
  | some (.ok x) => x.2
  | some (.error 12) => s
  | _ =>
    let k := sharedKey m.gang (s.gang m.gang).epoch
    let x := s.seal d k r
    if x.2.portUp d x.1 then let s := x.2.depart d k x.1; { s with wire := s.wire ++ [x.1] } else s

/-! ## Arrival (R284, R286, R289, R290) -/

/-- A message of one source to the same destination is ahead of a message on the wire (R10). -/
def State.behind (s : State) (m : Message) : Bool :=
  s.wire.contains m && (s.wire.takeWhile (· != m)).any fun k => k.src == m.src && k.dst == m.dst

/-- A message reaches its destination die: the die, and the state in which it is received. A message of a die of the package
comes off the wire, in the order of its source; one for another package leaves; one from outside for another package, or one
that breaks R286, is dropped and counted. -/
def State.reach (s : State) (kind : Nat) (m : Message) : Except State (Nat × State) :=
  if (m.kind.toNat ≠ kind ∧ 1 ≤ m.kind.toNat ∧ m.kind.toNat ≤ 7) ∨ s.behind m = true then .error s
  else
    let inside := s.wire.contains m
    let s := { s with wire := s.wire.erase m }
    match dieOfEndpoint m.dst.toNat with
    | none => .error (if inside then s else s.countDrop dropMessage)
    | some d => if messageOk m then .ok (d, s) else .error (s.countDrop dropMessage)

/-- The team that a message names on a die (R128, R290). -/
def State.messageTeam (s : State) (d : Nat) (m : Message) : Option Nat :=
  if m.byGang then s.gangTeam d m.gang
  else ((s.die d).teams.find? fun e => e.2.st != 0 && e.2.vf == m.vf.toNat && e.2.gang == m.gang).map (·.1)

/-- An arrival raises the gust of the team that it names (R289, R371). -/
def State.raiseGust (s : State) (d t : Nat) : State :=
  s.modTeam d t fun m => { m with gust := min 15 (m.gust + 1), arrived := true }

/-- The epoch of a message is its gang's current or previous one (R288). -/
def State.recent (s : State) (m : Message) : Bool :=
  let g := s.gang m.gang
  m.epoch == g.epoch || m.epoch + 1 == g.epoch

/-- The tag verifies under the team's key for an epoch that is current or previous (R288). -/
def State.authentic (s : State) (d t : Nat) (m : Message) : Bool :=
  s.recent m &&
  (match (s.part (s.team d t).part).gangKey m.gang m.epoch with
    | some k => tagOf k m == m.tag
    | none => false)

/-- The common part of a write's arrival: gust, NO_TEAM, AUTH_FAIL; else the team. -/
def State.admitWrite (s : State) (kind : Nat) (m : Message) : Except State (Nat × Nat × State) :=
  match s.reach kind m with
  | .error s => .error s
  | .ok (d, s) =>
    match s.messageTeam d m with
    | none => .error (s.respond d none m 5 0 0)
    | some t =>
      let s := s.raiseGust d t
      if s.authentic d t m then .ok (d, t, s) else .error (s.respond d (some (s.team d t).part) m 6 0 0)

/-- An answer to a write of a team. -/
def State.answer (s : State) (d t : Nat) (m : Message) (a : Nat) (cause reason : Nat := 0) : State :=
  s.respond d (some (s.team d t).part) m a cause reason

/-! ## Zeroing of a cluster (R401, R407) -/

/-- A core whose storage is zeroed and whose strands are gone; its times go on. -/
def Core.zeroed (k : Core) : Core :=
  { Core.reset with cycle := k.cycle, mtime := k.mtime, cBase := k.cBase, issued := k.issued }

def State.zeroCluster (s : State) (d ph : Nat) : State :=
  (List.range 8).foldl (fun s co => s.modCore (128 * d + 8 * ph + co) Core.zeroed) s

/-- SCAN_ABORT (R407): the tests of a partition's clusters on a die stop; the clusters are zeroed and returned, and a claim
that has ended a slice is dropped. -/
def State.abortScans (s : State) (d p : Nat) : State :=
  let mine := (s.die d).scans.filter fun x => x.part == some p
  let s := (mine.filter fun x => x.start.isSome).foldl (fun s x => s.zeroCluster d x.cl) s
  s.modDie d fun k => { k with
    scans := k.scans.filter fun x => x.part != some p
    teams := k.teams.map fun e => (e.1, if e.2.part = p ∧ e.2.stopping = 4 then { e.2 with stopping := 0 } else e.2) }

/-! ## The strands of a team, on its cores or saved -/

/-- Every strand of a team that its cores or its saved image hold. -/
def State.teamStrands (s : State) (d t : Nat) : List (StrandName × Strand) :=
  if s.resident d t then
    (s.coresOf (s.team d t).part d).flatMap fun c => (s.core c).strands.map fun e => (s.nameOf c e.1, e.2)
  else (s.team d t).saved.flatMap fun k => k.strands.map fun e => ({ cl := k.lcore / 8, co := k.lcore % 8, n := e.1 }, e.2)

/-- The syllables of the bundle at an address of a team, mirrors left out; none where it cannot be fetched. -/
def State.bundleAt (s : State) (d t va : Nat) : List Instr :=
  let word := fun (a : Nat) =>
    if localBase ≤ a then none
    else match s.xlate none (s.team d t).vf d t a .fetch with
      | .ok e off => some (BitVec.ofNat 32 (ofBytes (readBytes s.hbm (e.at_ off) 4)) : Word32)
      | _ => none
  match word va with
  | none => []
  | some h =>
    (headerOf h).slots.zipIdx.filterMap fun p =>
      if (headerOf h).mirrors.contains p.1 then none
      else (word (va + 4 * (p.2 + 1))).bind fun w => match decodeSyllable p.1 w with
        | .ok i => some i
        | .error _ => none

/-- The wait on a pending token of a strand that is blocked takes the reason of R92 that now holds: the producing command is in
landing retry, its peer is LOST, or neither (R293, R361, R388). WAITRSN.LAST keeps the reason with which the block began (DESIGN
CHOICE, log 113). -/
def State.rewaitTeam (s : State) (d t : Nat) : State :=
  (s.teamStrands d t).foldl (fun s e =>
    if e.2.mode == .blocked && !e.2.ending && [waitToken, waitLanding, waitPeer].contains e.2.wait.reason then
      match (s.bundleAt d t e.2.pc.toNat).filterMap (fun i => match i with
        | .tkwait _ k => if ((s.team d t).token k.toNat).st = .pending then some k.toNat else none
        | _ => none) with
      | [] => s
      | k :: _ => s.modNamed d t e.1 fun x => { x with wait := { x.wait with reason := s.tokenReason d t k } }
    else s) s

/-- The same for the team whose command sent a message. -/
def State.rewait (s : State) (x : Sent) : State :=
  match x.cmd.bind fun id => s.cmds.find? fun m => m.id == id with
  | some m => s.rewaitTeam m.d m.t
  | none => s

/-- The same for every team that has sent a message to a team that is LOST. -/
def State.rewaitAll (s : State) : State := s.sent.foldl (fun s x => s.rewait x) s

/-- A strand counts as parked. -/
def Strand.isParked (x : Strand) : Bool := x.mode == .inactive || x.parked || (x.mode == .blocked && !x.ending && x.wait.yBundle)

/-- The team is resident and issuing, so that a write for it is applied; otherwise it lands (R292, R391). -/
def State.takesMessages (s : State) (d t : Nat) : Bool :=
  s.resident d t && ((s.team d t).st == 4 || ((s.team d t).st == 5 && !(s.teamStrands d t).all fun e => e.2.isParked))

/-! ## One-sided writes (R291, R292) -/

/-- The lines of a payload at an address: their numbers, addresses, lengths and places in the payload. -/
def payloadLines (ea : Word) (n : Nat) : List (Nat × Word × Nat × Nat) :=
  (piecesOf ea n).zipIdx.map fun p => (p.2, p.1.1, p.1.2, (p.1.1 - ea).toNat)

/-- Some lines of a POOL_WRITE are written to a core. -/
def State.applyPool (s : State) (c off : Nat) (m : Message) (ls : List (Nat × Word × Nat × Nat)) : State :=
  ls.foldl (fun s l =>
    match scratchAt (s.core c).part (off + l.2.2.2) with
    | some o => s.poolPut c o ((m.payload.drop l.2.2.2).take l.2.2.1) m.mark
    | none => s) s

/-- The lines of a payload that are written now: one, by a free choice, or all that are left, and the answer is given with them. Between
its lines other agents may come (R266, R269). -/
def State.linesNow (s : State) (m : Message) (ls : List (Nat × Word × Nat × Nat)) : List (Nat × Word × Nat × Nat) × Bool :=
  let done := ((s.partWritten.find? fun e => e.1 == m).map (·.2)).getD []
  let left := ls.filter fun l => !done.contains l.1
  match if left.length ≤ 1 then none else left[s.draw.1 % (left.length + 1)]? with
  | some l => ([l], false)
  | none => (left, true)

/-- A one-sided write of which lines remain: they are noted, and the message comes again. -/
def State.notePart (s : State) (m : Message) (ls : List (Nat × Word × Nat × Nat)) : State :=
  let done := ((s.partWritten.find? fun e => e.1 == m).map (·.2)).getD []
  { s.draw.2 with partWritten := (s.partWritten.filter fun e => e.1 != m) ++ [(m, done ++ ls.map (·.1))] }

/-- A one-sided write is complete. -/
def State.dropPart (s : State) (m : Message) : State := { s with partWritten := s.partWritten.filter fun e => e.1 != m }

/-- Some lines of a POOL_WRITE for a team are written to its pool, and the rest has still to be. -/
def State.poolPart (s : State) (m : Message) : Bool := s.partWritten.any fun e => e.1 == m

/-- MEM_WRITE (R291). Its lines are written one by one or together; those on replicated pages are one update (R141). -/
def execMemWrite (m : Message) (s : State) : Out :=
  match s.admitWrite 1 m with
  | .error s => .next s
  | .ok (d, t, r) =>
    let ea : Word := BitVec.ofNat 64 (m.wordA.toNat % 2 ^ 42 + 2 ^ 42 * endpointOf d)
    match r.teamBar d t ea m.payload.length .write with
    | some (.miss q) => .next ((((r.postAll [q]).2).dropPart m).answer d t m 3)
    | some (.fault c why) => .next ((r.dropPart m).answer d t m 4 c why)
    | _ =>
      let targets := (piecesOf ea m.payload.length).filterMap fun p => match r.teamTarget none d t m.gang p.1 .write with
        | .ok tgt _ => some tgt
        | _ => none
      let ls := payloadLines ea m.payload.length
      let now := if targets.any r.isReplicated then (ls, true) else s.linesNow m ls
      let write := fun (s : State) => now.1.foldl (fun s l =>
        s.teamWrite d t l.2.1 ((m.payload.drop l.2.2.2).take l.2.2.1) m.mark) s
      if targets.any r.isLocked then .next s
      else if now.2 then .next (((write r).dropPart m).answer d t m 0)
      else .next ((write s).notePart m now.1)

/-- The strand and stream that a STREAM_WRITE names. -/
def streamName (m : Message) : StrandName × Nat :=
  let a := m.wordA.toNat
  ({ cl := field a 0 4, co := field a 4 3, n := field a 7 2 }, field a 9 3)

/-- The core that a POOL_WRITE names, and its offset. -/
def poolName (m : Message) : StrandName × Nat :=
  let a := m.wordA.toNat
  ({ cl := field a 42 4, co := field a 46 3, n := 0 }, a % 2 ^ 42)

/-- The team has the core on the die. -/
def State.teamHasCore (s : State) (d t : Nat) (w : StrandName) : Bool := (s.coreNamed d t w).isSome

/-- The strand is one that its core runs: not INACTIVE (R291). -/
def State.strandRuns (s : State) (d t : Nat) (w : StrandName) : Bool :=
  match s.namedStrand d t w with
  | some x => x.mode != .inactive
  | none => false

/-- The elements of a payload. -/
def streamElems (m : Message) : List Elem :=
  (List.range (m.payload.length / 8)).map fun i =>
    { val := BitVec.ofNat 64 (ofBytes ((m.payload.drop (8 * i)).take 8)), mark := m.mark }

/-- A STREAM_WRITE is applied to a strand. -/
def Strand.applyStream (t : Strand) (k : Nat) (m : Message) : Strand :=
  { t with streams := put [] t.streams k (t.stream k ++ streamElems m) }

/-- Room for a whole STREAM_WRITE (R89, R291). -/
def Strand.takes (t : Strand) (k : Nat) (m : Message) : Bool := (t.stream k).length + m.payload.length / 8 ≤ 16

/-- The entry of the landing ring that the next message takes: the next free one after the last taken (R292). -/
def Team.nextEntry (k : Team) : Option Nat :=
  let n := 2 ^ k.lsize
  let from_ := (k.landing.getLast?.map fun l => l.slot + 1).getD 0
  ((List.range n).map fun i => (from_ + i) % n).find? fun e => k.landing.all fun l => l.slot != e

/-- The address of an entry of a team's landing ring. -/
def Team.entryAt (k : Team) (e : Nat) : Nat := 65536 * k.lbase.toNat + 4160 * e

/-- An entry: the header, decrypted, and a payload slot of 4,096 bytes. -/
def landingBytes (m : Message) : List Byte :=
  headerBytes m ++ bytesOf 16 m.tag.toNat ++ m.payload ++ List.replicate (4096 - m.payload.length) 0

/-- A landing entry, or a refusal (R292, R293). -/
def State.land (s : State) (d t : Nat) (m : Message) : State :=
  match (s.team d t).nextEntry with
  | some e =>
    let s := s.hbmWrite ((s.team d t).entryAt e) (landingBytes m) m.mark
    (s.modTeam d t fun k => { k with landing := k.landing ++ [{ slot := e, m := m }] }).answer d t m 0
  | none => s.answer d t m 1

/-- An entry is freed: it is zeroed (R292). -/
def State.freeEntry (s : State) (d t e : Nat) : State := s.hbmWrite ((s.team d t).entryAt e) (List.replicate 4160 0) false

def execPoolWrite (m : Message) (old : State) : Out :=
  match old.admitWrite 2 m with
  | .error s => .next s
  | .ok (d, t, s) =>
    let w := poolName m
    if !s.teamHasCore d t w.1 then .next (s.answer d t m 4 pageFaultCode localReason)
    else if s.takesMessages d t || (s.resident d t && s.poolPart m) then
      match s.coreNamed d t w.1 with
      | some c =>
        let now := s.linesNow m (payloadLines (BitVec.ofNat 64 w.2) m.payload.length)
        if now.2 then .next (((s.applyPool c w.2 m now.1).dropPart m).answer d t m 0)
        else .next ((old.applyPool c w.2 m now.1).notePart m now.1)
      | none => .next s
    else .next ((s.dropPart m).land d t m)

/-- A launch record of class 3 for a conductor (R395, R407). -/
def classThree (m : Message) : Bool := 24 ≤ m.payload.length && field (ofBytes ((m.payload.drop 16).take 8)) 56 2 == 3

/-- A strand name is the conductor's. -/
def State.namesConductor (s : State) (d t : Nat) (w : StrandName) : Bool :=
  w.n == 3 && w.co == 0 && (s.clustersOn (s.team d t).part d).head? == some w.cl

def execStreamWrite (m : Message) (s : State) : Out :=
  match s.admitWrite 3 m with
  | .error s => .next s
  | .ok (d, t, s) =>
    let w := streamName m
    if !s.strandRuns d t w.1 then .next (s.answer d t m 4 pageFaultCode localReason)
    else
      let s := if w.2 = 7 ∧ s.namesConductor d t w.1 ∧ classThree m then s.abortScans d (s.team d t).part else s
      if s.takesMessages d t then
        let pending := (s.team d t).landing.any fun l => l.m.kind == 3 && streamName l.m == w
        match s.coreNamed d t w.1 with
        | some c =>
          if pending || !(s.strand c w.1.n).takes w.2 m then .next (s.answer d t m 2)
          else .next ((s.modStrand c w.1.n fun x => x.applyStream w.2 m).answer d t m 0)
        | none => .next s
      else .next (s.land d t m)

/-- A landed message applied at its core, when it can be. -/
def State.applyLanded (s : State) (d t : Nat) (m : Message) : Option State :=
  if m.kind = 2 then
    let w := poolName m
    (s.coreNamed d t w.1).map fun c => s.applyPool c w.2 m (payloadLines (BitVec.ofNat 64 w.2) m.payload.length)
  else
    let w := streamName m
    match s.coreNamed d t w.1 with
    | some c =>
      let x := s.strand c w.1.n
      if x.mode != .inactive && x.takes w.2 m then some (s.modStrand c w.1.n fun x => x.applyStream w.2 m) else none
    | none => none

/-- A landed message as its entry holds it: marked when a line of its payload has become poisoned (R348). -/
def State.landedMessage (s : State) (d t : Nat) (l : Landed) : Message :=
  { l.m with mark := l.m.mark || (linesOf ((s.team d t).entryAt l.slot + 64) l.m.payload.length).any s.hbmPoison.contains }

/-- Landed messages in arrival order: those that fit are applied and their entries freed, a message behind one for its own
register stays (R292). -/
def State.applyAll (s : State) (d t : Nat) : (todo kept : List Landed) → State
  | [], kept => s.modTeam d t fun k => { k with landing := kept }
  | l :: rest, kept =>
    if kept.any fun k => k.m.kind == 3 && l.m.kind == 3 && streamName k.m == streamName l.m then s.applyAll d t rest (kept ++ [l])
    else match s.applyLanded d t (s.landedMessage d t l) with
      | some s => (s.freeEntry d t l.slot).applyAll d t rest kept
      | none => s.applyAll d t rest (kept ++ [l])

/-- LANDED_STREAM_APPLY (R292). -/
def execLandedStreamApply (d t : Nat) (s : State) : Out :=
  if s.takesMessages d t then .next (s.applyAll d t (s.team d t).landing []) else .next s

/-! ## The sender's side (R287, R293, R295) -/

/-- The wait of the sender for a message ends. -/
def State.dropSent (s : State) (id : Nat) : State := { s with sent := s.sent.filter fun x => x.id != id }
def State.modSent (s : State) (id : Nat) (f : Sent → Sent) : State :=
  { s with sent := s.sent.map fun x => if x.id = id then f x else x }

/-- Status and cause that an answer gives a command or a run (R295, R315). -/
def answerStatus (answer cause : Nat) : Nat × Nat :=
  match answer with
  | 4 => (stTranslation, cause)
  | 5 => (stTranslation, pageFaultCode)
  | 6 => (16, 0)
  | _ => (19, 0)

/-- A change of a run and its entry. -/
def State.modTile (s : State) (d t i : Nat) (f : Tile → Tile) : State :=
  s.modTeam d t fun m => { m with tiles := put Tile.reset m.tiles i (f (look Tile.reset m.tiles i)) }
def State.tile (s : State) (d t i : Nat) : Tile := look Tile.reset (s.team d t).tiles i

/-- A message of a VF window has its answer (R394). -/
def State.windowAnswer (s : State) (x : Sent) (r : Message) : State :=
  match x.window with
  | none => s
  | some v => s.modVf v fun f => { f with window := none, response := headerBytes r ++ bytesOf 16 r.tag.toNat }

/-- A sender stops with a status of R315 without an answer: the wait ends; the command keeps its first failure, the run fails
through `fail`, the message window is free. -/
def State.stopSender (s : State) (x : Sent) (st : Nat) (fail : State → Nat → Nat → Nat → Nat → Nat → State) : State :=
  let s := s.dropSent x.id
  let s := match x.cmd with
    | some id => s.modCmd id fun m =>
        { m with
          unanswered := m.unanswered - 1
          status := if m.status = 0 then st else m.status
          failAddr := if m.status = 0 then x.m.wordA else m.failAddr }
    | none => s
  let s := match x.window with
    | some v => s.modVf v fun f => { f with window := none }
    | none => s
  match x.tile with
  | some (t, i) =>
    let s := s.modTile x.d t i fun e => { e with run := e.run.map fun r => { r with unanswered := r.unanswered - 1 } }
    fail s x.d t i st 0
  | none => s

/-- What an answer means to the command that sent the message. -/
def State.sendAnswered (s : State) (id answer cause : Nat) (ea : Word) : State :=
  s.modCmd id fun m =>
    if answer = 0 then { m with unanswered := m.unanswered - 1, progress := m.progress + 1 }
    else
      let st := answerStatus answer cause
      { m with
        unanswered := m.unanswered - 1
        status := if m.status = 0 then st.1 else m.status
        cause := if m.status = 0 then st.2 else m.cause
        failAddr := if m.status = 0 then ea else m.failAddr }

/-- A final answer to a message; a run of the entry that sent it is told through `fail`. -/
def State.answered (s : State) (x : Sent) (r : Message) (answer cause : Nat) (fail : State → Nat → Nat → Nat → Nat → Nat → State) :
    State :=
  let s := (s.dropSent x.id).windowAnswer x r
  let s := match x.cmd with
    | some id => s.sendAnswered id answer cause x.m.wordA
    | none => s
  match x.tile with
  | none => s
  | some (t, i) =>
    let s := s.modTile x.d t i fun e =>
      { e with run := e.run.map fun r => { r with unanswered := r.unanswered - 1 } }
    if answer = 0 then s else let st := answerStatus answer cause; fail s x.d t i st.1 st.2

/-- The sender of a message gave up on it: its command was cancelled, or the command is gone. -/
def State.abandoned (s : State) (x : Sent) : Bool :=
  match x.cmd with
  | some id => match s.cmds.find? fun m => m.id == id with
    | some m => m.cancel || m.done
    | none => true
  | none => false

/-- The retry interval of a message: 1 us after the first refusal, doubled after each later one, up to 64 us (R293). -/
def retryInterval (refusals : Nat) : Nat := 1700 * min 64 (2 ^ (refusals - 1))

/-- NO_RESPONSE (R287): 1 ms without an answer. -/
def noResponseDue (s : State) (x : Sent) : Bool := !x.resting && x.sentAt + 1700000 ≤ (s.die x.d).now

/-- The partition under whose keys a message was sent. -/
def State.senderPart (s : State) (x : Sent) : Nat :=
  match x.cmd, x.tile, x.window with
  | some id, _, _ => match s.cmds.find? fun m => m.id == id with
    | some m => (s.team m.d m.t).part
    | none => 64
  | _, some (t, _), _ => (s.team x.d t).part
  | _, _, some v => ((s.vf v).part).getD 64
  | _, _, _ => 64

/-- MESSAGE_RETRY (R293): the message is sealed and sent again as a new arrival, under a number of its own. A sender whose
partition has lost its key, or whose port is down, stops (R283, R288). -/
def State.retry (s : State) (id : Nat) (fail : State → Nat → Nat → Nat → Nat → Nat → State) : Out :=
  match s.sent.find? fun x => x.id == id with
  | none => .next s
  | some x =>
    if !x.resting || (s.die x.d).now < x.sentAt + retryInterval x.refusals then .next s
    else match s.transmit x.d (s.senderPart x) x.m with
      | .ok r => .next ((r.2.modSent id fun x => { x with m := r.1, resting := false, sentAt := (s.die x.d).now }).rewait x)
      | .error st => .next (s.stopSender x st fail)

/-! ## SEND (R294, R295) -/

/-- The kind, length and selector of a SEND. -/
def sendKind : Instr → Nat
  | .send _ _ _ _ k => k.toNat
  | _ => 0
def sendLength (m : Captured) : Nat := (m.f 1).toNat

/-- The limits of R294. A field that a kind does not name is ignored (R247). -/
def sendCheck (m : Captured) : Option (Nat × Nat × Word) :=
  let k := sendKind m.op
  let n := sendLength m
  let w := (m.f 2).toNat
  if n = 0 ∨ 2 ^ 32 ≤ n ∨ (k = 2 ∧ (n < 8 ∨ 128 < n ∨ n % 8 ≠ 0 ∨ m.xa.toNat % 2 ^ 42 ≠ 0)) ∨ w / 2 ^ 12 ≠ 0 then some (stBadDescriptor, 0, 0)
  else if k = 1 ∧ (m.xa.toNat % 8 ≠ 0 ∨ n % 8 ≠ 0) then some (stTranslation, misalignedCode, m.xa)
  else none

/-- Word A of message i of a SEND. -/
def sendWord (m : Captured) (i : Nat) : Word :=
  let w := (m.f 2).toNat
  match sendKind m.op with
  | 0 => m.xa + BitVec.ofNat 64 (4096 * i)
  | 1 => BitVec.ofNat 64 ((m.xa.toNat + 4096 * i) % 2 ^ 42 + 2 ^ 42 * (w % 16) + 2 ^ 46 * (w / 16 % 8))
  | _ => BitVec.ofNat 64 (w % 2 ^ 12)

/-- The endpoint and stream that a SEND of kind .stream names. -/
def sendStream (m : Captured) : Option (Nat × Nat) :=
  if sendKind m.op = 2 then some (m.xa.toNat / 2 ^ 42, (m.f 2).toNat % 2 ^ 12) else none

/-- An earlier SEND of the strand to the same stream register has not ended (R295). -/
def State.sendBehind (s : State) (m : Cmd) : Bool :=
  (sendStream m.cap).isSome && s.cmds.any fun k => k.id < m.id && !k.done && k.of_ m.d m.t m.who
    && (match k.cap.op with
      | .send _ _ _ _ _ => true
      | _ => false)
    && sendStream k.cap == sendStream m.cap

/-- A message whose answer a die's unit awaits. -/
def State.keepSent (s : State) (d : Nat) (m : Message) (cmd : Option Nat) (tile : Option (Nat × Nat)) (window : Option Nat) : State :=
  { s with
    sent := s.sent ++ [{ id := s.nextId, d := d, m := m, cmd := cmd, tile := tile, window := window, refusals := 0,
                         resting := false, sentAt := (s.die d).now }]
    nextId := s.nextId + 1 }

/-- One step of SEND: the next message, at most 8 unanswered; the end once every message sent is answered. -/
def State.stepSend (s : State) (m : Cmd) : Option State :=
  let n := sendLength m.cap
  let total := ceilDiv n 4096
  let finish := if m.unanswered = 0 then s.endCmd m.id m.status m.cause m.failAddr else none
  if m.status ≠ 0 ∨ total ≤ m.next then finish
  else if 8 ≤ m.unanswered ∨ !m.tags.isEmpty then none
  else
    let src := m.cap.f 0 + BitVec.ofNat 64 (4096 * m.next)
    match s.cmdReadRange m src (min 4096 (n - 4096 * m.next)) with
    | .wait r a => some (s.awaitPage m.id r a)
    | .stuck => none
    | .fail c a => some (s.modCmd m.id fun m => { m with status := stTranslation, cause := c, failAddr := a })
    | .ok v s =>
      let msg := bareMessage (m.cap.xa.toNat / 2 ^ 42) m.gang (1 + sendKind m.cap.op) (sendWord m.cap m.next) 0 v.1 v.2
      match s.transmit m.d (s.team m.d m.t).part msg with
      | .error st => some (s.modCmd m.id fun m => { m with status := st, cause := 0, failAddr := msg.wordA })
      | .ok r => some ((r.2.keepSent m.d r.1 (some m.id) none none).modCmd m.id fun m =>
          { m with next := m.next + 1, unanswered := m.unanswered + 1 })

/-- A cancelled SEND: every pending retry ends; the command ends once every message sent has been answered (R296). -/
def State.cancelSend (s : State) (m : Cmd) : Option State :=
  match s.sent.find? fun x => x.cmd == some m.id && x.resting with
  | some x => some ((s.dropSent x.id).modCmd m.id fun m => { m with unanswered := m.unanswered - 1 })
  | none => if m.unanswered = 0 then s.endCmd m.id stCancelled 0 0 else none

def execSend (a b d : BitVec 6) (c : Bool) (k : BitVec 2) (s : State) : Out := queued (.send a b d c k) (some a) b (some d) s

end Sys2Proof.Machine
end

