-- ==== Sys2Proof/Machine/Float.lean ====
section
/-!
DEFINITION. The scalar floating-point instructions (R108 to R112).
-/

set_option Elab.async false
namespace Sys2Proof.Machine

/-- The format of a precision field (R48). -/
def precFmt (p : BitVec 2) : Fmt := if p = 0 then fmtF32 else fmtF64

/-- The value of a register in a precision; an F32 operand is bits [31:0] (R88). -/
def floatOf (p : BitVec 2) (w : Word) : Val := (precFmt p).decode (w.toNat % 2 ^ (precFmt p).width)

/-- The rounding mode of a field; 7 selects RMODE (R48, R77). -/
def State.roundMode (s : State) (r : BitVec 3) : RMode :=
  if r.toNat = 7 then RMode.ofBits s.me.ctl.rmode else RMode.ofBits (r.setWidth 2)

/-- A two-operand float instruction with its latency in each precision (R112). -/
def floatTwo (i : Instr) (d a b : BitVec 6) (p : BitVec 2) (r : BitVec 3) (l32 l64 : Nat)
    (f : Fmt → RMode → Val → Val → Nat × Events) (s : State) : Out :=
  issuePlain i s fun s =>
    let mode := s.roundMode r
    let q := s.src2 a b
    let v := f (precFmt p) mode (floatOf p q.1.1) (floatOf p q.1.2.1)
    q.2.result (if p = 0 then l32 else l64) (.x d (BitVec.ofNat 64 v.1)) (q.1.2.2 || q.2.ctlMark i.controls) (q.2.eventRecords v.2)

/-- A float operation on the divide-and-root unit of its slot; a mirror occupies SB's unit too (R112). -/
def floatRoot (i : Instr) (d : BitVec 6) (p : BitVec 2) (r : BitVec 3)
    (read : State → (Val × Val × Bool) × State) (f : Fmt → RMode → Val → Val → Nat × Events) (s : State) : Out :=
  issueWith i s (fun s =>
    { holds := (s.divHold (s.issue.slot != 0)).or (if s.issue.mirrored then s.divHold true else none) }) fun s =>
    let n := if p = 0 then 14 else 24
    let mode := s.roundMode r
    let q := read s
    let v := f (precFmt p) mode q.1.1 q.1.2.1
    let s := q.2.useDivider (q.2.issue.slot != 0) n
    let s := if s.issue.mirrored then s.useDivider true n else s
    s.result n (.x d (BitVec.ofNat 64 v.1)) (q.1.2.2 || s.ctlMark i.controls) (s.eventRecords v.2)

/-- The operations of R108 that round. -/
def floatOp (g : RMode → Val → Val → Val) (f : Fmt) (mode : RMode) (a b : Val) : Nat × Events :=
  f.result mode (a.isNan || b.isNan) (g mode a b)

def execFadd (d a b : BitVec 6) (p : BitVec 2) (r : BitVec 3) (s : State) : Out :=
  floatTwo (.fadd d a b p r) d a b p r 4 4 (floatOp Val.add) s
def execFsub (d a b : BitVec 6) (p : BitVec 2) (r : BitVec 3) (s : State) : Out :=
  floatTwo (.fsub d a b p r) d a b p r 4 4 (floatOp Val.sub) s
def execFmul (d a b : BitVec 6) (p : BitVec 2) (r : BitVec 3) (s : State) : Out :=
  floatTwo (.fmul d a b p r) d a b p r 4 6 (floatOp fun _ => Val.mul) s
def execFmin (d a b : BitVec 6) (p : BitVec 2) (r : BitVec 3) (s : State) : Out :=
  floatTwo (.fmin d a b p r) d a b p r 4 4 (floatOp fun _ => Val.min) s
def execFmax (d a b : BitVec 6) (p : BitVec 2) (r : BitVec 3) (s : State) : Out :=
  floatTwo (.fmax d a b p r) d a b p r 4 4 (floatOp fun _ => Val.max) s

def execFdiv (d a b : BitVec 6) (p : BitVec 2) (r : BitVec 3) (s : State) : Out :=
  floatRoot (.fdiv d a b p r) d p r (fun s =>
    let q := s.src2 a b
    ((floatOf p q.1.1, floatOf p q.1.2.1, q.1.2.2), q.2)) Fmt.divide s

def execFsqrt (d a : BitVec 6) (p : BitVec 2) (r : BitVec 3) (s : State) : Out :=
  floatRoot (.fsqrt d a p r) d p r (fun s =>
    let q := s.src a
    ((floatOf p q.1.1, .nan, q.1.2), q.2)) (fun f mode x _ => f.sqrt mode x) s

/-- R109: xd + xa x xb with one rounding. -/
def execFfma (d a b : BitVec 6) (p : BitVec 2) (r : BitVec 3) (s : State) : Out :=
  issuePlain (.ffma d a b p r) s fun s =>
    let mode := s.roundMode r
    let acc := floatOf p (s.me.reg d)
    let mark := s.me.regMark d
    let q := s.src2 a b
    let x := floatOf p q.1.1
    let y := floatOf p q.1.2.1
    let v := (precFmt p).result mode (acc.isNan || x.isNan || y.isNan) (Val.add mode acc (x.mul y))
    q.2.result (if p = 0 then 5 else 7) (.x d (BitVec.ofNat 64 v.1))
      (mark || q.1.2.2 || q.2.ctlMark (Instr.ffma d a b p r).controls) (q.2.eventRecords v.2)

/-- The value of a register in a kind of FCVT: F32, F64, signed, unsigned (R110). -/
def kindOf (k : BitVec 2) (w : Word) : Val :=
  match k.toNat with
  | 0 => floatOf 0 w
  | 1 => floatOf 1 w
  | 2 => Val.ofUnits w.toInt 0
  | _ => .fin false w.toNat 0

/-- A value into a kind of FCVT (R79, R110). -/
def toKind (k : BitVec 2) (mode : RMode) (v : Val) : Word × Events :=
  match k.toNat with
  | 0 => let r := fmtF32.conv mode v; (BitVec.ofNat 64 r.1, r.2)
  | 1 => let r := fmtF64.conv mode v; (BitVec.ofNat 64 r.1, r.2)
  | 2 => let r := intConv mode (-(2 ^ 63)) (2 ^ 63 - 1) v; (BitVec.ofInt 64 r.1, r.2)
  | _ => let r := intConv mode 0 (2 ^ 64 - 1) v; (BitVec.ofInt 64 r.1, r.2)

def execFcvt (d a : BitVec 6) (k t : BitVec 2) (r : BitVec 3) (s : State) : Out :=
  issuePlain (.fcvt d a k t r) s fun s =>
    let mode := s.roundMode r
    let q := s.src a
    let v := toKind t mode (kindOf k q.1.1)
    q.2.result 3 (.x d v.1) (q.1.2 || q.2.ctlMark (Instr.fcvt d a k t r).controls) (q.2.eventRecords v.2)

/-- R111: no record is appended. -/
def execFcmp (d a b : BitVec 6) (p : BitVec 2) (c : BitVec 3) (s : State) : Out :=
  aluTwo (.fcmp d a b p c) d a b 2 (fun x y => ofBool64 (fcmpHolds c (floatOf p x) (floatOf p y))) s

end Sys2Proof.Machine
end

