-- ==== Sys2Proof/Machine/TileMath.lean ====
section
/-!
DEFINITION. The arithmetic of collectives: XS64 chunks (R83 to R87), the sweeps of STAGE (R310, R331), the fused update (R311),
the fields of a tile-table entry and the division of its data (R297, R298, R304, R305).
-/

set_option Elab.async false
namespace Sys2Proof.Machine

/-! ## XS64 chunks (R83 to R85) -/

/-- A chunk: scale, flags, emax (-32768 for none), contribution count, 256 elements. -/
structure XChunk where
  scale : Int
  exceeded : Bool
  repeated : Bool
  emax : Int
  count : Nat
  elems : List Int
  deriving DecidableEq, Repr

def XChunk.bytes (c : XChunk) : List Byte :=
  (c.elems.flatMap fun v => bytesOf 8 (wrap 64 v)) ++ bytesOf 2 (wrap 16 c.scale)
    ++ bytesOf 1 ((if c.exceeded then 1 else 0) + (if c.repeated then 2 else 0)) ++ bytesOf 1 0 ++ bytesOf 2 (wrap 16 c.emax)
    ++ bytesOf 2 0 ++ bytesOf 4 c.count ++ bytesOf 52 0

def xchunkOf (bs : List Byte) : XChunk :=
  let num := fun (o n : Nat) => ofBytes ((bs.drop o).take n)
  { scale := signedOf 16 (num 2048 2), exceeded := flag (num 2050 1) 0, repeated := flag (num 2050 1) 1,
    emax := signedOf 16 (num 2052 2), count := num 2056 4,
    elems := (List.range 256).map fun i => signedOf 64 (num (8 * i) 8) }

/-- One contribution at a scale: its integer, whether it exceeds the scale, its exponent (R84). -/
def enterElem (scale : Int) (v : Val) : Int × Bool × Int :=
  match v with
  | .fin s m e =>
    let k := roundDiv .rne s (m * pow2Num (e - scale)) (pow2Den (e - scale))
    let sign := fun n : Nat => if s then -(n : Int) else (n : Int)
    let emax := if m = 0 then -32768 else ilog2 m e
    if k < 2 ^ 40 then (sign k, false, emax) else (sign (2 ^ 40 - 1), true, emax)
  | _ => (0, true, 0x7FFF)

/-- A contribution as a chunk of its own (R84); a short one is padded with zeros (R83). -/
def enterChunk (scale : Int) (repeated : Bool) (vs : List Val) : XChunk :=
  let es := vs.map (enterElem scale)
  { scale := scale, exceeded := es.any (·.2.1), repeated := repeated, emax := es.foldl (fun a e => max a e.2.2) (-32768), count := 1,
    elems := es.map (·.1) ++ List.replicate (256 - es.length) 0 }

/-- Two chunks at one scale combined (R84, R85). -/
def XChunk.add (a b : XChunk) : XChunk :=
  { a with
    exceeded := a.exceeded || b.exceeded, repeated := a.repeated || b.repeated, emax := max a.emax b.emax, count := a.count + b.count
    elems := (a.elems.zip b.elems).map fun p => p.1 + p.2 }

/-- A chunk that nothing has entered. -/
def XChunk.zero (scale : Int) (repeated : Bool) : XChunk :=
  { scale := scale, exceeded := false, repeated := repeated, emax := -32768, count := 0, elems := List.replicate 256 0 }

/-- An exact value times f and the ratio n / d, rounded into a format (R87, R310, R331). -/
def scaledResult (efc : Nat) (v f : Val) (n d : Nat) : Nat :=
  match v.mul f with
  | .fin s m e => (efcFrac efc .rne s (m * n) d e).1
  | w => (efcConv efc .rne w).1

/-- An element of a completed chunk (R87, R310): a NaN factor gives NaN, else S = 0 gives +0. -/
def xsResult (efc : Nat) (scale S : Int) (f : Val) (n d : Nat) : Nat :=
  if f.isNan then (efcConv efc .rne .nan).1
  else if S = 0 then (efcConv efc .rne (.fin false 0 0)).1
  else scaledResult efc (Val.ofUnits S scale) f n d

/-! ## Fields of an entry (R297) -/

/-- The image words 0 to 9 by name. -/
structure Entry where
  src : Word
  dst : Word
  len : Nat
  srcf : Nat
  dstf : Nat
  op : Nat
  alg : Nat
  fallback : Bool
  xs : Bool
  valid : Bool
  join : Nat
  jv : Bool
  peers : List Nat
  scale : Int
  idx : Nat
  nc : Nat
  ctok : Nat
  factor : Val
  eta : Val
  mu : Val
  param : Word
  mom : Word
  deriving DecidableEq, Repr

def entryOf (ws : Sparse Word) : Entry :=
  let w := fun k : Nat => (look 0 ws k).toNat
  { src := look 0 ws 0, dst := look 0 ws 1, len := field (w 2) 0 40, srcf := field (w 2) 40 4, dstf := field (w 2) 44 4,
    op := field (w 2) 48 3, alg := field (w 2) 51 2, fallback := flag (w 2) 53, xs := flag (w 2) 54, valid := flag (w 2) 55,
    join := field (w 2) 56 4, jv := flag (w 2) 60,
    peers := [field (w 3) 0 22, field (w 3) 22 22, field (w 4) 0 22, field (w 4) 22 22],
    scale := signedOf 16 (field (w 5) 0 16), idx := field (w 5) 16 16, nc := field (w 5) 32 16, ctok := field (w 5) 48 8,
    factor := fmtF32.decode (field (w 6) 0 32), eta := fmtF32.decode (field (w 6) 32 32), mu := fmtF32.decode (field (w 7) 0 32),
    param := look 0 ws 8, mom := look 0 ws 9 }

/-- SUM, MAX, SGD, MOMENTUM reduce; SGD and MOMENTUM update parameters. -/
def Entry.reduces (e : Entry) : Bool := e.op ≤ 3
def Entry.updates (e : Entry) : Bool := e.op == 2 || e.op == 3

/-- An address of R298: team memory of a die, a multiple of the element size. -/
def tileAddress (d : Nat) (a : Word) (size : Nat) : Bool :=
  a.toNat / 2 ^ 42 == endpointOf d && a.toNat % 2 ^ 42 < localBase && a.toNat % size == 0

/-- The formats of R298. -/
def Entry.formatsOk (e : Entry) : Bool :=
  let float4 := fun c : Nat => c ≤ 3
  match e.op with
  | 0 => if e.xs then float4 e.srcf && float4 e.dstf
         else e.alg == 1 && ((e.srcf ≤ 2 && e.dstf == 0) || (e.srcf == 3 && e.dstf == 3))
  | 1 => !e.xs && e.srcf ≤ 4 && e.dstf == e.srcf
  | 2 | 3 => e.xs && float4 e.srcf && e.dstf == 0 && e.alg ≤ 1
  | _ => !e.xs && e.srcf ≤ 12 && e.dstf == e.srcf && e.alg ≤ 1 && !e.jv

/-- The peers of R298. -/
def Entry.peersOk (e : Entry) (d : Nat) : Bool :=
  let me := endpointOf d
  let p := fun k : Nat => nth 0 e.peers k
  let ring := if e.nc = 1 then e.peers.all (· == 0)
    else p 2 == 0 && p 3 == 0 && p 0 != me && p 1 != me && (if e.nc = 2 then p 0 == p 1 else p 0 != p 1)
  match e.alg with
  | 0 => ring
  | 1 =>
    let used := e.peers.take (e.nc - 1)
    (e.peers.drop (e.nc - 1)).all (· == 0) && used.all (· != me) && used.eraseDups.length == used.length
  | _ => if e.fallback then ring else e.peers.all (· == 0)

/-- The limits of R298 on an image with V = 1. -/
def Entry.ok (e : Entry) (d : Nat) : Bool :=
  1 ≤ e.len && e.op ≤ 5 && e.alg ≤ 2 && e.ctok != 255 && e.formatsOk && 1 ≤ e.nc && (e.alg != 1 || e.nc ≤ 5) && e.idx < e.nc
    && (!e.jv || e.alg == 1) && e.peersOk d && tileAddress d e.src (elemBytes e.srcf) && tileAddress d e.dst (elemBytes e.dstf)
    && (!e.updates || tileAddress d e.param 4) && (e.op != 3 || tileAddress d e.mom 4)

/-! ## Chunks and segments (R304, R305, R331) -/

/-- Chunks of one contributor's data, and of the whole run. -/
def Entry.part (e : Entry) : Nat := ceilDiv e.len 256
def Entry.total (e : Entry) : Nat := if e.op = 4 then e.nc * e.part else e.part

/-- The owner of a chunk. -/
def Entry.owner (e : Entry) (c : Nat) : Nat :=
  if e.op = 4 then c / e.part
  else if e.op = 5 ∨ e.jv then 0
  else ceilDiv ((c + 1) * e.nc) e.part - 1

/-- Elements of a chunk, its first element at the source and at the destination. -/
def Entry.count (e : Entry) (c : Nat) : Nat := min 256 (e.len - 256 * (c % e.part))
def Entry.srcAt (e : Entry) (c : Nat) : Nat := 256 * (c % e.part)
def Entry.dstAt (e : Entry) (c : Nat) : Nat := if e.op = 4 then c / e.part * e.len + 256 * (c % e.part) else 256 * c

/-- The endpoint of a contributor under STAGE, where the peers are the others in ascending index. -/
def Entry.stagePeer (e : Entry) (k : Nat) : Nat := nth 0 e.peers (if k < e.idx then k else k - 1)

/-- The other contributors. -/
def Entry.others (e : Entry) : List Nat := (List.range e.nc).filter (· != e.idx)

/-- The next contributor of a ring. -/
def Entry.next (e : Entry) (k : Nat) : Nat := (k + 1) % e.nc

/-- Codes of a chunk on a float wire, as bytes: 256 elements (R304). -/
def wireBytes (efc : Nat) (cs : List Nat) : List Byte :=
  let w := efcWidth efc
  bytesOf (256 * w / 8) ((cs ++ List.replicate (256 - cs.length) 0).foldr (fun c a => c + 2 ^ w * a) 0)

/-- The codes of a float-wire chunk. -/
def wireCodes (efc n : Nat) (bs : List Byte) : List Nat :=
  let w := efcWidth efc
  let v := ofBytes bs
  (List.range n).map fun i => v / 2 ^ (w * i) % 2 ^ w

/-! ## Sweeps (R310, R331) -/

/-- The larger of two codes of a format (R310). -/
def maxCode (efc a b : Nat) : Nat := (efcConv efc .rne ((efcDecode efc a).max (efcDecode efc b))).1

/-- What MAX gives for no contribution (R175, R331). -/
def maxEmpty (efc : Nat) : Nat := if efc = 4 then 2 ^ 31 else (efcConv efc .rne (.inf true)).1

/-- The sweep of a float-wire element over contributions in ascending index. -/
def sweepElem (e : Entry) (xs : List Nat) (n d : Nat) : Nat :=
  if e.op = 1 then
    match xs with
    | [] => maxEmpty e.srcf
    | x :: rest => rest.foldl (maxCode e.srcf) (efcConv e.srcf .rne (efcDecode e.srcf x)).1
  else
    match xs with
    | [] => (efcConv e.dstf .rne (.fin false 0 0)).1
    | x :: rest =>
      let acc := rest.foldl (fun (a : Val) y => efcDecode e.dstf (efcConv e.dstf .rne (Val.add .rne a (efcDecode e.srcf y))).1)
        (efcDecode e.srcf x)
      scaledResult e.dstf acc e.factor n d

/-! ## The fused update (R311) -/

/-- One parameter: the new parameter and the new momentum. -/
def updateElem (e : Entry) (g w m : Nat) : Nat × Nat :=
  let f := fmtF32
  let minus := fun x : Val => (f.conv .rne (Val.sub .rne (f.decode w) (e.eta.mul x))).1
  if e.op = 2 then (minus (f.decode g), m)
  else
    let m2 := (f.conv .rne (Val.add .rne (e.mu.mul (f.decode m)) (f.decode g))).1
    (minus (f.decode m2), m2)

end Sys2Proof.Machine
end

