-- ==== Sys2Proof/Machine/Tile.lean ====
section
/-!
DEFINITION. Tile-table entries and their runs (R297 to R316, R331): what a port sequencer reads, combines, sends and writes,
the end of a run, the messages CHUNK, CHUNK_ABORT, RESPONSE, SLOT_REQUEST and SLOT_ANSWER, trackers, TTSET, TREADY, TRKARM.
-/

set_option Elab.async false
namespace Sys2Proof.Machine

/-- The endpoint that stands for the Wealet switch at the far end of a port (log 36). -/
def switchEndpoint : Nat := 0x3FFFFF

def Tile.entry (e : Tile) : Entry := entryOf e.words
def tileIdle : Nat := 1
def tileArmed : Nat := 2
def tileRunning : Nat := 3
def tileSlotWait : Nat := 4

/-- A change of the run of an entry. -/
def State.modRun (s : State) (d t i : Nat) (f : Run → Run) : State := s.modTile d t i fun e => { e with run := e.run.map f }

/-! ## The staging of a port (R307) -/

/-- The port that an entry of a die runs on (R303). -/
def tilePort (i : Nat) : Nat := i % 3

/-- Slots of a port's 8 MiB of staging: 62 of 2,112 bytes, the longest chunk, in each of its 64 banks of 128 KiB; slot k lies in
bank k mod 64 (log 100). -/
def stagingSlots : Nat := 64 * 62

/-- The slots of a port that chunks hold, or that are granted to results to come. -/
def State.slotsTaken (s : State) (d q : Nat) : List Nat :=
  (s.die d).teams.flatMap fun e => (e.2.tiles.filter fun x => tilePort x.1 == q).flatMap fun x =>
    x.2.held.flatMap (·.slots) ++ ((x.2.run.map (·.rooms)).getD []).map (·.2.2)

/-- The first free slots, so many, from slot k on. -/
def firstFree (taken : List Nat) : (fuel need k : Nat) → List Nat
  | 0, _, _ => []
  | n + 1, need, k =>
    if need = 0 then [] else if taken.contains k then firstFree taken n need (k + 1) else k :: firstFree taken n (need - 1) (k + 1)

/-- Chunk c is the lowest that a run of the entry has not completed. -/
def Tile.lowest (k : Tile) (c : Nat) : Bool :=
  match k.run with
  | some r => k.st == tileRunning && (List.range c).all r.done.contains
  | none => false

/-- The slots that staging grants to a chunk of so many bytes; none while it is full. The last 64 slots are kept for the lowest
chunk that a run has not completed, so that a full staging does not keep a run from going on (log 100). -/
def State.grant (s : State) (d t i c bytes : Nat) : Option (List Nat) :=
  let taken := s.slotsTaken d (tilePort i)
  let need := max 1 (ceilDiv bytes 2112)
  let kept := if (look Tile.reset (s.team d t).tiles i).lowest c then 0 else 64
  if taken.length + need + kept ≤ stagingSlots then some (firstFree taken stagingSlots need 0) else none

/-- Before a contribution or a partial sum leaves, a slot is granted to the result chunk that answers it; none while staging is full
(R307). -/
def State.reserve (s : State) (d t i c : Nat) (repeated : Bool) : Option State :=
  (s.grant d t i c 2112).map fun ls => s.modRun d t i fun r => { r with rooms := r.rooms ++ ls.map fun l => (c, repeated, l) }

/-- The slots for a chunk that arrives: what was granted to a result before its contribution left, else what is free. -/
def State.roomFor (s : State) (d t i phase c : Nat) (repeated : Bool) (bytes : Nat) : Option (List Nat × State) :=
  let mine := fun x : Nat × Bool × Nat => phase == 1 && x.1 == c && x.2.1 == repeated
  match (((look Tile.reset (s.team d t).tiles i).run.map (·.rooms)).getD []).find? mine with
  | some x => some ([x.2.2], s.modRun d t i fun r => { r with rooms := r.rooms.filter fun y => !mine y })
  | none => (s.grant d t i c bytes).map fun ls => (ls, s)

/-! ## Sending (R304, R313) -/

/-- A chunk leaves for an endpoint, or the status that its sending ends with. It goes to the team's gang of now, under that gang's key: a
TEAM_SET of GANG takes effect at the next bundle and says nothing of a run that a TREADY before it has fired (R102; DESIGN CHOICE, log
127). -/
def State.sendChunk (s : State) (d t i dst phase c : Nat) (repeated : Bool) (payload : List Byte) (mark : Bool) : Except Nat State :=
  let e := (s.tile d t i).entry
  let a := BitVec.ofNat 64 (i + 2 ^ 10 * e.idx + 2 ^ 32 * c)
  let b := BitVec.ofNat 64 (phase + (if repeated then 256 else 0))
  match s.transmit d (s.team d t).part (bareMessage dst (s.team d t).gang 4 a b payload mark) with
  | .error st => .error st
  | .ok r =>
    let s := r.2.modTile d t i fun k => { k with sent := k.sent ^^^ crc64 payload }
    .ok ((s.keepSent d r.1 none (some (t, i)) none).modRun d t i fun r => { r with unanswered := r.unanswered + 1 })

/-- A chunk to each of some endpoints. -/
def State.sendChunks (s : State) (d t i : Nat) (dsts : List Nat) (phase c : Nat) (repeated : Bool) (payload : List Byte) (mark : Bool) :
    Except Nat State :=
  dsts.foldl (fun (a : Except Nat State) dst => a.bind fun s => s.sendChunk d t i dst phase c repeated payload mark) (.ok s)

/-- An abort to an endpoint: it is answered by nothing and waited for by nobody. -/
def State.sendAbort (s : State) (d t i dst : Nat) : State :=
  let e := (s.tile d t i).entry
  let a := BitVec.ofNat 64 (i + 2 ^ 10 * e.idx)
  match s.transmit d (s.team d t).part (bareMessage dst (s.team d t).gang 4 a 2 [] false) with
  | .ok r => r.2
  | .error _ => s

/-- The endpoints that the PEER fields of an entry name under an algorithm (R298). -/
def Entry.named (e : Entry) (alg : Nat) : List Nat :=
  (e.peers.take (match alg with
    | 0 => min 2 (e.nc - 1)
    | 1 => e.nc - 1
    | _ => if e.fallback then min 2 (e.nc - 1) else 0)).eraseDups

/-- The algorithm of an entry's run (R308). -/
def Tile.algorithm (k : Tile) : Nat := (k.run.map (·.alg)).getD k.entry.alg

/-- The endpoints of the other contributors that an entry names, or the switch. -/
def Tile.peerEndpoints (k : Tile) : List Nat :=
  if k.algorithm = 2 then [switchEndpoint] else k.entry.named k.algorithm

/-- The contributors that the mask of a run's join leaves out (R331). -/
def Tile.excluded (k : Tile) (i : Nat) : List Nat :=
  match k.run.bind (·.join) with
  | some j => (List.range k.entry.nc).filter fun x => match j.number (.contrib i x) with
      | some n => !j.arrived.contains n
      | none => false
  | none => []

/-- The chunks that a contributor has not sent to a run: those that it may still send when the mask has left it out (R331); when an abort
has ended its entry, only those on the way. -/
def Tile.owed (k : Tile) (r : Run) (x : Nat) : List Nat :=
  (((r.stopped.find? fun p => p.1 == x).map (·.2)).getD (List.range k.entry.total)).filter fun c =>
    !r.used.contains (0, x, c, false) && !k.held.any fun h => h.phase == 0 && h.from_ == x && h.chunk == c && !h.repeated

/-! ## The end of a run (R299, R314, R315, R359) -/

/-- A run ends with a status; `abort` sends one to each peer. What it leaves in staging is zeroed (R307): a chunk stays that the
run has used before, one of a later run, and a slot answer. -/
def State.endRun (s : State) (d t i status cause : Nat) (abort : Bool) : State :=
  let k := s.tile d t i
  match k.run with
  | none => s
  | some r =>
    let s := if abort then k.peerEndpoints.foldl (fun s dst => s.sendAbort d t i dst) s else s
    let s := match r.strand with
      | some (w, addr) =>
        if !r.reran.isEmpty || status == 14 then
          s.recordTo d t w [mkRecord addr 14 6 r.reran.length (BitVec.ofNat 64 i)] false
        else s
      | none => s
    let next := fun h : HeldChunk => h.phase == 3 || r.used.contains (h.phase, h.from_, h.chunk, h.repeated)
    let out := (k.excluded i).filter (· != k.entry.idx)
    let s := s.modTile d t i fun k =>
      { k with
        st := tileIdle, status := status, cause := cause, ready := false, run := none, repeated := k.repeated || !r.reran.isEmpty
        held := k.held.filter next
        late := out.foldl (fun l x => put [] l x (k.owed r x)) k.late }
    let s := { s with sent := s.sent.map fun x : Sent => if x.d == d && x.tile == some (t, i) then { x with tile := none } else x }
    let st : TokenState := if status = 0 then .ok else if status = stCancelled then .cancelled else .error
    s.setToken d t r.token { st := st, index := r.done.length, status := status, cause := cause, cmd := none }

/-- A run ends because of a failure of its own (R315): aborts go to its peers. -/
def State.failRun (s : State) (d t i status cause : Nat) : State := s.endRun d t i status cause true

/-! ## Memory of a run (R303) -/

/-- What a range of team memory meets. -/
inductive Reach where
  | ok
  | wait (m : Option PageRequest)
  | fault (cause : Nat)

/-- The pages of an entry's requests that were answered REFUSED: an access that meets one faults (R136). -/
def State.refusedPages (s : State) (d t i : Nat) : List Nat := (((s.tile d t i).run).map (·.refused)).getD []

def State.reaches (s : State) (d t : Nat) (refused : List Nat) (ea : Word) (n : Nat) (acc : Acc) : Reach :=
  if (piecesOf ea n).any fun p => s.refusedAt d t refused p.1 then .fault stage2Code
  else match s.teamBar d t ea n acc with
  | some (.miss r) => .wait (some r)
  | some (.fault c _) => .fault c
  | some .away => .wait none
  | _ =>
    let locked := (piecesOf ea n).any fun p => match s.teamTarget none d t (s.team d t).gang p.1 acc with
      | .ok tgt _ => if acc == .read then s.readLocked tgt else s.isLocked tgt
      | _ => false
    if locked then .wait none else .ok

/-- The bytes that elements lie in: address, bytes, bit offset in the first. -/
def elemSpan (base : Word) (efc first n : Nat) : Word × Nat × Nat :=
  let w := efcWidth efc
  let bit := first * w
  (base + BitVec.ofNat 64 (bit / 8), ceilDiv (bit % 8 + n * w) 8, bit % 8)

/-- A list of ranges that a chunk needs; the first that bars it. -/
def State.reachAll (s : State) (d t i : Nat) (rs : List (Word × Nat × Acc)) : Reach :=
  rs.foldl (fun (a : Reach) r => match a with
    | .ok => s.reaches d t (s.refusedPages d t i) r.1 r.2.1 r.2.2
    | a => a) .ok

/-- Elements of team memory, as codes. -/
def State.readElems (s : State) (d t : Nat) (base : Word) (efc first n : Nat) : (List Nat × Bool) × State :=
  let p := elemSpan base efc first n
  let r := s.teamRead d t p.1 p.2.1
  let v := ofBytes r.1.1 / 2 ^ p.2.2
  (((List.range n).map fun i => v / 2 ^ (efcWidth efc * i) % 2 ^ efcWidth efc, r.1.2), r.2)

/-- Elements into team memory; the rest of a byte that 4-bit elements share is kept. -/
def State.writeElems (s : State) (d t : Nat) (base : Word) (efc first : Nat) (cs : List Nat) (mark : Bool) : State :=
  let p := elemSpan base efc first cs.length
  let w := efcWidth efc * cs.length
  let v := cs.foldr (fun c a => c + 2 ^ efcWidth efc * a) 0
  if p.2.2 = 0 ∧ w % 8 = 0 then s.teamWrite d t p.1 (bytesOf p.2.1 v) mark
  else
    let r := s.teamRead d t p.1 p.2.1
    let old := ofBytes r.1.1
    let kept := old % 2 ^ p.2.2 + old / 2 ^ (p.2.2 + w) * 2 ^ (p.2.2 + w)
    r.2.teamWrite d t p.1 (bytesOf p.2.1 (kept + v * 2 ^ p.2.2)) mark

/-- The own elements of a chunk, the span of its result. -/
def Entry.srcSpan (e : Entry) (c : Nat) : Word × Nat × Acc :=
  let p := elemSpan e.src e.srcf (e.srcAt c) (e.count c)
  (p.1, p.2.1, .read)
def Entry.dstSpan (e : Entry) (c : Nat) : Word × Nat × Acc :=
  let p := elemSpan e.dst e.dstf (e.dstAt c) (e.count c)
  (p.1, p.2.1, .write)

/-! ## One action of a run -/

/-- What one action does. -/
inductive Act where
  | did (s : State)
  | wait (s : State)      -- the chunk waits on a page or a lock; others may go on
  | fail (status cause : Nat) (s : State)

/-- A chunk that cannot reach its memory: its request is posted; a fault ends the run. -/
def State.stallRun (s : State) (d t i : Nat) (r : Reach) (k : State → Act) : Act :=
  match r with
  | .ok => k s
  | .fault c => .fail stTranslation c s
  | .wait none => .wait s
  | .wait (some m) =>
    let p := s.postAll [m]
    .wait (p.2.modRun d t i fun r => { r with stall := p.1.foldl (fun l x => insertNat x l) r.stall })

/-- The scale and the largest exponent of what a run has seen (R297). -/
def State.noteScale (s : State) (d t i : Nat) (c : XChunk) : State :=
  s.modTile d t i fun k =>
    let top := match k.run.bind (·.scale) with
      | some x => max x c.scale
      | none => c.scale
    { k with
      scused := BitVec.ofInt 16 top
      emaxv := BitVec.ofInt 16 (max (signedOf 16 k.emaxv.toNat) c.emax)
      run := k.run.map fun r => { r with scale := some top } }

/-- The own contribution of a chunk at a scale, as wire bytes with its mark: an XS64 chunk, or 256 elements. -/
def State.ownChunk (s : State) (d t i c : Nat) (scale : Int) (repeated : Bool) : (List Byte × Bool) × State :=
  let e := (s.tile d t i).entry
  let r := s.readElems d t e.src e.srcf (e.srcAt c) (e.count c)
  if e.xs then
    let x := enterChunk scale repeated (r.1.1.map (efcDecode e.srcf))
    ((x.bytes, r.1.2), r.2.noteScale d t i x)
  else ((wireBytes e.srcf r.1.1, r.1.2), r.2)

/-- A partial sum of MAX or of XS64 (R305). -/
def combine (e : Entry) (a b : List Byte) : List Byte :=
  if e.xs then ((xchunkOf a).add (xchunkOf b)).bytes
  else wireBytes e.srcf (((wireCodes e.srcf 256 a).zip (wireCodes e.srcf 256 b)).map fun p => maxCode e.srcf p.1 p.2)

/-- Result codes of a chunk into DST; the chunk is done. -/
def State.writeResult (s : State) (d t i c : Nat) (codes : List Nat) (mark : Bool) : State :=
  let e := (s.tile d t i).entry
  (s.writeElems d t e.dst e.dstf (e.dstAt c) (codes.take (e.count c)) mark).modRun d t i fun r =>
    let done := insertNat c r.done
    { r with done := done, lastAt := if done.length = e.total then some (s.die d).now else r.lastAt }

/-- Where a completed or gathered chunk goes next: around the ring, or from its owner to every other contributor. Under a join
the owner sends to the contributors of the mask and those that no task names (R331). -/
def Tile.spread (k : Tile) (c i : Nat) (first : Bool) : List Nat :=
  let e := k.entry
  match k.run with
  | none => []
  | some r =>
    if r.alg = 0 then (if e.nc ≤ 1 ∨ e.next e.idx = e.owner c then [] else [nth 0 e.peers 0])
    else if !first then []
    else
      let out := match r.join with
        | some j => e.others.filter fun x => match j.number (.contrib i x) with
            | some n => !j.arrived.contains n
            | none => false
        | none => []
      (e.others.filter fun x => !out.contains x).map e.stagePeer

/-- The rescale ratio of a run (R330). -/
def Run.ratio (r : Run) : Nat × Nat :=
  match r.join with
  | some j => if j.fill = 1 ∧ j.weightOf j.arrived ≠ 0 then (j.weightAll, j.weightOf j.arrived) else (1, 1)
  | none => (1, 1)

/-- Chunk c is to be run again at a scale (R309). -/
def Run.rerun (r : Run) (c : Nat) (scale : Int) : Run :=
  if r.reran.any fun x => x.1 == c then r else { r with reran := r.reran ++ [(c, scale)] }

/-- Accepted contributions into substitute slots (R331): contributor, slot address, codes in a format. -/
def State.acceptSlots (s : State) (d t i : Nat) (ws : List (Word × Nat × Nat × List Nat × Bool)) : State :=
  ws.foldl (fun s w =>
    let p := elemSpan w.1 w.2.1 w.2.2.1 w.2.2.2.1.length
    match s.reaches d t (s.refusedPages d t i) p.1 p.2.1 .write with
    | .fault c => s.modRun d t i fun r => { r with substFault := r.substFault.or (some c) }
    | _ => s.writeElems d t w.1 w.2.1 w.2.2.1 w.2.2.2.1 w.2.2.2.2) s

/-- The parts of a sweep: the contributor, its wire bytes and mark. -/
abbrev Part := Nat × List Byte × Bool

/-- The slots that an owner's sweep reads for excluded contributors under SUBSTITUTE: contributor, slot. -/
def Tile.substitutes (k : Tile) (i : Nat) : List (Nat × Word) :=
  match k.run.bind (·.join) with
  | some j => if j.fill = 2 then (k.excluded i).filterMap fun x => (j.number (.contrib i x)).map fun n => (x, j.substAt n) else []
  | none => []

/-- The slots that take the accepted contributions. -/
def Tile.accepts (k : Tile) (i : Nat) : List (Nat × Word) :=
  match k.run.bind (·.join) with
  | some j => if j.fill = 2 then (List.range k.entry.nc).filterMap fun x => match j.number (.contrib i x) with
      | some n => if j.arrived.contains n then some (x, j.substAt n) else none
      | none => none
    else []
  | none => []

/-- The format of a substitute slot. -/
def Entry.slotFormat (e : Entry) : Nat := if e.xs then 3 else e.srcf

/-- The sweep of a chunk by its owner, all of its memory within reach (R306, R309 to R311, R331). -/
def State.sweepNow (s : State) (d t i c : Nat) (repeated : Bool) (parts : List Part) : Act :=
  let k := s.tile d t i
  let e := k.entry
  match k.run with
  | none => .wait s
  | some r =>
    let n := e.count c
    let scale := match r.reran.find? fun x => x.1 == c with
      | some x => if repeated then x.2 else e.scale
      | none => e.scale
    let subs := (k.substitutes i).foldl (fun (a : List (Nat × List Nat × Bool) × State) x =>
      let v := a.2.readElems d t x.2 e.slotFormat (e.srcAt c) n
      (a.1 ++ [(x.1, v.1.1, v.1.2)], v.2)) ([], s)
    let s := subs.2
    let mark := parts.any (·.2.2) || subs.1.any (·.2.2)
    let ratio := r.ratio
    -- an empty set of contributions gives +0, whatever the factor (R331)
    let result := fun (efc : Nat) (v : Int) =>
      if parts.isEmpty && subs.1.isEmpty then (efcConv efc .rne (.fin false 0 0)).1 else xsResult efc scale v e.factor ratio.1 ratio.2
    if e.xs then
      let whole := parts.foldl (fun a p => XChunk.add a (xchunkOf p.2.1)) (XChunk.zero scale repeated)
      let whole := subs.1.foldl (fun a x => XChunk.add a (enterChunk scale repeated (x.2.1.map fmtF64.decode))) whole
      let s := s.noteScale d t i whole
      let spread := fun (s : State) (payload : List Byte) =>
        match s.sendChunks d t i (k.spread c i true) 1 c repeated payload mark with
        | .ok s => Act.did s
        | .error st => .fail st 0 s
      if whole.exceeded then
        let s := if repeated then s.modRun d t i fun r => { r with exceeded := true }
          else s.modRun d t i fun r => r.rerun c (whole.emax - 38)
        spread s whole.bytes
      else
        let accepted := (k.accepts i).filterMap fun x =>
          (parts.find? fun p => p.1 == x.1).map fun p =>
            (x.2, 3, e.srcAt c, ((xchunkOf p.2.1).elems.take n).map fun v => (fmtF64.conv .rne (Val.ofUnits v scale)).1, p.2.2)
        let s := s.acceptSlots d t i accepted
        if e.updates then
          let gs := (whole.elems.take n).map (result 0)
          let ws := s.readElems d t e.param 0 (e.srcAt c) n
          let ms := if e.op = 3 then ws.2.readElems d t e.mom 0 (e.srcAt c) n else ((List.replicate n 0, false), ws.2)
          let new := (gs.zip (ws.1.1.zip ms.1.1)).map fun p => updateElem e p.1 p.2.1 p.2.2
          let mark := mark || ws.1.2 || ms.1.2
          let s := if e.op = 3 then ms.2.writeElems d t e.mom 0 (e.srcAt c) (new.map (·.2)) mark else ms.2
          let s := s.writeElems d t e.param 0 (e.srcAt c) (new.map (·.1)) mark
          let s := s.writeResult d t i c (new.map (·.1)) mark
          match s.sendChunks d t i (k.spread c i true) 1 c repeated (wireBytes 0 (new.map (·.1))) mark with
          | .ok s => .did s
          | .error st => .fail st 0 s
        else
          let codes := (whole.elems.take n).map (result e.dstf)
          let s := s.writeResult d t i c codes mark
          spread s (if e.jv then wireBytes e.dstf codes else whole.bytes)
    else
      let mine : List (Nat × List Nat) := (parts.map fun p => (p.1, wireCodes e.srcf n p.2.1)) ++ subs.1.map fun x => (x.1, x.2.1)
      let sorted := (List.range e.nc).filterMap fun x => (mine.find? fun p => p.1 == x).map (·.2)
      let codes := (List.range n).map fun u => sweepElem e (sorted.map fun l => nth 0 l u) ratio.1 ratio.2
      let accepted := (k.accepts i).filterMap fun x =>
        (parts.find? fun p => p.1 == x.1).map fun p => (x.2, e.srcf, e.srcAt c, wireCodes e.srcf n p.2.1, p.2.2)
      let s := s.acceptSlots d t i accepted
      let s := s.writeResult d t i c codes mark
      match s.sendChunks d t i (k.spread c i true) 1 c repeated (wireBytes e.dstf codes) mark with
      | .ok s => .did s
      | .error st => .fail st 0 s

/-- The ranges that a sweep needs. -/
def Tile.sweepSpans (k : Tile) (i c : Nat) : List (Word × Nat × Acc) :=
  let e := k.entry
  let f32 := fun (base : Word) (acc : Acc) => let p := elemSpan base 0 (e.srcAt c) (e.count c); (p.1, p.2.1, acc)
  let slot := fun (x : Nat × Word) => let p := elemSpan x.2 e.slotFormat (e.srcAt c) (e.count c); (p.1, p.2.1, Acc.read)
  [e.dstSpan c] ++ (if e.updates then [f32 e.param .read, f32 e.param .write] else [])
    ++ (if e.op = 3 then [f32 e.mom .read, f32 e.mom .write] else []) ++ (k.substitutes i).map slot

/-- The pages of the substitute slots that take contributions: waited for, skipped when they fault. -/
def State.acceptWait (s : State) (d t : Nat) (k : Tile) (i c : Nat) : Reach :=
  let e := k.entry
  (k.accepts i).foldl (fun (a : Reach) x => match a with
    | .ok =>
      let p := elemSpan x.2 e.slotFormat (e.srcAt c) (e.count c)
      match s.reaches d t (s.refusedPages d t i) p.1 p.2.1 .write with
      | .wait m => .wait m
      | _ => .ok
    | a => a) .ok

/-- The sweep of a chunk when its memory can be reached. -/
def State.sweep (s : State) (d t i c : Nat) (repeated : Bool) (parts : List Part) (use : State → State) : Act :=
  let k := s.tile d t i
  s.stallRun d t i (s.reachAll d t i (k.sweepSpans i c)) fun s =>
    s.stallRun d t i (s.acceptWait d t k i c) fun s => (use s).sweepNow d t i c repeated parts

/-! ## The chunks in staging -/

def HeldChunk.key (h : HeldChunk) : Nat × Nat × Nat × Bool := (h.phase, h.from_, h.chunk, h.repeated)

/-- A chunk leaves staging into the run: its digest counts (R313). The run's own contribution is no message. -/
def State.useChunk (s : State) (d t i : Nat) (h : HeldChunk) : State :=
  s.modTile d t i fun k =>
    { k with
      held := k.held.erase h
      repeated := k.repeated || h.repeated
      recv := if h.phase = 0 ∧ h.from_ = k.entry.idx then k.recv else k.recv ^^^ crc64 h.payload
      run := k.run.map fun r => { r with used := r.used ++ [h.key] } }

/-- This contributor begins chunk c of a run itself. -/
def Entry.begins (e : Entry) (alg c : Nat) : Bool :=
  if !e.reduces then e.owner c == e.idx
  else if alg = 0 ∧ e.nc ≠ 1 then e.next (e.owner c) == e.idx
  else true

/-- The lengths of the result chunk of a reduction: an XS64 chunk where every contributor forms the result, or where it tells of an
excess; else elements of the destination (R304, R309, R311, R331). -/
def Entry.resultOk (e : Entry) (payload : List Byte) : Bool :=
  let n := payload.length
  if e.xs then (n == 2112 && ((!e.jv && !e.updates) || (xchunkOf payload).exceeded)) || ((e.jv || e.updates) && n == 32 * efcWidth (if e.updates then 0 else e.dstf))
  else n == 32 * efcWidth e.dstf

/-- The contributor from which a chunk may come: around the ring the one before, under STAGE a contributor for its owner and the
owner for the others (R305, R306); from the switch any (R308). -/
def Tile.senderOk (k : Tile) (h : HeldChunk) : Bool :=
  let e := k.entry
  if k.algorithm = 2 then h.phase == 1
  else if k.algorithm = 0 ∧ e.nc ≠ 1 then e.next h.from_ == e.idx && !(h.phase == 0 && e.begins 0 h.chunk)
  else if h.phase = 0 then e.owner h.chunk == e.idx
  else e.owner h.chunk == h.from_

/-- A chunk whose header or length disagrees with the entry (R298). -/
def Tile.disagrees (k : Tile) (h : HeldChunk) : Bool :=
  let e := k.entry
  let wire := 32 * efcWidth e.srcf
  let n := h.payload.length
  let badScale := e.xs && n == 2112 && !h.repeated && (xchunkOf h.payload).scale != e.scale
  e.total ≤ h.chunk || e.nc ≤ h.from_ || badScale || !k.senderOk h ||
    (if h.phase = 0 then !e.reduces || n != (if e.xs then 2112 else wire)
     else if e.reduces then !e.resultOk h.payload
     else n != wire)

/-- A gathered chunk (R305, R309): written, forwarded; a flagged one is learnt. -/
def State.takeResult (s : State) (d t i : Nat) (h : HeldChunk) : Act :=
  let k := s.tile d t i
  let e := k.entry
  let c := h.chunk
  let forward := fun s : State =>
    match s.sendChunks d t i (k.spread c i false) 1 c h.repeated h.payload h.mark with
    | .ok s => Act.did s
    | .error st => .fail st 0 s
  let x := xchunkOf h.payload
  let xs := e.xs && h.payload.length == 2112
  if xs && x.exceeded then
    let s := (s.useChunk d t i h).noteScale d t i x
    forward (if h.repeated then s.modRun d t i fun r => { r with exceeded := true }
      else s.modRun d t i fun r => r.rerun c (x.emax - 38))
  else s.stallRun d t i (s.reachAll d t i [e.dstSpan c]) fun s =>
    let s := s.useChunk d t i h
    let s := if xs then s.noteScale d t i x else s
    let codes := if xs then (x.elems.take (e.count c)).map fun v => xsResult e.dstf x.scale v e.factor 1 1
      else wireCodes (if e.updates then 0 else e.dstf) (e.count c) h.payload
    forward (s.writeResult d t i c codes h.mark)

/-- A partial sum on its way around the ring (R305): this contributor adds its own and sends it on, or owns the chunk. -/
def State.takePartial (s : State) (d t i : Nat) (h : HeldChunk) : Act :=
  let k := s.tile d t i
  let e := k.entry
  let c := h.chunk
  s.stallRun d t i (s.reachAll d t i [e.srcSpan c]) fun s =>
    let scale := if e.xs then (xchunkOf h.payload).scale else 0
    let go := fun s : State =>
      let s := if e.xs then s.noteScale d t i (xchunkOf h.payload) else s
      let own := s.ownChunk d t i c scale h.repeated
      let sum := combine e h.payload own.1.1
      let mark := h.mark || own.1.2
      (own.2, sum, mark)
    if e.owner c = e.idx then
      s.stallRun d t i (s.reachAll d t i (k.sweepSpans i c)) fun s =>
        let r := go (s.useChunk d t i h)
        if e.xs && h.repeated then
          (r.1.modRun d t i fun x => x.rerun c scale).sweepNow d t i c h.repeated [(e.idx, r.2.1, r.2.2)]
        else r.1.sweepNow d t i c h.repeated [(e.idx, r.2.1, r.2.2)]
    else
      let r := go (s.useChunk d t i h)
      match r.1.reserve d t i c h.repeated with
      | none => .wait s
      | some q => match q.sendChunk d t i (nth 0 e.peers 0) 0 c h.repeated r.2.1 r.2.2 with
        | .ok s => .did s
        | .error st => .fail st 0 q

/-- The contributors whose chunks a sweep under STAGE includes. -/
def Tile.included (k : Tile) (i : Nat) : List Nat := (List.range k.entry.nc).filter fun x => !(k.excluded i).contains x

/-- The contributions of a chunk in staging, when all that its sweep includes are there. -/
def Tile.gathered (k : Tile) (i c : Nat) (repeated : Bool) : Option (List HeldChunk) :=
  let hs := (k.included i).map fun x => k.held.find? fun h => h.phase == 0 && h.from_ == x && h.chunk == c && h.repeated == repeated
  if hs.all Option.isSome then some (hs.filterMap id) else none

/-- A chunk of a run that its owner may sweep now: STAGE with all contributions, or a ring of one. -/
def Tile.sweepable (k : Tile) (i : Nat) (r : Run) (h : HeldChunk) : Bool :=
  let e := k.entry
  h.phase == 0 && e.owner h.chunk == e.idx && (r.alg == 1 || e.nc == 1) && (!e.jv || r.join.isSome)
    && !r.used.contains h.key && (k.gathered i h.chunk h.repeated).isSome

/-- One chunk in staging, if the run can use it now. -/
def State.takeHeld (s : State) (d t i : Nat) (h : HeldChunk) : Option Act :=
  let k := s.tile d t i
  let e := k.entry
  match k.run with
  | none => none
  | some r =>
    if r.used.contains h.key ∨ h.phase = 3 then none
    else if (k.excluded i).contains h.from_ ∧ h.phase = 0 then
      some (.did (s.modTile d t i fun k =>
        { k with held := k.held.erase h, run := k.run.map fun r => { r with used := r.used ++ [h.key] } }))
    else if k.disagrees h then some (.fail stBadDescriptor 0 s)
    else if h.phase = 1 then some (s.takeResult d t i h)
    else if r.alg = 0 ∧ e.nc ≠ 1 then some (s.takePartial d t i h)
    else if k.sweepable i r h then
      (k.gathered i h.chunk h.repeated).map fun hs =>
        s.sweep d t i h.chunk h.repeated (hs.map fun h => (h.from_, h.payload, h.mark)) fun s =>
          hs.foldl (fun s h => s.useChunk d t i h) s
    else none

/-! ## Own contributions -/

/-- The own contribution of a chunk is read and sent, staged at its owner, or, without a reduction, distributed. -/
def State.startChunk (s : State) (d t i c : Nat) (scale : Int) (repeated : Bool) : Act :=
  let k := s.tile d t i
  let e := k.entry
  match k.run with
  | none => .wait s
  | some r =>
    let note := fun s : State => s.modRun d t i fun r =>
      if repeated then { r with restarted := insertNat c r.restarted } else { r with started := insertNat c r.started }
    let send := fun (s : State) (dsts : List Nat) (phase : Nat) (v : List Byte × Bool) =>
      match s.sendChunks d t i dsts phase c repeated v.1 v.2 with
      | .ok s => Act.did (note s)
      | .error st => .fail st 0 s
    if !e.reduces then
      s.stallRun d t i (s.reachAll d t i [e.srcSpan c, e.dstSpan c]) fun s =>
        let v := s.ownChunk d t i c 0 false
        let s := v.2.writeResult d t i c (wireCodes e.srcf (e.count c) v.1.1) v.1.2
        send s (k.spread c i true) 1 v.1
    else
      s.stallRun d t i (s.reachAll d t i [e.srcSpan c]) fun s =>
        let v := s.ownChunk d t i c scale repeated
        let ask := fun dst => match v.2.reserve d t i c repeated with
          | none => Act.wait s
          | some s => send s [dst] 0 v.1
        if r.alg = 2 then ask switchEndpoint
        else if e.owner c = e.idx ∧ (r.alg = 1 ∨ e.nc = 1) then
          match s.grant d t i c v.1.1.length with
          | none => .wait s
          | some room => .did (note (v.2.modTile d t i fun k => { k with held := k.held ++
              [{ phase := 0, from_ := e.idx, chunk := c, repeated := repeated, payload := v.1.1, mark := v.1.2, slots := room }] }))
        else ask (if r.alg = 0 then nth 0 e.peers 0 else e.stagePeer (e.owner c))

/-- The chunks that a run has still to begin, or to begin again: number, scale, re-run mark. -/
def Tile.toStart (k : Tile) : List (Nat × Int × Bool) :=
  match k.run with
  | none => []
  | some r =>
    let e := k.entry
    ((List.range e.total).filter fun c => e.begins r.alg c && !r.started.contains c).map (fun c => (c, e.scale, false))
      ++ (r.reran.filter fun x => e.begins r.alg x.1 && !r.restarted.contains x.1).map fun x => (x.1, x.2, true)

/-! ## Arrivals at a join (R331) -/

/-- The tasks of a join that have arrived by the chunks in an owner's staging, in ascending contributor index. -/
def Tile.arrivals (k : Tile) (r : Run) : List Nat :=
  let e := k.entry
  if !e.jv || e.idx != 0 || r.join.isSome then []
  else (List.range e.nc).filter fun x =>
    if x = 0 then (List.range e.total).all r.started.contains
    else (List.range e.total).all fun c => k.held.any fun h => h.phase == 0 && h.from_ == x && h.chunk == c && !h.repeated

/-- Arrivals that have not yet been counted are taken in order of task index (R320). -/
def State.tileArrivals (s : State) (d t i : Nat) : State :=
  let k := s.tile d t i
  match k.run with
  | none => s
  | some r =>
    let q := k.entry.join
    let tasks := (k.arrivals r).filterMap fun x => (((s.team d t).joinAt q).number (.contrib i x)).map fun n => (n, x)
    (sortBy (fun p : Nat × Nat => p.1) tasks).foldl (fun s p =>
      if s.arrivesLater d t q p.1 then s else s.arrive d t q (.contrib i p.2)) s

/-- The owner has learnt its join's mask: one abort goes to each excluded contributor (R331). -/
def State.tellExcluded (s : State) (d t i : Nat) : State :=
  let k := s.tile d t i
  let s := ((k.excluded i).filter (· != k.entry.idx)).foldl (fun s x => s.sendAbort d t i (k.entry.stagePeer x)) s
  s.modRun d t i fun r => { r with swept := true }

/-- The chunks of a run whose mask names no contributor: its owner sweeps what the fill gives (R331). -/
def State.emptySweeps (s : State) (d t i : Nat) : List (State → Option Act) :=
  let k := s.tile d t i
  let e := k.entry
  match k.run with
  | none => []
  | some r =>
    if e.jv && e.idx == 0 && r.join.isSome && (k.included i).isEmpty && !r.exceeded then
      ((List.range e.total).filter fun c => !r.done.contains c).map fun c s =>
        some (State.sweep s d t i c (r.reran.any fun x => x.1 == c) [] id)
    else []

/-- Everything that a run might do next, in order. -/
def State.runActs (s : State) (d t i : Nat) : List (State → Option Act) :=
  let k := s.tile d t i
  k.held.map (fun h s => State.takeHeld s d t i h) ++ k.toStart.map (fun c s => some (State.startChunk s d t i c.1 c.2.1 c.2.2))
    ++ s.emptySweeps d t i

/-! ## The sequencer of a port (R303) -/

/-- The first of some actions that does or fails something; waits are kept. -/
def firstAct (s : State) : List (State → Option Act) → Act
  | [] => .wait s
  | f :: rest => match f s with
    | some (.did s) => .did s
    | some (.fail a b s) => .fail a b s
    | some (.wait s) => firstAct s rest
    | none => firstAct s rest

/-- The run of an entry does one thing, for one chunk; none when it can do nothing. After a second excess no more result is
written (R309). -/
def State.runStep (s : State) (d t i : Nat) : Option State :=
  let k := s.tile d t i
  match k.run with
  | none => none
  | some r =>
    if k.st = tileSlotWait ∧ r.cancel then some (s.failRun d t i stCancelled 0)
    else if k.st ≠ tileRunning then none
    else if r.cancel then some (s.failRun d t i stCancelled 0)
    else if r.join.isSome ∧ !r.swept then some (s.tellExcluded d t i)
    else if r.exceeded then (if r.unanswered = 0 then some (s.endRun d t i 14 0 false) else none)
    else if r.done.length = k.entry.total ∧ r.unanswered = 0 then
      some (match r.substFault with
        | some c => s.endRun d t i stTranslation c false
        | none => s.endRun d t i 0 0 false)
    else
      match firstAct s (s.runActs d t i) with
      | .did s => some s
      | .fail st c s => some (s.failRun d t i st c)
      | .wait _ => none

/-- The page requests of chunks that wait are posted even when nothing else can be done. -/
def State.runWaits (s : State) (d t i : Nat) : State :=
  if (s.tile d t i).st ≠ tileRunning then s
  else match firstAct s (s.runActs d t i) with
    | .wait s => s
    | _ => s

/-- The entries that run on a port of a die: team and tile index, ascending. -/
def State.portRuns (s : State) (d q : Nat) : List (Nat × Nat) :=
  (s.die d).teams.flatMap fun e => (e.2.tiles.filter fun x => tilePort x.1 == q && x.2.run.isSome).map fun x => (e.1, x.1)

/-- The entry that a port served last. -/
def State.lastServed (s : State) (d q : Nat) : Option (Nat × Nat) := (look Port.reset (s.die d).ports q).served

/-- The running entries of a port in round robin: those after the entry served last, then the others. -/
def State.turns (s : State) (d q : Nat) : List (Nat × Nat) :=
  let l := s.portRuns d q
  match s.lastServed d q with
  | none => l
  | some p =>
    let after := fun x : Nat × Nat => p.1 < x.1 || (p.1 == x.1 && p.2 < x.2)
    l.filter after ++ l.filter fun x => !after x

/-- The entry that a port serves next: the first in turn whose run can do something. -/
def State.nextServed (s : State) (d q : Nat) : Option (Nat × Nat) :=
  (s.turns d q).find? fun x => (s.runStep d x.1 x.2).isSome

/-- The port of an entry has served it. -/
def State.noteServed (s : State) (d t i : Nat) : State :=
  s.modDie d fun k =>
    { k with ports := put Port.reset k.ports (tilePort i) { look Port.reset k.ports (tilePort i) with served := some (t, i) } }

/-- The sequencer of an entry's port turns to it: its run does one thing when it is the entry's turn; pages that its chunks wait
on are asked for. -/
def State.serve (s : State) (d t i : Nat) : State :=
  let s := s.tileArrivals d t i
  if s.nextServed d (tilePort i) = some (t, i) then ((s.runStep d t i).getD s).noteServed d t i else s.runWaits d t i

/-! ## Firing (R299, R301, R302, R308, R331) -/

/-- The join check of a fire at the owner. -/
def State.joinAllows (s : State) (d t i : Nat) (e : Entry) : Bool :=
  if !e.jv || e.idx != 0 then true
  else
    let j := (s.team d t).joinAt e.join
    j.st == .open_ && (List.range e.nc).any (fun x => (j.number (.contrib i x)).isSome)
      && (j.fill != 2 || e.len * (if e.xs then 8 else elemBytes e.srcf) ≤ j.stride)

/-- A slot request is refused or granted at this contributor. -/
def State.slotAnswered (s : State) (d t i : Nat) (granted : Bool) : State :=
  let e := (s.tile d t i).entry
  if granted then s.modTile d t i fun k => { k with st := tileRunning, ready := true }
  else if e.fallback then
    (s.modTile d t i fun k => { k with st := tileRunning, ready := true }).modRun d t i fun r => { r with alg := 0 }
  else s.endRun d t i 15 0 false

/-- A fire of an IDLE or ARMED entry; none while CTOK is pending. -/
def State.fire (s : State) (d t i : Nat) (strand : Option (StrandName × VAddr)) : Option State :=
  let k := s.tile d t i
  let e := k.entry
  if (k.st ≠ tileIdle ∧ k.st ≠ tileArmed) ∨ ((s.team d t).token e.ctok).st = .pending then none
  else
    let s := s.modTeam d t fun m => { m with trackers := m.trackers.filter fun x => x.tile != i }
    let r : Run :=
      { strand := strand, token := e.ctok, alg := e.alg, started := [], used := [], done := [], reran := [], restarted := [],
        scale := none, unanswered := 0, exceeded := false, join := none, swept := false, substFault := none, stall := [],
        refused := [], cancel := false }
    let s := s.modTile d t i fun k =>
      { k with st := tileRunning, ready := true, sent := 0, recv := 0, repeated := false, scused := 0, emaxv := 0x8000, run := some r }
    let s := s.setToken d t e.ctok (plainToken .pending)
    some <|
      if !s.joinAllows d t i e then s.failRun d t i stBadDescriptor 0
      else if e.alg = 2 then
        if !(s.part (s.team d t).part).switches then s.slotAnswered d t i false
        else
          let s := s.modTile d t i fun k => { k with st := tileSlotWait, ready := false }
          let s := if e.idx = 0 then
              match s.transmit d (s.team d t).part (bareMessage switchEndpoint (s.team d t).gang 6 (BitVec.ofNat 64 i) 0 [] false) with
              | .ok r => r.2
              | .error st => s.failRun d t i st 0
            else s
          match (s.tile d t i).held.find? fun h => h.phase == 3 with
          | some h => (s.modTile d t i fun k => { k with held := k.held.erase h }).slotAnswered d t i (h.chunk == 1)
          | none => s
      else s.tileArrivals d t i

/-- TRACKER_FIRE (R301): a tracker whose count is reached disarms and fires its entry. -/
def execTrackerFire (d t i : Nat) (s : State) : Out :=
  match (s.team d t).trackers.find? fun k => k.tile == i with
  | none => .next s
  | some k => if k.count < k.expected then .next s
    else .next (((s.fire d t i none).map fun s => s.modTile d t i fun k => { k with firedAt := some (s.die d).now }).getD s)

/-- TILE_RUN_END (R303, R314): the port's sequencer turns to the entry: the run goes on by one chunk when it is its turn; it ends
when the last result chunk is written and accepted. -/
def execTileRunEnd (d t i : Nat) (s : State) : Out := .next (s.serve d t i)

/-! ## Messages of collectives (R287, R305, R308, R315) -/

/-- A contribution of a contributor that the mask of an ended run left out: it is discarded on arrival (R306, R331). A chunk that
the run had already received is one of a later run (log 102). -/
def Tile.outdated (k : Tile) (h : HeldChunk) : Bool := h.phase == 0 && (h.repeated || (look [] k.late h.from_).contains h.chunk)
  && !(look [] k.late h.from_).isEmpty

/-- The entry after such a chunk, or after one of a later run. -/
def Tile.settleLate (k : Tile) (h : HeldChunk) : Tile :=
  if h.phase ≠ 0 ∨ h.repeated then k
  else
    let left := if k.outdated h then (look [] k.late h.from_).filter (· != h.chunk) else []
    { k with late := put [] k.late h.from_ left }

/-- CHUNK (R305, R307): a reduce or gather chunk is taken into staging and answered; while staging is full it waits at its
sender. -/
def execChunk (m : Message) (s : State) : Out :=
  let phase := m.wordB.toNat % 256
  if phase = 2 ∧ m.kind = 4 then .next s
  else match s.admitWrite 4 m with
    | .error s => .next s
    | .ok (d, t, r) =>
      let i := m.wordA.toNat % 2 ^ 10
      let k := r.tile d t i
      let h : HeldChunk := { phase := phase, from_ := field m.wordA.toNat 10 16, chunk := m.wordA.toNat / 2 ^ 32,
                             repeated := m.wordB.getLsbD 8, payload := m.payload, mark := m.mark, slots := [] }
      if k.st = 0 then .next (r.answer d t m 4 pageFaultCode localReason)
      else if k.outdated h then .next ((r.modTile d t i fun k => k.settleLate h).answer d t m 0)
      else match r.roomFor d t i phase h.chunk h.repeated m.payload.length with
        | none => .next s
        | some (room, r) =>
          let r := r.modTile d t i fun k => { k.settleLate h with held := k.held ++ [({ h with slots := room } : HeldChunk)] }
          .next ((r.answer d t m 0).tileArrivals d t i)

/-- The run writes its last result chunk in this cycle: it has, or its port does so next (R316). -/
def State.lastWritten (s : State) (d t i : Nat) : Bool :=
  let last := fun s : State => match (s.tile d t i).run with
    | some r => r.lastAt == some (s.die d).now
    | none => false
  (s.tile d t i).run.isSome && (last s || (s.nextServed d (tilePort i) == some (t, i) && (match s.runStep d t i with
    | some r => last r
    | none => false)))

/-- The chunks of a contributor for an entry that are on the wire. -/
def State.onTheWay (s : State) (src i from_ : Nat) : List Nat :=
  s.wire.filterMap fun m =>
    if m.kind = 4 ∧ m.src.toNat = endpointOf src ∧ m.wordA.toNat % 2 ^ 10 = i ∧ field m.wordA.toNat 10 16 = from_ ∧ m.wordB.toNat % 256 = 0 then
      some (m.wordA.toNat / 2 ^ 32)
    else none

/-- The team of a die that has an entry of a join as contributor 0 (R331): its die and index. -/
def State.ownerOf (s : State) (d t i : Nat) : Option (Nat × Nat) :=
  let e := (s.tile d t i).entry
  if e.idx = 0 then some (d, t)
  else (dieOfEndpoint (e.stagePeer 0)).bind fun o => (s.gangTeam o (s.team d t).gang).map fun u => (o, u)

/-- The owner of a join's run has left out a contributor whose entry the owner's abort has now ended: what that contributor has not sent
it will not send for the run, so that its next chunks are those of its next fire (R331; log 102). `k` is the entry before its end. -/
def State.noteStopped (s : State) (d t i : Nat) (k : Tile) : State :=
  match s.ownerOf d t i with
  | none => s
  | some (o, u) =>
    if !k.entry.jv || k.entry.idx = 0 || k.run.isNone then s
    else
      let x := k.entry.idx
      let left := s.onTheWay d i x
      let keep := fun l : List Nat => l.filter left.contains
      s.modTile o u i fun q => { q with
        late := put [] q.late x (keep (look [] q.late x))
        run := q.run.map fun r => { r with stopped := (x, left) :: r.stopped } }

/-- CHUNK_ABORT (R315): the entry's run ends with CANCELLED; an abort of an excluded contributor is discarded, and one that meets the last
result chunk's cycle does nothing (R316). -/
def execChunkAbort (m : Message) (s : State) : Out :=
  if m.wordB.toNat % 256 ≠ 2 ∧ m.kind = 4 then .next s
  else match s.reach 4 m with
    | .error s => .next s
    | .ok (d, s) =>
      match s.messageTeam d m with
      | none => .next s
      | some t =>
        let s := s.raiseGust d t
        let i := m.wordA.toNat % 2 ^ 10
        let k := s.tile d t i
        if !s.authentic d t m || (k.excluded i).contains (field m.wordA.toNat 10 16) then .next s
        else if s.lastWritten d t i then .next s
        else .next ((s.endRun d t i stCancelled 0 false).noteStopped d t i k)

/-- The answer of a message ends the waits that it concerns (R287, R293, R295). -/
def State.takeAnswer (s : State) (x : Sent) (r : Message) (answer cause : Nat) : State :=
  if 1 ≤ answer ∧ answer ≤ 3 ∧ !s.abandoned x then
    (s.modSent x.id fun x => { x with refusals := x.refusals + 1, resting := true, sentAt := (s.die x.d).now }).rewait x
  else s.answered x r answer cause State.failRun

/-- MESSAGE_RETRY (R293). -/
def execMessageRetry (id : Nat) (s : State) : Out := s.retry id State.failRun

/-- An answer is one of the current or previous epoch whose tag verifies under the sender's key, or under the key that stands in where the
answerer has none (R288; log 34). -/
def State.genuine (s : State) (p : Nat) (m : Message) : Bool :=
  let keys := ((s.part p).gangKey m.gang m.epoch).toList ++ [sharedKey m.gang m.epoch]
  s.recent m && keys.any fun k => tagOf k m == m.tag

/-- RESPONSE (R287): one whose message is not awaited any more is discarded and counted. -/
def execResponse (m : Message) (s : State) : Out :=
  match s.reach 5 m with
  | .error s => .next s
  | .ok (d, s) =>
    match s.sent.find? fun x => x.d == d && !x.resting && x.m.gang == m.gang && x.m.seq == m.wordA.setWidth 48 with
    | none => .next (s.countDrop dropMessage)
    | some x =>
      if s.genuine (s.senderPart x) m then .next (s.takeAnswer x m (m.wordB.toNat % 256) (m.wordB.toNat / 256 % 256)) else .next s

/-- NO_RESPONSE (R287): the sender's unit ends a wait of 1 ms. -/
def execNoResponse (id : Nat) (s : State) : Out :=
  match s.sent.find? fun x => x.id == id with
  | none => .next s
  | some x =>
    if !noResponseDue s x then .next s
    else .next (s.takeAnswer x { bareMessage (endpointOf x.d) x.m.gang 5 (zext64 x.m.seq) 7 [] false with src := x.m.dst } 7 0)

/-- SLOT_REQUEST (R308): it goes to the switch; a die that receives one has nothing to do with it. -/
def execSlotRequest (m : Message) (s : State) : Out :=
  match s.reach 6 m with
  | .error s => .next s
  | .ok (_, s) => .next s

/-- The dies of the package, but one, that hold a contributor of the entry: the gang's team there has the entry. -/
def State.contributorDies (s : State) (d : Nat) (g : BitVec 24) (i : Nat) : List Nat :=
  (s.dies.map (·.1)).filter fun e => e != d && (match s.gangTeam e g with
    | some u => (s.tile e u i).st != 0
    | none => false)

/-- Contributor 0 forwards the answer to every contributor: to those of the package, and through the switch to those of other
packages (R308; log 36). -/
def State.forwardAnswer (s : State) (d t i : Nat) (m : Message) : State :=
  let g := (s.team d t).gang
  let inside := s.contributorDies d g i
  let outside := if inside.length + 1 < (s.tile d t i).entry.nc then [switchEndpoint] else []
  (inside.map endpointOf ++ outside).foldl (fun s dst =>
    match s.transmit d (s.team d t).part (bareMessage dst g 7 m.wordA m.wordB [] false) with
    | .ok r => r.2
    | .error _ => s) s

/-- SLOT_ANSWER (R308): each contributor learns it; contributor 0 forwards it. One that comes before the entry of another contributor
waits for it is kept; at contributor 0, whose request it answers, one that no run waits for is discarded. -/
def execSlotAnswer (m : Message) (s : State) : Out :=
  match s.reach 7 m with
  | .error s => .next s
  | .ok (d, s) =>
    match s.messageTeam d m with
    | none => .next s
    | some t =>
      if !s.authentic d t m then .next s
      else
        let i := m.wordA.toNat % 2 ^ 10
        let granted := m.wordB.getLsbD 0
        let k := s.tile d t i
        if k.st = 0 then .next s
        else if k.st = tileSlotWait then
          .next ((if k.entry.idx = 0 then s.forwardAnswer d t i m else s).slotAnswered d t i granted)
        -- contributor 0 waits for no answer: the run that asked has ended
        else if k.entry.idx = 0 then .next s
        else .next (s.modTile d t i fun k => { k with held := k.held ++
          [{ phase := 3, from_ := 0, chunk := if granted then 1 else 0, repeated := false, payload := [], mark := false, slots := [] }] })

/-! ## A lost peer (R315, R331) -/

/-- The join's mask has left a contributor out, or does not hold it yet, as its owner knows; without the owner in the package
every contributor but the owner counts so (R331; log 58). -/
def State.leavesOut (s : State) (d t i index : Nat) : Bool :=
  (s.tile d t i).entry.jv && (match s.ownerOf d t i with
    | none => index != 0
    | some (o, u) =>
      let k := s.tile o u i
      let j := (k.run.bind (·.join)).getD ((s.team o u).joinAt k.entry.join)
      match j.number (.contrib i index) with
      | some n => !j.arrived.contains n
      | none => false)

/-- The runs of other dies' teams of a LOST team's gang whose peers include it end with PEER_LOST: those whose PEER fields name its die,
and under SWITCH those of the entries that it has itself; but not where a join's mask leaves it out. -/
def State.peersLost (s : State) (lost u : Nat) : State :=
  s.dies.foldl (fun r e =>
    if e.1 = lost then r
    else e.2.teams.foldl (fun r x =>
      if x.2.gang ≠ (s.team lost u).gang then r
      else x.2.tiles.foldl (fun r k =>
        let en := k.2.entry
        let own := s.tile lost u k.1
        let named := (en.named k.2.algorithm).contains (endpointOf lost)
        let index := if own.st ≠ 0 then own.entry.idx else (en.others.find? fun c => en.stagePeer c == endpointOf lost).getD 0
        if k.2.run.isSome && (named || (k.2.algorithm == 2 && own.st != 0)) && !s.leavesOut e.1 x.1 k.1 index then r.failRun e.1 x.1 k.1 13 0 else r) r) r) s

/-! ## TTSET, TREADY, TRKARM (R300, R301) -/

def execTtset (a b : BitVec 6) (s : State) : Out := queued (.ttset a b) (some a) b none s
def execTready (a b : BitVec 6) (s : State) : Out := queued (.tready a b) (some a) b none s
def execTrkarm (a b d : BitVec 6) (s : State) : Out := queued (.trkarm a b d) (some a) b (some d) s

/-- The bits of an image word that TTSET writes; reserved bits read as zero (R297). -/
def imageMask : Nat → Nat
  | 2 => 2 ^ 61 - 1
  | 3 | 4 => 2 ^ 44 - 1
  | 5 => 2 ^ 56 - 1
  | 7 => 2 ^ 32 - 1
  | _ => 2 ^ 64 - 1

/-- The tracker of an entry fires it in this cycle (R316). -/
def State.firesNow (s : State) (d t i : Nat) : Bool :=
  ((s.team d t).trackers.any fun k => k.tile == i && k.expected ≤ k.count) && (s.fire d t i none).isSome

/-- One step of TTSET: the image is read, checked under R298 and written. -/
def State.stepTtset (s : State) (m : Cmd) : Option State :=
  if m.cap.xa.toNat % 64 ≠ 0 then s.endCmd m.id stTranslation misalignedCode m.cap.xa
  else if !m.tags.isEmpty then none
  else match s.cmdReadRange m m.cap.xa 128 with
    | .wait r a => some (s.awaitPage m.id r a)
    | .stuck => none
    | .fail c a => s.endCmd m.id stTranslation c a
    | .ok v s =>
      let ws : Sparse Word := (List.range 16).map fun k => (k, BitVec.ofNat 64 (ofBytes ((v.1.drop (8 * k)).take 8)))
      let i := (look 0 ws 10).toNat % 2 ^ 10
      let e := entryOf ws
      let k := s.tile m.d m.t i
      let keep : Sparse Word := ((ws.take 10).map fun w => (w.1, w.2 &&& BitVec.ofNat 64 (imageMask w.1))).filter fun w => w.2 != 0
      if k.st = tileRunning ∨ k.st = tileSlotWait ∨ s.firesNow m.d m.t i then s.endCmd m.id stBusy 0 m.cap.xa
      else if e.valid && !e.ok m.d then s.endCmd m.id stBadDescriptor 0 m.cap.xa
      else
        let s := s.modTeam m.d m.t fun t => { t with trackers := t.trackers.filter fun x => x.tile != i }
        let s := s.modTile m.d m.t i fun k => { k with words := keep, st := if e.valid then tileIdle else 0 }
        (s.modCmd m.id fun m => { m with progress := 1 }).endCmd m.id 0 0 0

/-- The entry that TREADY or TRKARM names; none for a bad index or an entry that is not valid. -/
def State.namedTile (s : State) (m : Cmd) : Option (Nat × Tile) :=
  let i := m.cap.xa.toNat
  if 1024 ≤ i then none
  else
    let k := s.tile m.d m.t i
    if k.st = 0 then none else some (i, k)

/-- One step of TREADY: the entry is fired for its bundle and strand. In the cycle in which its tracker has fired it, that fire is the
TREADY's too (R302). -/
def State.stepTready (s : State) (m : Cmd) : Option State :=
  match s.namedTile m with
  | none => s.endCmd m.id stBadDescriptor 0 m.cap.xa
  | some (i, k) =>
    if k.firedAt = some (s.die m.d).now then (s.modCmd m.id fun m => { m with progress := 1 }).endCmd m.id 0 0 0
    else if k.st = tileRunning ∨ k.st = tileSlotWait then none
    else match s.fire m.d m.t i (some (m.who, m.cap.addr)) with
      | none => none
      | some s => (s.modCmd m.id fun m => { m with progress := 1 }).endCmd m.id 0 0 0

/-- The limits of TRKARM's descriptor (R301). -/
def trkarmOk (m : Captured) (d : Nat) : Bool :=
  let n := (m.f 1).toNat
  let x := (m.f 2).toNat
  tileAddress d (m.f 0) 64 && n % 64 == 0 && 64 ≤ n && n ≤ 2 ^ 30 && 1 ≤ x && x < 2 ^ 40

/-- The physical pages of a watched range; what bars them. -/
def State.watchPages (s : State) (m : Cmd) (base : Word) (len : Nat) : Except Resolved (List Nat) :=
  (List.range (ceilDiv (base.toNat % 65536 + len) 65536)).foldl (fun (a : Except Resolved (List Nat)) k =>
    match a with
    | .error e => .error e
    | .ok l =>
      match s.teamTarget none m.d m.t m.gang (BitVec.ofNat 64 (base.toNat / 65536 * 65536 + 65536 * k)) .read with
      | .ok (.hbm pa) _ => .ok (l ++ [pa / 65536])
      | .ok _ _ => .error (.fault pageFaultCode localReason)
      | r => .error r) (.ok [])

/-- One step of TRKARM. -/
def State.stepTrkarm (s : State) (m : Cmd) : Option State :=
  match s.namedTile m with
  | none => s.endCmd m.id stBadDescriptor 0 m.cap.xa
  | some (i, k) =>
    let base := m.cap.f 0
    let len := (m.cap.f 1).toNat
    if !trkarmOk m.cap m.d then s.endCmd m.id stBadDescriptor 0 base
    else if k.st = tileRunning ∨ k.st = tileSlotWait ∨ !m.tags.isEmpty then none
    else
      let others := (s.team m.d m.t).trackers.filter fun x => x.tile != i
      if 64 ≤ others.length then s.endCmd m.id stCapacity 0 base
      else match s.watchPages m base len with
        | .error (.miss r) => some (s.awaitPage m.id r base)
        | .error (.fault c _) => s.endCmd m.id stTranslation c base
        | .error _ => none
        | .ok pages =>
          let x : Tracker := { tile := i, base := base, len := len, expected := (m.cap.f 2).toNat, count := 0, pages := pages }
          let s := s.modTeam m.d m.t fun t => { t with trackers := others ++ [x] }
          let s := s.modTile m.d m.t i fun k => { k with st := tileArmed }
          (s.modCmd m.id fun m => { m with progress := 1 }).endCmd m.id 0 0 0

end Sys2Proof.Machine
end

