-- ==== Sys2Proof/Machine/Link.lean ====
section
/-!
DEFINITION. The Wealet link layer (R283) and the key epochs that firmware moves by itself (R288). Ports are numbered over the
package: port p is local port p mod 3 of die p / 3.
-/

set_option Elab.async false
namespace Sys2Proof.Machine

def State.port (s : State) (p : Nat) : Port := look Port.reset (s.die (p / 3)).ports (p % 3)
def State.modPort (s : State) (p : Nat) (f : Port → Port) : State :=
  s.modDie (p / 3) fun k => { k with ports := put Port.reset k.ports (p % 3) (f (look Port.reset k.ports (p % 3))) }

/-- LINK_FRAME: a frame in sequence is taken; one whose CRC does not match is asked for again, and after 15 failed replays the
port retrains. -/
def execLinkFrame (p : Nat) (f : Frame) (s : State) : Out :=
  let k := s.port p
  if !k.up || k.retraining then .next s
  else if !f.crcOk then
    .next (s.modPort p fun k => { k with fails := k.fails + 1, retraining := 15 < k.fails + 1 })
  else if f.number = k.next then .next (s.modPort p fun k => { k with next := k.next + 1, fails := 0 })
  else .next s

/-- LINK_REPLAY: the sender replays from the frame asked for; the frames before it have been received. -/
def execLinkReplay (p : Nat) (number : BitVec 24) (s : State) : Out :=
  if (s.port p).sent.any fun f => f.number == number then
    .next (s.modPort p fun k => { k with sent := k.sent.dropWhile fun f => f.number != number })
  else .next s

/-- LINK_RETRAIN: the link is trained again, or the port is to go down. -/
def execLinkRetrain (p : Nat) (ok : Bool) (s : State) : Out :=
  if !(s.port p).retraining || !(s.port p).up then .next s
  else if ok then .next (s.modPort p fun k => { k with retraining := false, fails := 0 })
  else .next (s.modPort p fun k => { k with up := false })

/-- A message of a die in flight by a port. -/
def usesPort (p d : Nat) (m : Message) : Bool := d == p / 3 && (dieOfEndpoint m.dst.toNat).isNone && portOf m == p % 3

/-- A message in flight is lost with its port: the command or run that waits for its answer ends with LINK_DOWN. -/
def State.loseSent (s : State) (x : Sent) : State := s.stopSender x 12 State.failRun

/-- An entry of a port waits for what comes over its link: a slot answer, a chunk of another package, or the answer to one. -/
def Tile.awaitsLink (k : Tile) : Bool :=
  k.peerEndpoints.any (fun e => (dieOfEndpoint e).isNone) && (match k.run with
    | some r => k.st == tileSlotWait || !(r.done.length == k.entry.total && r.unanswered == 0)
    | none => false)

/-- The entries of a port that wait for its link end with LINK_DOWN. -/
def State.loseRuns (s : State) (d q : Nat) : State :=
  ((s.portRuns d q).filter fun x => (s.tile d x.1 x.2).awaitsLink).foldl (fun s x => s.failRun d x.1 x.2 12 0) s

/-- PORT_DOWN: every message in flight on the port is lost, and what waits for one ends with LINK_DOWN; the host is told. -/
def execPortDown (p : Nat) (s : State) : Out :=
  let k := s.port p
  if k.up || !k.retraining then .next s
  else
    let s := s.modPort p fun k => { k with retraining := false, sent := [] }
    let s := { s with wire := s.wire.filter fun m => !usesPort p m.src.toNat m }
    let s := (s.sent.filter fun x => !x.resting && usesPort p x.d x.m).foldl State.loseSent s
    let s := s.loseRuns (p / 3) (p % 3)
    .next (s.postEvent 4 (p / 3) 0 0 0)

/-- A gang moves to its next key epoch; every die's count starts afresh (R288). -/
def State.nextEpoch (s : State) (g : BitVec 24) : State := s.modGang g fun k => { k with epoch := k.epoch + 1, seqs := [] }

/-- EPOCH_AUTO_ADVANCE: before a die's count reaches 2^48 - 2^20. -/
def execEpochAutoAdvance (g : BitVec 24) (s : State) : Out :=
  if (s.gang g).seqs.any fun e => 2 ^ 48 - 2 ^ 21 ≤ e.2 then .next (s.nextEpoch g) else .next s

end Sys2Proof.Machine
end

