-- ==== Sys2Proof/Machine/Quorum.lean ====
section
/-!
DEFINITION. The instructions of quorum joins (R321 to R324, R333 to R335): QDECL, QARRIVE with its registration, QREAD, QREPLAY,
QWAIT.
-/

set_option Elab.async false
namespace Sys2Proof.Machine

def stJoinState : Nat := 17
def stNotTask : Nat := 18

def execQdecl (b d : BitVec 6) (q : BitVec 4) (s : State) : Out := queued (.qdecl b d q) none b (some d) s
def execQarrive (b : BitVec 6) (q : BitVec 4) (s : State) : Out := queued (.qarrive b q) none b none s
def execQread (a b : BitVec 6) (q : BitVec 4) (s : State) : Out := queued (.qread a b q) (some a) b none s
def execQreplay (a b : BitVec 6) (q : BitVec 4) (s : State) : Out := queued (.qreplay a b q) (some a) b none s

/-! ## QDECL (R321, R322) -/

/-- The descriptor of QDECL. -/
structure Declared where
  n : Nat
  num : Nat
  den : Nat
  fill : Nat
  table : Word
  weights : Word
  slotBase : Word
  stride : Nat
  slotLen : Nat
  subst : Word
  ranges : List (Word × Nat)
  deriving DecidableEq, Repr

def declared (m : Captured) : Declared :=
  let w := (m.f 0).toNat
  let range := fun (k : Nat) => (m.f k, (m.f (k + 1)).toNat)
  { n := field w 0 13, num := field w 13 8, den := field w 21 8, fill := field w 29 2, table := m.f 1, weights := m.f 2,
    slotBase := m.f 3, stride := (m.f 4).toNat % 2 ^ 32, slotLen := (m.f 4).toNat / 2 ^ 32, subst := m.f 5,
    ranges := [range 6, range 8] }

/-- So many bytes at an address lie outside every local region, on one endpoint. -/
def inTeam (a : Word) (n : Nat) : Bool := a.toNat % 2 ^ 42 + n ≤ localBase

/-- The limits of R321, the task table apart. -/
def Declared.ok (x : Declared) (m : Captured) (d : Nat) : Bool :=
  let slots := x.n * x.stride - (x.stride - x.slotLen)
  let home := fun a : Word => a == 0 || (inTeam a slots && a.toNat / 2 ^ 42 == endpointOf d)
  let multiple := fun (a : Word) => a.toNat % 64 == 0
  (m.f 0).toNat / 2 ^ 31 == 0 && 1 ≤ x.n && x.n ≤ 4096 && 1 ≤ x.num && x.num ≤ x.den && x.fill ≤ 2 && multiple x.table
    && inTeam x.table (4 * x.n) && x.weights.toNat % 2 == 0 && (x.weights == 0 || inTeam x.weights (2 * x.n)) && multiple x.slotBase && home x.slotBase
    && x.stride % 64 == 0 && x.slotLen % 64 == 0 && x.slotLen ≤ x.stride && multiple x.subst && home x.subst
    && ((x.subst != 0) == (x.fill == 2))
    && x.ranges.all fun r => multiple r.1 && r.2 % 64 == 0 && r.2 < 2 ^ 32
        && (r.2 == 0 || (inTeam r.1 r.2 && (dieOfEndpoint (r.1.toNat / 2 ^ 42)).isSome))

/-- The tasks that a table may name (R318, R322). -/
def State.tasksOk (s : State) (d t : Nat) (ks : List (Option Task)) : Bool :=
  let ts := ks.filterMap id
  ks.all Option.isSome && ts.eraseDups.length == ts.length && ts.all fun k => match k with
    | .localTask w => (s.clustersOn (s.team d t).part d).contains w.cl && !s.namesConductor d t w
    | .contrib _ _ => true

/-- The join of a declaration opens (R322). -/
def State.openJoin (s : State) (m : Cmd) (q : Nat) (x : Declared) (tasks : List Task) (weights : List Nat) : Option State :=
  let s := s.modJoin m.d m.t q fun j =>
    { j with
      st := .open_, fill := x.fill, num := x.num, den := x.den, tasks := tasks, weights := weights
      slotBase := x.slotBase, stride := x.stride, slotLen := x.slotLen, subst := x.subst
      ranges := x.ranges.filter fun r => r.2 != 0
      arrived := [], replay := none, stragglers := [], todo := [], slotFault := false, tag := none, taken := none, opened := s.nextId }
  (s.modCmd m.id fun m => { m with progress := 1 }).endCmd m.id 0 0 0

/-- Numbers of so many bytes each. -/
def numbersOf (bs : List Byte) (size n : Nat) : List Nat := (List.range n).map fun k => ofBytes ((bs.drop (size * k)).take size)

/-- The check and the opening of a declaration that has been read (R322). -/
def State.checkJoin (s : State) (m : Cmd) (q : Nat) (x : Declared) (table weights : List Nat) : Option State :=
  let ks := table.map taskOfWord
  if x.ok m.cap m.d && s.tasksOk m.d m.t ks then s.openJoin m q x (ks.filterMap id) weights
  else s.endCmd m.id stBadDescriptor 0 0

/-- One step of QDECL: state, then the table is read, then the weights; then the checks and the opening. The table is kept while
the weights wait. -/
def State.stepQdecl (s : State) (m : Cmd) (q : Nat) : Option State :=
  let old := (s.team m.d m.t).joinAt q
  let x := declared m.cap
  if old.st = .open_ ∨ old.st = .releasing ∨ old.st = .released then s.endCmd m.id stJoinState 0 0
  else if !m.tags.isEmpty then none
  else if m.next = 0 then match s.cmdReadRange m x.table (4 * x.n) with
    | .wait r a => some (s.awaitPage m.id r a)
    | .stuck => none
    | .fail c a => s.endCmd m.id stTranslation c a
    | .ok v s => some (s.modCmd m.id fun m =>
        { m with next := 1, out := (numbersOf v.1 4 x.n).zipIdx.map fun e => (e.2, (e.1, false)) })
  else
    let table := (List.range x.n).map fun k => (look (0, false) m.out k).1
    if x.weights = 0 then s.checkJoin m q x table (List.replicate x.n 0x100)
    else match s.cmdReadRange m x.weights (2 * x.n) with
      | .wait r a => some (s.awaitPage m.id r a)
      | .stuck => none
      | .fail c a => s.endCmd m.id stTranslation c a
      | .ok w s => s.checkJoin m q x table (numbersOf w.1 2 x.n)

/-! ## QARRIVE (R323) -/

/-- Every store that the strand issued before its QARRIVE, those to the own pool among them, is performed or staged, and every
command issued before it done. -/
def State.arrivalReady (s : State) (m : Cmd) : Bool :=
  let stores := match s.cmdCore m with
    | some c =>
      let k := s.core c
      (k.stores.any fun w => w.strand == m.who.n && w.id < m.id) || (k.poolWrites.any fun w => w.strand == m.who.n && w.seq < m.seq)
        || (k.strand m.who.n).levels.any fun l => l.blocks.any fun b => b.storesLeft && b.poolSeq < m.seq
    | none => false
  !stores && !s.cmds.any fun k => k.of_ m.d m.t m.who && k.id < m.id && !k.done

/-- The join of a QARRIVE. -/
def arriveJoin : Instr → Option Nat
  | .qarrive _ q => some q.toNat
  | _ => none

/-- QARRIVE_REGISTER (R323): the arrival registers at the home. -/
def execQarriveRegister (id : Nat) (s : State) : Out :=
  match s.cmds.find? fun m => m.id == id && m.started && !m.done && !m.cancel with
  | none => .next s
  | some m =>
    match arriveJoin m.cap.op with
    | none => .next s
    | some q =>
      let k := Task.localTask m.who
      let task := (((s.team m.d m.t).joinAt q).number k).getD 4096
      if !s.resident m.d m.t || !s.arrivalReady m || s.arrivesLater m.d m.t q task then .next s
      else
        let status := match ((s.team m.d m.t).joinAt q).arrival k with
          | .counted | .already => 0
          | .late | .excluded => stCancelled
          | .noJoin => stJoinState
          | .noTask => stNotTask
        let s := (s.modCmd id fun m => { m with progress := if status = 0 then 1 else 0 })
        let s := (s.endCmd id status 0 0).getD s
        .next (s.arrive m.d m.t q k)

/-! ## QREAD and QREPLAY (R333, R334) -/

/-- One step of QREAD. -/
def State.stepQread (s : State) (m : Cmd) (q : Nat) : Option State :=
  let j := (s.team m.d m.t).joinAt q
  let ea := m.cap.xa
  if ea.toNat % 64 ≠ 0 then s.endCmd m.id stTranslation misalignedCode ea
  else if j.st = .free then s.endCmd m.id stJoinState 0 0
  else if j.st = .open_ ∨ j.st = .releasing ∨ !m.tags.isEmpty then none
  else match j.record with
    | none => s.endCmd m.id stJoinState 0 0
    | some r =>
      match s.cmdWriteRange m ea r.bytes false true with
      | .wait p a => some (s.awaitPage m.id p a)
      | .stuck => none
      | .fail c a => s.endCmd m.id stTranslation c a
      | .ok _ s => (s.modCmd m.id fun m => { m with progress := 1 }).endCmd m.id 0 0 0

/-- The mask of a record that a join accepts (R334); none gives BAD_IMAGE. -/
def replayMask (j : Join) (bs : List Byte) : Option (List Nat) :=
  let num := fun (o n : Nat) => ofBytes ((bs.drop o).take n)
  let bits := num 0x40 512
  let mask := (List.range 4096).filter fun k => flag bits k
  if num 0 4 ≠ 0x43524A51 ∨ num 4 2 ≠ 1 ∨ num 8 2 ≠ j.tasks.length ∨ num 0xC 1 ≠ j.fill ∨ mask.isEmpty
      ∨ mask.length ≠ num 0x28 2 ∨ mask.any (fun k => decide (j.tasks.length ≤ k)) then none
  else some mask

/-- One step of QREPLAY. -/
def State.stepQreplay (s : State) (m : Cmd) (q : Nat) : Option State :=
  let j := (s.team m.d m.t).joinAt q
  let ea := m.cap.xa
  if ea.toNat % 64 ≠ 0 then s.endCmd m.id stTranslation misalignedCode ea
  else if j.st ≠ .open_ ∨ !j.arrived.isEmpty ∨ j.replay.isSome then s.endCmd m.id stJoinState 0 0
  else if !m.tags.isEmpty then none
  else match s.cmdReadRange m ea 576 with
    | .wait r a => some (s.awaitPage m.id r a)
    | .stuck => none
    | .fail c a => s.endCmd m.id stTranslation c a
    | .ok v s =>
      match replayMask j v.1 with
      | none => s.endCmd m.id stBadImage 0 ea
      | some mask =>
        let s := s.modJoin m.d m.t q fun j => { j with replay := some mask }
        (s.modCmd m.id fun m => { m with progress := 1 }).endCmd m.id 0 0 0

/-! ## QWAIT (R335) -/

/-- The outcome of a join for a strand. -/
def Join.outcome (j : Join) (w : StrandName) : Word :=
  match j.st, j.record with
  | .free, _ => 0
  | _, none => 0
  | _, some r =>
    let task := j.number (.localTask w)
    let inMask := match task with
      | some k => r.mask.contains k
      | none => false
    BitVec.ofNat 64 (r.mask.length + (if inMask then 2 ^ 13 else 0) + (if task.isSome then 2 ^ 14 else 0) + 2 ^ 15 * r.fill
      + 2 ^ 17 * (r.flags.toNat % 8) + 2 ^ 63)

def execQwait (d : BitVec 6) (q : BitVec 4) (s : State) : Out :=
  issueWith (.qwait d q) s (fun s =>
    let j := s.myTeam.joinAt q.toNat
    { blocks := if j.st = .open_ ∨ j.st = .releasing then some (blockFor waitQuorum) else none }) fun s =>
    s.result 2 (.x d ((s.myTeam.joinAt q.toNat).outcome s.myName))

end Sys2Proof.Machine
end

