-- ==== Sys2Proof/Machine/Work.lean ====
section
/-!
DEFINITION. The life of a queued engine command after its issue: its start on its unit (R241, R243), one step of its work,
its run to the end (R243, R244, R249 to R251).
-/

set_option Elab.async false
namespace Sys2Proof.Machine

/-! ## Units (R243) -/

/-- The unit of a command: the core's copy unit, its scatter-accumulate unit, the memory-side unit, the routing counters, a
leased engine, the message unit, the tile table, the joins. -/
def Cmd.unit (m : Cmd) : Nat × Nat :=
  let core := 8 * m.who.cl + m.who.co
  match m.cap.op with
  | .cpy _ _ _ | .cpyst _ _ _ _ _ _ => (0, core)
  | .sacc _ _ _ mem _ => if mem then (2, 0) else (1, core)
  | .rcnt _ _ _ | .rsnap _ _ _ => (3, 0)
  | .unlease _ l => (4, l.toNat)
  | .send _ _ _ _ _ => (5, 0)
  | .ttset _ _ | .tready _ _ | .trkarm _ _ _ => (6, 0)
  | .qdecl _ _ q | .qarrive _ q | .qread _ _ q | .qreplay _ _ q => (7, q.toNat)
  | i => (4, (Instr.bulkLease i).getD 0)

/-- An earlier command of the unit has not started: commands on one unit start in the order in which they reached it. A QARRIVE
waits so for the commands of its own strand only: the home takes arrivals as they reach it (R320, R323). -/
def State.startsLater (s : State) (m : Cmd) : Bool :=
  s.cmds.any fun k => k.d == m.d && k.t == m.t && k.id < m.id && !k.started && !k.done && k.unit == m.unit
    && ((arriveJoin m.cap.op).isNone || k.who == m.who)

/-! ## What holds a command back -/

/-- A sequencer of the core (copy unit, scatter-accumulate unit) halts while the core's frost line is held (R95); an update of a
replicated page that it has locked goes on at the memory side. -/
def State.cmdFrozen (s : State) (m : Cmd) : Bool :=
  m.unit.1 ≤ 1 &&
  (match s.cmdCore m with
    | some c => (s.core c).running.isSome && 0 < (s.core c).frost && !s.replicas.any fun r => r.locked == some m.id
    | none => false)

/-- A store to the own pool by a bundle before the command's that has not landed: the command's token carries it (R268, R274,
R275). -/
def State.owesPool (s : State) (m : Cmd) : Bool :=
  match s.cmdCore m with
  | some c => (s.core c).owesBefore m.seq
  | none => false

/-- A command, and its end, wait for the stores to the own pool before it; block stores that stand still are completed (log 12). -/
def State.waitPool (s : State) (m : Cmd) : Option State :=
  match s.cmdCore m with
  | some c => if (s.core c).owesStill then some (s.modCore c Core.settleStill) else none
  | none => none

/-! ## Start (R241, R243, R251, R257) -/

/-- The states of the consumed tokens; none while one is pending. -/
def State.dependencies (s : State) (m : Cmd) : Option (List TokenState) :=
  let sts := m.own :: m.consumed.map fun k => ((s.team m.d m.t).token k).st
  if sts.contains .pending then none else some sts

/-- A bulk command names a lease that the team does not hold (R258). -/
def State.noLease (s : State) (m : Cmd) : Bool :=
  match Instr.bulkLease m.cap.op with
  | some l => ((s.team m.d m.t).lease l).engine.isNone
  | none => false

/-- What stops a command before its first unit: status, cause, address. -/
def State.startCheck (s : State) (m : Cmd) : Option (Nat × Nat × Word) :=
  if s.noLease m then some (stNoLease, 0, 0)
  else match m.cap.op with
    | .cpy _ _ _ => copyCheck m.cap true
    | .cpyst _ _ _ tee _ _ => copyCheck m.cap tee
    | .sacc _ _ _ mem _ => saccCheck m.cap mem
    | .rsnap _ _ _ => if m.cap.xa.toNat % 64 ≠ 0 then some (stTranslation, misalignedCode, m.cap.xa) else none
    | .zip _ _ _ _ => zipCheck m.cap
    | .unzip _ _ _ _ => unzipCheck m.cap
    | .repl _ _ _ _ _ => replCheck m.cap m.d
    | .tsave _ _ _ | .tload _ _ _ => s.imageCheck m
    | .send _ _ _ _ _ => sendCheck m.cap
    | _ => none

/-- The start of a command, when it may start. -/
def State.startNow (s : State) (m : Cmd) : Option State :=
  if m.done || m.started || !s.resident m.d m.t then none
  else if m.cancel then s.endCmd m.id stCancelled 0 0
  else match s.dependencies m with
    | none => none
    | some sts =>
      if sts.contains .error then s.endCmd m.id stDependency 0 0
      else if sts.contains .cancelled then s.endCmd m.id stCancelled 0 0
      else if s.startsLater m || s.sendBehind m then none
      else
        let s := s.modCmd m.id fun k => { k with started := true }
        match s.startCheck m with
        | some f => s.endCmd m.id f.1 f.2.1 f.2.2
        | none => some s

/-- The start of a command; one that ends at its start waits for the stores to the own pool before it, as every end does. -/
def State.startCmd (s : State) (m : Cmd) : Option State :=
  match s.startNow m with
  | none => none
  | some t => if ((t.cmd? m.id).map (·.done)).getD true && s.owesPool m then s.waitPool m else some t

/-- ENGINE_COMMAND_START (R241, R243). -/
def execEngineCommandStart (id : Nat) (s : State) : Out := .next (((s.cmd? id).bind s.startCmd).getD s)

/-! ## One step (R249 to R251) -/

/-- The lease of a running bulk command has its engine. -/
def State.engineBound (s : State) (m : Cmd) : Bool :=
  match Instr.bulkLease m.cap.op with
  | some l => ((s.team m.d m.t).lease l).engine.isSome
  | none => true

/-- The step of a running command by its kind; QARRIVE ends by QARRIVE_REGISTER. -/
def State.unitStep (s : State) (m : Cmd) : Option State :=
  match m.cap.op with
  | .cpy _ _ _ => s.stepCpy m
  | .cpyst _ _ _ tee _ _ => (Instr.binding m.cap.op).bind (s.stepCopy m tee)
  | .sacc _ _ _ mem _ => s.stepSacc m mem
  | .rcnt _ _ _ => s.stepRcnt m
  | .rsnap _ _ _ => s.stepRsnap m
  | .unlease _ l => s.stepUnlease m l.toNat
  | .zip _ _ _ _ => s.stepZip m
  | .unzip _ _ _ _ => s.stepUnzip m
  | .repl _ _ _ w _ => s.stepRepl m w
  | .tsave _ _ _ => s.stepTsave m
  | .tload _ _ _ => s.stepTload m
  | .send _ _ _ _ _ => s.stepSend m
  | .ttset _ _ => s.stepTtset m
  | .tready _ _ => s.stepTready m
  | .trkarm _ _ _ => s.stepTrkarm m
  | .qdecl _ _ q => s.stepQdecl m q.toNat
  | .qread _ _ q => s.stepQread m q.toNat
  | .qreplay _ _ q => s.stepQreplay m q.toNat
  | _ => none

/-- A step of a cancelled command (R251, R296), of one whose page request was refused (R249), else its next unit. -/
def State.anyStep (s : State) (m : Cmd) : Option State :=
  let send := match m.cap.op with
    | .send _ _ _ _ _ => true
    | _ => false
  -- an RSNAP that has taken its snapshot writes it out
  let snap := match m.cap.op with
    | .rsnap _ _ _ => m.pos == 1
    | _ => false
  if m.cancel && !snap then if send then s.cancelSend m else s.endCmd m.id stCancelled 0 0
  else match m.refused with
    | some a =>
      if send then
        some (s.modCmd m.id fun k => { k with refused := none, waits := [], status := stTranslation, cause := stage2Code, failAddr := a })
      else s.endCmd m.id stTranslation stage2Code a
    | none => if s.engineBound m then s.unitStep m else none

/-- One step of a command's work; none when it can do nothing. A command that ends releases its locks. -/
def State.cmdStep (s : State) (id : Nat) : Option State :=
  match s.cmd? id with
  | none => none
  | some m =>
    if m.done || !m.started || !s.resident m.d m.t || s.cmdFrozen m then none
    else match s.anyStep m with
      | none => if s.owesPool m then s.waitPool m else none
      | some t =>
        if !((t.cmd? id).map (·.done)).getD true then some t
        else if s.owesPool m then s.waitPool m
        else some (t.dropLocks id)

/-- The steps of a command, as many as the fuel allows. -/
def State.runCmd : (fuel : Nat) → (id : Nat) → State → State
  | 0, _, s => s
  | n + 1, id, s => match s.cmdStep id with
    | some s => State.runCmd n id s
    | none => s

/-- Units that one ENGINE_COMMAND_DONE performs at most; a longer command goes on at the next. -/
def runFuel : Nat := 1048576

/-- ENGINE_COMMAND_DONE (R243): the command does what is left of its work; its last write is performed and its token
produced. -/
def execEngineCommandDone (id : Nat) (s : State) : Out := .next (s.runCmd runFuel id)

end Sys2Proof.Machine
end

