-- ==== Sys2Proof/Machine/Sched.lean ====
section
/-!
DEFINITION. The die scheduler, first part: what a strand waits for and when it is over (R92, R369), eligibility and keys
(R373), slices and rounds (R370, R374), the passing of time (R258, R370, R372, R386, R387), gust, lull and windows
(R366, R371, R372), YIELD (R379), switches on the frost line (R93, R97, R142), kill points (R326), the end of a strand (R118).
-/

set_option Elab.async false
namespace Sys2Proof.Machine

/-- A fault of the team is in service (R361). -/
def State.inService (s : State) (d t : Nat) : Bool :=
  (s.teamStrands d t).any fun e => e.2.mode != .inactive && (e.2.ctl.exl || (e.2.mode == .blocked && e.2.wait.reason == waitPage))

/-! ## What a blocked strand waits for (R92, R369) -/

/-- Landed elements for a stream of a strand. -/
def Team.landedFor (t : Team) (w : StrandName) (k : Nat) : Nat :=
  ((t.landing.filter fun l => l.m.kind == 3 && streamName l.m == (w, k)).map fun l => l.m.payload.length / 8).sum

/-- Every element that a bundle pops or peeks has arrived or landed. -/
def State.elementsHere (s : State) (d t : Nat) (w : StrandName) (x : Strand) (is : List Instr) : Bool :=
  let pops := is.flatMap Instr.pops
  let have_ := fun k => (x.stream k).length + (s.team d t).landedFor w k
  pops.all (fun k => pops.count k ≤ have_ k) && is.all fun i => match i with
    | .peek _ k => 0 < have_ k.toNat
    | .vpop _ k m => (maskGroups m).length ≤ (x.vstream k.toNat).length
    | _ => true

/-- The word of a SPINW of a saved strand meets its condition (R390); a word of the local region is read again on resume. -/
def State.spinMet (s : State) (d t : Nat) (w : StrandName) (x : Strand) : Bool :=
  match x.spin with
  | none => true
  | some q =>
    if localBase ≤ q.addr.toNat % 2 ^ 42 then false
    else match s.teamTarget none d t (s.team d t).gang q.addr .read with
      | .ok (.outside _) _ => false
      | .ok tgt _ => !s.readLocked tgt && spinHolds q.cond (BitVec.ofNat 64 (ofBytes (s.readTarget d t w tgt 8).1.1)) q.cmp
      | _ => false

/-- The event that a blocked strand awaits has occurred (R369). A wait on a page request, and a wait on a matrix slot of a
resident team, end by events of their own (PAGE_ANSWER, MATRIX_SLOT_WAKE). -/
def State.awaitOver (s : State) (d t : Nat) (w : StrandName) (x : Strand) : Bool :=
  let is := s.bundleAt d t x.pc.toNat
  let team := s.team d t
  let tokens := is.all fun i => match i with
    | .tkwait _ k => (team.token k.toNat).st != .pending
    | _ => true
  match x.wait.reason with
  | 1 => s.elementsHere d t w x is
  | 2 | 6 | 12 => tokens
  | 3 => s.queueLength d t w < 32
  | 4 => if s.resident d t then x.spin.isNone else s.spinMet d t w x
  | 5 => is.all fun i => match i with
    | .qwait _ q => let j := team.joinAt q.toNat; j.st != .open_ && j.st != .releasing
    | _ => true
  | 7 => !s.resident d t
  | 9 => (match x.gather with
    | some g => g.mask.all (fun e => e.dead.isSome) && (!g.mask.isEmpty || g.write || !s.resident d t || g.kept.all fun e => e.read ||
        (s.coreNamed d t w).any fun c => s.mayReadKept c w.n e)
    -- a page of a die of another package (log 95)
    | none => x.wait.tags.isEmpty && (s.coreNamed d t w).any fun c => Config.outsidePage c w.n (s.die d).now)
  | 8 =>
    !s.resident d t || is.all fun i => match i with
      | .lease _ l => (team.lease l.toNat).engine.isSome
          || ((s.die d).freeEngine.isSome && s.leaseTurn d t l.toNat)
      | _ => true
  | 10 => s.stagingUsed x.wait.place < 262144
  | 11 => !x.late
  | _ => false

/-- A strand that has issued ENDK and whose commands and stores are done (R118). -/
def State.mayEnd (s : State) (d t : Nat) (w : StrandName) (x : Strand) : Bool :=
  x.ending && !x.storingAny && !s.owesCommit d t w (fun _ => true) && (!s.cmds.any fun m => m.of_ d t w && !m.done) &&
  (match s.coreNamed d t w with
    | some c => !s.resident d t || !(((s.core c).stores.any fun q => q.strand == w.n) || (s.core c).poolWrites.any fun q => q.strand == w.n)
    | none => true)

/-- A strand can go on (R369). -/
def State.strandRunnable (s : State) (d t : Nat) (w : StrandName) (x : Strand) : Bool :=
  match x.mode with
  | .inactive => false
  | .ready | .running | .frozenOut => true
  | .blocked => if x.ending then s.mayEnd d t w x else s.awaitOver d t w x

/-- A team is runnable (R369). -/
def State.runnable (s : State) (d t : Nat) : Bool :=
  1 ≤ (s.team d t).st && (s.team d t).st ≤ 7 && (s.teamStrands d t).any fun e => s.strandRunnable d t e.1 e.2

/-- What follows at once from a move: a strand of a launch that owes nothing any more counts as ended (R277), and a team that was IDLE
and has become runnable is WAITING (R368). -/
def State.wakeTeams (s : State) : State :=
  let s := s.closeLaunches
  s.dies.foldl (fun s e => e.2.teams.foldl (fun s x =>
    if x.2.st = 1 ∧ s.runnable e.1 x.1 then s.modTeam e.1 x.1 fun t => { t with st := 2 } else s) s) s

/-! ## Selection (R373) -/

def Team.key (t : Team) : Int := 32 * (t.cls.toNat : Int) + t.gust - t.lull
def Team.underCap (t : Team) : Bool := t.cap == 0 || t.used < t.cap

/-- The boost rule. -/
def Die.boosted (k : Die) (t : Team) : Bool := t.underCap && 0 < t.gust && t.borrow < k.bcap

def State.eligible (s : State) (d t : Nat) : Bool :=
  let m := s.team d t
  s.runnable d t && m.underCap && (0 < m.deficit || (s.die d).boosted m)

/-- The team indices of a partition on a die. -/
def State.teamsOf (s : State) (d p : Nat) : List Nat :=
  ((s.die d).teams.filter fun e => e.2.st != 0 && e.2.part == p).map (·.1)

/-- The part supports the versions that a strand and its unfinished F64 special functions name, those that a trap has suspended
among them (R185). -/
def Strand.supported (x : Strand) : Bool :=
  x.mode == .inactive || (versionSupported x.ctl.version &&
    x.levels.all fun l => l.blocks.all fun b => !f64Special b.op || versionSupported b.version)

/-- Every strand of a team may resume on this part (R185). -/
def State.resumable (s : State) (d t : Nat) : Bool := (s.teamStrands d t).all fun e => e.2.supported

/-- The eligible teams of a partition that are out and may be selected. -/
def State.candidates (s : State) (d p : Nat) : List Nat :=
  (s.teamsOf d p).filter fun t => ((s.team d t).st == 1 || (s.team d t).st == 2) && s.eligible d t && s.resumable d t

/-- The first team of a list goes before the second: larger key, larger deficit, lower index. -/
def State.goesBefore (s : State) (d a b : Nat) : Bool :=
  let x := s.team d a
  let y := s.team d b
  y.key < x.key || (x.key == y.key && (y.deficit < x.deficit || (x.deficit == y.deficit && a < b)))

/-- The team that selection takes among some. -/
def State.pick (s : State) (d : Nat) : (among : List Nat) → Option Nat
  | [] => none
  | t :: rest => match s.pick d rest with
    | none => some t
    | some u => if s.goesBefore d t u then some t else some u

/-! ## Slices (R374, R380, R381) -/

/-- A strand is INACTIVE, parked, or BLOCKED on a bundle that carries Y while what it awaits has not happened (R374). -/
def State.idleAtYield (s : State) (d t : Nat) (e : StrandName × Strand) : Bool :=
  e.2.isParked && !(e.2.mode == .blocked && s.awaitOver d t e.1 e.2)

/-- A resident team's slice is over (R374). -/
def State.sliceOver (s : State) (d t : Nat) : Bool :=
  let k := s.die d
  let m := s.team d t
  let others := s.candidates d m.part
  (m.deficit ≤ 0 && !(k.boosted m && s.runnable d t))
    || (m.sliceStart + k.quantum ≤ k.now && !others.isEmpty)
    || (m.deficit ≤ 0 && k.bcap ≤ m.borrow)
    || !m.underCap
    || others.any (fun u => m.key < (s.team d u).key)
    || ((s.teamStrands d t).all (s.idleAtYield d t) && !others.isEmpty)
    || m.stopping != 0

/-- The running strand leaves the core in a state. -/
def Core.leave (k : Core) (n : Nat) (m : RunState) : Core :=
  { k.setStrand n { k.strand n with mode := m } with running := none, last := n, frost := 0, lockFrost := 0, switchLeft := 2 }

/-- A stream that a forced pre-emption stops: what its rows already admitted make of the file, with their completion, and the stream
of the rows left, which rests for the resume (R239). -/
def EddyWork.cut (w : EddyWork) (now : Nat) : List EddyWork :=
  if !(w.streams && now < w.admits) then [w]
  else
    let entered := if w.every = 0 then 0 else min w.steps.length (ceilDiv (now - w.start) w.every)
    let rest := { w with
      stopped := some now, steps := w.steps.drop entered, start := w.start + entered * w.every
      readLines := w.readLines.filter fun l => now ≤ l.2 }
    match (w.steps.take entered).getLast? with
    | none => [rest]
    | some v => [{ w with
        value := some v, clearFile := none, readFile := none, readLines := [], admits := now, steps := [], flags := 0, recs := [],
        mark := false, until_ := w.start + (entered - 1) * w.every + w.tail }, rest]

/-- A forced pre-emption stops the admission of rows: the rows admitted complete, those left are kept for the resume, other work
completes. Rows that were already at rest stay so (R239). -/
def Core.stopRows (k : Core) : Core :=
  { k with eddy := match k.rowsWait with
      | some m => k.eddy.map fun w => { w with stopped := some m }
      | none => k.eddy.flatMap fun w => w.cut k.mtime }

/-- Some strand of the team is overdue (R378). -/
def State.anyOverdue (s : State) (d t : Nat) : Bool := (s.teamStrands d t).any fun e => e.2.mode != .inactive && e.2.ctl.overdue

/-- A forced pre-emption begins (R384): every core of the team stops at its bundle boundary. -/
def State.force (s : State) (d t : Nat) : State :=
  let s := (s.coresOf (s.team d t).part d).foldl (fun s c => s.modCore c fun k => match k.running with
    | some n => (k.leave n .ready).stopRows
    | none => k.stopRows) s
  s.modTeam d t fun m => { m with st := 7, spillStart := (s.die d).now, watch := 0 }

/-- SLICE_END (R374): the team is PARKING; with an overdue strand it goes straight to forced pre-emption (R378). -/
def execSliceEnd (d t : Nat) (s : State) : Out :=
  if (s.team d t).st = 4 ∧ s.sliceOver d t then
    .next (if s.anyOverdue d t then s.force d t else s.modTeam d t fun m => { m with st := 5, graceStart := (s.die d).now })
  else .next s

/-- YIELD (R379): the next bundle is a yield point; the slice ends when another team of the partition is eligible, with another strand
overdue straight into forced pre-emption (R378). -/
def execYield (s : State) : Out :=
  issuePlain .yield s fun s =>
    let s := s.modMe fun t => { t with yieldNext := true, ctl := { t.ctl with ydist := 0, overdue := false } }
    let d := s.myDie
    let m := s.myTeam
    if m.st = 4 ∧ (s.candidates d m.part) ≠ [] then
      if s.anyOverdue d s.myTeamIndex then s.force d s.myTeamIndex
      else s.modMyTeam fun m => { m with st := 5, graceStart := (s.die d).now }
    else s

/-! ## Rounds (R370) -/

def satDeficit (x : Int) : Int := max (-2147483648) (min 2147483647 x)

/-- A round of a partition may begin. -/
def State.roundDue (s : State) (d p : Nat) : Bool :=
  let ts := s.teamsOf d p
  ts.any (fun t => s.runnable d t)
    && ts.all fun t => !s.runnable d t || ((s.team d t).deficit ≤ 0 && !(s.die d).boosted (s.team d t))

/-- ROUND_BEGIN (R370). -/
def execRoundBegin (d p : Nat) (s : State) : Out :=
  if s.roundDue d p then
    .next ((s.teamsOf d p).foldl (fun r t =>
      if s.runnable d t then r.modTeam d t fun m =>
        { m with deficit := satDeficit (m.deficit + m.weight.toNat * (s.die d).qbase) }
      else r.modTeam d t fun m => { m with deficit := min m.deficit 0 }) s)
  else .next s

/-! ## Gust, lull, windows (R366, R371, R372) -/

/-- GUST_TICK (R371). -/
def execGustTick (d : Nat) (s : State) : Out :=
  if (s.die d).now < 1700 * ((s.die d).gustTicks + 1) then .next s
  else .next (s.modDie d fun k => { k with
    gustTicks := k.gustTicks + 1
    teams := k.teams.map fun e => (e.1, { e.2 with gust := if e.2.arrived then e.2.gust else e.2.gust - 1, arrived := false }) })

/-- LULL_STEP (R372): the lull timer has reached SPINLIM.LIMIT units of 256 cycles. -/
def execLullStep (d t : Nat) (s : State) : Out :=
  let m := s.team d t
  if m.spinlim = 0 ∨ m.lullTimer < 256 * m.spinlim.toNat then .next s
  else .next (s.modTeam d t fun m => { m with lull := min 15 (m.lull + 1), lullTimer := 0 })

/-- WINDOW_BOUNDARY (R366). -/
def execWindowBoundary (d : Nat) (s : State) : Out :=
  let k := s.die d
  if k.now < k.windowStart + k.windowLen then .next s
  else .next (s.modDie d fun k => { k with
    windowStart := k.windowStart + k.windowLen
    windowLen := 8 * k.quantum
    teams := k.teams.map fun e => (e.1, { e.2 with borrow := 0, used := 0 }) })

/-! ## Time passes -/

/-- Cycles charged to a team (R370). -/
def Team.charge (t : Team) (n : Nat) : Team :=
  let free := min n t.deficit.toNat
  { t with deficit := satDeficit (t.deficit - n), borrow := min 4294967295 (t.borrow + (n - free)), used := min 4294967295 (t.used + n) }

/-- The leases of a team after some cycles: bound ones run, waiting ones gain deficit (R257). -/
def Team.leaseTime (t : Team) (resident : Bool) (n : Nat) : Team :=
  let waits := resident && t.leases.any fun l => l.2.requested
  { t with
    leases := t.leases.map fun l => (l.1, if l.2.engine.isSome then { l.2 with left := l.2.left - n, held := l.2.held + n } else l.2)
    leaseDeficit := if waits then min 27200000 (t.leaseDeficit + 4 * t.weight.toNat * n) else t.leaseDeficit }

/-- The conditions of the lull timer (R372). -/
def lulls (xs : List (StrandName × Strand)) : Bool :=
  let live := xs.filter fun e => e.2.mode != .inactive
  !live.isEmpty && live.all fun e => e.2.mode == .blocked && [1, 2, 4, 5, 6].contains e.2.wait.reason

/-- A peer team of a gang on a die of the package is out or has a fault in service (R361). -/
def State.peerAway (s : State) (endpoint : Nat) (g : BitVec 24) : Bool :=
  match dieOfEndpoint endpoint with
  | none => false
  | some d => match s.gangTeam d g with
    | none => false
    | some t => !s.resident d t || s.inService d t

/-- A posted store of a strand goes to another die on which the team of its gang is away. -/
def State.storeAway (s : State) (d t : Nat) (w : StrandName) : Bool :=
  match s.coreNamed d t w with
  | some c => (s.core c).stores.any fun q => q.strand == w.n && (match q.target with
      | .hbm pa => stackOf pa != d && s.peerAway (stackOf pa) (s.team d t).gang
      | _ => false)
  | none => false

/-- The peers of the wait of a strand are away (R387): the team of a message that is retried, the contributors of a run, the
target of a remote store for which the QARRIVE that the strand awaits still waits. -/
def State.peersAway (s : State) (d t : Nat) (w : StrandName) (x : Strand) : Bool :=
  let team := s.team d t
  let toks := (s.bundleAt d t x.pc.toNat).filterMap fun i => match i with
    | .tkwait _ k => some k.toNat
    | _ => none
  match x.wait.reason with
  | 2 | 6 => toks.any fun k =>
      (s.sent.any fun q => q.resting && q.cmd.isSome && q.cmd == (team.token k).cmd && s.peerAway q.m.dst.toNat q.m.gang)
        || (team.tiles.any fun e => match e.2.run with
          | some r => r.token == k && (e.2.peerEndpoints ++ (s.contributorDies d team.gang e.1).map endpointOf).any fun p => s.peerAway p team.gang
          | none => false)
        || ((s.cmds.any fun m => some m.id == (team.token k).cmd && !m.done && m.who == w && (match m.cap.op with
            | .qarrive .. => true
            | _ => false)) && s.storeAway d t w)
  | _ => false

/-- The wait watchdog of a strand runs (R387). -/
def State.watched (s : State) (d t : Nat) (w : StrandName) (x : Strand) : Bool :=
  x.mode == .blocked && x.wait.reason != waitPeer && x.wait.reason != waitPage && !x.ctl.exl && !s.peersAway d t w x

/-- A stopped store of a spilling team goes to a peer that is away (R386). -/
def State.spillFrozen (s : State) (d t : Nat) : Bool :=
  s.inService d t || (s.coresOf (s.team d t).part d).any fun c => (s.core c).stores.any fun w => match w.target with
    | .hbm pa => stackOf pa != d && s.peerAway (stackOf pa) (s.team d t).gang
    | _ => false

/-- A team after some cycles of its die. -/
def State.teamTime (s : State) (d t n : Nat) : State :=
  let m := s.team d t
  let here := s.resident d t
  let holds := 4 ≤ m.st && m.st ≤ 7
  let frozen := m.st = 7 && s.spillFrozen d t
  let quiet := here && lulls (s.teamStrands d t)
  let s := s.modTeam d t fun m =>
    let m := if holds then m.charge n else m
    let m := m.leaseTime here n
    { m with watch := if m.st = 7 ∧ !frozen then m.watch + n else m.watch, lullTimer := if quiet then m.lullTimer + n else m.lullTimer }
  if !here then s
  else (s.coresOf m.part d).foldl (fun s c => (s.core c).strands.foldl (fun s e =>
    if s.watched d t (s.nameOf c e.1) e.2 then s.modStrand c e.1 fun x => { x with waited := x.waited + n } else s) s) s

/-- Cycles of a die pass. -/
def State.pass (s : State) (d n : Nat) : State :=
  if n = 0 then s
  else (s.die d).teams.foldl (fun s e => if e.2.st = 0 then s else s.teamTime d e.1 n) (s.modDie d fun k => { k with now := k.now + n })

/-! ## Switches (R93, R97, R142) -/

/-- The strand that the core turns to: the next READY one after the strand that last ran, in the order 0, 1, 2, 3. A strand
that has parked stays. -/
def Core.nextStrand (k : Core) : Option Nat :=
  ([1, 2, 3, 4].map fun i => (k.last + i) % 4).find? fun n => (k.strand n).mode == .ready && !(k.strand n).parked

/-- FROST_SWITCH (R93, R97): the frost line has been held for FROSTSW.LIMIT consecutive cycles, by a late result, an interlock,
a hold or throttling (R95, R150, R161), and another strand is READY. Without a late result the strand that leaves is READY again
at once (log 71). -/
def execFrostSwitch (c : Nat) (s : State) : Out :=
  let k := s.core c
  match k.running with
  | none => .next s
  | some n =>
    let limit := (k.strand n).ctl.frostsw.toNat
    if limit != 0 && limit ≤ k.frost && (k.nextStrand).isSome then .next (s.setCore c (k.leave n .frozenOut))
    else .next s

/-- A late load of the strand meets a locked replica. -/
def State.lockHeld (s : State) (c n : Nat) : Bool :=
  let t := s.strand c n
  (s.core c).loads.any fun l => l.strand == n && (l.places.any s.readLocked) &&
    t.pend.any fun p => p.load == some l.id && p.due ≤ t.time

/-- REPLICA_LOCK_SWITCH (R93, R142): a load has held the frost line for 256 cycles on a replica lock, whatever held it before. -/
def execReplicaLockSwitch (c : Nat) (s : State) : Out :=
  let k := s.core c
  match k.running with
  | none => .next s
  | some n =>
    if !(s.lockHeld c n && 256 ≤ k.lockFrost) then .next s
    else if (k.strand n).condemned.isSome then .next (s.killStrand c n false)
    else
      let k := k.leave n .blocked
      .next (s.setCore c (k.setStrand n { k.strand n with
        wait := { WaitInfo.reset with reason := waitReplica, since := k.cycle }
        ctl := { (k.strand n).ctl with waitLast := 11, waitCyc := 0 } }))

/-! ## The end of strands (R118, R326, R327) -/

/-- STRAND_END (R118): the strand becomes INACTIVE once its commands and stores are done. -/
def execStrandEnd (c n : Nat) (s : State) : Out :=
  let d := coreDie c
  if (s.teamOn c).isSome && s.mayEnd d (s.teamAt c) (s.nameOf c n) (s.strand c n) then
    .next (s.endStrand c n (s.strand c n).ctl.errorBits)
  else .next s

/-- The header of the bundle that a strand presents, when one begins there and can be fetched (R34, R424). -/
def State.headerAt (s : State) (c n : Nat) : Option Header :=
  let va := (s.strand c n).pc.toNat
  match s.fetchWord c va with
  | .ok w => if s.startBit (coreDie c) (s.vfAt c) va then some (headerOf w) else none
  | .error _ => none

/-- KILL_POINT (R326): a condemned strand presents a bundle with K set. -/
def execKillPoint (c n : Nat) (s : State) : Out :=
  let x := s.strand c n
  if x.condemned.isSome && (x.mode == .running || x.mode == .ready) && (s.teamOn c).isSome
      && ((s.headerAt c n).map (·.k)).getD false then
    .next (s.killStrand c n false)
  else .next s

/-- KILL_LIMIT (R326): 2^22 strand cycles since the condemnation. -/
def execKillLimit (c n : Nat) (s : State) : Out :=
  let x := s.strand c n
  match x.condemned with
  | none => .next s
  | some at_ => if at_ + 2 ^ 22 ≤ x.time && (s.teamOn c).isSome then .next (s.killStrand c n false) else .next s

/-- YIELD_OVERDUE (R378): more than 2^22 strand cycles since the last yield point. -/
def execYieldOverdue (c n : Nat) (s : State) : Out :=
  let x := s.strand c n
  if x.ctl.ydist.toNat ≤ 2 ^ 22 || x.ctl.overdue || (s.teamOn c).isNone then .next s
  else
    let s := s.modStrand c n fun x => { x with ctl := { x.ctl with overdue := true } }
    .next (s.modTeam (coreDie c) (s.teamAt c) fun m => { m with fcause := 0x14, overdue := min 65535 (m.overdue + 1) })

end Sys2Proof.Machine
end

