-- ==== Sys2Proof/Machine/Swap.lean ====
section
/-!
DEFINITION. The die scheduler, second part: saving and restoring a team (R96, R211, R239, R250, R258, R382 to R384), selection
and swaps (R368, R373, R381 to R386), the watchdogs and the loss of a team (R386 to R388), scan tests (R407).
-/

set_option Elab.async false
namespace Sys2Proof.Machine

/-! ## Saving (R382, R384) -/

/-- Pool bytes of a core's vector register file (R123, R382). -/
def Core.registerFile (k : Core) : List Host.Cell := k.pool.filter fun e => 4194304 - vrfSize k.part ≤ e.1

/-- A strand as it is saved: it counts from its core's clock; nothing of it is on a core. -/
def Strand.saved (x : Strand) (cycle : Nat) : Strand :=
  { x with
    mode := if x.mode = .running then .ready else x.mode
    wait := { x.wait with since := cycle - x.wait.since }
    spin := x.spin.map fun q => { q with last := 0 } }

def Strand.restored (x : Strand) (cycle : Nat) : Strand :=
  { x with wait := { x.wait with since := cycle - x.wait.since }, parked := false }

/-- What a core keeps of a team that leaves it: after a cooperative swap the vector registers and the strands, after a forced
pre-emption everything (R211, R239, R382, R384). -/
def Core.save (k : Core) (lcore : Nat) (forced : Bool) (size : Nat) : SavedCore :=
  { lcore := lcore
    strands := (k.strands.filter fun e => e.2.mode != .inactive).map fun e => (e.1, e.2.saved k.cycle)
    part := k.part
    ran := k.ran
    pool := if forced then k.pool else k.registerFile
    poolPoison := if forced then k.poolPoison else k.poolPoison.filter fun a => 4194304 - vrfSize k.part ≤ a
    scale := if forced then k.scale else []
    scaleMarks := if forced then k.scaleMarks else []
    slots := if forced then k.slots.map fun e => (e.1, { e.2 with readsUntil := 0, loadUntil := 0, load := [] }) else []
    tris := if forced then k.tris else []
    size := size
    blocks := if forced then k.written else []
    eddy := if forced then k.eddy.map fun w => { w.shift (· - w.stopped.getD k.mtime) with stopped := none } else [] }

/-- A core takes up what was saved. C restarts, and the rows left of its streams enter, with the first bundle that issues (R200,
R239); until they have, the triangle is theirs. -/
def Core.restore (k : Core) (v : SavedCore) : Core :=
  { k.zeroed with
    strands := v.strands.map fun e => (e.1, e.2.restored k.cycle)
    part := v.part
    ran := v.ran
    pool := v.pool
    poolPoison := v.poolPoison
    written := v.blocks
    scale := v.scale
    scaleMarks := v.scaleMarks
    slots := v.slots
    tris := v.tris
    eddy := v.eddy.map fun w => w.shift (· + k.mtime)
    triUntil := (v.eddy.map fun w => w.admits + k.mtime).foldl max 0
    cBase := k.mtime
    resumed := some k.mtime
    rowsWait := if v.eddy.isEmpty then none else some k.mtime }

/-- The engines of a team's leases are returned; the leases are requested again with what is left of their periods when the
team resumes (R258). -/
def State.suspendLeases (s : State) (d t : Nat) : State :=
  (s.team d t).leases.foldl (fun s l =>
    if l.2.engine.isNone then s
    else (s.returnLease d t l.1).modTeam d t fun m => { m with leases := ins m.leases l.1 { m.lease l.1 with requested := true } }) s

/-- The locks of replicated pages that a team's commands hold are released at a unit boundary. -/
def State.releaseLocks (s : State) (d t : Nat) : State :=
  (s.cmds.filter fun m => m.d == d && m.t == t).foldl (fun s m => s.dropLocks m.id) s

/-- A team leaves its cores: it is saved and every core of the partition is zeroed (R382, R401). -/
def State.swapOut (s : State) (d t : Nat) (forced : Bool) : State :=
  let p := (s.team d t).part
  let cs := s.coresOf p d
  let saved := cs.map fun c => (s.core c).save (8 * s.logicalCluster c + coreIn c) forced (Config.free (s.fresh + coreIn c + 8 * s.logicalCluster c))
  let s := (s.suspendLeases d t).releaseLocks d t
  let s := cs.foldl (fun s c => s.modCore c Core.zeroed) s
  let s := s.modDie d fun k => { k with running := dropKey k.running p }
  { s.modTeam d t fun m => { m with saved := saved, spilled := forced } with fresh := s.fresh + 256 }

/-- Work of a core that goes on without its strands has ended: a cooperative swap and a save wait for it (R210, R211, R239,
R381, R384). Late loads and posted stores are not awaited: they are taken where they stand (R96). -/
def Core.quiet (k : Core) (forced : Bool) : Bool :=
  k.mults.isEmpty && k.tileWork.isEmpty && (if forced then k.eddy.all (·.stopped.isSome) else k.eddy.isEmpty) && k.slots.all (fun e => e.2.load.isEmpty)
    && k.poolWrites.isEmpty

/-- A one-sided write has written some lines of its payload to the pool of a core of the team, and the rest has still to be (R266). -/
def State.poolPending (s : State) (d t : Nat) : Bool :=
  s.partWritten.any fun e => e.1.kind == 2 && dieOfEndpoint e.1.dst.toNat == some d && s.messageTeam d e.1 == some t

/-- The work of a team's cores has ended. -/
def State.quiet (s : State) (d t : Nat) (forced : Bool) : Bool :=
  (s.coresOf (s.team d t).part d).all (fun c => (s.core c).quiet forced) && !s.poolPending d t

/-- The state of a team once its save is complete, and what the hypervisor is told (R368, R389, R406, R407). -/
def State.saveComplete (s : State) (d t : Nat) : State :=
  let why := (s.team d t).stopping
  let s := s.modTeam d t fun m => { m with stopping := 0 }
  if 1 ≤ why ∧ why ≤ 3 then (s.modTeam d t fun m => { m with st := 8 }).postEvent 3 d t (s.team d t).vf 0
  else
    let s := s.modTeam d t fun m => { m with st := 2 }
    s.modTeam d t fun m => { m with st := if s.runnable d t then 2 else 1 }

/-! ## Times of an exchange (R382, R385) -/

/-- The state of the strands of a saved core in bytes, which the spec bounds by 64 KiB each and leaves to their contents: a
free value. -/
def SavedCore.stateBytes (v : SavedCore) : Nat := v.size % (65536 * v.strands.length + 1)

/-- The image of a saved core in bytes: the register shares of its node strands, where any have run, and its strands' state. -/
def SavedCore.imageBytes (v : SavedCore) : Nat := (if v.ran then vrfSize v.part else 0) + v.stateBytes

/-- The shadow SRAM of a core: 1 MiB (R15). -/
def shadowSize : Nat := 1048576

/-- What an image takes of its core's shadow SRAM; what passes directly between the pool and the save area. -/
def SavedCore.inShadow (v : SavedCore) : Nat := min shadowSize v.imageBytes
def SavedCore.beyond (v : SavedCore) : Nat := v.imageBytes - shadowSize

/-- The bytes of an image in the shadow SRAM, by logical core; in all. -/
def shadowHeld (vs : List SavedCore) : Sparse Nat := vs.foldl (fun h v => put 0 h v.lcore v.inShadow) []
def shadowBytes (vs : List SavedCore) : Nat := (vs.map (·.inShadow)).sum

/-- Cycles in which bytes pass at 0.6 x 2.56 TB/s. -/
def spillCycles (bytes : Nat) : Nat := ceilDiv (bytes * 17) 15360

/-- The cycles of an exchange between two teams of a partition; the image of the incoming one is staged or not. What lies
beyond the shadow SRAM passes directly at the unstaged rate (R382). -/
def exchangeCycles (out inc : List SavedCore) (staged : Bool) : Nat :=
  let cores := ((out ++ inc).map (·.lcore)).eraseDups
  let of_ := fun (vs : List SavedCore) (l : Nat) => ((vs.find? fun v => v.lcore == l).map (·.inShadow)).getD 0
  let per := cores.map fun l => ceilDiv (of_ out l + of_ inc l) 256 + 64
  (if staged then 0 else spillCycles (shadowBytes inc)) + per.foldl max 0 + spillCycles ((out ++ inc).map (·.beyond)).sum

/-- The bytes of a spilled team: its pool blocks, its strands' state, and at most 16,384 bytes of scale buffers, 33,024 of
triangular files and 4,096 of other state a core (R385; log 61). -/
def spilledBytes (vs : List SavedCore) : Nat := (vs.map fun v => 4096 * v.blocks.length + v.stateBytes + 16384 + 33024 + 4096).sum

/-- The cycles of the restore of a spilled team (R385). -/
def restoreCycles (vs : List SavedCore) : Nat := spillCycles (spilledBytes vs)

/-! ## The loss of a team (R388) -/

/-- Held lines of a team's strands, and those on their way, are discarded; what has been committed stands. -/
def State.dropHeld (s : State) (d t : Nat) : State :=
  let keep := fun k : Die => { k with staging := k.staging.filter fun l => !(l.d == d && l.t == t) || l.holders.all Holder.isDone }
  let s := { s with dies := s.dies.map fun e : Nat × Die => (e.1, keep e.2) }
  if s.resident d t then
    (s.coresOf (s.team d t).part d).foldl (fun s c => s.modCore c fun k => { k with stores := k.stores.filter fun w => w.holders.all Holder.isDone }) s
  else s

/-- Every unfinished command of a team is cancelled. -/
def State.dropCmds (s : State) (d t : Nat) : State :=
  (s.cmds.filter fun m => m.d == d && m.t == t && !m.done).foldl (fun s m =>
    (((s.modCmd m.id fun k => { k with status := stCancelled, updates := [], adds := [] }).finishCmd m.id .cancelled).dropLocks m.id)) s

/-- Every strand of a team ends; its cores are zeroed and free (R388). -/
def State.clearTeam (s : State) (d t : Nat) : State :=
  let p := (s.team d t).part
  let s := s.dropHeld d t
  let s := if s.resident d t || (s.team d t).st == 6 then
      (s.coresOf p d).foldl (fun s c => s.modCore c Core.zeroed) s
    else s
  let s := if s.resident d t then s.modDie d fun k => { k with running := dropKey k.running p } else s
  let s := if seek (s.die d).selected p = some t then s.modDie d fun k => { k with selected := dropKey k.selected p } else s
  s.modTeam d t fun m => { m with saved := [], spilled := false }

/-- A team is LOST (R388); its joins end with it (R336). -/
def State.loseTeam (s : State) (d t cause : Nat) : State :=
  let s := (s.dropCmds d t).suspendLeases d t
  let s := s.modTeam d t fun m =>
    m.launches.foldl (fun m l => m.setToken l.ctok (plainToken .error)) { m with launches := [] }
  let s := s.clearTeam d t
  let s := s.modTeam d t fun m =>
    { m with st := 9, fcause := cause, stopping := 0, joins := m.joins.map fun q => (q.1, q.2.freed) }
  let s := s.postEvent 2 d t (s.team d t).vf cause
  (s.peersLost d t).rewaitAll

/-- A strand holds an uncorrectable word: in a register, in a stream element, or in the latch of a result in flight of any of its
levels (R356). -/
def Strand.holdsBad (t : Strand) : Bool :=
  !t.bad.isEmpty || t.streams.any (fun e => e.2.any (·.bad)) || t.vstreams.any (fun e => e.2.any (·.bad))
    || t.levels.any fun l => l.pend.any fun p => match p.write with
      | .bad _ => true
      | _ => false

/-- A register word of a strand is uncorrectable: a save that reads it fails (R356, R388, R391). -/
def State.badSave (s : State) (d t : Nat) : Bool := (s.teamStrands d t).any fun e => e.2.mode != .inactive && e.2.holdsBad

/-! ## Selection and swaps -/

/-- The clusters of a partition on a die are taken by a scan test or claimed for one (R407). -/
def Die.scanning (k : Die) (p : Nat) : Bool := k.scans.any fun x => x.part == some p

/-- The clusters of a partition are empty: no team is on them, entering, or leaving. -/
def State.clustersEmpty (s : State) (d p : Nat) : Bool :=
  (seek (s.die d).running p).isNone && (s.teamsOf d p).all fun t => !([3, 4, 5, 6, 7].contains (s.team d t).st)

def Die.shadowOf (k : Die) (p : Nat) : Shadow := look Shadow.reset k.shadow p
def State.setShadow (s : State) (d p : Nat) (sh : Shadow) : State := s.modDie d fun k => { k with shadow := put Shadow.reset k.shadow p sh }

/-- The image of a team is staged: its copy into shadow has finished. -/
def Shadow.ready (sh : Shadow) (t now : Nat) : Bool := sh.staged == some t && sh.until_ ≤ now

/-- Cycles until shadow SRAM has drained. -/
def Shadow.drainLeft (sh : Shadow) (now : Nat) : Nat := if sh.draining.isSome then sh.until_ - now else 0

/-- The cycles of the restore that a team's entry takes beside its exchange. -/
def Team.restoreTime (m : Team) : Nat := if m.spilled then restoreCycles m.saved else 0

/-- A team begins to enter; its image is in place some cycles later, after its restore when it was spilled. -/
def State.beginSwapin (s : State) (d t after : Nat) : State :=
  let s := s.modTeam d t fun m => { m with st := 3, sliceStart := (s.die d).now + after + m.restoreTime }
  s.modDie d fun k => { k with selected := ins k.selected (s.team d t).part t }

/-- TEAM_SELECT (R373): the clusters are empty. -/
def execTeamSelect (d p : Nat) (s : State) : Out :=
  if !s.clustersEmpty d p || (s.die d).scanning p then .next s
  else match s.pick d (s.candidates d p) with
    | none => .next s
    | some t =>
      let sh := (s.die d).shadowOf p
      let now := (s.die d).now
      let s := s.beginSwapin d t (sh.drainLeft now + exchangeCycles [] (s.team d t).saved (sh.ready t now))
      .next (s.setShadow d p (if sh.draining.isSome then sh else Shadow.reset))

/-- A carry-over command (R250, R324). -/
def Instr.carriesOver : Instr → Bool
  | .cpy _ _ c | .cpyst _ _ c _ _ _ | .sacc _ _ c _ _ | .rcnt _ _ c | .rsnap _ _ c | .zip _ _ c _ | .unzip _ _ c _
  | .repl _ _ c _ _ | .send _ _ _ c _ => c
  | .tsave _ _ _ | .tload _ _ _ | .qdecl _ _ _ | .qarrive _ _ | .qread _ _ _ | .qreplay _ _ _ => true
  | _ => false

/-- Every outstanding command of a team is a carry-over command (R250). -/
def State.carryOnly (s : State) (d t : Nat) : Bool :=
  s.cmds.all fun m => m.done || m.d != d || m.t != t || Instr.carriesOver m.cap.op

/-- Every strand of a team is parked and only carry-over commands are outstanding (R381). -/
def State.parkedTeam (s : State) (d t : Nat) : Bool := (s.teamStrands d t).all (fun e => e.2.isParked) && s.carryOnly d t

/-- Every strand of the team's cores unparks. -/
def State.unpark (s : State) (d t : Nat) : State :=
  (s.coresOf (s.team d t).part d).foldl (fun s c => s.modCore c fun k =>
    { k with strands := k.strands.map fun e => (e.1, { e.2 with parked := false }) }) s

/-- The exchange that takes a team out and, where another is selected, brings it in (R382): the team is in SWAPOUT until it ends,
its image then drains from shadow SRAM. An uncorrectable word of the save makes the team LOST (R388). -/
def State.exchange (s : State) (d t : Nat) (next : Option Nat) : State :=
  if s.badSave d t then s.loseTeam d t 0x15
  else
    let p := (s.team d t).part
    let sh := (s.die d).shadowOf p
    let now := (s.die d).now
    let s := s.swapOut d t false
    let out := (s.team d t).saved
    let cycles := sh.drainLeft now + (match next with
      | some u => exchangeCycles out (s.team d u).saved (sh.ready u now)
      | none => exchangeCycles out [] true)
    let s := match next with
      | some u => s.beginSwapin d u cycles
      | none => s
    let s := s.setShadow d p
      { staged := none, draining := some t, held := shadowHeld out, until_ := now + cycles + spillCycles (shadowBytes out) }
    s.modTeam d t fun m => { m with st := 6, sliceStart := now + cycles }

/-- Late loads and posted stores of a team's cores are taken where they stand: results are latched, stores performed (R96,
R144). -/
def State.serveTeam (s : State) (d t : Nat) : State := (s.coresOf (s.team d t).part d).foldl State.serveCore s

/-- None of them is left; only a locked replica keeps one back. -/
def State.served (s : State) (d t : Nat) : Bool :=
  (s.coresOf (s.team d t).part d).all fun c => (s.core c).loads.isEmpty && (s.core c).stores.isEmpty

/-- The rows that still wait for the first bundle of a core enter before the team leaves it (R239). -/
def State.startRows (s : State) (d t : Nat) : State :=
  (s.coresOf (s.team d t).part d).foldl (fun s c => if (s.core c).rowsWait.isSome then s.modCore c Core.beginRows else s) s

/-- The team that enters when a team that must stop leaves its clusters, selected again under R373; none while a scan test claims one of
them (R381, R407). -/
def State.successor (s : State) (d p : Nat) : Option Nat :=
  if (s.die d).scanning p then none else s.pick d (s.candidates d p)

/-- COOPERATIVE_SWAP (R381, R382): the team stops, goes on, or leaves its clusters to the team that is selected; when no team
can be selected it leaves them empty (R373). In SWAPOUT the exchange ends: the save is complete (R368). -/
def execCooperativeSwap (d t : Nat) (s : State) : Out :=
  let m := s.team d t
  let p := m.part
  if m.st = 6 then .next (if (s.die d).now < m.sliceStart then s else s.saveComplete d t)
  else if m.st ≠ 5 ∨ !s.parkedTeam d t then .next s
  else if !s.quiet d t false then .next (s.startRows d t)
  else
    let s := s.serveTeam d t
    if !s.served d t then .next s
    else if m.stopping ≠ 0 then .next (s.exchange d t (s.successor d p))
    else
      let among := (if s.eligible d t then [t] else []) ++ s.candidates d p
      match s.pick d among with
      | none => .next (if s.roundDue d p then s else s.exchange d t none)
      | some u =>
        if u = t then .next ((s.unpark d t).modTeam d t fun m => { m with st := 4, sliceStart := (s.die d).now })
        else .next (s.exchange d t (some u))

/-- The waits of SPINW on some cores are read again: the monitor has kept running (R390). -/
def State.rereadSpins (s : State) (cs : List Nat) : State :=
  cs.foldl (fun s c => (s.core c).strands.foldl (fun s e => match execSpinwReread c e.1 s with
    | .next u => u
    | _ => s) s) s

/-- SWAPIN (R383): the image is in place; the outgoing team's exchange is complete; landed messages are applied in order. -/
def execSwapin (d t : Nat) (s : State) : Out :=
  let m := s.team d t
  if m.st ≠ 3 ∨ (s.die d).now < m.sliceStart then .next s
  else
    let p := m.part
    let out := (s.teamsOf d p).filter fun u => (s.team d u).st == 6
    let s := out.foldl (fun s u => s.saveComplete d u) s
    let s := m.saved.foldl (fun s v =>
      match s.physCore p d (v.lcore / 8) (v.lcore % 8) with
      | some c => s.modCore c fun k => k.restore v
      | none => s) s
    let s := s.modDie d fun k => { k with running := ins k.running p t, selected := dropKey k.selected p }
    let s := s.modTeam d t fun m =>
      { m.charge m.restoreTime with st := 4, sliceStart := (s.die d).now, saved := [], spilled := false }
    .next ((s.applyAll d t (s.team d t).landing []).rereadSpins (s.coresOf p d))

/-- SHADOW_DRAIN (R382): the outgoing image has drained; its shadow is zeroed. -/
def execShadowDrain (d p : Nat) (s : State) : Out :=
  let sh := (s.die d).shadowOf p
  .next (if sh.draining.isSome && sh.until_ ≤ (s.die d).now then s.setShadow d p Shadow.reset else s)

/-- IMAGE_STAGE (R382): the copy of the image of the team that selection would take next begins, once no drain is pending. -/
def execImageStage (d p : Nat) (s : State) : Out :=
  let sh := (s.die d).shadowOf p
  match s.pick d (s.candidates d p) with
  | none => .next s
  | some t =>
    if sh.draining.isSome || sh.staged == some t then .next s
    else
      let vs := (s.team d t).saved
      .next (s.setShadow d p { staged := some t, draining := none, held := shadowHeld vs, until_ := (s.die d).now + spillCycles (shadowBytes vs) })

/-! ## Forced pre-emption (R384, R385) -/

/-- FORCED_PREEMPTION (R384): grace has passed and the team has not parked; every core stops at its bundle boundary. A slice end with a
strand overdue goes there at once (SLICE_END, YIELD; R378). -/
def execForcedPreemption (d t : Nat) (s : State) : Out :=
  let m := s.team d t
  let late := m.graceStart + (s.die d).grace ≤ (s.die d).now && !s.parkedTeam d t
  if m.st ≠ 5 ∨ !late then .next s
  else .next (s.force d t)

/-- SPILL_DONE (R368, R384, R388): the save is complete, or an uncorrectable error struck it. -/
def execSpillDone (d t : Nat) (ok : Bool) (s : State) : Out :=
  let m := s.team d t
  if m.st ≠ 7 then .next s
  else if !ok || s.badSave d t then .next (s.loseTeam d t 0x15)
  else if !s.quiet d t true then .next s
  else
    let s := s.serveTeam d t
    .next (if s.served d t then (s.swapOut d t true).saveComplete d t else s)

/-- PREEMPT_WATCHDOG (R386): 4 x GRACE, or 8 x GRACE in a partition of more than seven clusters on the die. -/
def execPreemptWatchdog (d t : Nat) (s : State) : Out :=
  let m := s.team d t
  let times := if 7 < (s.clustersOn m.part d).length then 8 else 4
  if m.st = 7 ∧ times * (s.die d).grace ≤ m.watch then .next (s.loseTeam d t 0x12) else .next s

/-- WAIT_WATCHDOG (R387): a strand's counter has reached WDWAIT microseconds. -/
def execWaitWatchdog (c n : Nat) (s : State) : Out :=
  let d := coreDie c
  let w := (s.die d).wdwait
  match s.teamOn c with
  | none => .next s
  | some t =>
    if w ≠ 0 ∧ ((s.team d t).st = 4 ∨ (s.team d t).st = 5 ∨ (s.team d t).st = 7) ∧ 1700 * w ≤ (s.strand c n).waited then .next (s.loseTeam d t 0x12)
    else .next s

/-! ## Scan tests (R407) -/

/-- The partition that holds a physical cluster of a die. -/
def State.clusterPart (s : State) (d cl : Nat) : Option Nat := (s.placeOf (128 * d + 8 * cl)).map (·.1)

/-- A cluster runs no team: it is free, or the clusters of its partition on the die are empty. -/
def State.clusterIdle (s : State) (d cl : Nat) : Bool :=
  match s.clusterPart d cl with
  | none => true
  | some p => s.clustersEmpty d p

/-- SCAN_TEST (R407): firmware takes a cluster that runs no team; it is zeroed and its test starts. -/
def execScanTest (d cl : Nat) (s : State) : Out :=
  let claimed := (s.die d).scans.any fun x => x.cl == cl && x.start.isNone
  let busy := (s.die d).scans.any fun x => x.cl == cl && x.start.isSome
  if 16 ≤ cl ∨ s.withdrawn.contains (16 * d + cl) ∨ busy ∨ !s.clusterIdle d cl then .next s
  else
    let x : Scan := { cl := cl, part := s.clusterPart d cl, start := some (s.die d).now }
    let s := s.zeroCluster d cl
    .next (s.modDie d fun k => { k with scans := (if claimed then k.scans.filter fun y => y.cl != cl else k.scans) ++ [x] })

/-- The interval of SCAN_SET in cycles. -/
def State.scanInterval (s : State) : Nat := s.scanHours * 3600 * 1700000000

/-- SCAN_CLAIM (R407): a cluster that a team has occupied for a whole interval is claimed: the slice of the resident team
ends. -/
def execScanClaim (d cl : Nat) (s : State) : Out :=
  let k := s.die d
  match s.clusterPart d cl with
  | none => .next s
  | some p =>
    match seek k.running p with
    | none => .next s
    | some t =>
      if k.now < look 0 k.scanned cl + s.scanInterval || (k.scans.any fun x => x.cl == cl) then .next s
      else
        let s := s.modDie d fun k => { k with scans := k.scans ++ [{ cl := cl, part := some p, start := none }] }
        .next (s.modTeam d t fun m => { m with stopping := if m.stopping = 0 then 4 else m.stopping })

/-- The cluster that replaces a withdrawn one (R22, R407): of the healthy clusters of the die that no partition holds and no test has
taken, the lowest physical one (DESIGN CHOICE, log 109: the spec says a free healthy cluster). -/
def State.spareCluster (s : State) (d : Nat) : Option Nat :=
  (List.range 16).find? fun cl => (s.clusterPart d cl).isNone && !s.withdrawn.contains (16 * d + cl)
    && !(s.die d).scans.any fun x => x.cl == cl

/-- A team of a die must stop for a reason: at once where it is out, by a slice end where it is not (R368, R389). -/
def State.stopTeam (s : State) (d t why : Nat) : State :=
  let m := s.team d t
  if m.st = 1 ∨ m.st = 2 then (s.modTeam d t fun m => { m with st := 8 }).postEvent 3 d t m.vf 0
  else if 3 ≤ m.st ∧ m.st ≤ 7 then s.modTeam d t fun m => { m with stopping := why }
  else s

/-- The logical cluster that maps to a physical cluster takes another in its place, or none (R22, R407). -/
def State.replaceCluster (s : State) (d cl : Nat) (with_ : Option Nat) : State :=
  match s.clusterPart d cl with
  | none => s
  | some p =>
    let here := fun e : Nat × Nat => e.1 / 16 == d && e.2 == cl
    s.modPart p fun q => { q with clusters := match with_ with
      | some n => q.clusters.map fun e => if here e then (e.1, n) else e
      | none => q.clusters.filter fun e => !here e }

/-- A partition loses a cluster for which there is no replacement: it remembers how many it held on the die (R407). -/
def Partition.bereave (q : Partition) (d : Nat) : Partition :=
  { q with before := ins q.before d ((seek q.before d).getD ((q.clusters.filter fun e => e.1 / 16 == d).length)) }

/-- SCAN_COMPLETE (R407): 340,000 cycles after the start; the cluster is zeroed and returns, or a mismatch withdraws it. -/
def execScanComplete (d cl : Nat) (ok : Bool) (s : State) : Out :=
  match (s.die d).scans.find? fun x => x.cl == cl with
  | none => .next s
  | some x =>
    match x.start with
    | none => .next s
    | some at_ =>
      if (s.die d).now < at_ + 340000 then .next s
      else
        let s := s.zeroCluster d cl
        let s := s.modDie d fun k => { k with scans := k.scans.filter fun y => y.cl != cl, scanned := ins k.scanned cl k.now }
        if ok then .next s
        else
          let p := s.clusterPart d cl
          let s := { s with withdrawn := insertNat (16 * d + cl) s.withdrawn }
          let s := (s.postEvent 5 d 0 0 0).postEvent 6 d 0 0 0
          match p, s.spareCluster d with
          | none, _ => .next s
          | some _, some n => .next ((s.zeroCluster d n).replaceCluster d cl (some n))
          | some p, none => .next ((s.teamsOf d p).foldl (fun s t => s.stopTeam d t 2)
              ((s.modPart p fun q => q.bereave d).replaceCluster d cl none))

end Sys2Proof.Machine
end

