-- ==== Sys2Proof/Machine/Mgmt.lean ====
section
/-!
DEFINITION. Management commands (R396 to R398): the frame that every command shares, and the commands over partitions, virtual
functions, memory-port slots, translations, ownership and parameters (R22, R129, R133, R136, R366, R397, R400, R401).
-/

set_option Elab.async false
namespace Sys2Proof.Machine

/-! ## The frame (R396) -/

def stOk : Nat := 1
def stBadCommand : Nat := 2
def stRefused : Nat := 3
def stBusyNow : Nat := 4
def stNoResource : Nat := 5
def stNotFound : Nat := 6
def stRefusedVer : Nat := 7
def stAuthFail : Nat := 8

/-- Operand word k of a command. -/
def hostWord (m : HostCmd) (k : Nat) : Word := nth 0 [m.p0, m.p1, m.p2, m.p3, m.p4, m.p5, m.p6] k

/-- The 64 bytes of a command. -/
def commandBytes (code : Nat) (m : HostCmd) : List Byte :=
  bytesOf 2 code ++ bytesOf 2 m.tag.toNat ++ bytesOf 2 m.vf.toNat ++ bytesOf 1 m.die.toNat ++ bytesOf 1 m.zeros.toNat
    ++ (List.range 7).flatMap fun k => bytesOf 8 (hostWord m k).toNat

/-- The form of a command: its zero byte, its VF and die within their limits, the operand words after the first n zero. -/
def commandForm (n : Nat) (m : HostCmd) : Bool :=
  m.zeros == 0 && m.vf.toNat < 512 && m.die.toNat < 8 && (List.range 7).all fun k => k < n || hostWord m k == 0

def State.pfSlot (s : State) (i : Nat) : CmdSlot := look CmdSlot.reset s.pfSlots i
def State.modSlot (s : State) (i : Nat) (f : CmdSlot → CmdSlot) : State := { s with pfSlots := ins s.pfSlots i (f (s.pfSlot i)) }

/-- The answer of a command: a status with result words, or none while it runs in the background. -/
abbrev Answer := Option (Nat × List Word)

/-- A final answer without result words. -/
def done (status : Nat) (s : State) : Answer × State := (some (status, []), s)

/-- The answer is written into its slot. -/
def State.answerSlot (s : State) (i : Nat) (a : Nat × List Word) : State :=
  s.modSlot i fun k => { k with status := BitVec.ofNat 8 a.1, a := a.2, cmd := none, load := none }

/-- A command in its slot: it starts unless the slot's answer is pending; its status is 0 until it ends (R396, R397). `n` is the
number of operand words it has, `ok` the limits of its values. -/
def command (code n : Nat) (m : HostCmd) (ok : Bool) (s : State) (run : State → Answer × State) : Out :=
  let i := m.slot.toNat
  if (s.pfSlot i).status = 0 then .next (s.countDrop dropCommand)
  else
    let s := s.modSlot i fun k => { bytes := k.bytes, code := BitVec.ofNat 16 code, tag := m.tag, status := 0, a := [], cmd := none, load := none, order := 0 }
    if !commandForm n m || !ok then .next (s.answerSlot i (stBadCommand, []))
    else match run s with
      | (some a, s) => .next (s.answerSlot i a)
      | (none, s) =>
        let order := s.nextId
        .next { s.modSlot i fun k => { k with cmd := some (code, m), order := order } with nextId := s.nextId + 1 }

/-- The configuration measurement of partitions takes in the command (R402). -/
def State.fold (s : State) (ps : List Nat) (code : Nat) (m : HostCmd) : State :=
  ps.foldl (fun s p => s.modPart p fun q =>
    { q with measure := Config.sha256 (bytesOf 32 q.measure.toNat ++ commandBytes code m) }) s

/-! ## Shared parts -/

/-- TLB entries are dropped on every die (R132, R397). -/
def State.dropTlb (s : State) (p : TlbEntry → Bool) : State :=
  { s with
    cores := s.cores.map fun e : Nat × Core => (e.1, { e.2 with utlb := e.2.utlb.filter fun x => !p x })
    dies := s.dies.map fun e : Nat × Die => (e.1, { e.2 with stlb := e.2.stlb.filter fun x => !p x }) }

/-- A range of HBM is zeroed. -/
def State.zeroHbm (s : State) (pa n : Nat) : State :=
  { s with hbm := zeroRange s.hbm pa n, hbmPoison := s.hbmPoison.filter fun l => l < pa || pa + n ≤ l }

/-- Pages of HBM: bytes below 384 GiB (R130). -/
def hbmSize : Nat := 412316860416

/-- Pages change owner: their entries are written, they are zeroed, every TLB entry for them goes; replicas of them are gone
(R133, R400, R401; log 17). -/
def State.giveOwner (s : State) (pa count : Nat) (entry : BitVec 16) : State :=
  let first := pa / 65536
  let mine := fun x : Nat => first ≤ x && x < first + count
  let s := s.zeroHbm pa (65536 * count)
  let s := s.dropTlb fun e => mine e.pa
  { s with
    owner := (List.range count).foldl (fun o k => put 0 o (first + k) entry) s.owner
    replicas := s.replicas.filter fun r => !mine r.home }

/-- The VFs bound to a partition. -/
def State.boundVfs (s : State) (p : Nat) : List Nat := (s.vfs.filter fun e => e.2.part == some p).map (·.1)

/-- The team of a VF on a die. -/
def State.teamOf (s : State) (v d : Nat) : Option Nat := ((s.die d).teams.find? fun e => e.2.st != 0 && e.2.vf == v).map (·.1)

/-- The bytes that a save area needs for some clusters (R385, R397). -/
def saveNeed (clusters : Nat) : Nat := 4509952 * (8 * clusters) + 1048576

/-! ## PART_SET, PART_DESTROY (R22, R397) -/

/-- The physical clusters that a command names on a die, rising. -/
def maskClusters (m : HostCmd) (d : Nat) : List Nat :=
  let w := (if d < 4 then m.p1 else m.p2).toNat / 2 ^ (16 * (d % 4))
  (List.range 16).filter fun c => flag w c

/-- The physical clusters that a partition holds on a die. -/
def Partition.held (q : Partition) (d : Nat) : List Nat :=
  q.clusters.filterMap fun e => if e.1 / 16 = d then some e.2 else none

/-- Another partition holds a cluster, or a port. -/
def State.othersHold (s : State) (p d c : Nat) : Bool :=
  s.parts.any fun e => e.1 != p && e.2.exists_ && (e.2.held d).contains c
def State.othersPorts (s : State) (p : Nat) (ports : BitVec 24) : Bool :=
  s.parts.any fun e => e.1 != p && e.2.exists_ && e.2.ports &&& ports != 0

/-- A partition with two or more bound VFs that holds more than seven clusters on some die (R385). -/
def State.tooLarge (s : State) (p : Nat) (held : Nat → Nat) : Bool :=
  2 ≤ (s.boundVfs p).length && (List.range 8).any fun d => 7 < held d

/-- The logical core map of a die after PART_SET (R22): clusters that stay keep their numbers, added ones take the lowest
numbers not in use. -/
def renumber (d : Nat) (old : Sparse Nat) (want : List Nat) : Sparse Nat :=
  let stay := old.filter fun e => e.1 / 16 != d || want.contains e.2
  let added := want.filter fun c => !(old.any fun e => e.1 / 16 == d && e.2 == c)
  added.foldl (fun (m : Sparse Nat) c =>
    match (List.range 16).find? fun l => (seek m (16 * d + l)).isNone with
    | some l => ins m (16 * d + l) c
    | none => m) stay

/-- PART_SET (code 0x01). -/
def execPartSet (m : HostCmd) (s : State) : Out :=
  command 0x01 4 m (m.p0.toNat < 64 && m.p3.toNat < 2 ^ 24) s fun s =>
    let p := m.p0.toNat
    let q := s.part p
    let ports := m.p3.setWidth 24
    let dies := List.range 8
    let refused := s.othersPorts p ports || dies.any fun d =>
      (maskClusters m d).any (fun c => s.othersHold p d c || s.withdrawn.contains (16 * d + c))
        || (!(s.teamsOf d p).isEmpty && (q.held d).any fun c => !(maskClusters m d).contains c)
    let small := dies.any fun d => (s.teamsOf d p).any fun t =>
      65536 * (s.team d t).spages < saveNeed (maskClusters m d).length
    if refused || s.tooLarge p (fun d => (maskClusters m d).length) then done stRefused s
    else if small then done stNoResource s
    else
      let changed := dies.flatMap fun d =>
        ((List.range 16).filter fun c => (maskClusters m d).contains c != (q.held d).contains c).map fun c => (d, c)
      let s := changed.foldl (fun s x => s.zeroCluster x.1 x.2) s
      let s := changed.foldl (fun s x => s.modDie x.1 fun k => { k with scans := k.scans.map fun y =>
        if y.cl = x.2 then { y with part := if (maskClusters m x.1).contains x.2 then some p else none } else y }) s
      let s := s.modPart p fun q => { q with
        exists_ := true
        ports := ports
        before := q.before.filter fun e => !(s.teamsOf e.1 p).isEmpty && (maskClusters m e.1).length < e.2
        clusters := dies.foldl (fun o d => renumber d o (maskClusters m d)) q.clusters }
      done stOk (s.fold [p] 0x01 m)

/-- PART_DESTROY (code 0x02). -/
def execPartDestroy (m : HostCmd) (s : State) : Out :=
  command 0x02 1 m (m.p0.toNat < 64) s fun s =>
    let p := m.p0.toNat
    if !(s.part p).exists_ then done stNotFound s
    else if !(s.boundVfs p).isEmpty then done stRefused s
    else
      let s := (s.part p).clusters.foldl (fun s e => s.zeroCluster (e.1 / 16) e.2) s
      let freed := fun x : Scan => if x.part = some p then { x with part := none } else x
      let s := { s with dies := s.dies.map fun e : Nat × Die => (e.1, { e.2 with scans := e.2.scans.map freed }) }
      done stOk (s.modPart p fun _ => Partition.reset)

/-! ## VF_BIND, SLOT_SET -/

/-- A VF leaves its partition: its stage-2 leaves, its image keys and its TLB entries go. -/
def State.unbindVf (s : State) (v : Nat) : State :=
  (s.modVf v fun f => { f with part := none, s2 := [], imageKeys := [] }).dropTlb fun e => e.vf == v

/-- VF_BIND (code 0x03). The counters of a VF are zero from its first binding on (R362). -/
def execVfBind (m : HostCmd) (s : State) : Out :=
  command 0x03 1 m (m.p0.toNat < 64 || m.p0 == 0xFFFF) s fun s =>
    let v := m.vf.toNat
    let old := (s.vf v).part
    let onDie := (List.range 8).any fun d => (s.teamOf v d).isSome
    if m.p0 = 0xFFFF then
      match old with
      | none => done stNotFound s
      | some p => if onDie then done stRefused s else done stOk ((s.unbindVf v).fold [p] 0x03 m)
    else
      let p := m.p0.toNat
      if !(s.part p).exists_ then done stNotFound s
      else if old = some p then done stOk s
      else if (old.isSome && onDie)
          || (!(s.boundVfs p).isEmpty && (List.range 8).any fun d => 7 < (s.clustersOn p d).length) then done stRefused s
      else
        let s := match old with
          | some q => (s.unbindVf v).fold [q] 0x03 m
          | none => s
        let s := s.modVf v fun f => { f with part := some p, counters := if old.isSome then f.counters else [] }
        done stOk (s.fold [p] 0x03 m)

/-- SLOT_SET (code 0x04): eight entries of a channel's slot table (R129). -/
def execSlotSet (m : HostCmd) (s : State) : Out :=
  let entry := fun k : Nat => (m.p1.toNat / 2 ^ (8 * k)) % 256
  let first := field m.p0.toNat 5 6
  command 0x04 2 m (m.p0.toNat < 2 ^ 11 && first ≤ 56 && (List.range 8).all fun k => entry k < 128) s fun s =>
    let d := m.die.toNat
    let key := fun k : Nat => 64 * (m.p0.toNat % 32) + first + k
    let named := fun e : BitVec 7 => if e.getLsbD 6 then [e.toNat % 64] else []
    let touched := (List.range 8).flatMap fun k =>
      named (BitVec.ofNat 7 (entry k)) ++ named (look 0 (s.die d).slotTable (key k))
    let s := s.modDie d fun x => { x with slotTable := (List.range 8).foldl (fun t k =>
      put 0 t (key k) (BitVec.ofNat 7 (entry k))) x.slotTable }
    done stOk (s.fold (touched.eraseDups.filter fun p => (s.part p).exists_) 0x04 m)

/-! ## Translations (R130 to R133, R404) -/

/-- A VF may read the items of a class and unit of the readback view in plaintext (R404). -/
def State.readsItem (s : State) (v cls d unit : Nat) : Bool :=
  match cls with
  | 1 | 2 | 3 => unit < 128 && (s.itemTeam cls (128 * d + unit)).map (fun t => (s.team d t).vf) == some v
  | 4 | 5 => (s.team d unit).st != 0 && (s.team d unit).vf == v
  | 6 | 8 => unit == v
  | 7 | 9 => true
  | 10 => unit == 0
  | _ => false

/-- A readback page that a VF may be given. -/
def State.readsPage (s : State) (v pa : Nat) : Bool :=
  let a := pa - 0x20000000000
  s.readsItem v (a / 2 ^ 37 % 16) (a / 2 ^ 34 % 8) (a / 2 ^ 24 % 1024)

/-- Firmware installs the leaf (R130, R133, R404). -/
def State.leafAllowed (s : State) (v : Nat) (l : S2Leaf) : Bool :=
  let pages := (List.range (leafSpan l.level / 65536)).map fun k => l.pa + 65536 * k
  if inReadback l.pa then l.r && !l.w && !l.x && pages.all fun a => inReadback a && s.readsPage v a
  else pages.all fun a => a < hbmSize && (match (s.vf v).part with
    | some p => s.owns p a
    | none => false)

/-- Two leaves map a common page. -/
def leavesMeet (a : Nat) (la : Nat) (b : Nat) (lb : Nat) : Bool := a < b + leafSpan lb && b < a + leafSpan la

/-- S2_MAP (code 0x0C): a leaf; it takes the place of every leaf that maps one of its pages. -/
def execS2Map (m : HostCmd) (s : State) : Out :=
  let ipa := m.p0.toNat
  let level := m.p2.toNat % 4
  let l : S2Leaf := { level := level, pa := m.p1.toNat, r := m.p2.getLsbD 2, w := m.p2.getLsbD 3, x := m.p2.getLsbD 4, rpl := false }
  command 0x0C 3 m (level != 0 && m.p2.toNat < 32 && ipa < 2 ^ 42 && l.pa < 2 ^ 42 && ipa % leafSpan level == 0
      && l.pa % leafSpan level == 0) s fun s =>
    let v := m.vf.toNat
    if s.leafAllowed v l then
      let apart := fun e : Nat × S2Leaf => !leavesMeet (65536 * e.1) e.2.level ipa level
      done stOk (s.modVf v fun f => { f with s2 := ins (f.s2.filter apart) (ipa / 65536) l })
    else done stRefused s

/-- S2_UNMAP (code 0x0D): the leaf that maps an address goes, and what is cached of it. -/
def execS2Unmap (m : HostCmd) (s : State) : Out :=
  command 0x0D 1 m (m.p0.toNat < 2 ^ 42) s fun s =>
    let v := m.vf.toNat
    let hit := fun e : Nat × S2Leaf => 65536 * e.1 ≤ m.p0.toNat && m.p0.toNat < 65536 * e.1 + leafSpan e.2.level
    match (s.vf v).s2.find? hit with
    | none => done stNotFound s
    | some l =>
      let s := s.modVf v fun f => { f with s2 := dropKey f.s2 l.1 }
      done stOk (s.dropTlb fun e => e.vf == v && l.1 ≤ e.ipa && e.ipa < l.1 + leafSpan l.2.level / 65536)

/-- INVALIDATE (code 0x0E): TLB entries of the VF for an address of the first or of the second stage, or all of them. -/
def execInvalidate (m : HostCmd) (s : State) : Out :=
  command 0x0E 2 m (m.p1.toNat < 4) s fun s =>
    let v := m.vf.toNat
    let page := m.p0.toNat / 65536
    done stOk (s.dropTlb fun e => e.vf == v && (m.p1.getLsbD 1 || (if m.p1.getLsbD 0 then e.ipa == page else e.va == page)))

/-! ## PAGE_ANSWER (R136, R398) -/

/-- Elements of a gather or scatter whose page is answered: each is translated again, and that of a gather is read if it can be;
one that cannot be translated any more is dead (R136, R148), and faults when no element waits, as a refused one does (DESIGN CHOICE, log 128). `page` numbers the page of a request. -/
def GatherWait.answered (g : GatherWait) (ipa : Nat) (refused : Bool) (again : Word → Resolved) (page : PageRequest → Nat)
    (read : KeptElem → KeptElem) : GatherWait :=
  g.mask.foldl (fun (g : GatherWait) e =>
    if e.ipa ≠ ipa ∨ e.dead.isSome then { g with mask := g.mask ++ [e] }
    else if refused then { g with mask := g.mask ++ [{ e with dead := some (stage2Code, refusedReason) }] }
    else match again e.ea with
      | .ok t _ =>
        let k := keepElem (e.lg, e.lane, e.ea) t
        { g with kept := g.kept ++ [if g.write then k else read k] }
      | .fault c r => { g with mask := g.mask ++ [{ e with dead := some (c, r) }] }
      | .miss q => { g with mask := g.mask ++ [{ e with ipa := page q }] }
      | .away => { g with mask := g.mask ++ [e] }) { g with mask := [] }

/-- A strand of the VF that waits on a tag, once it is answered: READY when it waits on nothing more; a gather once its elements are
translated and read, or once none waits and one is refused (R134, R148). The page of a refused tag is remembered for every syllable of
the bundle (R136, R420). -/
def Strand.pageAnswered (x : Strand) (tag ipa : Nat) (refused : Bool) (again : Word → Resolved)
    (page : PageRequest → Nat) (read : KeptElem → KeptElem) : Strand :=
  if !x.wait.tags.contains tag then x
  else
    let g := x.gather.map fun g => g.answered ipa refused again page read
    let left := x.wait.tags.filter (· != tag)
    let free := match g with
      | some g => g.mask.all (fun e => e.dead.isSome) && (!g.mask.isEmpty || g.write || g.kept.all (·.read))
      | none => left.isEmpty
    { x with
      gather := g
      mode := if free && x.mode == .blocked then .ready else x.mode
      wait := { x.wait with tags := left, refused := if refused then insertNat ipa x.wait.refused else x.wait.refused } }

/-- The requests that elements of a gather meet anew. -/
def State.gatherMisses (s : State) (d t : Nat) (g : GatherWait) (ipa : Nat) (acc : Acc) : List PageRequest :=
  g.mask.filterMap fun e =>
    if e.ipa ≠ ipa ∨ e.dead.isSome then none
    else match s.teamTarget none d t (s.team d t).gang e.ea acc with
      | .miss q => some q
      | _ => none

/-- The length of a block that ends is recorded (R102). -/
def Strand.endWait (x y : Strand) (cycle : Nat) : Strand :=
  if x.mode == .blocked && y.mode == .ready then
    { y with
      ctl := y.ctl.waited (cycle - x.wait.since)
      wait := { WaitInfo.reset with refused := y.wait.refused } }
  else y

/-- An element of a waiting gather of a strand of a resident team is read, when nothing is ahead of it (R148). -/
def State.readWaiting (s : State) (c n : Nat) (e : KeptElem) : KeptElem :=
  match e.target with
  | .hbm _ => if s.mayRead c n (s.strand c n).nextSeq e.target 4 then (s.readKept c n e).1 else e
  | _ => e

/-- The same for a strand of a team that is out: none of its accesses is on its way (R381). -/
def State.readSaved (s : State) (d t : Nat) (w : StrandName) (e : KeptElem) : KeptElem :=
  match e.target with
  | .hbm pa =>
    if s.readLocked e.target then e
    else let v := s.hbmRead d t w pa 4; { e with val := BitVec.ofNat 32 (ofBytes v.1), mark := v.2, read := true }
  | _ => e

/-- A strand of a team where a tag is answered; gathers post the requests that they meet anew. -/
def State.answerStrand (s : State) (d t : Nat) (x : Strand) (read : KeptElem → KeptElem) (cycle tag ipa : Nat) (refused : Bool) :
    Strand × State :=
  if !x.wait.tags.contains tag then (x, s)
  else
    let acc := match x.gather with
      | some g => if g.write then Acc.write else .read
      | none => .read
    let again := fun ea => s.teamTarget none d t (s.team d t).gang ea acc
    let y := x.pageAnswered tag ipa refused again s.requestPage read
    let new := match x.gather with
      | some g => if refused then [] else s.gatherMisses d t g ipa acc
      | none => []
    let r := s.postAll new
    (x.endWait { y with wait := { y.wait with tags := r.1.foldl (fun l k => insertNat k l) y.wait.tags } } cycle, r.2)

/-- Every strand of a team, on its cores or saved. -/
def State.answerTeam (s : State) (d t tag ipa : Nat) (refused : Bool) : State :=
  if s.resident d t then
    (s.coresOf (s.team d t).part d).foldl (fun s c => (s.core c).strands.foldl (fun s e =>
      let r := s.answerStrand d t e.2 (s.readWaiting c e.1) (s.core c).cycle tag ipa refused
      r.2.modStrand c e.1 fun _ => r.1) s) s
  else
    (s.team d t).saved.foldl (fun s v => v.strands.foldl (fun s e =>
      let r := s.answerStrand d t e.2 (s.readSaved d t { cl := v.lcore / 8, co := v.lcore % 8, n := e.1 }) (2 * e.2.wait.since) tag ipa refused
      r.2.modTeam d t fun m => { m with saved := m.saved.map fun k =>
        if k.lcore = v.lcore then { k with strands := ins k.strands e.1 r.1 } else k }) s) s

/-- The team's runs and joins where a tag is answered; those go on (R136, R249, R325). -/
def State.answerUnits (s : State) (d t tag page : Nat) (refused : Bool) : State :=
  let stalled := ((s.team d t).tiles.filter fun e => match e.2.run with
    | some r => r.stall.contains tag
    | none => false).map (·.1)
  let s := stalled.foldl (fun s i => s.modRun d t i fun r =>
    { r with stall := r.stall.filter (· != tag), refused := if refused then insertNat page r.refused else r.refused }) s
  let waiting := ((s.team d t).joins.filter fun e => e.2.tag == some tag).map (·.1)
  waiting.foldl (fun s q => s.resumeRelease d t q refused) s

/-- The queue of a VF without an answered request: misses that wait for room enter (R135). -/
def Vf.freeRequest (f : Vf) (tag : Nat) : Vf :=
  { f with queue := f.queue.filter fun r => r.tag != tag }.fill f.waiting

/-- A request of a VF is answered: everything in the package that waits on it learns it, whichever team it is of (R134, R136). -/
def State.answerPage (s : State) (v : Nat) (r : PageRequest) (refused : Bool) : State :=
  let alone := (s.vf v).queue.all fun q => q.tag == r.tag
  let s := s.modVf v fun f => f.freeRequest r.tag
  let s := match (s.vf v).queue with
    | w :: _ => if alone then s.postEvent 7 w.die w.team v 0 else s
    | [] => s
  let key := tagKey v r.tag
  let told := fun m : Cmd =>
    { m with
      waits := m.waits.map fun w => { w with tags := w.tags.filter (· != key) }
      refused := m.refused.or (if refused then (m.waits.find? fun w => w.tags.contains key).map (·.addr) else none) }
  let s := { s with cmds := s.cmds.map told }
  let teams := s.dies.flatMap fun e => (e.2.teams.filter fun t => t.2.st != 0).map fun t => (e.1, t.1)
  teams.foldl (fun s x => (s.answerTeam x.1 x.2 key (pageKey v r.ipa) refused).answerUnits x.1 x.2 key (pageKey v r.ipa) refused) s

/-- PAGE_ANSWER (code 0x0F). -/
def execPageAnswer (m : HostCmd) (s : State) : Out :=
  command 0x0F 2 m (m.p0.toNat < 65536 && m.p1.toNat < 2) s fun s =>
    let v := m.vf.toNat
    match (s.vf v).queue.find? fun r => r.tag == m.p0.toNat with
    | none => done stNotFound s
    | some r => done stOk (s.answerPage v r (m.p1 == 1))

/-! ## OWNER_SET, REPLICA_RESERVE, PARAM_SET, EPOCH_ADVANCE, SCAN_SET, POWER_SET -/

/-- OWNER_SET (code 0x10). -/
def execOwnerSet (m : HostCmd) (s : State) : Out :=
  command 0x10 3 m (m.p0.toNat % 65536 == 0 && m.p1 != 0 && m.p0.toNat + 65536 * m.p1.toNat ≤ hbmSize && m.p2.toNat < 256) s fun s =>
    done stOk (s.giveOwner m.p0.toNat m.p1.toNat (m.p2.setWidth 16))

/-- REPLICA_RESERVE (code 0x11). -/
def execReplicaReserve (m : HostCmd) (s : State) : Out :=
  command 0x11 2 m (m.p0.toNat < 64) s fun s =>
    let p := m.p0.toNat
    if (s.part p).exists_ then done stOk ((s.modPart p fun q => { q with reserve := m.p1.toNat }).fold [p] 0x11 m)
    else done stNotFound s

/-- The limits of R366. -/
def paramsOk (m : HostCmd) : Bool :=
  let qbase := m.p0.toNat % 2 ^ 32
  let quantum := m.p0.toNat / 2 ^ 32
  let grace := m.p1.toNat % 2 ^ 32
  1700 ≤ qbase && qbase ≤ 2 ^ 24 && qbase ≤ quantum && quantum ≤ 2 ^ 28 && 1700 ≤ grace && grace ≤ 2 ^ 28 && m.p2.toNat < 2 ^ 32


/-- PARAM_SET (code 0x0B). -/
def execParamSet (m : HostCmd) (s : State) : Out :=
  command 0x0B 3 m (paramsOk m) s fun s =>
    done stOk (s.modDie m.die.toNat fun k => { k with
      qbase := m.p0.toNat % 2 ^ 32, quantum := m.p0.toNat / 2 ^ 32, grace := m.p1.toNat % 2 ^ 32, bcap := m.p1.toNat / 2 ^ 32,
      wdwait := m.p2.toNat })

/-- EPOCH_ADVANCE (code 0x16). -/
def execEpochAdvance (m : HostCmd) (s : State) : Out :=
  command 0x16 1 m (m.p0.toNat < 2 ^ 24) s fun s => done stOk (s.nextEpoch (m.p0.setWidth 24))

/-- SCAN_SET (code 0x17). -/
def execScanSet (m : HostCmd) (s : State) : Out :=
  command 0x17 1 m (1 ≤ m.p0.toNat && m.p0.toNat ≤ 1000) s fun s => done stOk { s with scanHours := m.p0.toNat }

/-- POWER_SET (code 0x18). -/
def execPowerSet (m : HostCmd) (s : State) : Out :=
  command 0x18 1 m (600 ≤ m.p0.toNat && m.p0.toNat ≤ 2600) s fun s => done stOk { s with powerLimit := m.p0.toNat }

end Sys2Proof.Machine
end

