-- ==== Sys2Proof/Machine/TeamCmd.lean ====
section
/-!
DEFINITION. The management commands over teams (R365, R367, R368, R388, R389, R397 to R399).
-/

set_option Elab.async false
namespace Sys2Proof.Machine

/-! ## Creation (R365, R397, R399) -/

/-- A conductor as TEAM_CREATE and TEAM_RESTART start it (R399): READY at privilege G at the entry, x1 the argument. -/
def conductorStart (entry : VAddr) (arg : Word) : Strand :=
  { Strand.reset.setReg 1 arg false with mode := .ready, pc := entry, ctl := { Ctl.reset with priv := true } }

/-- The saved image of a team of which only the conductor exists: on core 0 of its lowest logical cluster (R18). -/
def conductorImage (cl : Nat) (entry : VAddr) (arg : Word) : SavedCore :=
  { size := Config.free (entry.toNat + arg.toNat), blocks := [], lcore := 8 * cl, strands := [(3, conductorStart entry arg)], part := 0, ran := false, pool := [], poolPoison := [], scale := [],
    scaleMarks := [], slots := [], tris := [], eddy := [] }

/-- An area operand: device physical address and length in 64 KiB pages. -/
def areaBase (w : Word) : Nat := w.toNat % 2 ^ 42
def areaPages (w : Word) : Nat := w.toNat / 2 ^ 42
def areaHolds (w : Word) (page : Nat) : Bool := areaBase w / 65536 ≤ page && page < areaBase w / 65536 + areaPages w

/-- Some stage-2 leaf of some VF maps a page. -/
def State.mapsPage (s : State) (page : Nat) : Bool :=
  s.vfs.any fun f => f.2.s2.any fun l => l.2.pa / 65536 ≤ page && page < l.2.pa / 65536 + leafSpan l.2.level / 65536

/-- The pages of an area that TEAM_CREATE refuses: not owned by the partition, mapped, or in both areas. -/
def State.areaRefused (s : State) (p : Nat) (w other : Word) : Bool :=
  (List.range (areaPages w)).any fun k =>
    let page := areaBase w / 65536 + k
    !(65536 * page < hbmSize && s.owns p (65536 * page)) || s.mapsPage page || areaHolds other page

/-- Entries that a landing area holds, as a bound on LSIZE (R397). -/
def landingNeed (lsize : Nat) : Nat := 2 ^ lsize * 4160

/-- The team that TEAM_CREATE makes. -/
def newTeam (m : HostCmd) (p cl : Nat) : Team :=
  { Team.reset with
    vf := m.vf.toNat
    part := p
    gang := m.p0.setWidth 24
    weight := BitVec.ofNat 8 (field m.p1.toNat 40 8)
    cls := BitVec.ofNat 2 (field m.p1.toNat 48 2)
    st := 2
    cap := m.p4.toNat / 2 ^ 32
    lsize := m.p1.toNat % 16
    lbase := BitVec.ofNat 26 (areaBase m.p5 / 65536)
    lpages := areaPages m.p5
    sbase := BitVec.ofNat 26 (areaBase m.p6 / 65536)
    spages := areaPages m.p6
    entry := m.p2.setWidth 42
    arg := m.p3
    saved := [conductorImage cl (m.p2.setWidth 42) m.p3] }

/-- The operand values of TEAM_CREATE. -/
def createOk (m : HostCmd) : Bool :=
  let lsize := m.p1.toNat % 16
  m.p0.toNat < 2 ^ 24 && m.p1.toNat < 2 ^ 50 && field m.p1.toNat 4 36 == 0 && 3 ≤ lsize && lsize ≤ 12 && m.p2.toNat < 2 ^ 42
    && m.p4.toNat % 2 ^ 32 == 0 && areaBase m.p5 % 65536 == 0 && areaBase m.p6 % 65536 == 0

/-- TEAM_CREATE (code 0x05). -/
def execTeamCreate (m : HostCmd) (s : State) : Out :=
  command 0x05 7 m (createOk m) s fun s =>
    let v := m.vf.toNat
    let d := m.die.toNat
    match (s.vf v).part with
    | none => done stNotFound s
    | some p =>
      match (s.clustersOn p d).head?, (List.range 128).find? fun t => (s.team d t).st == 0 with
      | none, _ => done stRefused s
      | some cl, free =>
        if !s.startBit d v m.p2.toNat || (s.teamOf v d).isSome || s.areaRefused p m.p5 m.p6 || s.areaRefused p m.p6 m.p5
            || field m.p1.toNat 40 8 == 0 then done stRefused s
        else match free with
          | none => done stNoResource s
          | some t =>
            if 65536 * areaPages m.p5 < landingNeed (m.p1.toNat % 16)
                || 65536 * areaPages m.p6 < saveNeed (s.clustersOn p d).length then done stNoResource s
            else
              let s := (s.giveOwner (areaBase m.p5) (areaPages m.p5) 0x80).giveOwner (areaBase m.p6) (areaPages m.p6) 0x80
              let k := newTeam m p cl
              let s := s.modTeam d t fun _ => k
              (some (stOk, [BitVec.ofNat 64 t, zext64 k.lbase, zext64 k.sbase]), s)

/-! ## TEAM_SET (R365) -/

/-- The bits of a word of the entry that TEAM_SET may write. -/
def settable (word : Nat) : Nat :=
  match word with
  | 0 => 2 ^ 50 - 2 ^ 16
  | 1 => 2 ^ 64 - 2 ^ 32
  | 3 => 15 + (2 ^ 48 - 2 ^ 22)
  | 4 => 2 ^ 26 - 1
  | _ => 0

/-- The entry with a word written under a mask. -/
def Team.setWord (k : Team) (word : Nat) (mask value : Word) : Team :=
  let on : Word := mask &&& BitVec.ofNat 64 (settable word)
  let w := ((BitVec.ofNat 64 (k.entryWord word) &&& ~~~on) ||| (value &&& on)).toNat
  match word with
  | 0 => { k with gang := BitVec.ofNat 24 (field w 16 24), weight := BitVec.ofNat 8 (field w 40 8), cls := BitVec.ofNat 2 (field w 48 2) }
  | 1 => { k with cap := w / 2 ^ 32 }
  | 3 => { k with lsize := w % 16, lbase := BitVec.ofNat 26 (field w 22 26) }
  | 4 => { k with sbase := BitVec.ofNat 26 (w % 2 ^ 26) }
  | _ => k

/-- A command for the VF's team on the die: the team, or NOT_FOUND. -/
def State.onTeam (s : State) (m : HostCmd) (f : Nat → Nat → Answer × State) : Answer × State :=
  match s.teamOf m.vf.toNat m.die.toNat with
  | none => done stNotFound s
  | some t => f m.die.toNat t

/-- TEAM_SET (code 0x06). -/
def execTeamSet (m : HostCmd) (s : State) : Out :=
  command 0x06 3 m (m.p0.toNat < 5) s fun s =>
    s.onTeam m fun d t =>
      let k := (s.team d t).setWord m.p0.toNat m.p1 m.p2
      if m.p0 = 0 ∧ m.p1.toNat % 2 ^ 15 ≠ 0 then done stRefused s
      else if k.weight = 0 then done stRefused s
      else if k.lsize < 3 ∨ 12 < k.lsize then done stBadCommand s
      else if 65536 * k.lpages < landingNeed k.lsize then done stNoResource s
      else done stOk (s.modTeam d t fun _ => k)

/-! ## TEAM_STOP, TEAM_RESUME (R368, R389, R398) -/

/-- The answer of a TEAM_STOP whose team is stopped or lost. -/
def stopAnswer (st : Nat) : Nat × List Word := if st = 9 then (stRefused, [9]) else (stOk, [])

/-- TEAM_STOP (code 0x07): at once where the team is out, else in the background until its save is complete. -/
def execTeamStop (m : HostCmd) (s : State) : Out :=
  command 0x07 0 m true s fun s =>
    s.onTeam m fun d t =>
      let st := (s.team d t).st
      if 3 ≤ st ∧ st ≤ 7 then (none, s.stopTeam d t 1)
      else (some (stopAnswer st), s.stopTeam d t 1)

/-- The partition holds as many clusters on the die as before a withdrawal, and every one on which the team has saved strands is
mapped (R407). -/
def State.clustersThere (s : State) (d t : Nat) : Bool :=
  look 0 (s.part (s.team d t).part).before d ≤ (s.clustersOn (s.team d t).part d).length && (s.team d t).saved.all fun v => v.strands.isEmpty || (s.physCore (s.team d t).part d (v.lcore / 8) (v.lcore % 8)).isSome

/-- TEAM_RESUME (code 0x08). -/
def execTeamResume (m : HostCmd) (s : State) : Out :=
  command 0x08 0 m true s fun s =>
    s.onTeam m fun d t =>
      if (s.team d t).st ≠ 8 then done stBusyNow s
      else if !s.clustersThere d t then done stNoResource s
      else if !s.resumable d t then done stRefusedVer s
      else
        let s := s.modTeam d t fun k => { k with st := 2 }
        done stOk (s.modTeam d t fun k => { k with st := if s.runnable d t then 2 else 1 })

/-! ## TEAM_RESTART, TEAM_DESTROY (R399) -/

/-- Unfinished commands and launches of a team end; messages that its units await are forgotten. -/
def State.endWork (s : State) (d t : Nat) : State :=
  let s := (s.dropCmds d t).suspendLeases d t
  let s := s.modTeam d t fun m => m.launches.foldl (fun m l => m.setToken l.ctok (plainToken .error)) { m with launches := [] }
  let mine := fun x : Sent => match x.cmd with
    | some id => s.cmds.any fun m => m.id == id && m.d == d && m.t == t
    | none => false
  { s with sent := s.sent.filter fun x => !mine x }

/-- TEAM_RESTART (code 0x09): strands, joins and leases are reset, every token is idle (R115); the landing buffer is kept; the
conductor starts afresh. -/
def execTeamRestart (m : HostCmd) (s : State) : Out :=
  command 0x09 0 m true s fun s =>
    s.onTeam m fun d t =>
      let k := s.team d t
      if k.st ≠ 9 ∧ k.st ≠ 1 then done stBusyNow s
      else match (s.clustersOn k.part d).head? with
        | none => done stNoResource s
        | some cl =>
          let s := (s.endWork d t).dropHeld d t
          done stOk (s.modTeam d t fun m => { m with
            st := 2, joins := m.joins.map (fun q => (q.1, q.2.freed)), leases := [], tokens := [], leaseDeficit := 0, spilled := false
            saved := [conductorImage cl m.entry m.arg] })

/-- TEAM_DESTROY (code 0x0A): the entry is EMPTY; its cores, areas and tables are zeroed, its pages return to the partition. -/
def execTeamDestroy (m : HostCmd) (s : State) : Out :=
  command 0x0A 0 m true s fun s =>
    s.onTeam m fun d t =>
      let k := s.team d t
      let s := (s.endWork d t).clearTeam d t
      let s := { s with cmds := s.cmds.filter fun c => !(c.d == d && c.t == t) }
      let s := { s with sent := s.sent.filter fun x => !(x.d == d && (match x.tile with
        | some (u, _) => u == t
        | none => false)) }
      let own : BitVec 16 := BitVec.ofNat 16 (64 + k.part)
      let s := (s.giveOwner (65536 * k.lbase.toNat) k.lpages own).giveOwner (65536 * k.sbase.toNat) k.spages own
      done stOk (s.modDie d fun x => { x with
        teams := dropKey x.teams t
        shadow := x.shadow.map fun e : Nat × Shadow =>
          (e.1, if e.1 = k.part ∧ (e.2.staged = some t ∨ e.2.draining = some t) then Shadow.reset else e.2) })

end Sys2Proof.Machine
end

