-- ==== Sys2Proof/Machine/Image.lean ====
section
/-!
DEFINITION. The loader of GIM images (R60 to R66).
-/

set_option Elab.async false
namespace Sys2Proof.Machine

/-! ## The image (R60, R61) -/

/-- A number in an image, little-endian. -/
def num (b : List Byte) (off n : Nat) : Nat := ofBytes ((b.drop off).take n)

structure GimSection where
  kind : Nat
  align : Nat
  off : Nat
  size : Nat
  deriving DecidableEq, Repr

structure GimSymbol where
  name : List Byte
  sec : Nat
  isGlobal : Bool
  value : Nat
  deriving DecidableEq, Repr

structure GimReloc where
  sec : Nat
  type : Nat
  sym : Nat
  off : Nat
  addend : Word
  deriving DecidableEq, Repr

structure GimKernel where
  sym : Nat
  pool : Word32
  deriving DecidableEq, Repr

structure Gim where
  bytes : List Byte
  sections : List GimSection
  kernels : List GimKernel
  symbols : List GimSymbol
  relocs : List GimReloc
  deriving DecidableEq, Repr

/-- Status codes of R65. -/
def gimOk : Nat := 0
def gimMagic : Nat := 1
def gimVersion : Nat := 2
def gimSignature : Nat := 3
def gimTable : Nat := 4
def gimSection : Nat := 5
def gimPool : Nat := 6
def gimNoSymbol : Nat := 7
def gimDupSymbol : Nat := 8
def gimRelocKind : Nat := 9
def gimOverflow : Nat := 10
def gimTarget : Nat := 11
def gimSpace : Nat := 12

/-- A failure: code and the index it concerns. -/
abbrev GimFail := Nat × Nat

/-- The status word of R65. -/
def gimStatus (f : GimFail) : Word := BitVec.ofNat 64 (f.1 + 2 ^ 32 * f.2)

/-- The first failure among the entries of a table. -/
def firstBad {α : Type} (l : List α) (bad : α → Option Nat) : Option GimFail :=
  l.zipIdx.findSome? fun e => (bad e.1).map fun c => (c, e.2)

/-- The name at an offset of the string table. -/
def gimName (b : List Byte) (off : Nat) : List Byte := (b.drop off).takeWhile (· != 0)

/-- A name lies in the image and ends. -/
def nameOk (b : List Byte) (off : Nat) : Bool := off + (gimName b off).length < b.length

/-- The tables of an image without its trailer. -/
def parseGim (b : List Byte) : Gim :=
  let table := fun {α : Type} (count at_ size : Nat) (f : Nat → α) => (List.range (num b count 4)).map fun k => f (num b at_ 8 + size * k)
  let names := num b 0x38 8
  { bytes := b
    sections := table 0x08 0x18 32 fun e => { kind := num b e 1, align := num b (e + 1) 1, off := num b (e + 8) 8, size := num b (e + 16) 8 }
    kernels := table 0x0C 0x20 16 fun e => { sym := num b e 4, pool := BitVec.ofNat 32 (num b (e + 4) 4) }
    symbols := table 0x10 0x28 24 fun e =>
      { name := gimName b (names + num b e 4), sec := num b (e + 4) 2, isGlobal := num b (e + 6) 1 == 1, value := num b (e + 8) 8 }
    relocs := table 0x14 0x30 24 fun e =>
      { sec := num b e 2, type := num b (e + 2) 1, sym := num b (e + 4) 4, off := num b (e + 8) 8, addend := BitVec.ofNat 64 (num b (e + 16) 8) } }

/-- A table lies in the image, and each of its entries meets a condition. The spec does not say whether BAD_TABLE is a whole-image code:
it carries the index of the entry that is wrong, zero where the table or the header is (R65; DESIGN CHOICE, log 126). -/
def tableBad (b : List Byte) (count at_ size : Nat) (ok : Nat → Bool) : Option GimFail :=
  if b.length < num b at_ 8 + size * num b count 4 then some (gimTable, 0)
  else ((List.range (num b count 4)).find? fun k => !ok (num b at_ 8 + size * k)).map fun k => (gimTable, k)

/-- The checks of the header and the tables (R60, R61, R64). An offset that lies outside the image or its section is wrong: the value
of a symbol may be the end of its section, the word of a relocation lies inside (log 106). -/
def gimCheck (image : List Byte) : Option GimFail :=
  let b := image.take (image.length - 72)
  let names := num b 0x38 8
  let count := num b 0x08 4
  let sizeAt := fun k : Nat => num b (num b 0x18 8 + 32 * k + 16) 8
  if num b 0 4 ≠ 0x004D4947 then some (gimMagic, 0)
  else if num b 4 2 ≠ 1 then some (gimVersion, 0)
  else if num b 6 2 ≠ 0 ∨ num b 0x40 8 ≠ b.length ∨ image.length < 144 ∨ count < 1 ∨ 16 < count ∨ num b 0x0C 4 < 1
      ∨ 64 < num b 0x0C 4 ∨ b.length < names then some (gimTable, 0)
  else
    (tableBad b 0x08 0x18 32 fun e =>
      num b e 1 ≤ 3 && 2 ≤ num b (e + 1) 1 && num b (e + 1) 1 ≤ 16 && num b (e + 2) 2 == 0 && num b (e + 24) 8 == 0
        && nameOk b (names + num b (e + 4) 4)
        && (if num b e 1 = 3 then num b (e + 8) 8 == 0 else num b (e + 8) 8 + num b (e + 16) 8 ≤ b.length)).or
    ((tableBad b 0x0C 0x20 16 fun e => num b e 4 < num b 0x10 4 && num b (e + 8) 8 == 0).or
    ((tableBad b 0x10 0x28 24 fun e =>
      nameOk b (names + num b e 4) && (num b (e + 6) 1 ≤ 1 && num b (e + 7) 1 == 0 && num b (e + 16) 8 == 0)
        && (0xFFFE ≤ num b (e + 4) 2 || (num b (e + 4) 2 < count && num b (e + 8) 8 ≤ sizeAt (num b (e + 4) 2)))).or
    (tableBad b 0x14 0x30 24 fun e => num b e 2 < count && num b (e + 3) 1 == 0 && num b (e + 4) 4 < num b 0x10 4
      && num b (e + 8) 8 + (if num b (e + 2) 1 = 1 then 8 else 4) ≤ sizeAt (num b e 2))))

/-- The trailer verifies under the image key that is registered for the VF under its identifier (R60, R64, R403). -/
def gimSigned (keys : List ImageKey) (image : List Byte) : Bool :=
  let n := image.length - 72
  match keys.find? fun k => k.id == BitVec.ofNat 64 (num image n 8) with
  | none => false
  | some k => Config.ecdsaVerify k.x k.y (Config.sha256 (image.take n)) (BitVec.ofNat 256 (num image (n + 8) 32)) (BitVec.ofNat 256 (num image (n + 40) 32))

/-! ## Placement (R62, R64) -/

/-- Sections from a base upwards, each at its alignment, in table order: their addresses. -/
def placeFrom : (at_ : Nat) → List GimSection → List Nat
  | _, [] => []
  | a, g :: rest => let p := ceilDiv a (2 ^ g.align) * 2 ^ g.align; p :: placeFrom (p + g.size) rest

/-- The device physical address to which the two stages map an address of a VF on a die, whatever they allow. -/
def State.mappedAt (s : State) (v d va : Nat) : Option Nat :=
  if localBase ≤ va then none
  else match s.walk v d 0 va .mapped with
    | .ok e off => if e.at_ off < hbmSize then some (e.at_ off) else none
    | _ => none

/-- Every page of a range is mapped and owned. -/
def State.rangeMapped (s : State) (v d va n : Nat) : Bool :=
  n == 0 || (List.range ((va + n - 1) / 65536 - va / 65536 + 1)).all fun k => (s.mappedAt v d ((va / 65536 + k) * 65536)).isSome

/-- The bytes of a section (R62). -/
def Gim.contents (g : Gim) (x : GimSection) : List Byte := if x.kind = 3 then List.replicate x.size 0 else (g.bytes.drop x.off).take x.size

/-- The offsets of the headers of a text section, each header giving the length of its bundle; none when the walk does not end at
the section's end. -/
def walkText : (fuel : Nat) → (off : Nat) → List Byte → Option (List Nat)
  | 0, _, _ => none
  | fuel + 1, off, b =>
    if b.isEmpty then some []
    else if b.length < 4 then none
    else
      let n := 4 * (headerOf (BitVec.ofNat 32 (num b 0 4))).length
      if b.length < n then none
      else (walkText fuel (off + n) (b.drop n)).map fun l => off :: l

/-- The headers of a section as it stands in the image; none for a text section whose walk fails, no header for another. -/
def Gim.headers (g : Gim) (x : GimSection) : Option (List Nat) :=
  if x.kind = 0 then walkText (x.size / 4 + 2) 0 (g.contents x) else some []

/-! ## Symbols and relocations (R62, R63) -/

/-- The value of a symbol. -/
def Gim.value (g : Gim) (bases : List Nat) (outer : List Symbol) (k : Nat) : Word :=
  match g.symbols[k]? with
  | none => 0
  | some y =>
    if y.sec = 0xFFFF then ((outer.find? fun o => o.name == y.name).map (·.value)).getD 0
    else if y.sec = 0xFFFE then BitVec.ofNat 64 y.value
    else BitVec.ofNat 64 (nth 0 bases y.sec + y.value)

/-- The field that a relocation of a syllable writes: its width and value, or its failure. `v` is S + A, `b` the header's
address. -/
def relocField (i : Instr) (type : Nat) (v : Word) (b : Nat) (start : Bool) : Except Nat (Nat × Int) :=
  let disp := fun (w : Nat) (lim : Int) =>
    let x : Int := (v.toInt - b) / 4
    if x < -lim ∨ lim ≤ x then .error gimOverflow else if !start then .error gimTarget else .ok (w, x)
  match type, i with
  | 2, .br _ _ _ _ => disp 11 1024
  | 3, .bz _ _ | 3, .bnz _ _ => disp 19 262144
  | 4, .jmp _ | 4, .call _ => disp 26 33554432
  | 5, .addi _ _ _ | 5, .slti _ _ _ => if v.toInt < -8192 ∨ 8191 < v.toInt then .error gimOverflow else .ok (14, v.toInt)
  | 5, .andi _ _ _ | 5, .ori _ _ _ | 5, .xori _ _ _ => if v.toInt < 0 ∨ 16383 < v.toInt then .error gimOverflow else .ok (14, v.toInt)
  | 6, .movi _ _ => .ok (20, (v.toNat % 2 ^ 20 : Nat))
  | 7, .movhi _ _ => if 2 ^ 32 ≤ v.toNat then .error gimOverflow else .ok (20, (v.toNat / 2 ^ 12 % 2 ^ 20 : Nat))
  | 8, .movhh _ _ => .ok (20, (v.toNat / 2 ^ 44 : Nat))
  | _, _ => .error gimRelocKind

/-- The word of a syllable with a field in its lowest bits. -/
def patchWord (w width : Nat) (x : Int) : Nat := w / 2 ^ width * 2 ^ width + wrap width x

/-- The bundle of a text section that holds a word, with the word's slot: header offset and slot. -/
def syllableAt (headers : List Nat) (b : List Byte) (off : Nat) : Option (Nat × Nat) :=
  (headers.filter (· < off)).getLast?.bind fun h =>
    ((headerOf (BitVec.ofNat 32 (num b h 4))).slots[(off - h) / 4 - 1]?).map fun slot => (h, slot)

/-- One relocation applied to the contents of the sections. `base` gives their addresses, `target` whether an address is a
bundle start. Whether ABS64's 8-byte alignment is that of the placed address or of the offset in its section is not said: the placed
address (DESIGN CHOICE, log 107). -/
def applyReloc (sections : List GimSection) (bases : List Nat) (headers : List (List Nat)) (target : Nat → Bool) (value : Nat → Word)
    (contents : List (List Byte)) (r : GimReloc) : Except Nat (List (List Byte)) :=
  let kind := (sections[r.sec]?.map (·.kind)).getD 3
  let b := nth [] contents r.sec
  let v := value r.sym + r.addend
  let at_ := nth 0 bases r.sec
  if r.type = 1 then
    if (kind ≠ 1 ∧ kind ≠ 2) ∨ (at_ + r.off) % 8 ≠ 0 ∨ b.length < r.off + 8 then .error gimRelocKind
    else .ok (contents.set r.sec (b.take r.off ++ bytesOf 8 v.toNat ++ b.drop (r.off + 8)))
  else if kind ≠ 0 ∨ r.off % 4 ≠ 0 ∨ b.length < r.off + 4 then .error gimRelocKind
  else match syllableAt (nth [] headers r.sec) b r.off with
    | none => .error gimRelocKind
    | some (h, slot) =>
      match decodeSyllable slot (BitVec.ofNat 32 (num b r.off 4)) with
      | .error _ => .error gimRelocKind
      | .ok i => match relocField i r.type v (at_ + h) (target v.toNat) with
        | .error e => .error e
        | .ok (w, x) => .ok (contents.set r.sec (b.take r.off ++ bytesOf 4 (patchWord (num b r.off 4) w x) ++ b.drop (r.off + 4)))

/-! ## The load (R64, R66) -/

/-- Symbols that cannot be resolved, or global names committed before. -/
def Gim.badSymbol (g : Gim) (outer : List Symbol) : Option GimFail :=
  firstBad g.symbols fun y =>
    let known := outer.any fun o => o.name == y.name
    if y.sec = 0xFFFF then (if known then none else some gimNoSymbol)
    else if y.isGlobal && known then some gimDupSymbol else none

/-- The relocations of an image in index order. -/
def Gim.relocate (g : Gim) (bases : List Nat) (headers : List (List Nat)) (target : Nat → Bool) (outer : List Symbol) :
    Except GimFail (List (List Byte)) :=
  g.relocs.zipIdx.foldl (fun (a : Except GimFail (List (List Byte))) r =>
    match a with
    | .error e => .error e
    | .ok c => match applyReloc g.sections bases headers target (g.value bases outer) c r.1 with
      | .ok c => .ok c
      | .error e => .error (e, r.2)) (.ok (g.sections.map g.contents))

/-- The steps of a load up to its commit. -/
def State.gimLoad (s : State) (v d : Nat) (image : List Byte) (base : Nat) : Except GimFail Loaded :=
  let f := s.vf v
  let outer := look [] f.symbols d
  let old := look [] f.starts d
  if Config.stagingBytes < image.length then .error (gimSpace, 0)
  else match gimCheck image with
    | some e => .error e
    | none =>
      if !gimSigned f.imageKeys image then .error (gimSignature, 0)
      else
        let g := parseGim (image.take (image.length - 72))
        let bases := placeFrom base g.sections
        let placed := g.sections.zip bases
        let headers := g.sections.map fun x => (g.headers x).getD []
        let starts := (bases.zip headers).flatMap fun e => e.2.map (e.1 + ·)
        let bad := (firstBad g.kernels fun k => if partLegal k.pool then none else some gimPool).or
          ((firstBad placed fun x => if s.rangeMapped v d x.2 x.1.size then none else some gimSpace).or
          ((firstBad g.sections fun x => if (g.headers x).isSome then none else some gimSection).or (g.badSymbol outer)))
        match bad with
        | some e => .error e
        | none => match g.relocate bases headers (fun a => starts.contains a || old.contains a) outer with
          | .error e => .error e
          | .ok contents => .ok
            { digest := Config.sha256 (image.take (image.length - 72))
              bases := bases
              contents := contents
              texts := placed.filterMap fun x => if x.1.kind = 0 then some (x.2, x.1.size) else none
              starts := starts
              symbols := g.symbols.zipIdx.filterMap fun y =>
                if y.1.isGlobal && y.1.sec != 0xFFFF then some { name := y.1.name, value := g.value bases outer y.2 } else none
              kernels := g.kernels.map fun k => { entry := g.value bases outer k.sym, pool := k.pool } }

/-- Bytes written at an address of a VF on a die, page by page. -/
def State.writeVf (s : State) (v d va : Nat) (bs : List Byte) : State :=
  if bs.isEmpty then s
  else (List.range ((va + bs.length - 1) / 65536 - va / 65536 + 1)).foldl (fun s k =>
    let page := (va / 65536 + k) * 65536
    let from_ := max va page
    let upto := min (va + bs.length) (page + 65536)
    match s.mappedAt v d from_ with
    | some pa => s.hbmWrite pa ((bs.drop (from_ - va)).take (upto - from_)) false
    | none => s) s

/-- The first steps of a commit (R66): the start bits of the text ranges are cleared, and the sections written. -/
def State.gimWrite (s : State) (v d : Nat) (l : Loaded) : State :=
  let cleared := fun (old : List Nat) => old.filter fun a => !(l.texts.any fun t => t.1 ≤ a && a < t.1 + t.2)
  let s := s.modVf v fun f => { f with starts := ins f.starts d (cleared (look [] f.starts d)) }
  (l.bases.zip l.contents).foldl (fun s x => s.writeVf v d x.1 x.2) s

/-- Its last steps: the new start bits are set, the symbols and kernels published, the digest recorded for reports (R402). -/
def State.gimPublish (s : State) (v d : Nat) (l : Loaded) : State :=
  s.modVf v fun f => { f with
    starts := ins f.starts d (l.starts.foldl (fun o a => insertNat a o) (look [] f.starts d))
    symbols := ins f.symbols d (look [] f.symbols d ++ l.symbols)
    kernels := ins f.kernels d (look [] f.kernels d ++ l.kernels)
    images := if f.images.length < 32 then f.images ++ [l.digest] else f.images }

/-- IMAGE_LOAD (code 0x12): the load runs in the background; A0 is its status word. -/
def execImageLoad (m : HostCmd) (s : State) : Out :=
  command 0x12 3 m (m.p2.toNat < 2 ^ 42) s fun s =>
    if (s.vf m.vf.toNat).part.isNone then done stNotFound s else (none, s)

/-- An IMAGE_LOAD that fails its checks ends; else its sections are written, and a strand that fetches there finds no start bit until
the load ends (R34, R66). -/
def State.beginImageLoad (s : State) (i : Nat) (m : HostCmd) : State :=
  let image := readBytes s.hostMem m.p0.toNat m.p1.toNat
  match s.gimLoad m.vf.toNat m.die.toNat image m.p2.toNat with
  | .error e => s.answerSlot i (stOk, [gimStatus e])
  | .ok l => (s.gimWrite m.vf.toNat m.die.toNat l).modSlot i fun k => { k with load := some l }

/-- The end of an IMAGE_LOAD; of a VF that has left its partition nothing is published. -/
def State.endImageLoad (s : State) (i : Nat) (m : HostCmd) (l : Loaded) : State :=
  let s := if (s.vf m.vf.toNat).part.isNone then s else s.gimPublish m.vf.toNat m.die.toNat l
  s.answerSlot i (stOk, [gimStatus (gimOk, 0)])

end Sys2Proof.Machine
end

