-- ==== Sys2Proof/Machine/HostPort.lean ====
section
/-!
DEFINITION. The host's other paths: attestation and keys (R402, R403), exports (R397), the end of background commands (R398),
message windows and registers of the functions (R393, R394), readback (R404, R405), CXL.mem and IDE (R392), telemetry (R409),
device reset (R396).
-/

set_option Elab.async false

/-- What an image that this package has not sealed holds under a key; none when the key does
not open it (R3, R397; log 82). -/
opaque Sys2Proof.Config.foreignImage : (key : BitVec 512) → (image : List Byte) → Option Sys2Proof.Machine.TeamImage

namespace Sys2Proof.Machine

/-! ## Attestation (R402) -/

/-- The report for a VF with a nonce; `n` numbers the signature. -/
def State.report (s : State) (v : Nat) (nonce : List Byte) (n : Nat) : List Byte :=
  let f := s.vf v
  let p := f.part.getD 64
  let q := s.part p
  let b := bytesOf 4 0x5441594C ++ bytesOf 2 1 ++ bytesOf 2 0 ++ nonce ++ bytesOf 8 s.bootSerial.toNat
    ++ bytesOf 32 (Config.sha256 (pairBytes (Config.p256Public Config.identityKey))).toNat
    ++ bytesOf 32 Config.firmwareMeasurement.toNat ++ bytesOf 32 q.measure.toNat ++ bytesOf 1 p
    ++ bytesOf 1 ((if q.confidential then 1 else 0) + (if q.switches then 2 else 0)) ++ bytesOf 6 0 ++ bytesOf 4 0x0E
    ++ bytesOf 4 f.images.length ++ f.images.flatMap fun x => bytesOf 32 x.toNat
  b ++ pairBytes (Config.ecdsaSign (attestKey s.bootSerial) (Config.sha256 b) n)

/-- Bytes written to host memory over CXL.cache (R392). -/
def State.hostWrite (s : State) (a : Word) (bs : List Byte) : State := { s with hostMem := writeBytes s.hostMem a.toNat bs }

/-- A command of a VF that is bound to a partition starts in the background. -/
def inBackground (code n : Nat) (m : HostCmd) (s : State) : Out :=
  command code n m true s fun s => if (s.vf m.vf.toNat).part.isNone then done stNotFound s else (none, s)

/-- ATTEST (code 0x13). -/
def execAttest (m : HostCmd) (s : State) : Out := inBackground 0x13 2 m s

/-- The end of an ATTEST: the report and, behind it, the certificate. -/
def State.endAttest (s : State) (m : HostCmd) : (Nat × List Word) × State :=
  let (n, s) := s.draw
  let r := s.report m.vf.toNat (readBytes s.hostMem m.p0.toNat 32) n
  ((stOk, []), s.hostWrite m.p1 (r ++ certificate s.bootSerial))

/-! ## Key sessions (R403) -/

/-- KEY_SESSION (code 0x14). -/
def execKeySession (m : HostCmd) (s : State) : Out := inBackground 0x14 2 m s

/-- The end of a KEY_SESSION: Qd and the report are written; the new session replaces the old one. -/
def State.endKeySession (s : State) (m : HostCmd) : (Nat × List Word) × State :=
  let input := readBytes s.hostMem m.p0.toNat 96
  let qt := input.take 64
  let secret := Config.firmwareKey (2 ^ 90 + s.fresh)
  let qd := pairBytes (Config.p256Public secret)
  let z := Config.p256Shared secret (BitVec.ofNat 256 (num qt 0 32)) (BitVec.ofNat 256 (num qt 32 32))
  let key := Config.sha256 (bytesOf 32 z.toNat ++ qt ++ qd)
  let (n, s) := s.draw
  let r := s.report m.vf.toNat (bytesOf 32 (Config.sha256 (qt ++ qd ++ input.drop 64)).toNat) n
  let s := s.hostWrite m.p1 (qd ++ r)
  ((stOk, []), s.modPart ((s.vf m.vf.toNat).part.getD 64) fun q => { q with session := some { key := key, counter := 0 } })

/-- The plaintext of a blob under a session key: nonce, ciphertext, tag; none when the tag fails (log 10). -/
def openBlob (key : BitVec 256) (blob : List Byte) : Option (List Byte) :=
  let nonce : BitVec 96 := BitVec.ofNat 96 (num blob 0 12)
  let cipher := (blob.drop 12).take (blob.length - 28)
  if blob.length < 29 then none
  else if Config.gcmTag key nonce [] cipher = BitVec.ofNat 128 (num blob (blob.length - 16) 16) then
    some (cipher.zipIdx.map fun b => b.1 ^^^ Config.gcmStream key nonce b.2)
  else none

/-- What a key blob installs in the partition, by its purpose byte; none where purpose or length is not one of the table. -/
def Partition.install (q : Partition) (plain : List Byte) : Option Partition :=
  match num plain 0 1, plain.length with
  | 1, 65 => some { q with memKey := some (BitVec.ofNat 512 (num plain 1 64)) }
  | 2, 37 =>
    let g : BitVec 24 := BitVec.ofNat 24 (num plain 1 3)
    let e : BitVec 8 := BitVec.ofNat 8 (num plain 4 1)
    some { q with gangKeys := (g, e, BitVec.ofNat 256 (num plain 5 32)) :: q.gangKeys.filter fun k => !(k.1 == g && k.2.1 == e) }
  | 3, 73 => some q
  | 4, 33 => some { q with readKey := some (BitVec.ofNat 256 (num plain 1 32)) }
  | 5, 2 => some { q with confidential := q.confidential || flag (num plain 1 1) 0, switches := flag (num plain 1 1) 1 }
  | _, _ => none

/-- An image key is registered for the VF of the command, under its identifier (R64). -/
def Vf.install (f : Vf) (plain : List Byte) : Vf :=
  if num plain 0 1 = 3 then
    let id : Word := BitVec.ofNat 64 (num plain 1 8)
    { f with imageKeys := { id := id, x := BitVec.ofNat 256 (num plain 9 32), y := BitVec.ofNat 256 (num plain 41 32) }
                    :: f.imageKeys.filter fun k => k.id != id }
  else f

/-- KEY_INSTALL (code 0x15). -/
def execKeyInstall (m : HostCmd) (s : State) : Out :=
  command 0x15 2 m true s fun s =>
    match (s.vf m.vf.toNat).part with
    | none => done stNotFound s
    | some p =>
      let q := s.part p
      let blob := readBytes s.hostMem m.p0.toNat m.p1.toNat
      match q.session with
      | none => done stAuthFail s
      | some k =>
        if (q.confidential && !s.ide) || num blob 0 12 ≠ k.counter + 1 then done stAuthFail s
        else match openBlob k.key blob with
          | none => done stAuthFail s
          | some plain => match q.install plain with
            | none => done stBadCommand s
            | some r =>
              let s := (s.modPart p fun _ => { r with session := some { k with counter := k.counter + 1 } }).modVf m.vf.toNat (·.install plain)
              done stOk (if num plain 0 1 = 5 then s.fold [p] 0x15 m else s)

/-! ## Exports (R3, R185, R397) -/

/-- The key that seals the exports of a partition: the tenant's memory key, else one of firmware for this boot. -/
def State.sealKey (s : State) (p : Nat) : BitVec 512 :=
  (s.part p).memKey.getD (Config.firmwareKey (2 ^ 100 + 2 ^ 64 * p + s.bootSerial.toNat) ++ Config.firmwareKey (2 ^ 101 + 2 ^ 64 * p + s.bootSerial.toNat))

/-- TEAM_EXPORT (code 0x19): of a HALTED team. -/
def execTeamExport (m : HostCmd) (s : State) : Out :=
  command 0x19 2 m true s fun s => s.onTeam m fun d t => if (s.team d t).st = 8 then (none, s) else done stBusyNow s

/-- A team as an image holds it: with its unfinished commands, the lines of its open phases and joins and of commits not yet performed, and
its messages that wait for their retry (R139, R293, R328). -/
def State.imageOf (s : State) (d t : Nat) : TeamImage :=
  let cmds := s.cmds.filter fun c => c.d == d && c.t == t && !c.done
  { team := s.team d t
    cmds := cmds
    staged := s.dies.flatMap fun e => e.2.staging.filter fun l => l.d == d && l.t == t
    sent := s.sent.filter fun x => x.d == d && x.resting
      && (x.cmd.any (fun c => cmds.any fun m => m.id == c) || x.tile.any fun y => y.1 == t) }

/-- The end of a TEAM_EXPORT: the sealed image, whose bytes and length the spec leaves open, is written where it fits (log 23). -/
def State.endExport (s : State) (m : HostCmd) : (Nat × List Word) × State :=
  let d := m.die.toNat
  match s.teamOf m.vf.toNat d with
  | none => ((stNotFound, []), s)
  | some t =>
    let k := s.team d t
    let (n, s) := s.draw
    let size := 64 + n % (65536 * k.spages)
    if k.st ≠ 8 then ((stBusyNow, []), s)
    else if m.p1.toNat < size then ((stNoResource, []), s)
    else
      let bs := freeBytes s.fresh size
      let e : Export := { key := s.sealKey k.part, bytes := bs, image := s.imageOf d t }
      ((stOk, []), { (s.draw.2).hostWrite m.p0 bs with exports := s.exports ++ [e] })

/-- TEAM_IMPORT (code 0x1A): into the VF's HALTED team on the die. -/
def execTeamImport (m : HostCmd) (s : State) : Out :=
  command 0x1A 2 m true s fun s => s.onTeam m fun d t => if (s.team d t).st = 8 then (none, s) else done stBusyNow s

/-- The part of a team that an image carries: its saved cores, its tables and its commands' tokens. The entry's identity,
schedule fields and areas stay, and landed messages land in its own buffer. -/
def Team.imported (old new : Team) : Team :=
  { old with
    saved := new.saved, spilled := new.spilled, tokens := new.tokens, counters := new.counters, tiles := new.tiles, trackers := new.trackers
    joins := new.joins, leases := new.leases, launches := new.launches, landing := [], spinlim := new.spinlim
    entry := new.entry, arg := new.arg, fault := new.fault }

/-- A strand under numbers that are new to this package. -/
def Strand.renumbered (x : Strand) (n : Nat) : Strand :=
  { x with launch := x.launch.map (· + n), phase := x.phase.map fun p => { p with firstCmd := p.firstCmd + n } }

def Launch.renumbered (l : Launch) (n : Nat) : Launch :=
  { l with id := l.id + n, closing := l.closing.map fun q : Closing => { q with upTo := q.upTo + n } }

def Join.renumbered (j : Join) (n : Nat) : Join := { j with commit := j.commit.map (· + n), opened := j.opened + n }

/-- A team of an image under numbers that are new to this package: commands, launches and commits keep their order. Of what it sent, only
the messages that wait for their retry are outstanding, and no request it waited on is (log 82). -/
def TeamImage.renumbered (e : TeamImage) (n : Nat) : Team :=
  let waits := fun i : Nat => (e.sent.filter fun x => x.tile.any fun y => y.2 == i).length
  { e.team with
    tokens := e.team.tokens.map fun k => (k.1, ({ k.2 with cmd := k.2.cmd.map (· + n) } : Token))
    launches := e.team.launches.map fun l => l.renumbered n
    saved := e.team.saved.map fun v : SavedCore => { v with strands := v.strands.map fun x => (x.1, x.2.renumbered n) }
    tiles := e.team.tiles.map fun k => (k.1, ({ k.2 with run := k.2.run.map fun r => { r with stall := [], unanswered := waits k.1 } } : Tile))
    joins := e.team.joins.map fun j => (j.1, j.2.renumbered n) }

/-- A command of an image in its new place; every write to its core's pool before it has been saved with the pool. -/
def Cmd.renumbered (m : Cmd) (sent : List Sent) (d t n : Nat) : Cmd :=
  { m with id := m.id + n, d := d, t := t, waits := [], seq := 0, unanswered := (sent.filter fun x => x.cmd == some m.id).length }

def Sent.renumbered (x : Sent) (d t n now : Nat) : Sent :=
  { x with id := x.id + n, d := d, cmd := x.cmd.map (· + n), tile := x.tile.map fun y => (t, y.2), sentAt := now }

/-- A holder of an image in its new place. -/
def Holder.renumbered (d t n : Nat) : Holder → Holder
  | .phase _ _ w => .phase d t w
  | .join _ _ q k => .join d t q k
  | .done c k => .done (c + n) k

def HeldLine.renumbered (l : HeldLine) (d t n : Nat) : HeldLine :=
  { l with d := d, t := t, order := l.order + n, holders := l.holders.map (Holder.renumbered d t n) }

/-- The numbers in use in an image. -/
def TeamImage.numbers (e : TeamImage) : List Nat :=
  e.cmds.map (·.id) ++ e.team.launches.flatMap (fun l => l.id :: l.closing.map (·.upTo)) ++ e.team.joins.flatMap (fun j => j.2.opened :: j.2.commit.toList)
    ++ e.sent.map (·.id) ++ e.staged.flatMap fun l => l.order :: l.holders.filterMap fun x => match x with
      | .done c _ => some c
      | _ => none

/-- A held line of an image comes to staging where the team's address of it lies now (log 82). -/
def State.stageAgain (s : State) (d t : Nat) (l : HeldLine) : State :=
  match s.teamTarget none d t (s.team d t).gang l.va .write with
  | .ok (.hbm pa) _ => s.modDie (stackOf pa) fun k => { k with staging := k.staging ++ [({ l with pa := pa } : HeldLine)] }
  | _ => s

/-- A strand of an image that waited on page requests walks again (R134, R136, R148). -/
def State.askAgain (s : State) (d t : Nat) (w : StrandName) (x : Strand) : Strand × State :=
  if x.wait.tags.isEmpty then (x, s)
  else match x.gather with
    | none => ({ x with mode := .ready, wait := WaitInfo.reset }, s)
    | some g =>
      let acc := if g.write then Acc.write else .read
      let again := fun ea => s.teamTarget none d t (s.team d t).gang ea acc
      let pages := (g.mask.map (·.ipa)).eraseDups
      let asked := s.postAll (pages.flatMap fun p => s.gatherMisses d t g p acc)
      let g := pages.foldl (fun (g : GatherWait) p => g.answered p false again s.requestPage (s.readSaved d t w)) g
      ({ x with gather := some g, mode := if asked.1.isEmpty then .ready else x.mode, wait := { x.wait with tags := asked.1 } }, asked.2)

/-- The same for every strand of a team that is out, and for its joins that waited to fill a slot (R325). -/
def State.askAllAgain (s : State) (d t : Nat) : State :=
  let s := (s.team d t).saved.foldl (fun s v => v.strands.foldl (fun s e =>
    let r := s.askAgain d t { cl := v.lcore / 8, co := v.lcore % 8, n := e.1 } e.2
    r.2.modTeam d t fun m => { m with saved := m.saved.map fun k =>
      if k.lcore = v.lcore then { k with strands := ins k.strands e.1 r.1 } else k }) s) s
  ((s.team d t).joins.filter fun e => e.2.tag.isSome).foldl (fun s e => s.resumeRelease d t e.1 false) s

/-- The watched pages of a team's trackers, as its addresses map now. -/
def State.watchAgain (s : State) (d t : Nat) : State :=
  let pages := fun (x : Tracker) => (List.range (ceilDiv (x.base.toNat % 65536 + x.len) 65536)).filterMap fun k =>
    (s.mappedAt (s.team d t).vf d (x.base.toNat / 65536 * 65536 % 2 ^ 42 + 65536 * k)).map (· / 65536)
  s.modTeam d t fun m => { m with trackers := m.trackers.map fun x => { x with pages := pages x } }

/-- An image that a key opens: one that this package has sealed, or one of another part, whose content is a free value (R3). -/
def State.openImage (s : State) (key : BitVec 512) (image : List Byte) : Option TeamImage :=
  match s.exports.find? fun e => e.key == key && image.take e.bytes.length == e.bytes with
  | some e => some e.image
  | none => Config.foreignImage key image

/-- The held lines of a team that are not committed are gone: an image takes its place. -/
def State.dropStaged (s : State) (d t : Nat) : State :=
  { s with dies := s.dies.map fun e => (e.1, { e.2 with staging := e.2.staging.filter fun l => !(l.d == d && l.t == t && l.holders.any fun h => !h.isDone) }) }

/-- The state of an image comes to a team: under new numbers, its landed messages in the team's own buffer, its held lines in staging; a
release whose commit has been performed goes on (R325). -/
def State.takeImage (s : State) (d t : Nat) (e : TeamImage) : State :=
  let n := s.nextId
  let old := (s.team d t).landing
  let s := old.foldl (fun s l => s.freeEntry d t l.slot) s
  let s := (s.dropStaged d t).modTeam d t fun k => k.imported (e.renumbered n)
  let cmds := (s.cmds.filter fun c => !(c.d == d && c.t == t)) ++ e.cmds.map fun c => c.renumbered e.sent d t n
  let sent := s.sent ++ e.sent.map fun x => x.renumbered d t n (s.die d).now
  let s := { s with cmds := cmds, sent := sent, nextId := (e.numbers.map (· + n + 1)).foldl max n }
  let s := e.staged.foldl (fun s l => s.stageAgain d t (l.renumbered d t n)) s
  let s := e.team.landing.foldl (fun s l =>
    match (s.team d t).nextEntry with
    | some i => (s.hbmWrite ((s.team d t).entryAt i) (landingBytes l.m) l.m.mark).modTeam d t fun k => { k with landing := k.landing ++ [({ slot := i, m := l.m } : Landed)] }
    | none => s) s
  let s := ((s.team d t).joins.filter fun j => j.2.commit.any s.commitDone).foldl (fun s j => s.slotsOn d t j.1) s
  (s.watchAgain d t).askAllAgain d t

/-- The end of a TEAM_IMPORT: an image sealed under the partition's key is taken whole, or refused whole (R185). An image of any part
may be taken; one with more landed messages or more cores than the team has room for is refused with NO_RESOURCE (log 82). -/
def State.endImport (s : State) (m : HostCmd) : (Nat × List Word) × State :=
  let d := m.die.toNat
  match s.teamOf m.vf.toNat d with
  | none => ((stNotFound, []), s)
  | some t =>
    let k := s.team d t
    if k.st ≠ 8 then ((stBusyNow, []), s)
    else match s.openImage (s.sealKey k.part) (readBytes s.hostMem m.p0.toNat m.p1.toNat) with
      | none => ((stAuthFail, []), s)
      | some e =>
        if !(e.team.saved.all fun v => v.strands.all fun x => x.2.supported) then ((stRefusedVer, []), s)
        else if 2 ^ k.lsize < e.team.landing.length
            || !(e.team.saved.all fun v => v.strands.isEmpty || (s.physCore k.part d (v.lcore / 8) (v.lcore % 8)).isSome) then
          ((stNoResource, []), s)
        else ((stOk, []), s.takeImage d t e)

/-! ## The end of background commands (R398) -/

/-- The final answer of a background command; none while it cannot end. -/
def State.endBackground (s : State) (code : Nat) (m : HostCmd) : Option ((Nat × List Word) × State) :=
  if code = 0x07 then
    match s.teamOf m.vf.toNat m.die.toNat with
    | none => some ((stOk, []), s)
    | some t => if (s.team m.die.toNat t).stopping = 0 then some (stopAnswer (s.team m.die.toNat t).st, s) else none
  else if code = 0x13 then some (s.endAttest m)
  else if code = 0x14 then some (s.endKeySession m)
  else if code = 0x19 then some (s.endExport m)
  else some (s.endImport m)

/-- An earlier IMAGE_LOAD of the VF has not ended: loads of one VF are taken one at a time in arrival order (R64). -/
def State.loadBefore (s : State) (i : Nat) (m : HostCmd) : Bool :=
  s.pfSlots.any fun e => e.2.order < (s.pfSlot i).order && (match e.2.cmd with
    | some c => c.1 == 0x12 && c.2.vf == m.vf
    | none => false)

/-- BACKGROUND_COMMAND_DONE. An IMAGE_LOAD whose checks pass takes two of them: after the first its sections are written (R66). -/
def execBackgroundCommandDone (slot : BitVec 4) (s : State) : Out :=
  let i := slot.toNat
  match (s.pfSlot i).cmd with
  | none => .next s
  | some c =>
    if c.1 = 0x12 then
      if s.loadBefore i c.2 then .next s
      else match (s.pfSlot i).load with
        | none => .next (s.beginImageLoad i c.2)
        | some l => .next (s.endImageLoad i c.2 l)
    else match s.endBackground c.1 c.2 with
      | none => .next s
      | some (a, s) => .next (s.answerSlot i a)

/-! ## Message windows and registers (R393, R394) -/

/-- The gang of a VF's team at an endpoint: a team of this package; for another package a free value (log 20). -/
def State.windowGang (s : State) (v dst : Nat) : BitVec 24 :=
  match dieOfEndpoint dst with
  | some d => match s.teamOf v d with
    | some t => (s.team d t).gang
    | none => 0
  | none => BitVec.ofNat 24 (Config.free s.fresh)

/-- VF_MESSAGE (R394): one message at a time, of the three write types. -/
def execVfMessage (vf : BitVec 9) (m : Message) (s : State) : Out :=
  let v := vf.toNat
  let f := s.vf v
  let kind := m.kind.toNat
  let drop := { s with drops := s.drops + 1 }
  if f.window.isSome || kind < 1 || 3 < kind || 4096 < m.payload.length then .next drop
  else match f.part with
    | none => .next drop
    | some p =>
      let msg := { bareMessage m.dst.toNat (s.windowGang v m.dst.toNat) kind m.wordA 0 m.payload m.mark with vf := vf, byGang := false }
      match s.draw.2.transmit 0 p msg with
      | .error _ => .next drop
      | .ok r => .next ((r.2.keepSent 0 r.1 none none (some v)).modVf v fun f => { f with window := some r.1 })

/-- A VA page, or every stage-1 entry, of a VF is invalidated on every die (R393). -/
def State.s1inv (s : State) (vf : Nat) (v : Word) : State :=
  let page := field v.toNat 16 26
  s.dropTlb fun e => e.vf == vf && (v.getLsbD 0 || e.va == page)

/-- S1INV (R393): a write of the VF's register at 0x2010. -/
def execS1inv (vf : BitVec 9) (v : Word) (s : State) : Out := .next (s.s1inv vf.toNat v)

/-- The answer of a command slot: its bytes 64 to 127 (R396). -/
def CmdSlot.answerBytes (k : CmdSlot) : List Byte :=
  bytesOf 2 k.code.toNat ++ bytesOf 2 k.tag.toNat ++ bytesOf 1 k.status.toNat ++ bytesOf 3 0 ++ k.a.flatMap fun w => bytesOf 8 w.toNat

/-- An event of the PF ring (R406). -/
def Event.bytes (e : Event) : List Byte :=
  bytesOf 1 e.kind.toNat ++ bytesOf 1 e.die ++ bytesOf 1 e.team ++ bytesOf 2 e.vf ++ bytesOf 1 e.cause ++ bytesOf 58 e.detail.toNat

/-- A byte of the BAR of a function as the host reads it (R6, R287, R393, R396, R406): S1INV and reserved offsets read zero. Bytes 0 to
63 of a command slot and a VF's message window have no access code in the spec: they read zero (DESIGN CHOICE, log 124). The readback aperture at 0x8000 is read by READBACK_READ. -/
def State.barByte (s : State) (fn o : Nat) : Byte :=
  let word := fun (base : Nat) (v : Nat) => BitVec.ofNat 8 (v / 2 ^ (8 * (o - base)))
  if fn = 512 then
    if o < 2048 then
      nth 0 (List.replicate 64 0 ++ (s.pfSlot (o / 128)).answerBytes) (o % 128)
    else if 0x2000 ≤ o ∧ o < 0x2008 then word 0x2000 s.eventsOut
    else if 0x2008 ≤ o ∧ o < 0x2010 then word 0x2008 s.eventsIn
    else if 0x2018 ≤ o ∧ o < 0x2020 then word 0x2018 s.aperture.toNat
    else if 0x4000 ≤ o ∧ o < 0x8000 then
      match s.events.zipIdx.find? fun e => (s.eventsOut + e.2 - s.events.length) % 256 = (o - 0x4000) / 64 with
      | some e => nth 0 e.1.bytes (o % 64)
      | none => 0
    else 0
  else if 512 < fn then 0
  else if 0x2000 ≤ o ∧ o < 0x2008 then nth 0 (s.vf fn).response (o - 0x2000)
  else if 0x2008 ≤ o ∧ o < 0x2010 then word 0x2008 (s.vf fn).s1root.toNat
  else if 0x2018 ≤ o ∧ o < 0x2020 then word 0x2018 (s.vf fn).aperture.toNat
  else 0

/-- The command in bytes 0 to 63 of a slot (R396). -/
def slotCommand (slot : BitVec 4) (b : List Byte) : HostCmd :=
  let word := fun k : Nat => BitVec.ofNat 64 (num b (8 + 8 * k) 8)
  { slot := slot, tag := BitVec.ofNat 16 (num b 2 2), vf := BitVec.ofNat 16 (num b 4 2), die := BitVec.ofNat 8 (num b 6 1), zeros := BitVec.ofNat 8 (num b 7 1)
    p0 := word 0, p1 := word 1, p2 := word 2, p3 := word 3, p4 := word 4, p5 := word 5, p6 := word 6 }

/-- The commands by their codes; any other code returns BAD_COMMAND and changes nothing (R397). -/
def runCommand (code : Nat) (m : HostCmd) (s : State) : Out :=
  match code with
  | 0x01 => execPartSet m s
  | 0x02 => execPartDestroy m s
  | 0x03 => execVfBind m s
  | 0x04 => execSlotSet m s
  | 0x05 => execTeamCreate m s
  | 0x06 => execTeamSet m s
  | 0x07 => execTeamStop m s
  | 0x08 => execTeamResume m s
  | 0x09 => execTeamRestart m s
  | 0x0A => execTeamDestroy m s
  | 0x0B => execParamSet m s
  | 0x0C => execS2Map m s
  | 0x0D => execS2Unmap m s
  | 0x0E => execInvalidate m s
  | 0x0F => execPageAnswer m s
  | 0x10 => execOwnerSet m s
  | 0x11 => execReplicaReserve m s
  | 0x12 => execImageLoad m s
  | 0x13 => execAttest m s
  | 0x14 => execKeySession m s
  | 0x15 => execKeyInstall m s
  | 0x16 => execEpochAdvance m s
  | 0x17 => execScanSet m s
  | 0x18 => execPowerSet m s
  | 0x19 => execTeamExport m s
  | 0x1A => execTeamImport m s
  | n => command n 7 m false s fun s => done stBadCommand s

/-- A word of 8 bytes is written into bytes 0 to 63 of a command slot; with byte 63 the command starts (R396). -/
def writeSlot (i o : Nat) (v : Word) (s : State) : Out :=
  let s := s.modSlot i fun k => { k with bytes := k.bytes.take o ++ bytesOf 8 v.toNat ++ k.bytes.drop (o + 8) }
  let b := (s.pfSlot i).bytes
  if o = 56 then runCommand (num b 0 2) (slotCommand (BitVec.ofNat 4 i) b) s else .next s

/-- REGISTER_WRITE (R393, R396): 8 bytes at an offset; function 512 is the physical function. A write to another offset is discarded. -/
def execRegisterWrite (fn : Nat) (offset : BitVec 16) (v : Word) (s : State) : Out :=
  let o := offset.toNat
  let ap : Word := BitVec.ofNat 64 (v.toNat % 2 ^ 48)
  if fn = 512 then
    if o = 0x2008 then .next { s with eventsIn := v.toNat }
    else if o = 0x2018 then .next { s with aperture := ap }
    else if o < 0x800 ∧ o % 128 < 64 ∧ o % 8 = 0 then writeSlot (o / 128) (o % 128) v s
    else .next s
  else if 512 < fn then .next s
  else if o = 0x2008 then .next (s.modVf fn fun f => { f with s1root := BitVec.ofNat 42 (v.toNat / 2 ^ 15 % 2 ^ 27 * 2 ^ 15) })
  else if o = 0x2010 then .next (s.s1inv fn v)
  else if o = 0x2018 then .next (s.modVf fn fun f => { f with aperture := ap })
  else .next s

/-! ## Readback (R404, R405) -/

/-- READBACK_READ (R393, R405): a function reads one line through its BAR, at 0x8000 plus an offset: the line of the aperture that lies
that far behind the address in its aperture register. That the window begins at the register's address is the model's choice (DESIGN
CHOICE, log 122). -/
def execReadbackRead (fn : Nat) (offset : BitVec 48) (s : State) : Out :=
  let base := if fn < 512 then (s.vf fn).aperture else s.aperture
  let line := (base.toNat + offset.toNat) % 2 ^ 48 / 64 * 64
  let cls := line / 2 ^ 40
  let answer := fun (s : State) (bs : List Byte) => Host.Outcome.next { s with hostRead := bs }
  if 512 < fn then .next s
  else if 0x81 ≤ cls ∧ cls ≤ 0x8A then
    let t := look (0, 0) s.lastTag (2 ^ 48 * fn + (line - 2 ^ 47))
    answer s (bytesOf 16 t.1.toNat ++ bytesOf 8 t.2.toNat ++ bytesOf 8 0)
  else
    let v := s.readbackLine fn line
    answer v.2 v.1

/-! ## CXL.mem and IDE (R392) -/

/-- A page whose owner kind is HOST (R400). -/
def State.hostPage (s : State) (a : Nat) : Bool := (look 0 s.owner (a / 65536)).toNat / 64 % 4 == 3

/-- CXL_MEM_ACCESS (R392): one byte of HBM, in pages of the host. -/
def execCxlMemAccess (write : Bool) (addr : BitVec 42) (v : Byte) (s : State) : Out :=
  let a := addr.toNat
  if a < hbmSize && s.hostPage a then
    if write then .next (s.hbmWrite a [v] false) else .next { s with hostRead := [readByte s.hbm a] }
  else if write then .next (s.countDrop dropAccess)
  else .next { s.countDrop dropAccess with hostRead := [0xFF] }

/-- IDE_KM (R392): IDE is established, or lost. -/
def execIdeKm (ok : Bool) (s : State) : Out := .next { s with ide := ok }

/-! ## Telemetry (R29, R409) -/

/-- The inlet and the flow lie in the table's last row. -/
def coolingLost (inlet : Int) (flow : Nat) : Bool := flow < 2000 || inlet < 150 || 450 < inlet

/-- Issue is throttled: the package passes its limit, or the die is hot (temperatures in 0.1 degrees C, power in mW). -/
def State.tooHot (s : State) (d : Nat) : Bool :=
  1000 * min s.powerLimit (allowance s.inlet s.flow) < s.packagePower || 950 ≤ (s.die d).junction

/-- TELEMETRY_SAMPLE (R409). -/
def execTelemetrySample (d : Nat) (v : Sample) (s : State) : Out :=
  let was := coolingLost s.inlet s.flow
  let hot := 1100 ≤ (s.die d).junction
  let s := s.modDie d fun k => { k with power := v.power, junction := v.junction, hbmTemp := v.hbmTemp }
  let s := if d = 0 then { s with packagePower := v.packagePower, inlet := v.inlet, flow := v.flow } else s
  let s := if coolingLost s.inlet s.flow && !was then s.postEvent 8 d 0 0 0 else s
  let s := { s with dies := s.dies.map fun e : Nat × Die => (e.1, { e.2 with throttling := s.tooHot e.1 }) }
  if 1100 ≤ v.junction then
    let s := s.dies.foldl (fun s e => e.2.teams.foldl (fun s t => s.stopTeam e.1 t.1 3) s) s
    .next (if hot then s else s.postEvent 8 d 0 0 0)
  else .next s

/-! ## Reset (R396) -/

/-- DEVICE_RESET (R396): the machine as after reset, under a new boot serial. Host memory, clusters withdrawn for good and the
model's own counters go on. -/
def execDeviceReset (s : State) : Out :=
  let (n, s) := s.draw
  .next { State.reset with
    hostMem := s.hostMem, withdrawn := s.withdrawn, exports := s.exports, fresh := s.fresh, nextId := s.nextId, agenda := s.agenda
    bootSerial := BitVec.ofNat 64 n }

end Sys2Proof.Machine
end

