-- ==== Sys2Proof/Machine/Silicon.lean ====
section
/-!
DEFINITION. Events of the silicon and of the presentation of a bundle: mirror mismatches (R39, R354), uncorrectable words and
lines and the scrubber (R348, R356, R357) with the counters of R362 and R363, malformed bundles (R32, R34, R35), fetch
faults (R424).
-/

set_option Elab.async false
namespace Sys2Proof.Machine

/-! ## Mirrors -/

/-- The strand is about to write, in its next cycle, a result of the bundle at an address that the mirror in a slot has computed
too (R39, R94, R354). -/
def State.comparing (s : State) (c n : Nat) (slot : BitVec 5) (addr : VAddr) : Bool :=
  let t := s.strand c n
  (s.core c).running == some n && (s.core c).switchLeft == 0 && !t.late &&
    t.pend.any fun p => p.check == some (addr, slot) && p.due ≤ t.time

/-- MIRROR_MISMATCH (R354): in the cycle in which a committed bundle's primary writes its result, re-delivered from a latch or not
(R96), the comparison of its mirror fails. It takes place just before that cycle. -/
def execMirrorMismatch (c n : Nat) (slot : BitVec 5) (addr : VAddr) (s : State) : Out :=
  if !s.comparing c n slot addr then .next s
  else
    let s := s.modStrand c n fun t =>
      let k := t.ctl
      let t := { t with pend := t.pend.map fun p : Pending => if p.check = some (addr, slot) ∧ p.due ≤ t.time then { p with check := none } else p }
      let first := !k.mirrorPending
      { t with ctl := { k with
          mirrorPending := true
          mm := true
          mirrorAddr := if first then BitVec.ofNat 40 (addr.toNat / 4) else k.mirrorAddr
          mirrorSlot := if first then slot else k.mirrorSlot } }
    .next (s.countVf (s.team (coreDie c) (s.teamAt c)).vf 6)

/-! ## Errors and their counters (R356, R357, R362, R363) -/

/-- Storage of registers, SRAM, or HBM; shared storage counts as SRAM (DESIGN CHOICE, log 108). -/
def placeGroup (k : PlaceKind) : Nat :=
  match k with
  | .scalarReg | .vectorReg | .predicateReg | .descriptorReg | .controlReg | .streamReg | .latch => 0
  | .poolLine | .scaleWord | .fileWord | .shadowLine | .portStaging | .heldStaging | .shared => 1
  | .hbmLine => 2

/-- The team whose image a line of shadow SRAM holds, and the logical core of the image (R15, R382). -/
def State.shadowAt (s : State) (p : Place) : Option (Nat × Nat) :=
  (s.shadowOn p.core).bind fun x => if p.index < x.1 then some x.2 else none

/-- The tile-table entries whose chunks hold a slot of a port's staging, with their teams (R307). -/
def State.slotHolders (s : State) (p : Place) : List (Nat × Nat) :=
  (s.die (coreDie p.core)).teams.flatMap fun e =>
    (e.2.tiles.filter fun x => tilePort x.1 == p.group && x.2.held.any fun h => h.slots.contains p.index).map fun x => (e.1, x.1)

/-- The VFs against which an error is counted (R363): those that own the data in which it lies. -/
def State.ownersOf (s : State) (p : Place) : List Nat :=
  let d := coreDie p.core
  match p.kind with
  | .hbmLine =>
    let page := p.index / 65536
    let e := (look 0 s.owner page).toNat
    if e / 64 % 4 = 1 then
      (s.vfs.filter fun f => f.2.part == some (e % 64) && f.2.s2.any fun l =>
        l.2.pa / 65536 ≤ page && page < l.2.pa / 65536 + leafSpan l.2.level / 65536).map (·.1)
    else (s.vfs.filter fun f => f.2.part.isSome && Config.queuePage f.1 == page).map (·.1) ++ s.dies.flatMap fun k => (k.2.teams.filter fun t => t.2.st != 0 &&
      ((t.2.lbase.toNat ≤ page && page < t.2.lbase.toNat + t.2.lpages)
        || (t.2.sbase.toNat ≤ page && page < t.2.sbase.toNat + t.2.spages))).map fun t => t.2.vf
  | .shadowLine =>
    match s.shadowAt p with
    | some x => [(s.team d x.1).vf]
    | none => []
  | .portStaging => ((s.slotHolders p).map fun x => (s.team d x.1).vf).eraseDups
  | .heldStaging =>
    match (s.die d).staging[p.index]? with
    | some l => [(s.team l.d l.t).vf]
    | none => []
  | .shared => []
  | _ => match s.teamOn p.core with
    | some t => [(s.team d t).vf]
    | none => []

/-- An error is counted: against its owners, or against the physical function when nobody owns the place. -/
def State.countError (s : State) (p : Place) (i : Nat) : State :=
  match s.ownersOf p with
  | [] => s.countPf i
  | vs => vs.foldl (fun s v => s.countVf v i) s

/-- A bad word re-delivered by the latch of a result in flight (R356): it follows the result. -/
def spoil (core n : Nat) (ps : List Pending) (k : Nat) : List Pending :=
  let place := fun (kind : PlaceKind) (g i : Nat) => { core := core, strand := n, kind := kind, group := g, index := i : Place }
  match ps[k]? with
  | none => ps
  | some p =>
    let bad : Option Place := if p.load.isSome then none else match p.write with
      | .x r _ => some (place .scalarReg 0 r.toNat)
      | .vec lg reg _ _ => some (place .vectorReg lg (16 * reg))
      | .pred lg r _ _ => some (place .predicateReg lg (2 * r))
      | .ctrl i _ => some (place .controlReg 0 i.toNat)
      | _ => none
    match bad with
    | none => ps
    | some b => ps.take (k + 1) ++ [({ p with write := .bad b, mark := false, recs := [] } : Pending)] ++ ps.drop (k + 1)

/-- Results in the latches of a strand, those of its level first (R96, R342). -/
def Strand.spoilLatch (t : Strand) (core n k : Nat) : Strand :=
  if k < t.pend.length then { t with pend := spoil core n t.pend k }
  else
    let r := t.frames.foldl (fun (a : List TrapFrame × Nat) f =>
      (a.1 ++ [if a.2 < f.pend.length then { f with pend := spoil core n f.pend a.2 } else f], a.2 - f.pend.length)) ([], k - t.pend.length)
    { t with frames := r.1 }

/-- An element of a list, struck. -/
def strikeAt {α : Type} (f : α → α) (l : List α) (i : Nat) : List α := l.zipIdx.map fun e => if e.2 = i then f e.1 else e.1

/-- An uncorrectable word of a stream register lies in the element that the word belongs to, counted from the head: 2 words an element
of st0 to st7 in group 0, 16 words an element of vs0 to vs3 in group 1. A word of no element holds nothing (R89, R149, R356). -/
def Strand.spoilStream (t : Strand) (p : Place) : Strand :=
  if p.group = 0 then
    let k := p.index / 32 % 8
    { t with streams := put [] t.streams k (strikeAt (fun e : Elem => { e with bad := true }) (t.stream k) (p.index % 32 / 2)) }
  else
    let k := p.index / 1024 % 4
    { t with vstreams := put [] t.vstreams k (strikeAt (fun e : VElem => { e with bad := true }) (t.vstream k) (p.index % 1024 / 16)) }

/-- An error in a shadow line that holds part of an image makes its team LOST: a corrupt image is never resumed (R388, R391). -/
def State.poisonShadow (s : State) (p : Place) : State :=
  match s.shadowAt p with
  | none => s
  | some x => s.loseTeam (coreDie p.core) x.1 0x15

/-- The bytes of a team's save in its save area, from the area's first byte on (log 18): its images, after a forced pre-emption
all that was spilled (R382, R384, R385). -/
def Team.savedBytes (m : Team) : Nat :=
  if m.spilled then spilledBytes m.saved else (m.saved.map fun v => v.imageBytes).sum

/-- An address lies in the save of a team that is out. While shadow SRAM drains, the image is still there (R382). -/
def State.inSave (s : State) (d t pa : Nat) : Bool :=
  let m := s.team d t
  (m.st == 1 || m.st == 2 || m.st == 3 || m.st == 8) && ((s.die d).shadowOf m.part).draining != some t
    && 65536 * m.sbase.toNat ≤ pa && pa < 65536 * m.sbase.toNat + m.savedBytes

/-- An error in a line of HBM: the line is poisoned, and a team whose save it belongs to is LOST (R348, R388). -/
def State.poisonHbm (s : State) (pa : Nat) : State :=
  let lost := s.dies.flatMap fun k => (k.2.teams.filter fun t => s.inSave k.1 t.1 pa).map fun t => (k.1, t.1)
  lost.foldl (fun s x => s.loseTeam x.1 x.2 0x15) { s with hbmPoison := insertNat (pa / 64 * 64) s.hbmPoison }

/-- Eddy work that has still to read marked data carries the mark to its end (R238, R348). -/
def EddyWork.spoil (w : EddyWork) : EddyWork :=
  let marked := fun t : Tri => { t with poison := true }
  { w with mark := true, value := w.value.map marked, steps := w.steps.map marked }

/-- An error in a triangular file marks it, and the work that has still to read it (R238, R348). -/
def Core.poisonFile (k : Core) (f : Nat) : Core :=
  { k with
    tris := ins k.tris f { look Tri.reset k.tris f with poison := true }
    eddy := k.eddy.map fun w => if w.readFile = some f ∧ k.eddyTime < w.readFileUntil then w.spoil else w }

/-- An error in a line of the pool marks it, and the Eddy work that has still to read it (R238, R348). -/
def Core.poisonLine (k : Core) (line : Nat) : Core :=
  { k with
    poolPoison := insertNat line k.poolPoison
    eddy := k.eddy.map fun w => if w.readLines.any (fun l => k.eddyTime < l.2 && l.1 == line) then w.spoil else w }

/-- A slot of a port's staging with an error marks its chunk (R348; log 18). -/
def State.poisonChunk (s : State) (p : Place) : State :=
  (s.slotHolders p).foldl (fun s x => s.modTile (coreDie p.core) x.1 x.2 fun e =>
    { e with held := e.held.map fun h => if h.slots.contains p.index then { h with mark := true } else h }) s

/-- A line of held-store staging with an error is poisoned. -/
def State.poisonHeld (s : State) (p : Place) : State :=
  s.modDie (coreDie p.core) fun k =>
    { k with staging := k.staging.zipIdx.map fun l => if l.2 = p.index then { l.1 with mark := true } else l.1 }

/-- What an uncorrectable error does to its place (R348, R356). -/
def State.strike (s : State) (p : Place) : State :=
  match p.kind with
  | .hbmLine => s.poisonHbm p.index
  | .poolLine => s.modCore p.core fun k => k.poisonLine (p.index / 64 * 64)
  | .scaleWord => s.modCore p.core fun k => { k with scaleMarks := insertNat p.index k.scaleMarks }
  | .fileWord => s.modCore p.core fun k => k.poisonFile p.index
  | .shadowLine => s.poisonShadow p
  | .portStaging => s.poisonChunk p
  | .heldStaging => s.poisonHeld p
  | .shared => s
  | .latch => s.modStrand p.core p.strand fun t => t.spoilLatch p.core p.strand p.index
  | .streamReg => s.modStrand p.core p.strand fun t => t.spoilStream p
  | _ => s.modStrand p.core p.strand fun t => { t with bad := p :: t.bad.filter (· != p) }

/-- The place exists on the package. -/
def placeExists (p : Place) : Bool :=
  p.core < 1024 && p.strand < 4 &&
  (match p.kind with
    | .hbmLine => p.index < 412316860416
    | .poolLine => p.index < 4194304
    | .shadowLine => p.index < 1048576
    | .portStaging => p.group < 3 && p.index < stagingSlots
    | .heldStaging => p.index < 262144
    | .scaleWord => p.index < 64
    | .fileWord => p.index < 4
    | .scalarReg => p.index < 56
    | .vectorReg => p.group < 8
    | .predicateReg => p.group < 8 && p.index < 16
    | _ => true)

/-- ECC_UNCORRECTABLE (R348, R356). -/
def execEccUncorrectable (p : Place) (s : State) : Out :=
  if placeExists p then .next ((s.countError p (2 * placeGroup p.kind + 1)).strike p) else .next s

/-- A single-bit error of a register of the running strand is corrected by a read, which costs a cycle on the frost line, or by
the scrubber, which delays nothing: a free choice (R95, R356, R357). -/
def State.replay (s : State) (p : Place) : State :=
  if placeGroup p.kind = 0 ∧ (s.core p.core).running = some p.strand then
    if s.draw.1 % 2 = 0 then s.draw.2.modCore p.core fun k => { k with stall := k.stall + 1 } else s.draw.2
  else s

/-- SCRUB (R356, R357): a single-bit error is corrected in place and counted; an uncorrectable word is marked. -/
def execScrub (p : Place) (correctable : Bool) (s : State) : Out :=
  if !placeExists p then .next s
  else if correctable then .next ((s.replay p).countError p (2 * placeGroup p.kind))
  else .next ((s.countError p (2 * placeGroup p.kind + 1)).strike p)

/-! ## A bundle that cannot be taken (R32, R34, R35, R424) -/

/-- ILLEGAL_ENCODING (R35): a reserved syllable in a slot, or with slot 16 a malformed header or a clear start bit. -/
def execIllegalEncoding (slot : BitVec 5) (w : Word32) (s : State) : Out :=
  let s := { s with issue := { s.issue with slot := slot.toNat } }
  .next (s.refuse (.fault illegalCode 0 (zext64 w) 0 0 true))

/-- BUNDLE_FETCH_FAULT (R424): raised at the target, with EPC and FINFO the bundle address, FMASK the header bit, LEN 0. -/
def execBundleFetchFault (cause reason : BitVec 8) (addr : Word) (s : State) : Out :=
  .next (s.takeTrap s.issue.core s.issue.strand (causeWord cause.toNat reason.toNat 16 0 0 0) (BitVec.ofNat 17 (2 ^ 16)) addr
    (addr.setWidth 42))

end Sys2Proof.Machine
end

