-- ==== Sys2Proof/Machine/VectorOps.lean ====
section
/-!
DEFINITION. The vector syllables (R156 to R189): one meaning each over a block, a compare or a predicate operation.
-/

set_option Elab.async false
namespace Sys2Proof.Machine

/-- VADD (R165). -/
def execVadd (f : BitVec 3) (m : Bool) (d : BitVec 7) (a : BitVec 7) (b : BitVec 7) (s : State) : Out :=
  vector (.vadd f m d a b) s
/-- VSUB (R165). -/
def execVsub (f : BitVec 3) (m : Bool) (d : BitVec 7) (a : BitVec 7) (b : BitVec 7) (s : State) : Out :=
  vector (.vsub f m d a b) s
/-- VMUL (R165). -/
def execVmul (f : BitVec 3) (m : Bool) (d : BitVec 7) (a : BitVec 7) (b : BitVec 7) (s : State) : Out :=
  vector (.vmul f m d a b) s
/-- VFMA (R165). -/
def execVfma (f : BitVec 3) (m : Bool) (d : BitVec 7) (a : BitVec 7) (b : BitVec 7) (s : State) : Out :=
  vector (.vfma f m d a b) s
/-- VFMS (R165). -/
def execVfms (f : BitVec 3) (m : Bool) (d : BitVec 7) (a : BitVec 7) (b : BitVec 7) (s : State) : Out :=
  vector (.vfms f m d a b) s
/-- VMIN (R165). -/
def execVmin (f : BitVec 3) (m : Bool) (d : BitVec 7) (a : BitVec 7) (b : BitVec 7) (s : State) : Out :=
  vector (.vmin f m d a b) s
/-- VMAX (R165). -/
def execVmax (f : BitVec 3) (m : Bool) (d : BitVec 7) (a : BitVec 7) (b : BitVec 7) (s : State) : Out :=
  vector (.vmax f m d a b) s
/-- VABS (R165). -/
def execVabs (f : BitVec 3) (m : Bool) (d : BitVec 7) (a : BitVec 7) (s : State) : Out := vector (.vabs f m d a) s
/-- VNEG (R165). -/
def execVneg (f : BitVec 3) (m : Bool) (d : BitVec 7) (a : BitVec 7) (s : State) : Out := vector (.vneg f m d a) s
/-- VDIV (R165). -/
def execVdiv (f : BitVec 3) (m : Bool) (d : BitVec 7) (a : BitVec 7) (b : BitVec 7) (s : State) : Out :=
  vector (.vdiv f m d a b) s
/-- VSQRT (R165). -/
def execVsqrt (f : BitVec 3) (m : Bool) (d : BitVec 7) (a : BitVec 7) (s : State) : Out := vector (.vsqrt f m d a) s
/-- VAND (R165). -/
def execVand (f : BitVec 3) (m : Bool) (d : BitVec 7) (a : BitVec 7) (b : BitVec 7) (s : State) : Out :=
  vector (.vand f m d a b) s
/-- VOR (R165). -/
def execVor (f : BitVec 3) (m : Bool) (d : BitVec 7) (a : BitVec 7) (b : BitVec 7) (s : State) : Out :=
  vector (.vor f m d a b) s
/-- VXOR (R165). -/
def execVxor (f : BitVec 3) (m : Bool) (d : BitVec 7) (a : BitVec 7) (b : BitVec 7) (s : State) : Out :=
  vector (.vxor f m d a b) s
/-- VNOT (R165). -/
def execVnot (f : BitVec 3) (m : Bool) (d : BitVec 7) (a : BitVec 7) (s : State) : Out := vector (.vnot f m d a) s
/-- VSHL (R165). -/
def execVshl (f : BitVec 3) (m : Bool) (d : BitVec 7) (a : BitVec 7) (b : BitVec 7) (s : State) : Out :=
  vector (.vshl f m d a b) s
/-- VSHR (R165). -/
def execVshr (f : BitVec 3) (m : Bool) (d : BitVec 7) (a : BitVec 7) (b : BitVec 7) (s : State) : Out :=
  vector (.vshr f m d a b) s
/-- VSAR (R165). -/
def execVsar (f : BitVec 3) (m : Bool) (d : BitVec 7) (a : BitVec 7) (b : BitVec 7) (s : State) : Out :=
  vector (.vsar f m d a b) s
/-- VMOV (R165). -/
def execVmov (f : BitVec 3) (m : Bool) (d : BitVec 7) (a : BitVec 7) (s : State) : Out := vector (.vmov f m d a) s
/-- VMOVI (R166). -/
def execVmovi (f : BitVec 3) (m : Bool) (d : BitVec 7) (i : BitVec 14) (s : State) : Out := vector (.vmovi f m d i) s
/-- VFLOOR (R165). -/
def execVfloor (f : BitVec 3) (m : Bool) (d : BitVec 7) (a : BitVec 7) (s : State) : Out := vector (.vfloor f m d a) s
/-- VCLASS (R167). -/
def execVclass (f : BitVec 3) (m : Bool) (d : BitVec 7) (a : BitVec 7) (s : State) : Out := vector (.vclass f m d a) s
/-- VADDS (R165). -/
def execVadds (f : BitVec 3) (m : Bool) (d : BitVec 7) (a : BitVec 7) (b : BitVec 7) (s : State) : Out :=
  vector (.vadds f m d a b) s
/-- VCEQ (R168). -/
def execVceq (f : BitVec 3) (m : Bool) (p : BitVec 3) (a : BitVec 7) (b : BitVec 7) (s : State) : Out :=
  compare (.vceq f m p a b) s
/-- VCLT (R168). -/
def execVclt (f : BitVec 3) (m : Bool) (p : BitVec 3) (a : BitVec 7) (b : BitVec 7) (s : State) : Out :=
  compare (.vclt f m p a b) s
/-- VCLE (R168). -/
def execVcle (f : BitVec 3) (m : Bool) (p : BitVec 3) (a : BitVec 7) (b : BitVec 7) (s : State) : Out :=
  compare (.vcle f m p a b) s
/-- VSEL (R169). -/
def execVsel (f : BitVec 3) (d : BitVec 7) (a : BitVec 7) (b : BitVec 7) (s : State) : Out := vector (.vsel f d a b) s
/-- PAND (R170). -/
def execPand (d : BitVec 3) (a : BitVec 3) (b : BitVec 3) (s : State) : Out := predicate (.pand d a b) (· &&& ·) true s
/-- POR (R170). -/
def execPor (d : BitVec 3) (a : BitVec 3) (b : BitVec 3) (s : State) : Out := predicate (.por d a b) (· ||| ·) true s
/-- PNOT (R170). -/
def execPnot (d : BitVec 3) (a : BitVec 3) (s : State) : Out := predicate (.pnot d a) (fun x _ => ~~~x) false s
/-- PMOV (R170). -/
def execPmov (d : BitVec 3) (a : BitVec 3) (s : State) : Out := predicate (.pmov d a) (fun x _ => x) false s
/-- VCVT (R172). -/
def execVcvt (f : BitVec 3) (d : BitVec 7) (a : BitVec 7) (n : BitVec 4) (s : State) : Out := vector (.vcvt f d a n) s
/-- VQUANT (R173). -/
def execVquant (f : BitVec 3) (d : BitVec 7) (a : BitVec 7) (n : BitVec 4) (s : State) : Out := vector (.vquant f d a n) s
/-- VDEQ (R174). -/
def execVdeq (f : BitVec 3) (d : BitVec 7) (a : BitVec 7) (n : BitVec 4) (s : State) : Out := vector (.vdeq f d a n) s
/-- VPACK (R172). -/
def execVpack (f : BitVec 3) (d : BitVec 7) (a : BitVec 7) (n : BitVec 4) (s : State) : Out := vector (.vpack f d a n) s
/-- VUNPK (R172). -/
def execVunpk (f : BitVec 3) (d : BitVec 7) (a : BitVec 7) (n : BitVec 4) (s : State) : Out := vector (.vunpk f d a n) s
/-- VRSUM (R175). -/
def execVrsum (f : BitVec 3) (m : Bool) (d : BitVec 7) (a : BitVec 7) (s : State) : Out := vector (.vrsum f m d a) s
/-- VRMAX (R175). -/
def execVrmax (f : BitVec 3) (m : Bool) (d : BitVec 7) (a : BitVec 7) (s : State) : Out := vector (.vrmax f m d a) s
/-- VRMIN (R175). -/
def execVrmin (f : BitVec 3) (m : Bool) (d : BitVec 7) (a : BitVec 7) (s : State) : Out := vector (.vrmin f m d a) s
/-- VSCAN (R176). -/
def execVscan (f : BitVec 3) (m : Bool) (d : BitVec 7) (a : BitVec 7) (s : State) : Out := vector (.vscan f m d a) s
/-- VPERM (R177). -/
def execVperm (f : BitVec 3) (m : Bool) (d : BitVec 7) (a : BitVec 7) (b : BitVec 7) (s : State) : Out :=
  vector (.vperm f m d a b) s
/-- VXFER (R181). -/
def execVxfer (d : BitVec 7) (a : BitVec 7) (k : BitVec 3) (s : State) : Out := vector (.vxfer d a k) s
/-- VBCAST (R178). -/
def execVbcast (f : BitVec 3) (m : Bool) (d : BitVec 7) (a : BitVec 7) (k : BitVec 6) (s : State) : Out :=
  vector (.vbcast f m d a k) s
/-- VEXTR (R179). -/
def execVextr (f : BitVec 3) (d : BitVec 7) (a : BitVec 7) (k : BitVec 6) (s : State) : Out := vector (.vextr f d a k) s
/-- VIOTA (R180). -/
def execViota (f : BitVec 3) (m : Bool) (d : BitVec 7) (s : State) : Out := vector (.viota f m d) s
/-- VRCP (R186). -/
def execVrcp (f : BitVec 3) (m : Bool) (d : BitVec 7) (a : BitVec 7) (s : State) : Out := vector (.vrcp f m d a) s
/-- VRSQRT (R186). -/
def execVrsqrt (f : BitVec 3) (m : Bool) (d : BitVec 7) (a : BitVec 7) (s : State) : Out := vector (.vrsqrt f m d a) s
/-- VEXP2 (R186). -/
def execVexp2 (f : BitVec 3) (m : Bool) (d : BitVec 7) (a : BitVec 7) (s : State) : Out := vector (.vexp2 f m d a) s
/-- VLOG2 (R186). -/
def execVlog2 (f : BitVec 3) (m : Bool) (d : BitVec 7) (a : BitVec 7) (s : State) : Out := vector (.vlog2 f m d a) s
/-- VEXP (R186). -/
def execVexp (f : BitVec 3) (m : Bool) (d : BitVec 7) (a : BitVec 7) (s : State) : Out := vector (.vexp f m d a) s
/-- VLOG (R186). -/
def execVlog (f : BitVec 3) (m : Bool) (d : BitVec 7) (a : BitVec 7) (s : State) : Out := vector (.vlog f m d a) s
/-- VSIN (R186). -/
def execVsin (f : BitVec 3) (m : Bool) (d : BitVec 7) (a : BitVec 7) (s : State) : Out := vector (.vsin f m d a) s
/-- VCOS (R186). -/
def execVcos (f : BitVec 3) (m : Bool) (d : BitVec 7) (a : BitVec 7) (s : State) : Out := vector (.vcos f m d a) s
/-- VTANH (R186). -/
def execVtanh (f : BitVec 3) (m : Bool) (d : BitVec 7) (a : BitVec 7) (s : State) : Out := vector (.vtanh f m d a) s
/-- VERF (R186). -/
def execVerf (f : BitVec 3) (m : Bool) (d : BitVec 7) (a : BitVec 7) (s : State) : Out := vector (.verf f m d a) s
/-- VSIGM (R186). -/
def execVsigm (f : BitVec 3) (m : Bool) (d : BitVec 7) (a : BitVec 7) (s : State) : Out := vector (.vsigm f m d a) s

end Sys2Proof.Machine
end

