-- ==== Sys2Proof/Machine/Window.lean ====
section
/-!
DEFINITION. VWIN, VSHAPE and VMODE (R154): the window base, the shape and the mode predicate of the selected lane groups,
each written with latency 1.
-/

set_option Elab.async false
namespace Sys2Proof.Machine

/-- The lane groups that a[3:0] selects: all eight, or one. -/
def selectedGroups (l : Bool) (k : BitVec 3) : List Nat := if l then List.range 8 else [k.toNat]

/-- One result of latency 1 for each selected lane group. -/
def State.laneResults (s : State) (l : Bool) (k : BitVec 3) (w : Nat → Write) (mark : Bool := false) : State :=
  (selectedGroups l k).foldl (fun s g => s.result 1 (w g) mark) s

/-- VWIN: WB := (xa + zext(imm14)) mod N, exactly (R7): the sum does not wrap at 2^64. -/
def execVwin (l : Bool) (k : BitVec 3) (a : BitVec 6) (i : BitVec 14) (s : State) : Out :=
  issuePlain (.vwin l k a i) s fun s =>
    let p := s.src a
    let wb := (p.1.1.toNat + i.toNat) % p.2.regCount
    p.2.laneResults l k (fun g => .window g wb) p.1.2

/-- VSHAPE: 1 to 16 rows, 1 to 32 columns; a shape of more than 64 registers is no encoding. -/
def execVshape (l : Bool) (k : BitVec 3) (r : BitVec 4) (c : BitVec 5) (s : State) : Out :=
  issuePlain (.vshape l k r c) s fun s => s.laneResults l k fun g => .shape g (r.toNat + 1) (c.toNat + 1)

/-- VMODE: the mode predicate. -/
def execVmode (l : Bool) (k : BitVec 3) (p : BitVec 3) (s : State) : Out :=
  issuePlain (.vmode l k p) s fun s => s.laneResults l k fun g => .vmode g p.toNat

end Sys2Proof.Machine
end

