-- ==== Sys2Proof/Machine/Dispatch.lean ====
section
/-!
DEFINITION. One arm per row of the opcode table: each calls its instruction's meaning.
-/
namespace Sys2Proof.Machine

def exec (i : Instr) (s : State) : Host.Outcome State Fault Refusal :=
  match i with
  | .nop v1 v2 => Sys2Proof.Machine.execNop v1 v2 s
  | .add v1 v2 v3 => Sys2Proof.Machine.execAdd v1 v2 v3 s
  | .sub v1 v2 v3 => Sys2Proof.Machine.execSub v1 v2 v3 s
  | .mul v1 v2 v3 => Sys2Proof.Machine.execMul v1 v2 v3 s
  | .mulh v1 v2 v3 v4 => Sys2Proof.Machine.execMulh v1 v2 v3 v4 s
  | .div v1 v2 v3 v4 => Sys2Proof.Machine.execDiv v1 v2 v3 v4 s
  | .rem v1 v2 v3 v4 => Sys2Proof.Machine.execRem v1 v2 v3 v4 s
  | .and v1 v2 v3 => Sys2Proof.Machine.execAnd v1 v2 v3 s
  | .or v1 v2 v3 => Sys2Proof.Machine.execOr v1 v2 v3 s
  | .xor v1 v2 v3 => Sys2Proof.Machine.execXor v1 v2 v3 s
  | .shl v1 v2 v3 => Sys2Proof.Machine.execShl v1 v2 v3 s
  | .shr v1 v2 v3 => Sys2Proof.Machine.execShr v1 v2 v3 s
  | .sar v1 v2 v3 => Sys2Proof.Machine.execSar v1 v2 v3 s
  | .slt v1 v2 v3 v4 => Sys2Proof.Machine.execSlt v1 v2 v3 v4 s
  | .seq v1 v2 v3 => Sys2Proof.Machine.execSeq v1 v2 v3 s
  | .min v1 v2 v3 v4 => Sys2Proof.Machine.execMin v1 v2 v3 v4 s
  | .max v1 v2 v3 v4 => Sys2Proof.Machine.execMax v1 v2 v3 v4 s
  | .sel v1 v2 v3 => Sys2Proof.Machine.execSel v1 v2 v3 s
  | .clz v1 v2 => Sys2Proof.Machine.execClz v1 v2 s
  | .ctz v1 v2 => Sys2Proof.Machine.execCtz v1 v2 s
  | .popc v1 v2 => Sys2Proof.Machine.execPopc v1 v2 s
  | .brev v1 v2 => Sys2Proof.Machine.execBrev v1 v2 s
  | .peek v1 v2 => Sys2Proof.Machine.execPeek v1 v2 s
  | .bfx v1 v2 v3 v4 => Sys2Proof.Machine.execBfx v1 v2 v3 v4 s
  | .bfi v1 v2 v3 v4 => Sys2Proof.Machine.execBfi v1 v2 v3 v4 s
  | .agen v1 v2 v3 v4 => Sys2Proof.Machine.execAgen v1 v2 v3 v4 s
  | .addi v1 v2 v3 => Sys2Proof.Machine.execAddi v1 v2 v3 s
  | .andi v1 v2 v3 => Sys2Proof.Machine.execAndi v1 v2 v3 s
  | .ori v1 v2 v3 => Sys2Proof.Machine.execOri v1 v2 v3 s
  | .xori v1 v2 v3 => Sys2Proof.Machine.execXori v1 v2 v3 s
  | .shli v1 v2 v3 => Sys2Proof.Machine.execShli v1 v2 v3 s
  | .shri v1 v2 v3 => Sys2Proof.Machine.execShri v1 v2 v3 s
  | .sari v1 v2 v3 => Sys2Proof.Machine.execSari v1 v2 v3 s
  | .slti v1 v2 v3 => Sys2Proof.Machine.execSlti v1 v2 v3 s
  | .movi v1 v2 => Sys2Proof.Machine.execMovi v1 v2 s
  | .movhi v1 v2 => Sys2Proof.Machine.execMovhi v1 v2 s
  | .movhh v1 v2 => Sys2Proof.Machine.execMovhh v1 v2 s
  | .fadd v1 v2 v3 v4 v5 => Sys2Proof.Machine.execFadd v1 v2 v3 v4 v5 s
  | .fsub v1 v2 v3 v4 v5 => Sys2Proof.Machine.execFsub v1 v2 v3 v4 v5 s
  | .fmul v1 v2 v3 v4 v5 => Sys2Proof.Machine.execFmul v1 v2 v3 v4 v5 s
  | .fdiv v1 v2 v3 v4 v5 => Sys2Proof.Machine.execFdiv v1 v2 v3 v4 v5 s
  | .fmin v1 v2 v3 v4 v5 => Sys2Proof.Machine.execFmin v1 v2 v3 v4 v5 s
  | .fmax v1 v2 v3 v4 v5 => Sys2Proof.Machine.execFmax v1 v2 v3 v4 v5 s
  | .fsqrt v1 v2 v3 v4 => Sys2Proof.Machine.execFsqrt v1 v2 v3 v4 s
  | .ffma v1 v2 v3 v4 v5 => Sys2Proof.Machine.execFfma v1 v2 v3 v4 v5 s
  | .fcvt v1 v2 v3 v4 v5 => Sys2Proof.Machine.execFcvt v1 v2 v3 v4 v5 s
  | .fcmp v1 v2 v3 v4 v5 => Sys2Proof.Machine.execFcmp v1 v2 v3 v4 v5 s
  | .br v1 v2 v3 v4 => Sys2Proof.Machine.execBr v1 v2 v3 v4 s
  | .bz v1 v2 => Sys2Proof.Machine.execBz v1 v2 s
  | .bnz v1 v2 => Sys2Proof.Machine.execBnz v1 v2 s
  | .jmp v1 => Sys2Proof.Machine.execJmp v1 s
  | .call v1 => Sys2Proof.Machine.execCall v1 s
  | .jr v1 v2 => Sys2Proof.Machine.execJr v1 v2 s
  | .jrl v1 v2 v3 => Sys2Proof.Machine.execJrl v1 v2 v3 s
  | .loop v1 v2 => Sys2Proof.Machine.execLoop v1 v2 s
  | .yield => Sys2Proof.Machine.execYield s
  | .endk => Sys2Proof.Machine.execEndk s
  | .trap v1 => Sys2Proof.Machine.execTrap v1 s
  | .cmpt v1 v2 v3 => Sys2Proof.Machine.execCmpt v1 v2 v3 s
  | .chkerr v1 v2 v3 => Sys2Proof.Machine.execChkerr v1 v2 v3 s
  | .spinw v1 v2 v3 => Sys2Proof.Machine.execSpinw v1 v2 v3 s
  | .spinwReread v1 v2 => Sys2Proof.Machine.execSpinwReread v1 v2 s
  | .mfc v1 v2 => Sys2Proof.Machine.execMfc v1 v2 s
  | .mtc v1 v2 => Sys2Proof.Machine.execMtc v1 v2 s
  | .eret => Sys2Proof.Machine.execEret s
  | .launch v1 v2 => Sys2Proof.Machine.execLaunch v1 v2 s
  | .nodeStrandStart v1 => Sys2Proof.Machine.execNodeStrandStart v1 s
  | .tkwait v1 v2 => Sys2Proof.Machine.execTkwait v1 v2 s
  | .tktest v1 v2 => Sys2Proof.Machine.execTktest v1 v2 s
  | .phaseBegin v1 v2 => Sys2Proof.Machine.execPhaseBegin v1 v2 s
  | .phaseCommit => Sys2Proof.Machine.execPhaseCommit s
  | .qwait v1 v2 => Sys2Proof.Machine.execQwait v1 v2 s
  | .ldb v1 v2 v3 => Sys2Proof.Machine.execLdb v1 v2 v3 s
  | .ldbu v1 v2 v3 => Sys2Proof.Machine.execLdbu v1 v2 v3 s
  | .ldh v1 v2 v3 => Sys2Proof.Machine.execLdh v1 v2 v3 s
  | .ldhu v1 v2 v3 => Sys2Proof.Machine.execLdhu v1 v2 v3 s
  | .ldw v1 v2 v3 => Sys2Proof.Machine.execLdw v1 v2 v3 s
  | .ldwu v1 v2 v3 => Sys2Proof.Machine.execLdwu v1 v2 v3 s
  | .ldd v1 v2 v3 => Sys2Proof.Machine.execLdd v1 v2 v3 s
  | .stb v1 v2 v3 v4 => Sys2Proof.Machine.execStb v1 v2 v3 v4 s
  | .sth v1 v2 v3 v4 => Sys2Proof.Machine.execSth v1 v2 v3 v4 s
  | .stw v1 v2 v3 v4 => Sys2Proof.Machine.execStw v1 v2 v3 v4 s
  | .std v1 v2 v3 v4 => Sys2Proof.Machine.execStd v1 v2 v3 v4 s
  | .vld v1 v2 v3 v4 => Sys2Proof.Machine.execVld v1 v2 v3 v4 s
  | .vst v1 v2 v3 v4 => Sys2Proof.Machine.execVst v1 v2 v3 v4 s
  | .vlds v1 v2 v3 v4 => Sys2Proof.Machine.execVlds v1 v2 v3 v4 s
  | .vsts v1 v2 v3 v4 => Sys2Proof.Machine.execVsts v1 v2 v3 v4 s
  | .vgather v1 v2 v3 v4 v5 => Sys2Proof.Machine.execVgather v1 v2 v3 v4 v5 s
  | .vgatherAll v1 v2 v3 v4 => Sys2Proof.Machine.execVgatherAll v1 v2 v3 v4 s
  | .vscatter v1 v2 v3 v4 v5 => Sys2Proof.Machine.execVscatter v1 v2 v3 v4 v5 s
  | .vscatterAll v1 v2 v3 v4 => Sys2Proof.Machine.execVscatterAll v1 v2 v3 v4 s
  | .vpop v1 v2 v3 => Sys2Proof.Machine.execVpop v1 v2 v3 s
  | .drain => Sys2Proof.Machine.execDrain s
  | .fence v1 => Sys2Proof.Machine.execFence v1 s
  | .vadd v1 v2 v3 v4 v5 => Sys2Proof.Machine.execVadd v1 v2 v3 v4 v5 s
  | .vsub v1 v2 v3 v4 v5 => Sys2Proof.Machine.execVsub v1 v2 v3 v4 v5 s
  | .vmul v1 v2 v3 v4 v5 => Sys2Proof.Machine.execVmul v1 v2 v3 v4 v5 s
  | .vfma v1 v2 v3 v4 v5 => Sys2Proof.Machine.execVfma v1 v2 v3 v4 v5 s
  | .vfms v1 v2 v3 v4 v5 => Sys2Proof.Machine.execVfms v1 v2 v3 v4 v5 s
  | .vmin v1 v2 v3 v4 v5 => Sys2Proof.Machine.execVmin v1 v2 v3 v4 v5 s
  | .vmax v1 v2 v3 v4 v5 => Sys2Proof.Machine.execVmax v1 v2 v3 v4 v5 s
  | .vabs v1 v2 v3 v4 => Sys2Proof.Machine.execVabs v1 v2 v3 v4 s
  | .vneg v1 v2 v3 v4 => Sys2Proof.Machine.execVneg v1 v2 v3 v4 s
  | .vdiv v1 v2 v3 v4 v5 => Sys2Proof.Machine.execVdiv v1 v2 v3 v4 v5 s
  | .vsqrt v1 v2 v3 v4 => Sys2Proof.Machine.execVsqrt v1 v2 v3 v4 s
  | .vand v1 v2 v3 v4 v5 => Sys2Proof.Machine.execVand v1 v2 v3 v4 v5 s
  | .vor v1 v2 v3 v4 v5 => Sys2Proof.Machine.execVor v1 v2 v3 v4 v5 s
  | .vxor v1 v2 v3 v4 v5 => Sys2Proof.Machine.execVxor v1 v2 v3 v4 v5 s
  | .vnot v1 v2 v3 v4 => Sys2Proof.Machine.execVnot v1 v2 v3 v4 s
  | .vshl v1 v2 v3 v4 v5 => Sys2Proof.Machine.execVshl v1 v2 v3 v4 v5 s
  | .vshr v1 v2 v3 v4 v5 => Sys2Proof.Machine.execVshr v1 v2 v3 v4 v5 s
  | .vsar v1 v2 v3 v4 v5 => Sys2Proof.Machine.execVsar v1 v2 v3 v4 v5 s
  | .vmov v1 v2 v3 v4 => Sys2Proof.Machine.execVmov v1 v2 v3 v4 s
  | .vmovi v1 v2 v3 v4 => Sys2Proof.Machine.execVmovi v1 v2 v3 v4 s
  | .vfloor v1 v2 v3 v4 => Sys2Proof.Machine.execVfloor v1 v2 v3 v4 s
  | .vclass v1 v2 v3 v4 => Sys2Proof.Machine.execVclass v1 v2 v3 v4 s
  | .vadds v1 v2 v3 v4 v5 => Sys2Proof.Machine.execVadds v1 v2 v3 v4 v5 s
  | .vceq v1 v2 v3 v4 v5 => Sys2Proof.Machine.execVceq v1 v2 v3 v4 v5 s
  | .vclt v1 v2 v3 v4 v5 => Sys2Proof.Machine.execVclt v1 v2 v3 v4 v5 s
  | .vcle v1 v2 v3 v4 v5 => Sys2Proof.Machine.execVcle v1 v2 v3 v4 v5 s
  | .vsel v1 v2 v3 v4 => Sys2Proof.Machine.execVsel v1 v2 v3 v4 s
  | .pand v1 v2 v3 => Sys2Proof.Machine.execPand v1 v2 v3 s
  | .por v1 v2 v3 => Sys2Proof.Machine.execPor v1 v2 v3 s
  | .pnot v1 v2 => Sys2Proof.Machine.execPnot v1 v2 s
  | .pmov v1 v2 => Sys2Proof.Machine.execPmov v1 v2 s
  | .vcvt v1 v2 v3 v4 => Sys2Proof.Machine.execVcvt v1 v2 v3 v4 s
  | .vquant v1 v2 v3 v4 => Sys2Proof.Machine.execVquant v1 v2 v3 v4 s
  | .vdeq v1 v2 v3 v4 => Sys2Proof.Machine.execVdeq v1 v2 v3 v4 s
  | .vpack v1 v2 v3 v4 => Sys2Proof.Machine.execVpack v1 v2 v3 v4 s
  | .vunpk v1 v2 v3 v4 => Sys2Proof.Machine.execVunpk v1 v2 v3 v4 s
  | .vrsum v1 v2 v3 v4 => Sys2Proof.Machine.execVrsum v1 v2 v3 v4 s
  | .vrmax v1 v2 v3 v4 => Sys2Proof.Machine.execVrmax v1 v2 v3 v4 s
  | .vrmin v1 v2 v3 v4 => Sys2Proof.Machine.execVrmin v1 v2 v3 v4 s
  | .vscan v1 v2 v3 v4 => Sys2Proof.Machine.execVscan v1 v2 v3 v4 s
  | .vperm v1 v2 v3 v4 v5 => Sys2Proof.Machine.execVperm v1 v2 v3 v4 v5 s
  | .vxfer v1 v2 v3 => Sys2Proof.Machine.execVxfer v1 v2 v3 s
  | .vbcast v1 v2 v3 v4 v5 => Sys2Proof.Machine.execVbcast v1 v2 v3 v4 v5 s
  | .vextr v1 v2 v3 v4 => Sys2Proof.Machine.execVextr v1 v2 v3 v4 s
  | .viota v1 v2 v3 => Sys2Proof.Machine.execViota v1 v2 v3 s
  | .vrcp v1 v2 v3 v4 => Sys2Proof.Machine.execVrcp v1 v2 v3 v4 s
  | .vrsqrt v1 v2 v3 v4 => Sys2Proof.Machine.execVrsqrt v1 v2 v3 v4 s
  | .vexp2 v1 v2 v3 v4 => Sys2Proof.Machine.execVexp2 v1 v2 v3 v4 s
  | .vlog2 v1 v2 v3 v4 => Sys2Proof.Machine.execVlog2 v1 v2 v3 v4 s
  | .vexp v1 v2 v3 v4 => Sys2Proof.Machine.execVexp v1 v2 v3 v4 s
  | .vlog v1 v2 v3 v4 => Sys2Proof.Machine.execVlog v1 v2 v3 v4 s
  | .vsin v1 v2 v3 v4 => Sys2Proof.Machine.execVsin v1 v2 v3 v4 s
  | .vcos v1 v2 v3 v4 => Sys2Proof.Machine.execVcos v1 v2 v3 v4 s
  | .vtanh v1 v2 v3 v4 => Sys2Proof.Machine.execVtanh v1 v2 v3 v4 s
  | .verf v1 v2 v3 v4 => Sys2Proof.Machine.execVerf v1 v2 v3 v4 s
  | .vsigm v1 v2 v3 v4 => Sys2Proof.Machine.execVsigm v1 v2 v3 v4 s
  | .mma v1 v2 v3 v4 v5 v6 v7 => Sys2Proof.Machine.execMma v1 v2 v3 v4 v5 v6 v7 s
  | .mmaz v1 v2 v3 v4 v5 v6 v7 => Sys2Proof.Machine.execMmaz v1 v2 v3 v4 v5 v6 v7 s
  | .mmas v1 v2 v3 v4 v5 v6 v7 => Sys2Proof.Machine.execMmas v1 v2 v3 v4 v5 v6 v7 s
  | .mmasz v1 v2 v3 v4 v5 v6 v7 => Sys2Proof.Machine.execMmasz v1 v2 v3 v4 v5 v6 v7 s
  | .matrixSlotWake v1 v2 => Sys2Proof.Machine.execMatrixSlotWake v1 v2 s
  | .mmaResult v1 => Sys2Proof.Machine.execMmaResult v1 s
  | .operandSlotFree v1 v2 => Sys2Proof.Machine.execOperandSlotFree v1 v2 s
  | .oclaim v1 => Sys2Proof.Machine.execOclaim v1 s
  | .orelease v1 => Sys2Proof.Machine.execOrelease v1 s
  | .old v1 v2 v3 v4 => Sys2Proof.Machine.execOld v1 v2 v3 v4 s
  | .aclr v1 => Sys2Proof.Machine.execAclr v1 s
  | .amov v1 v2 v3 => Sys2Proof.Machine.execAmov v1 v2 v3 s
  | .aadd v1 v2 => Sys2Proof.Machine.execAadd v1 v2 s
  | .mgeo v1 => Sys2Proof.Machine.execMgeo v1 s
  | .cyqr v1 v2 v3 v4 => Sys2Proof.Machine.execCyqr v1 v2 v3 v4 s
  | .cyapply v1 v2 v3 v4 v5 => Sys2Proof.Machine.execCyapply v1 v2 v3 v4 v5 s
  | .cygiv v1 v2 v3 => Sys2Proof.Machine.execCygiv v1 v2 v3 s
  | .cyrot v1 v2 v3 => Sys2Proof.Machine.execCyrot v1 v2 v3 s
  | .cyrd v1 v2 v3 v4 => Sys2Proof.Machine.execCyrd v1 v2 v3 v4 s
  | .cywr v1 v2 v3 => Sys2Proof.Machine.execCywr v1 v2 v3 s
  | .cyclr v1 => Sys2Proof.Machine.execCyclr v1 s
  | .cymode v1 v2 => Sys2Proof.Machine.execCymode v1 v2 s
  | .cysolve v1 v2 v3 => Sys2Proof.Machine.execCysolve v1 v2 v3 s
  | .cyang v1 v2 v3 => Sys2Proof.Machine.execCyang v1 v2 v3 s
  | .eset v1 v2 v3 v4 => Sys2Proof.Machine.execEset v1 v2 v3 v4 s
  | .eget v1 v2 v3 => Sys2Proof.Machine.execEget v1 v2 v3 s
  | .cpy v1 v2 v3 => Sys2Proof.Machine.execCpy v1 v2 v3 s
  | .cpyst v1 v2 v3 v4 v5 v6 => Sys2Proof.Machine.execCpyst v1 v2 v3 v4 v5 v6 s
  | .sacc v1 v2 v3 v4 v5 => Sys2Proof.Machine.execSacc v1 v2 v3 v4 v5 s
  | .rcnt v1 v2 v3 => Sys2Proof.Machine.execRcnt v1 v2 v3 s
  | .rsnap v1 v2 v3 => Sys2Proof.Machine.execRsnap v1 v2 v3 s
  | .send v1 v2 v3 v4 v5 => Sys2Proof.Machine.execSend v1 v2 v3 v4 v5 s
  | .ttset v1 v2 => Sys2Proof.Machine.execTtset v1 v2 s
  | .tready v1 v2 => Sys2Proof.Machine.execTready v1 v2 s
  | .trkarm v1 v2 v3 => Sys2Proof.Machine.execTrkarm v1 v2 v3 s
  | .lease v1 v2 => Sys2Proof.Machine.execLease v1 v2 s
  | .unlease v1 v2 => Sys2Proof.Machine.execUnlease v1 v2 s
  | .zip v1 v2 v3 v4 => Sys2Proof.Machine.execZip v1 v2 v3 v4 s
  | .unzip v1 v2 v3 v4 => Sys2Proof.Machine.execUnzip v1 v2 v3 v4 s
  | .repl v1 v2 v3 v4 v5 => Sys2Proof.Machine.execRepl v1 v2 v3 v4 v5 s
  | .qdecl v1 v2 v3 => Sys2Proof.Machine.execQdecl v1 v2 v3 s
  | .qarrive v1 v2 => Sys2Proof.Machine.execQarrive v1 v2 s
  | .qarriveRegister v1 => Sys2Proof.Machine.execQarriveRegister v1 s
  | .qread v1 v2 v3 => Sys2Proof.Machine.execQread v1 v2 v3 s
  | .qreplay v1 v2 v3 => Sys2Proof.Machine.execQreplay v1 v2 v3 s
  | .tsave v1 v2 v3 => Sys2Proof.Machine.execTsave v1 v2 v3 s
  | .tload v1 v2 v3 => Sys2Proof.Machine.execTload v1 v2 v3 s
  | .ecancel v1 => Sys2Proof.Machine.execEcancel v1 s
  | .sld v1 v2 v3 => Sys2Proof.Machine.execSld v1 v2 v3 s
  | .vwin v1 v2 v3 v4 => Sys2Proof.Machine.execVwin v1 v2 v3 v4 s
  | .vshape v1 v2 v3 v4 => Sys2Proof.Machine.execVshape v1 v2 v3 v4 s
  | .vmode v1 v2 v3 => Sys2Proof.Machine.execVmode v1 v2 v3 s
  | .stpop v1 => Sys2Proof.Machine.execStpop v1 s
  | .tkset v1 v2 => Sys2Proof.Machine.execTkset v1 v2 s
  | .lateResult v1 v2 => Sys2Proof.Machine.execLateResult v1 v2 s
  | .frostSwitch v1 => Sys2Proof.Machine.execFrostSwitch v1 s
  | .replicaLockSwitch v1 => Sys2Proof.Machine.execReplicaLockSwitch v1 s
  | .mirrorMismatch v1 v2 v3 v4 => Sys2Proof.Machine.execMirrorMismatch v1 v2 v3 v4 s
  | .strandEnd v1 v2 => Sys2Proof.Machine.execStrandEnd v1 v2 s
  | .engineCommandStart v1 => Sys2Proof.Machine.execEngineCommandStart v1 s
  | .engineCommandDone v1 => Sys2Proof.Machine.execEngineCommandDone v1 s
  | .leaseGrant v1 => Sys2Proof.Machine.execLeaseGrant v1 s
  | .leaseExpiry v1 v2 v3 => Sys2Proof.Machine.execLeaseExpiry v1 v2 v3 s
  | .trackerFire v1 v2 v3 => Sys2Proof.Machine.execTrackerFire v1 v2 v3 s
  | .tileRunEnd v1 v2 v3 => Sys2Proof.Machine.execTileRunEnd v1 v2 v3 s
  | .memWrite v1 => Sys2Proof.Machine.execMemWrite v1 s
  | .poolWrite v1 => Sys2Proof.Machine.execPoolWrite v1 s
  | .streamWrite v1 => Sys2Proof.Machine.execStreamWrite v1 s
  | .chunk v1 => Sys2Proof.Machine.execChunk v1 s
  | .chunkAbort v1 => Sys2Proof.Machine.execChunkAbort v1 s
  | .response v1 => Sys2Proof.Machine.execResponse v1 s
  | .slotRequest v1 => Sys2Proof.Machine.execSlotRequest v1 s
  | .slotAnswer v1 => Sys2Proof.Machine.execSlotAnswer v1 s
  | .noResponse v1 => Sys2Proof.Machine.execNoResponse v1 s
  | .messageRetry v1 => Sys2Proof.Machine.execMessageRetry v1 s
  | .landedStreamApply v1 v2 => Sys2Proof.Machine.execLandedStreamApply v1 v2 s
  | .linkFrame v1 v2 => Sys2Proof.Machine.execLinkFrame v1 v2 s
  | .linkReplay v1 v2 => Sys2Proof.Machine.execLinkReplay v1 v2 s
  | .linkRetrain v1 v2 => Sys2Proof.Machine.execLinkRetrain v1 v2 s
  | .portDown v1 => Sys2Proof.Machine.execPortDown v1 s
  | .epochAutoAdvance v1 => Sys2Proof.Machine.execEpochAutoAdvance v1 s
  | .replicaUpdate v1 => Sys2Proof.Machine.execReplicaUpdate v1 s
  | .gustTick v1 => Sys2Proof.Machine.execGustTick v1 s
  | .lullStep v1 v2 => Sys2Proof.Machine.execLullStep v1 v2 s
  | .windowBoundary v1 => Sys2Proof.Machine.execWindowBoundary v1 s
  | .roundBegin v1 v2 => Sys2Proof.Machine.execRoundBegin v1 v2 s
  | .sliceEnd v1 v2 => Sys2Proof.Machine.execSliceEnd v1 v2 s
  | .teamSelect v1 v2 => Sys2Proof.Machine.execTeamSelect v1 v2 s
  | .cooperativeSwap v1 v2 => Sys2Proof.Machine.execCooperativeSwap v1 v2 s
  | .swapin v1 v2 => Sys2Proof.Machine.execSwapin v1 v2 s
  | .shadowDrain v1 v2 => Sys2Proof.Machine.execShadowDrain v1 v2 s
  | .imageStage v1 v2 => Sys2Proof.Machine.execImageStage v1 v2 s
  | .forcedPreemption v1 v2 => Sys2Proof.Machine.execForcedPreemption v1 v2 s
  | .spillDone v1 v2 v3 => Sys2Proof.Machine.execSpillDone v1 v2 v3 s
  | .preemptWatchdog v1 v2 => Sys2Proof.Machine.execPreemptWatchdog v1 v2 s
  | .waitWatchdog v1 v2 => Sys2Proof.Machine.execWaitWatchdog v1 v2 s
  | .yieldOverdue v1 v2 => Sys2Proof.Machine.execYieldOverdue v1 v2 s
  | .killPoint v1 v2 => Sys2Proof.Machine.execKillPoint v1 v2 s
  | .killLimit v1 v2 => Sys2Proof.Machine.execKillLimit v1 v2 s
  | .eccUncorrectable v1 => Sys2Proof.Machine.execEccUncorrectable v1 s
  | .scrub v1 v2 => Sys2Proof.Machine.execScrub v1 v2 s
  | .scanTest v1 v2 => Sys2Proof.Machine.execScanTest v1 v2 s
  | .scanClaim v1 v2 => Sys2Proof.Machine.execScanClaim v1 v2 s
  | .scanComplete v1 v2 v3 => Sys2Proof.Machine.execScanComplete v1 v2 v3 s
  | .telemetrySample v1 v2 => Sys2Proof.Machine.execTelemetrySample v1 v2 s
  | .deviceReset => Sys2Proof.Machine.execDeviceReset s
  | .partSet v1 => Sys2Proof.Machine.execPartSet v1 s
  | .partDestroy v1 => Sys2Proof.Machine.execPartDestroy v1 s
  | .vfBind v1 => Sys2Proof.Machine.execVfBind v1 s
  | .slotSet v1 => Sys2Proof.Machine.execSlotSet v1 s
  | .teamCreate v1 => Sys2Proof.Machine.execTeamCreate v1 s
  | .teamSet v1 => Sys2Proof.Machine.execTeamSet v1 s
  | .teamStop v1 => Sys2Proof.Machine.execTeamStop v1 s
  | .teamResume v1 => Sys2Proof.Machine.execTeamResume v1 s
  | .teamRestart v1 => Sys2Proof.Machine.execTeamRestart v1 s
  | .teamDestroy v1 => Sys2Proof.Machine.execTeamDestroy v1 s
  | .paramSet v1 => Sys2Proof.Machine.execParamSet v1 s
  | .s2Map v1 => Sys2Proof.Machine.execS2Map v1 s
  | .s2Unmap v1 => Sys2Proof.Machine.execS2Unmap v1 s
  | .invalidate v1 => Sys2Proof.Machine.execInvalidate v1 s
  | .pageAnswer v1 => Sys2Proof.Machine.execPageAnswer v1 s
  | .ownerSet v1 => Sys2Proof.Machine.execOwnerSet v1 s
  | .replicaReserve v1 => Sys2Proof.Machine.execReplicaReserve v1 s
  | .imageLoad v1 => Sys2Proof.Machine.execImageLoad v1 s
  | .attest v1 => Sys2Proof.Machine.execAttest v1 s
  | .keySession v1 => Sys2Proof.Machine.execKeySession v1 s
  | .keyInstall v1 => Sys2Proof.Machine.execKeyInstall v1 s
  | .epochAdvance v1 => Sys2Proof.Machine.execEpochAdvance v1 s
  | .scanSet v1 => Sys2Proof.Machine.execScanSet v1 s
  | .powerSet v1 => Sys2Proof.Machine.execPowerSet v1 s
  | .teamExport v1 => Sys2Proof.Machine.execTeamExport v1 s
  | .teamImport v1 => Sys2Proof.Machine.execTeamImport v1 s
  | .backgroundCommandDone v1 => Sys2Proof.Machine.execBackgroundCommandDone v1 s
  | .vfMessage v1 v2 => Sys2Proof.Machine.execVfMessage v1 v2 s
  | .s1inv v1 v2 => Sys2Proof.Machine.execS1inv v1 v2 s
  | .registerWrite v1 v2 v3 => Sys2Proof.Machine.execRegisterWrite v1 v2 v3 s
  | .readbackRead v1 v2 => Sys2Proof.Machine.execReadbackRead v1 v2 s
  | .cxlMemAccess v1 v2 v3 => Sys2Proof.Machine.execCxlMemAccess v1 v2 v3 s
  | .ideKm v1 => Sys2Proof.Machine.execIdeKm v1 s
  | .illegalEncoding v1 v2 => Sys2Proof.Machine.execIllegalEncoding v1 v2 s
  | .bundleFetchFault v1 v2 v3 => Sys2Proof.Machine.execBundleFetchFault v1 v2 v3 s
  | .operandLoadComplete v1 v2 => Sys2Proof.Machine.execOperandLoadComplete v1 v2 s
  | .accumulatorPortComplete v1 => Sys2Proof.Machine.execAccumulatorPortComplete v1 s
  | .eddyWorkComplete v1 => Sys2Proof.Machine.execEddyWorkComplete v1 s
  | .storePerformed v1 v2 => Sys2Proof.Machine.execStorePerformed v1 v2 s

end Sys2Proof.Machine
end

