-- ==== Sys2Proof/Machine/Issue.lean ====
section
/-!
DEFINITION. A cycle of a core (R91, R93 to R97, R191): work of the core that is due, the choice of a strand, the
presentation of its next bundle, its checks and its issue (R30 to R40, R91, R92, R94). A bundle is presented in two passes
over its slots: in the first each syllable is executed on the state as presented, and answers which of its checks fails; if
none fails, in the second the syllables take effect in slot order, pc, issue time and loop nest standing at the bundle that
follows.
-/

set_option Elab.async false
namespace Sys2Proof.Machine

/-- The state after a syllable. -/
def State.run (s : State) (i : Instr) : State := s.after (exec i)

/-! ## Work of a core that is due (R193, R200, R205, R208, R209, R231, R274) -/

/-- A line write lands. For a command that has not read the line yet the old contents are kept when the write is of its own bundle;
when it is of a later one, they or the new ones stand, by a free choice (R274). A line that a write of an earlier bundle still follows
is ahead of it: nobody outside the core reads the line before (R268, R270). -/
def State.landWrite (s : State) (c : Nat) (w : PoolWrite) : State :=
  let old := (s.core c).line w.off
  let s := s.cmds.foldl (fun (s : State) m =>
    if m.done || s.cmdCore m != some c || (seek m.cache w.off).isSome || w.seq < m.seq then s
    else
      let keeps := fun (s : State) => s.modCmd m.id fun m => { m with olds := if (seek m.olds w.off).isSome then m.olds else ins m.olds w.off old }
      let takes := fun (s : State) => s.modCmd m.id fun m => { m with olds := dropKey m.olds w.off }
      if w.seq == m.seq then keeps s
      else if s.draw.1 % 2 == 0 then keeps s.draw.2 else takes s.draw.2) s
  s.modCore c fun k =>
    let k := k.setLine w.off w.data w.mask w.mark
    if k.owesBefore w.seq then { k with ahead := (w.off, w.seq) :: k.ahead } else k

/-- The lines that are ahead of a write of an earlier bundle; while there is one, block stores that stand still are completed
(log 12). -/
def Core.lookAhead (k : Core) : Core :=
  if k.ahead.isEmpty then k
  else
    let k := { k with ahead := k.ahead.filter fun a => k.owesBefore a.2 }
    if !k.ahead.isEmpty && k.owesStill then k.settleStill else k

/-- The line writes that are due land in their order. -/
def State.landWrites (s : State) (c : Nat) : State :=
  let k := s.core c
  let due := k.poolWrites.filter fun w => w.due ≤ k.mtime
  if due.isEmpty then (if k.ahead.isEmpty then s else s.modCore c Core.lookAhead)
  else
    (due.foldl (fun s w => s.landWrite c w) (s.setCore c { k with poolWrites := k.poolWrites.filter fun w => k.mtime < w.due })).modCore c
      Core.lookAhead

/-- Everything of a core that is due at its matrix time. Of a multiply's result and the zeros of an ACLR that fall due together on a
tile the zeros stand: multiplies come first (R197; DESIGN CHOICE, log 129). -/
def State.settleCore (s : State) (c : Nat) : State :=
  let k := s.core c
  let s := k.mults.foldl (fun s _ => s.after (execMmaResult c)) s
  let s := k.tileWork.foldl (fun s _ => s.after (execAccumulatorPortComplete c)) s
  let s := k.eddy.foldl (fun s _ => s.after (execEddyWorkComplete c)) s
  let s := k.slots.foldl (fun s e => (s.after (execOperandLoadComplete c e.1)).after (execOperandSlotFree c e.1)) s
  let s := s.landWrites c
  k.strands.foldl (fun s e => (s.after (execMatrixSlotWake c e.1)).after (execStrandEnd c e.1)) s

/-! ## Clocks (R94, R191, R370; log 7) -/

/-- A core that has been left behind takes up the time of its die. -/
def State.catchUp (s : State) (c : Nat) : State :=
  s.modCore c fun k => k.catchUp (s.die (coreDie c)).now

/-- The records of the cycle count as records of an earlier cycle (R360). -/
def Strand.settled (t : Strand) : Strand := { t with newStats := 0 }

/-- A cycle of a core ends. Matrix time stands still in the frost of a late result (R191). -/
def State.endCycle (s : State) (c : Nat) (matrix : Bool) : State :=
  let s := s.modCore c fun k =>
    { k with
      cycle := k.cycle + 1
      mtime := if matrix then k.mtime + 1 else k.mtime
      strands := k.strands.map fun e => (e.1, e.2.settled) }
  s.pass (coreDie c) ((s.core c).cycle - (s.die (coreDie c)).now)

/-- A cycle of strand time: running blocks take their step, YDIST counts (R94, R160, R377). The frost line is not held. -/
def State.advance (s : State) (c n : Nat) : State :=
  ((s.stepBlocks c n).modCore c fun k => { k with frost := 0, lockFrost := 0 }).modStrand c n fun t =>
    { t with
      time := t.time + 1
      ctl := { t.ctl with ydist := if t.ctl.ydist = BitVec.allOnes 32 then t.ctl.ydist else t.ctl.ydist + 1 } }

/-- A cycle in which the frost line is held (R93, R95): the count goes on from what it was in a state. -/
def State.frosty (s old : State) (c : Nat) : State :=
  let lock := match (old.core c).running with
    | some n => old.lockHeld c n
    | none => false
  s.modCore c fun k => { k with frost := (old.core c).frost + 1, lockFrost := if lock then (old.core c).lockFrost + 1 else 0 }

/-- A bundle is held (R91, R95, R161): strand time passes or stands still, the frost line is held, and block stores that stand
still on the core are completed (R270; log 12). -/
def State.holdBundle (s : State) (c n : Nat) (timeRuns : Bool) : State :=
  let t := if timeRuns then s.advance c n else s
  (if (t.core c).owesStill then t.modCore c Core.settleStill else t).frosty s c

/-! ## The choice of a strand (R93) -/

/-- A core without a running strand turns to the next READY one; this cycle is the first of the switch. -/
def State.pickNext (s : State) (c : Nat) : State :=
  let k := s.core c
  match k.running, k.nextStrand with
  | none, some n =>
    s.setCore c { k.setStrand n { k.strand n with mode := .running } with running := some n, switchLeft := 1, frost := 0, lockFrost := 0, stall := 0 }
  | _, _ => s

/-- Blocked strands whose wait is over, and strands out by a frost switch without a late result, are READY (R90, R97). -/
def State.wakeStrands (s : State) (c : Nat) : State :=
  let d := coreDie c
  (s.core c).strands.foldl (fun (s : State) e =>
    if e.2.mode == .frozenOut then s.thaw c e.1
    else if e.2.mode == .blocked && !e.2.ending && s.awaitOver d (s.teamAt c) (s.nameOf c e.1) e.2 then
      (if e.2.wait.reason == waitPage then s.readLeft c e.1 else s).wake c e.1
    else s) s

/-- A strand parks at a yield point: its bundle does not issue (R380). -/
def State.park (s : State) (c n : Nat) : State :=
  s.modCore c fun k =>
    { k.setStrand n { k.strand n with parked := true, mode := .ready } with running := none, last := n, frost := 0, switchLeft := 1 }

/-! ## The first pass: checks (R35 to R38, R91) -/

/-- What a slot of a presented bundle holds and meets. -/
structure SlotCheck where
  slot : Nat
  word : Word32
  instr : Option Instr
  verdict : Option Verdict
  deriving DecidableEq, Repr

/-- A fault of R35. -/
def Verdict.isDecode : Verdict → Bool
  | .fault _ _ _ _ _ d => d
  | _ => false

def Verdict.isFault : Verdict → Bool
  | .fault _ _ _ _ _ _ => true
  | _ => false

/-- The state in which slot n executes: streams without the elements that lower slots pop (R38). -/
def State.atSlot (s : State) (slot : Nat) (mirrored : Bool) (popped : List Nat) : State :=
  let s := { s with issue := { s.issue with slot := slot, mirrored := mirrored, verdict := none } }
  if popped.isEmpty then s
  else s.modMe fun t =>
    { t with streams := popped.foldl (fun m k => put [] m k ((look [] m k).drop 1)) t.streams }

/-- The check of one slot; PEEK sees the streams as they stood before the bundle. -/
def State.checkSlot (s : State) (mirrors : List Nat) (popped : List Nat) (slot : Nat) (w : Word32) : SlotCheck :=
  match decodeSyllable slot w with
  | .error _ => { slot := slot, word := w, instr := none, verdict := some (.fault illegalCode 0 (zext64 w) 0 0 true) }
  | .ok i =>
    let popped := match i with
      | .peek _ _ => []
      | _ => popped
    { slot := slot, word := w, instr := some i
      verdict := ((s.atSlot slot (mirrors.contains (slot + 1)) popped).run i).issue.verdict }

/-- The step of a LOOP reads its base register with the first bundle of a pass and belongs to no slot: an uncorrectable base
is reported with slot 16 (R356; DESIGN CHOICE, log 119). -/
def State.stepCheck (s : State) : List SlotCheck :=
  match s.me.badStep with
  | some r => [{ slot := 16, word := 0, instr := none, verdict := some (ueFault 0 r 0) }]
  | none => []

/-- The checks of every slot that is not a mirror, in slot order (R39). -/
def State.checkSlots (s : State) (mirrors : List Nat) : (slots : List (Nat × Word32)) → (popped : List Nat) → List SlotCheck
  | [], _ => []
  | (n, w) :: rest, popped =>
    if mirrors.contains n then s.checkSlots mirrors rest popped
    else
      let q := s.checkSlot mirrors popped n w
      q :: s.checkSlots mirrors rest (popped ++ ((q.instr.map Instr.pops).getD []))

/-- The registers that a syllable would write in its slot (R37). -/
def State.slotWrites (s : State) (slot : Nat) (i : Instr) : List Dest :=
  let s := { s with issue := { s.issue with slot := slot } }
  let block := fun (w : BitVec 7) (lg : Nat) =>
    let l := s.me.lane lg
    (List.range (l.rows * l.cols)).map fun k => Dest.vec lg (blockReg s.regCount l.wb l.cols w.toNat k)
  i.dests.map Dest.x ++
  match i with
  | .vld w _ m _ | .vlds w _ m _ => (maskGroups m).flatMap (block w)
  | .vgather w _ _ k _ => [.vec k.toNat (s.singleReg k.toNat w)]
  | .vgatherAll w _ _ _ => (List.range 8).map fun lg => .vec lg (s.singleReg lg w)
  | .vpop w _ m => (maskGroups m).map fun lg => .vec lg (s.singleReg lg w)
  | .vceq _ _ p _ _ | .vclt _ _ p _ _ | .vcle _ _ p _ _ | .pand p _ _ | .por p _ _ | .pnot p _ | .pmov p _ =>
    (slotGroups slot).map fun lg => .pred lg p.toNat
  | i => if i.slot? == some 3 then
      (slotGroups slot).flatMap fun lg => ((s.vecBlock i lg).writes s.regCount).map fun r => Dest.vec r.1 r.2
    else []

/-- What each slot without an earlier fault of R35 would write. -/
def State.writeSets (s : State) (cs : List SlotCheck) : List (Nat × List Dest) :=
  cs.filterMap fun q => match q.instr with
    | some i => if (q.verdict.map Verdict.isDecode).getD false then none else some (q.slot, s.slotWrites q.slot i)
    | none => none

/-- Slots that share a register with another slot. -/
def conflicting (ws : List (Nat × List Dest)) : List Nat :=
  (ws.filter fun a => ws.any fun b => a.1 != b.1 && a.2.any b.2.contains).map (·.1)

/-- WRITE_CONFLICT in every conflicting slot (R37). -/
def State.withConflicts (s : State) (cs : List SlotCheck) : List SlotCheck :=
  let bad := conflicting (s.writeSets cs)
  cs.map fun q =>
    if bad.contains q.slot then { q with verdict := some (.fault writeConflictCode 0 (zext64 q.word) 0 0 true) } else q

/-! ## What a bundle that fails its checks does (R36, R91, R92) -/

/-- One trap for the faults of some slots: FMASK shows them all, the rest is the lowest's (R36, R340). -/
def State.trapSlots (s : State) (c n : Nat) (cs : List SlotCheck) : State :=
  match cs with
  | [] => s
  | q :: _ => match q.verdict with
    | some (.fault code reason info lg lane _) =>
      s.takeTrap c n (causeWord code reason q.slot lg lane s.issue.len)
        (BitVec.ofNat 17 ((cs.map fun q => 2 ^ q.slot).sum)) info s.issue.addr
    | _ => s

/-- The block of a bundle by its lowest blocking slot; every slot that waits on a page posts its requests (R92, R135). -/
def State.blockSlots (s : State) (c n : Nat) (vs : List Verdict) : State :=
  match vs with
  | .block reason _ _ l :: _ =>
    let pages := vs.filterMap fun v => match v with
      | .block r ps g _ => if r = waitPage then some (ps, g) else none
      | _ => none
    let posts := if reason = waitPage then pages.flatMap (·.1) else []
    let g := if reason = waitPage then pages.findSome? (·.2) else none
    s.waitFor c n reason posts g l
  | _ => s

/-- Whether a strand's next bundle counts as a yield point (R376). -/
def Strand.atYield (t : Strand) (h : Header) : Bool := h.y || t.yieldNext

/-- The verdicts of some checks that satisfy a test. -/
def verdictsOf (cs : List SlotCheck) (p : Verdict → Bool) : List Verdict := (cs.filterMap (·.verdict)).filter p

def Verdict.isBlock : Verdict → Bool
  | .block _ _ _ _ => true
  | _ => false

/-! ## The second pass: issue (R36, R94, R98, R99) -/

/-- The strand as its bundle issues: what an issue clears, and the bundle that follows (R99, R102, R377, R387). -/
def Strand.issued (t : Strand) (h : Header) : Strand :=
  let yieldPoint := t.atYield h
  let following : VAddr := t.pc + BitVec.ofNat 42 (4 * h.length)
  let t := { t with
    yieldNext := false
    waited := 0
    wait := { t.wait with refused := [] }
    ctl := { t.ctl with ydist := if yieldPoint then 0 else t.ctl.ydist, overdue := t.ctl.overdue && !yieldPoint }
    issueAt := t.time + 1 }
  match t.nest with
  | none => { t with pc := following }
  | some q => match q.next with
    | none => { t with pc := following, nest := none }
    | some q' => { t with pc := if q'.due then q'.first else following, nest := some q' }

/-- The order in which admitted syllables take effect: slot order, ENDK and ERET after the rest of their bundle (R118, R344);
with a CHKERR that rolls back, nothing else (R353). -/
def State.effectOrder (s : State) (is : List (Nat × Instr)) : List (Nat × Instr) :=
  let last := fun (p : Nat × Instr) => match p.2 with
    | .endk | .eret => true
    | _ => false
  let rolls := fun (p : Nat × Instr) => match p.2 with
    | .chkerr _ _ _ => s.me.rollsBack
    | _ => false
  if is.any rolls then is.filter rolls else is.filter (fun p => !last p) ++ is.filter last

/-- A resumed team's first bundle issues: C restarts and the rows left of its streams begin to enter (R200, R239). -/
def Core.begin (k : Core) : Core := if k.resumed.isNone then k.beginRows else { k.beginRows with resumed := none, cBase := k.mtime }

/-- The state in which an admitted bundle's syllables take effect. -/
def State.admitted (s : State) (h : Header) : State :=
  let seen := (s.me.ctl, (s.me.nest.map (·.idx)).getD [])
  let s := (s.modMyCore Core.begin).modMe fun t => t.issued h
  let s := s.modMyTeam fun m => { m with lull := 0, lullTimer := 0 }
  { s with issue := { s.issue with admitted := true, popped := [], seen := some seen, verdict := none } }

/-- An admitted syllable takes effect in its slot. -/
def State.effect (s : State) (mirrors : List Nat) (p : Nat × Instr) : State :=
  { s with issue := { s.issue with slot := p.1, mirrored := mirrors.contains (p.1 + 1) } }.run p.2

/-- The end of an issue: counters of the strand and the core. -/
def State.closeIssue (s : State) (c n : Nat) : State :=
  s.modCore c fun k =>
    { k.setStrand n { k.strand n with nextSeq := (k.strand n).nextSeq + 1, ctl := { (k.strand n).ctl with spincnt := 0 } } with
      issued := k.issued + 1 }

/-- The syllables of a bundle; the empty bundle is NOP (R33). -/
def bundleOf (h : Header) (cs : List SlotCheck) : List (Nat × Instr) :=
  if h.slots.isEmpty then [(0, .nop h.y h.k)] else cs.filterMap fun q => q.instr.map fun i => (q.slot, i)

/-- A bundle issues. -/
def State.commit (s : State) (c n : Nat) (h : Header) (cs : List SlotCheck) : State :=
  let a := s.admitted h
  let s := (a.effectOrder (bundleOf h cs)).foldl (fun s p => s.effect h.mirrors p) a
  let s := s.closeIssue c n
  if (s.core c).running == some n then s.advance c n else s

/-- A presented bundle whose words have been fetched: it traps, blocks, is held, or issues (R32, R36, R91). -/
def State.issueBundle (s : State) (c n : Nat) (w : Word32) (syllables : List (Nat × Word32)) : State :=
  let h := headerOf w
  let s := { s with issue := { s.issue with len := h.length } }
  if (headerError w syllables).isSome then ((s.after (execIllegalEncoding 16 w)).advance c n).pickNext c
  else
    let stepped := s.modMe Strand.takeStep
    let cs := s.withConflicts (stepped.checkSlots h.mirrors syllables []) ++ s.stepCheck
    let decode := cs.filter fun q => (q.verdict.map Verdict.isDecode).getD false
    let blocks := verdictsOf cs Verdict.isBlock
    let holds := cs.filterMap fun q => match q.verdict with
      | some (.hold runs) => some runs
      | _ => none
    let faults := cs.filter fun q => (q.verdict.map Verdict.isFault).getD false
    -- a multiply waits for C to move: with it presented first, the counter starts (log 28)
    let mx := cs.any fun q => q.slot == 12 && q.verdict.isSome
    let s := if mx then s.modCore c Core.begin else s
    let waits := s.modStrand c n fun t => { t with wait := { t.wait with yBundle := h.y } }
    if !decode.isEmpty then ((s.trapSlots c n decode).advance c n).pickNext c
    else if s.me.spin.isSome then (waits.block c n waitSpin [] none).pickNext c
    else if !blocks.isEmpty then (waits.blockSlots c n blocks).pickNext c
    else if !holds.isEmpty then (s.modCore c Core.beginRows).holdBundle c n (holds.all id)
    else if !faults.isEmpty then ((s.trapSlots c n faults).advance c n).pickNext c
    else stepped.commit c n h cs

/-! ## Presentation (R34, R326, R380, R424) -/

/-- A fetch that fails or waits. -/
def State.fetchFailed (s : State) (c n : Nat) (f : Fetched) (yBundle : Bool) : State :=
  match f with
  | .fault code reason =>
    ((s.after (execBundleFetchFault (BitVec.ofNat 8 code) (BitVec.ofNat 8 reason) (zext64 s.issue.addr))).advance c n).pickNext c
  | .wait m =>
    ((s.modStrand c n fun t => { t with wait := { t.wait with yBundle := yBundle } }).block c n waitPage [m] none).pickNext c
  | .words _ => s

/-- The translation of a fetch enters the caches (R132). -/
def State.noteFetch (s : State) (c va : Nat) : State := s.noteTlb (some c) (s.vfAt c) (coreDie c) (s.teamAt c) va .fetch

/-- The running strand presents its next bundle. All words of the length that the header gives are fetched first, so that a fault in the
fetch of a later word comes before the malformed header (DESIGN CHOICE, log 110: R424 orders the checks of a fetch only against the
start bit). -/
def State.present (s : State) (c n : Nat) : State :=
  let t := s.strand c n
  let s := { s with issue := { Issue.reset with core := c, strand := n, addr := t.pc, len := 0 } }
  let va := t.pc.toNat
  match s.fetchWord c va with
  | .error e => s.fetchFailed c n e false
  | .ok w =>
    let h := headerOf w
    if !s.startBit (coreDie c) (s.vfAt c) va then ((s.after (execIllegalEncoding 16 w)).advance c n).pickNext c
    else if t.condemned.isSome && h.k then (s.after (execKillPoint c n)).pickNext c
    else if (s.team (coreDie c) (s.teamAt c)).st == 5 && t.atYield h && s.carryOnly (coreDie c) (s.teamAt c) then (s.park c n).pickNext c
    else match s.fetchWords c (h.length - 1) (va + 4) with
      | .error e => s.fetchFailed c n e h.y
      | .ok ws => ((s.noteFetch c va).noteFetch c (va + 4 * (h.length - 1))).issueBundle c n w (h.slots.zip ws)

/-! ## The cycle of a core -/

/-- Firmware withholds the bundle in this cycle (R29): a free choice while the die is throttled. Strand time and matrix time
stand still (R95, R191). -/
def State.withholds (s : State) (d : Nat) : Bool := (s.die d).throttling && s.draw.1 % 2 == 1

/-- A cycle of the running strand in which no result is late: results due are written, and the bundle is presented once its
issue time has come (R94, R114). A withheld bundle stands on the frost line (R29). -/
def State.openCycle (s : State) (c n : Nat) : State :=
  let d := coreDie c
  let s := s.writeDue c n
  if (s.strand c n).ending then
    (if (s.strand c n).storingAny then (s.advance c n).modCore c Core.settleStill else s.leaveCore c n).endCycle c true
  else if (s.strand c n).time < (s.strand c n).issueAt then (s.advance c n).endCycle c true
  else if s.withholds d then
    ((s.draw.2.modDie d fun k => { k with throttled := k.throttled + 1 }).frosty s c).endCycle c false
  else
    let s := if (s.die d).throttling then s.draw.2 else s
    (s.present c n).endCycle c true

/-- The strand may leave the core at the end of a cycle in which the frost line was held (R93, R97, R142). -/
def State.departs (s : State) (c : Nat) : State :=
  if (s.core c).frost = 0 then s else (s.after (execReplicaLockSwitch c)).after (execFrostSwitch c)

/-- A cycle of frost for a late result or a corrected register: strand time and matrix time stand still; what the core waits for
may come (R95, R191). -/
def State.frostCycle (s : State) (c : Nat) : State :=
  (((s.frosty s c).modCore c fun k => { k with stall := k.stall - 1 }).endCycle c false).departs c |>.serveCore c

/-- A cycle of a core whose team issues. -/
def State.issueCycle (s : State) (c : Nat) : State :=
  let s := s.wakeStrands c
  match (s.core c).running with
  | none => (s.pickNext c).endCycle c true
  | some n =>
    if 0 < (s.core c).switchLeft then (s.modCore c fun k => { k with switchLeft := k.switchLeft - 1 }).endCycle c true
    else if (s.strand c n).late || 0 < (s.core c).stall then s.frostCycle c
    else (s.openCycle c n).departs c

/-- A cycle of a core. -/
def State.coreTurn (s : State) (c : Nat) : State :=
  let s := (s.catchUp c).settleCore c
  match s.teamOn c with
  | none => s.endCycle c true
  | some t =>
    let st := (s.team (coreDie c) t).st
    if st == 4 || st == 5 then s.issueCycle c else s.endCycle c true

end Sys2Proof.Machine
end

