-- ==== Sys2Proof/Machine/Turn.lean ====
section
/-!
DEFINITION. Who moves next (log 5). The head of the agenda moves, if there is one. With an empty agenda the cores that can go
on take a cycle each in turn, and after each round one event that is due, or one piece of work that is ready, takes place;
when no core can go on and nothing is due, time passes. Any other order of events, host commands and latencies is reached
through the agenda. Also here: a bundle of one syllable placed where the next step fetches (log 3).
-/

set_option Elab.async false
namespace Sys2Proof.Machine

/-- A row that a bundle presents: a syllable, the empty bundle, or the failure of a bundle. -/
def isPresented (i : Instr) : Bool :=
  i.slot?.isSome || (match i with
    | .nop _ _ | .illegalEncoding _ _ | .bundleFetchFault _ _ _ => true
    | _ => false)

/-! ## Events that the machine itself brings about -/

/-- The event in which a message of the wire is delivered (R286). -/
def messageEvent (m : Message) : State → Out :=
  match m.kind.toNat with
  | 1 => execMemWrite m
  | 2 => execPoolWrite m
  | 3 => execStreamWrite m
  | 4 => if m.wordB.toNat % 256 = 2 then execChunkAbort m else execChunk m
  | 5 => execResponse m
  | 6 => execSlotRequest m
  | _ => execSlotAnswer m

/-- Timers and decisions of the scheduler of a die. -/
def State.dieEvents (s : State) (d : Nat) : List (State → Out) :=
  let k := s.die d
  let ps := s.parts.map (·.1)
  let ts := (k.teams.filter fun e => e.2.st != 0).map (·.1)
  [execGustTick d, execWindowBoundary d, execLeaseGrant d] ++ ps.map (execRoundBegin d) ++
  ts.flatMap (fun t =>
    [execLullStep d t, execSliceEnd d t, execForcedPreemption d t, execCooperativeSwap d t, execSpillDone d t true, execPreemptWatchdog d t,
     execSwapin d t, execLandedStreamApply d t]
    ++ (k.team t).leases.map (fun l => execLeaseExpiry d t (BitVec.ofNat 2 l.1))
    ++ (k.team t).trackers.map (fun x => execTrackerFire d t x.tile)
    ++ ((k.team t).tiles.filter fun x => x.2.run.isSome).map (fun x => execTileRunEnd d t x.1)
    ++ (k.team t).launches.map fun l => execNodeStrandStart l.id) ++
  ps.flatMap (fun p => [execTeamSelect d p, execShadowDrain d p, execImageStage d p]) ++
  k.scans.map (fun x => execScanComplete d x.cl true) ++
  (k.scans.filter fun x => x.start.isNone).map (fun x => execScanTest d x.cl) ++
  ((List.range 16).filter fun cl => look 0 k.scanned cl + s.scanInterval ≤ k.now).flatMap fun cl =>
    [execScanTest d cl, execScanClaim d cl]

/-- The word of a waiting SPINW would end its wait (R116). -/
def State.spinReady (s : State) (c n : Nat) : Bool :=
  match (s.strand c n).spin with
  | none => false
  | some w => s.spinning c n && (match s.spinWord c n w with
    | some v => spinHolds w.cond (BitVec.ofNat 64 (ofBytes v.1.1)) w.cmp
    | none => false)

/-- Firmware itself answers REFUSED to a request for a page of the readback view (R404). -/
def State.firmwareAnswers (s : State) : List (State → Out) :=
  s.vfs.flatMap fun f => (f.2.queue.filter fun r => match f.2.stage2 r.ipa with
    | some l => inReadback l.2
    | none => false).map fun r => fun s => .next (s.answerPage f.1 r true)

/-- Timers of the strands of a core, and answers to its accesses. -/
def State.coreEvents (s : State) (c : Nat) : List (State → Out) :=
  let k := s.core c
  k.strands.flatMap (fun e =>
    [execKillLimit c e.1, execYieldOverdue c e.1, execWaitWatchdog c e.1, execStrandEnd c e.1]
    ++ if s.spinReady c e.1 then [execSpinwReread c e.1] else [])
  ++ k.stores.flatMap (fun w => [execStorePerformed c w.id, execReplicaUpdate w.id])
  ++ k.loads.map fun l => execLateResult c l.id

/-- The writes of a commit are performed on a die; a release that waited for them goes on (R278, R325). -/
def State.commitStep (s : State) (d k : Nat) : State :=
  let s := s.performCommit d k
  (s.committed k).foldl (fun s j => s.slotsOn j.1 j.2.1 j.2.2) s

/-- The commits with writes left on a die. -/
def State.commitsOn (s : State) (d : Nat) : List Nat :=
  ((s.die d).staging.flatMap fun l => l.holders.filterMap fun h => match h with
    | .done k _ => some k
    | _ => none).eraseDups

/-- The unfinished QARRIVEs, in ascending task of their joins (R320). -/
def State.arrivals (s : State) : List Cmd :=
  sortBy (fun m => (((s.team m.d m.t).joinAt ((arriveJoin m.cap.op).getD 0)).number (.localTask m.who)).getD 4096)
    (s.cmds.filter fun m => !m.done && (arriveJoin m.cap.op).isSome)

/-- Every event that may be due. -/
def State.dueEvents (s : State) : List (State → Out) :=
  s.dies.flatMap (fun e => s.dieEvents e.1)
  ++ s.dies.flatMap (fun e => (s.commitsOn e.1).map fun k => fun s => .next (s.commitStep e.1 k))
  ++ s.firmwareAnswers
  ++ s.pfSlots.map (fun e => execBackgroundCommandDone (BitVec.ofNat 4 e.1))
  ++ s.wire.map messageEvent
  ++ (s.partWritten.filter fun e => !s.wire.contains e.1).map (fun e => messageEvent e.1)
  ++ s.cores.flatMap (fun e => s.coreEvents e.1)
  ++ s.sent.flatMap (fun x => [execMessageRetry x.id, execNoResponse x.id])
  ++ (s.cmds.filter fun m => !m.done && !m.started).map (fun m => execEngineCommandStart m.id)
  ++ s.arrivals.map fun m => execQarriveRegister m.id

/-- What an event changes; none when it is not due (log 6). -/
def State.changed (s : State) (f : State → Out) : Option State :=
  let t := s.after f
  if t = s then none else some t

/-- The first event that is due, else the first unit of work of a command. -/
def State.background (s : State) : Option State :=
  (s.dueEvents.findSome? s.changed).or (s.cmds.findSome? fun m => s.cmdStep m.id)

/-! ## Cores that can go on -/

/-- Work of a core that goes on without a strand. -/
def Core.works (k : Core) : Bool :=
  !k.mults.isEmpty || !k.tileWork.isEmpty || (k.eddy.any fun w => w.stopped.isNone && k.rowsWait.isNone) || !k.poolWrites.isEmpty ||
    k.slots.any fun e => e.2.holder.isNone || !e.2.load.isEmpty

/-- A strand of a core whose team issues can go on. -/
def State.strandLive (s : State) (c t n : Nat) (x : Strand) : Bool :=
  match x.mode with
  | .running => true
  | .ready => !x.parked
  | .blocked => x.wait.reason == waitMatrix || (!x.ending && s.awaitOver (coreDie c) t (s.nameOf c n) x)
  | _ => false

/-- A core can go on. -/
def State.coreLive (s : State) (c : Nat) : Bool :=
  (s.core c).works ||
  (match s.teamOn c with
    | none => false
    | some t =>
      let st := (s.team (coreDie c) t).st
      (st == 4 || st == 5) && (s.core c).strands.any fun e => s.strandLive c t e.1 e.2)

/-- The dies that no core drives are brought to the time of the die that is furthest, and beyond it when nothing goes on. -/
def State.level (s : State) (beyond : Nat) : State :=
  let far := (s.dies.map fun e => e.2.now).foldl max 0
  s.dies.foldl (fun s e =>
    if s.cores.any fun k => coreDie k.1 == e.1 && s.coreLive k.1 then s else s.pass e.1 (far + beyond - (s.die e.1).now)) s

/-- One move of a machine with an empty agenda. -/
def State.goOn (s : State) : State :=
  match s.cores.find? fun e => s.cur ≤ e.1 && s.coreLive e.1 with
  | some e => { s.coreTurn e.1 with cur := e.1 + 1 }
  | none =>
    let s := { s with cur := 0 }
    match s.background with
    | some t => (t.level 0).wakeTeams
    | none => (s.level (if s.cores.any fun e => s.coreLive e.1 then 0 else 256)).wakeTeams

/-- One move of the agenda. -/
def State.takeTurn (s : State) : Turn → Out
  | .event i =>
    if isPresented i then .refused .syllableInAgenda
    else match exec i s with
      | .next t => .next t.wakeTeams
      | o => o
  | .core c => if c < 1024 then .next (s.coreTurn c) else .fault .noSuchCore
  | .work id => .next ((s.cmdStep id).getD s).wakeTeams
  | .commit d k => .next (s.commitStep d k).wakeTeams

/-- A move: the head of the agenda, or the machine goes on by itself. -/
def State.move (s : State) : Out :=
  match s.agenda with
  | [] => .next s.goOn
  | a :: rest => State.takeTurn { s with agenda := rest } a

/-! ## A bundle of one syllable where the next step fetches (log 3) -/

/-- The instruction needs the privilege of a conductor, or is one's own (R35, R101, R117, R344). -/
def needsConductor : Instr → Bool
  | .launch _ _ | .eret | .tsave _ _ _ | .tload _ _ _ | .mtc _ _ => true
  | _ => false

/-- Header and syllables of the bundle that holds a table word. -/
def tableBundle (nbits w : Nat) : List Word32 :=
  match decodeTableWord nbits w with
  | some (.nop _ _) => [BitVec.ofNat 32 w]
  | some i => [BitVec.ofNat 32 (2 ^ (16 + (i.slot?.getD 0))), BitVec.ofNat 32 w]
  | none => [0x10000, BitVec.ofNat 32 w]

def wordBytes (ws : List Word32) : List Byte := ws.flatMap fun w => bytesOf 4 w.toNat

/-- The address of the placed bundle, and of the stage-1 table that maps it. -/
def placedAt : Nat := 0x10000
def placedTable : Nat := 0x20000000

/-- The pool partition word of the core that runs it: register files of 256 KiB, one accumulator tile, 32 operand slots, one
strand (R121). -/
def placedPart : Word32 := 0x410

/-- The strand that runs it: the conductor for an instruction that only a conductor may run, else a node strand. -/
def placedStrand (conductor : Bool) : Strand :=
  { Strand.reset with
    mode := .running
    pc := BitVec.ofNat 42 placedAt
    ctl := { Ctl.reset with priv := conductor, poolpart := placedPart } }

/-- A table word placed: cluster 0 of die 0 is partition 0's, team 0 of VF 0 runs there, its tables map the first GiB, and the
strand's next bundle is the word's. -/
def State.placeWord (s : State) (nbits w : Nat) : State :=
  let conductor := match decodeTableWord nbits w with
    | some i => needsConductor i
    | none => false
  let n := if conductor then 3 else 0
  let leaf : S2Leaf := { level := 3, pa := 0, r := true, w := true, x := true, rpl := false }
  let vf := { s.vf 0 with
    part := some 0, s1root := BitVec.ofNat 42 placedTable, s2 := ins (s.vf 0).s2 0 leaf, starts := ins (s.vf 0).starts 0 [placedAt] }
  let team := { Team.reset with st := 4, deficit := 42500 }
  let die := { s.die 0 with teams := ins (s.die 0).teams 0 team, running := ins (s.die 0).running 0 0 }
  let core := { s.core 0 with strands := [(n, placedStrand conductor)], part := placedPart, running := some n, switchLeft := 0 }
  -- a stage-1 leaf of 1 GiB at address 0 with V, R, W and X
  let hbm := writeBytes (writeBytes s.hbm placedTable (bytesOf 8 0x1F)) placedAt (wordBytes (tableBundle nbits w))
  { s with
    parts := ins s.parts 0 { s.part 0 with exists_ := true, clusters := [(0, 0)] }
    vfs := ins s.vfs 0 vf
    dies := ins s.dies 0 die
    cores := ins s.cores 0 core
    owner := ins (ins s.owner (placedAt / 65536) 64) (placedTable / 65536) 64
    hbm := hbm
    agenda := [.core 0] }

end Sys2Proof.Machine
end

