-- ==== Sys2Proof/Machine/Step.lean ====
section
/-!
DEFINITION. One step of the package, and a word placed where the next step fetches.
-/

set_option Elab.async false
namespace Sys2Proof.Machine

/-- One step. -/
def step (s : State) : Host.Outcome State Fault Refusal := s.move

/-- The state in which the very next step fetches and runs the instruction of a table word (log 3). -/
def State.withFetchWord (s : State) (nbits w : Nat) : State := s.placeWord nbits w

end Sys2Proof.Machine
end

