-- ==== Sys2Proof/Safety.lean ====
section
/-!
DEFINITION. What counts as a safe run: the machine never stops. A fault of a program is a trap of its strand (R338), not a stop.
-/

set_option Elab.async false
namespace Sys2Proof

/-- A state from which a step answers a next state. -/
def Safe (s : Machine.State) : Prop := ∃ t, Machine.step s = .next t

/-- A state that some steps lead to. -/
inductive Reaches (s : Machine.State) : Machine.State → Prop where
  | refl : Reaches s s
  | next {t u : Machine.State} : Reaches s t → Machine.step t = .next u → Reaches s u

/-- The checks that every syllable meets pass: it is legal where it stands (R35), its streams hold what it pops (R38), no
pending mirror error stops it (R40), no source word is uncorrectable (R356). -/
structure Clear (i : Instr) (s : Machine.State) : Prop where
  legal : s.decodeVerdict i = none
  fed : s.starves [] i = false
  unguarded : s.guardFault i = none
  sound : s.ueScalar i = none

/-- A syllable issues: its bundle has been admitted, or the common checks and those of its own pass. -/
def Goes (i : Instr) (s : Machine.State) (own : Prop := True) : Prop := s.issue.admitted = true ∨ (Clear i s ∧ own)

end Sys2Proof
end

