-- ==== Sys2Proof/Certificates/Slice0/Obligations.lean ====
section
/-!
DEFINITION. The statements for the provers. `Goes` says that a syllable passes the checks of R91; a statement about what an
instruction does has `Goes` or the instruction's own conditions as its hypotheses and the next state as its conclusion.
-/

set_option Elab.async false
namespace Sys2Proof.Claims
open Sys2Proof.Machine

/-! ## What the statements share -/

/-- An instruction that passes the common checks, and those of its own, answers a next state: this one. -/
def Completes (i : Instr) (s t : State) (own : Prop := True) : Prop := Goes i s own → exec i s = .next t

/-- Bits [lo + 31 : lo] of a word as a number. -/
def bits (w : Word) (lo : Nat) : Nat := w.toNat / 2 ^ lo % 2 ^ 32

/-- The next state of a syllable with one source and a result due l cycles later. -/
def oneNext (s : State) (d a : BitVec 6) (l : Nat) (f : Word → Word) : State :=
  (s.src a).2.result l (.x d (f (s.src a).1.1)) (s.src a).1.2

/-- With two sources. -/
def twoNext (s : State) (d a b : BitVec 6) (l : Nat) (f : Word → Word → Word) : State :=
  (s.src2 a b).2.result l (.x d (f (s.src2 a b).1.1 (s.src2 a b).1.2.1)) (s.src2 a b).1.2.2

/-- With one source and the old value of the destination. -/
def keepNext (s : State) (d a : BitVec 6) (f : Word → Word → Word) : State :=
  (s.src a).2.result 1 (.x d (f (s.me.reg d) (s.src a).1.1)) (s.me.regMark d || (s.src a).1.2)

/-- A value for a register without a source. -/
def valueNext (s : State) (d : BitVec 6) (l : Nat) (v : Word) (mark : Bool) : State := s.result l (.x d v) mark

/-- The two 64-bit halves of an exact product, as R103 names the upper one. -/
def upperProduct (unsigned : Bool) (a b : Word) : Word :=
  ((if unsigned then a.setWidth 128 * b.setWidth 128 else a.signExtend 128 * b.signExtend 128) >>> 64).setWidth 64

/-- A syllable whose only effect on the strand is a register result. -/
def registerOnly : Instr → Bool
  | .add _ _ _ | .sub _ _ _ | .mul _ _ _ | .mulh _ _ _ _ | .div _ _ _ _ | .rem _ _ _ _ | .and _ _ _ | .or _ _ _
  | .xor _ _ _ | .shl _ _ _ | .shr _ _ _ | .sar _ _ _ | .slt _ _ _ _ | .seq _ _ _ | .min _ _ _ _ | .max _ _ _ _
  | .sel _ _ _ | .clz _ _ | .ctz _ _ | .popc _ _ | .brev _ _ | .peek _ _ | .bfx _ _ _ _ | .bfi _ _ _ _ | .agen _ _ _ _
  | .addi _ _ _ | .andi _ _ _ | .ori _ _ _ | .xori _ _ _ | .shli _ _ _ | .shri _ _ _ | .sari _ _ _ | .slti _ _ _
  | .movi _ _ | .movhi _ _ | .movhh _ _ | .fadd _ _ _ _ _ | .fsub _ _ _ _ _ | .fmul _ _ _ _ _ | .fdiv _ _ _ _ _
  | .fmin _ _ _ _ _ | .fmax _ _ _ _ _ | .fsqrt _ _ _ _ | .ffma _ _ _ _ _ | .fcvt _ _ _ _ _ | .fcmp _ _ _ _ _
  | .mfc _ _ | .qwait _ _ | .eget _ _ _ => true
  | _ => false

/-- A load: scalar, block, gather or vector stream pop. -/
def isLoad : Instr → Bool
  | .ldb _ _ _ | .ldbu _ _ _ | .ldh _ _ _ | .ldhu _ _ _ | .ldw _ _ _ | .ldwu _ _ _ | .ldd _ _ _ | .vld _ _ _ _
  | .vlds _ _ _ _ | .vgather _ _ _ _ _ | .vgatherAll _ _ _ _ | .vpop _ _ _ | .spinw _ _ _ => true
  | _ => false

/-- A store, as it issues: scalar, block or scatter. -/
def isStore : Instr → Bool
  | .stb _ _ _ _ | .sth _ _ _ _ | .stw _ _ _ _ | .std _ _ _ _ | .vst _ _ _ _ | .vsts _ _ _ _ | .vscatter _ _ _ _ _
  | .vscatterAll _ _ _ _ => true
  | _ => false

/-- A vector, matrix or Eddy syllable, and the SC syllables of their operands and geometry, as they issue. -/
def isArray (i : Instr) : Bool :=
  i.slot? == some 3 || i.slot? == some 12 || i.slot? == some 13 ||
    (match i with
      | .sld _ _ _ | .vwin _ _ _ _ | .vshape _ _ _ _ | .vmode _ _ _ => true
      | _ => false)

/-- A queued engine command (R242). -/
def isQueued : Instr → Bool
  | .cpy _ _ _ | .cpyst _ _ _ _ _ _ | .sacc _ _ _ _ _ | .rcnt _ _ _ | .rsnap _ _ _ | .send _ _ _ _ _ | .ttset _ _
  | .tready _ _ | .trkarm _ _ _ | .unlease _ _ | .zip _ _ _ _ | .unzip _ _ _ _ | .repl _ _ _ _ _ | .qdecl _ _ _
  | .qarrive _ _ | .qread _ _ _ | .qreplay _ _ _ | .tsave _ _ _ | .tload _ _ _ => true
  | _ => false

/-- A branch, jump or call. -/
def isTransfer : Instr → Bool
  | .br _ _ _ _ | .bz _ _ | .bnz _ _ | .jmp _ | .call _ | .jr _ _ | .jrl _ _ _ => true
  | _ => false

/-! ## What stays -/

/-- Every byte of device memory, of host memory and of every core's pool reads as before. -/
def SameMemory (s t : State) : Prop :=
  (∀ a, readByte t.hbm a = readByte s.hbm a) ∧ (∀ a, readByte t.hostMem a = readByte s.hostMem a) ∧
    ∀ c a, readByte (t.core c).pool a = readByte (s.core c).pool a

/-- Every scalar register of every strand, with its mark. -/
def SameRegisters (s t : State) : Prop :=
  ∀ c n r, (t.strand c n).reg r = (s.strand c n).reg r ∧ (t.strand c n).regMark r = (s.strand c n).regMark r

/-- Every control, status and exception register of every strand. -/
def SameControl (s t : State) : Prop := ∀ c n, (t.strand c n).ctl = (s.strand c n).ctl

/-- Every window, shape, mode and predicate, and the matrix geometry, of every strand. -/
def SameLanes (s t : State) : Prop :=
  ∀ c n, (t.strand c n).lanes = (s.strand c n).lanes ∧ (t.strand c n).geoRows = (s.strand c n).geoRows ∧
    (t.strand c n).geoCols = (s.strand c n).geoCols ∧ (t.strand c n).geoKlim = (s.strand c n).geoKlim

/-- Every triangular file and scale buffer of every core. -/
def SameFiles (s t : State) : Prop := ∀ c, (t.core c).tris = (s.core c).tris ∧ (t.core c).scale = (s.core c).scale

/-- Where every strand goes on: bundle address, issue time, loop nest, mode. -/
def SamePlace (s t : State) : Prop :=
  ∀ c n, (t.strand c n).pc = (s.strand c n).pc ∧ (t.strand c n).issueAt = (s.strand c n).issueAt ∧
    (t.strand c n).nest = (s.strand c n).nest ∧ (t.strand c n).mode = (s.strand c n).mode

/-- Results in flight of every strand but the one that issues. -/
def SameOthers (s t : State) : Prop :=
  ∀ c n, (c ≠ s.issue.core ∨ n ≠ s.issue.strand) → (t.strand c n).pend = (s.strand c n).pend

/-- The results that a syllable adds write no register but its destinations. -/
def AddsOnly (ds : List (BitVec 6)) (s t : State) : Prop :=
  ∃ ps : List Pending, t.me.pend = s.me.pend ++ ps ∧
    ∀ p ∈ ps, p.write = .none ∨ ∃ r v, p.write = .x r v ∧ (r ∈ ds ∨ r = 0)

/-! ## The invariant -/

/-- Device memory is in its canonical form. -/
def Inv (s : State) : Prop := Memory.wf s.hbm = true

/-- The slots in which an instruction's syllable may stand: SA and SB share their map, VB and V0 to V7 share theirs. -/
def fitsSlot (i : Instr) (slot : Nat) : Bool :=
  match i.slot? with
  | some 0 | some 1 => slot == 0 || slot == 1
  | some 3 => 3 ≤ slot && slot ≤ 11
  | some k => slot == k
  | none => false

end Sys2Proof.Claims

open Sys2Proof Sys2Proof.Machine Sys2Proof.Claims

/-! ## Encodings -/

/-- Words written out from the spec's layouts decode to what they stand for: ADD x3, x1, x2 (R41, R48), ADDI, BR (R49),
LDD with a negative displacement, VST and VGATHER (R50), VADD.F32 w3, w1, w2 in V0, VFMA.F32 in VB and VADD.BF16 in V3 (R51), MMA (R52),
CYCLR tri1 (R53), CPY, QARRIVE and SEND (R54), TKSET and VSHAPE (R55), and a header with SA and LS (R31); an all-zero syllable and a scalar
destination of 56 are rejected (R35). -/
def Obligations.WrittenWordsDecode : Prop :=
  decodeSyllable 0 0x04304200 = .ok (.add 3 1 2) ∧
  decodeSyllable 0 0x58307FFF = .ok (.addi 3 1 0x3FFF) ∧
  decodeSyllable 1 0xA00217FF = .ok (.br 0 1 2 0x7FF) ∧
  decodeSyllable 2 0x043073FF = .ok (.ldd 3 1 0x3FF) ∧
  decodeSyllable 2 0x10083FE0 = .ok (.vst 1 1 0xFF 0) ∧
  decodeSyllable 2 0x1C083042 = .ok (.vgather 1 3 1 0 2) ∧
  decodeSyllable 4 0x0200C082 = .ok (.vadd 0 false 3 1 2) ∧
  decodeSyllable 3 0x08008001 = .ok (.vfma 0 false 2 0 1) ∧
  decodeSyllable 7 0x0242858C = .ok (.vadd 1 false 10 11 12) ∧
  decodeSyllable 12 0x08884004 = .ok (.mma 1 1 2 0 1 false false) ∧
  decodeSyllable 13 0x3A000000 = .ok (.cyclr 1) ∧
  decodeSyllable 14 0x0C028000 = .ok (.cpy 10 0 false) ∧
  decodeSyllable 14 0x48038000 = .ok (.qarrive 14 0) ∧
  decodeSyllable 14 0x20518201 = .ok (.send 5 6 2 false 1) ∧
  decodeSyllable 15 0x18000105 = .ok (.tkset 1 5) ∧
  decodeSyllable 15 0x0C800001 = .ok (.vshape true 0 0 1) ∧
  decodeSyllable 0 0 = .error .zero ∧
  decodeSyllable 0 0x07800000 = .error .illegalField ∧
  headerOf 0x00050000 = ⟨5, false, false, false, false, false, false, false⟩

/-- Decoding the encoding of a well-formed syllable gives it back, in every slot in which it may stand, with every operand
at every value that the encoding admits (R35, R41 to R55). -/
def Obligations.DecodeOfEncode : Prop :=
  ∀ (i : Instr) (slot : Nat), i.wellFormed = true → fitsSlot i slot = true → decodeSyllable slot i.encode = .ok i

/-- An accepted word is the encoding of what it decodes to: no reserved bit set is accepted, and the operands lie within
their limits (R35). -/
def Obligations.AcceptedWordsAreEncodings : Prop :=
  ∀ (slot : Nat) (w : Word32) (i : Instr), decodeSyllable slot w = .ok i → i.encode = w ∧ i.wellFormed = true

/-- The mirror bits of a header with their primary and mirror slots (R31, R39). -/
def Sys2Proof.Claims.mirrorBits : List (Nat × Nat × Nat) := [(8, 0, 1), (9, 4, 5), (10, 6, 7), (11, 8, 9), (12, 10, 11)]

/-- R32: when a header is malformed, and that its bundle then raises ILLEGAL_ENCODING from the header, with no slot decoded:
the trap of ILLEGAL_ENCODING with FMASK bit 16 alone is the whole effect of the issue. -/
def Obligations.MalformedHeaders : Prop :=
  (∀ (w : Word32) (syl : List (Nat × Word32)), (headerError w syl).isSome = true ↔
    (w.extractLsb' 13 3 ≠ 0 ∨ w.extractLsb' 0 6 ≠ 0) ∨
    (w.getLsbD 19 = true ∧ ∃ k, k < 8 ∧ w.getLsbD (20 + k) = true) ∨
    (∃ m ∈ mirrorBits, w.getLsbD m.1 = true ∧
      (w.getLsbD (16 + m.2.1) = false ∨ w.getLsbD (16 + m.2.2) = false ∨ slotWord syl m.2.2 ≠ slotWord syl m.2.1 ∨
        ((slotWord syl m.2.1).map (mirrorable m.2.1)).getD false = false))) ∧
  (∀ (s : State) (w : Word32) (syl : List (Nat × Word32)), (headerError w syl).isSome = true →
    ∃ v, s.issueBundle s.issue.core s.issue.strand w syl =
      ((({ s with issue := v } : State).takeTrap s.issue.core s.issue.strand (causeWord 0x01 0 16 0 0 (headerOf w).length)
        (BitVec.ofNat 17 (2 ^ 16)) (w.setWidth 64) s.issue.addr).advance s.issue.core s.issue.strand).pickNext s.issue.core)

/-! ## Reset -/

/-- The reset column of the tables of the control registers, R97, R98, R102, R145, R155, R184, R224, R245, R339, R340, R341, R349,
R359 and R377: FROSTSW 32, everything else 0 (PRIV as for a node strand, TVEC as for a conductor). -/
def Sys2Proof.Claims.controlsAtReset (k : Ctl) : Prop :=
  k.frostsw = 32 ∧ k.priv = false ∧ k.ppriv = false ∧ k.exl = false ∧ k.mirrorPending = false ∧ k.cause = 0 ∧ k.fmask = 0 ∧
  k.finfo = 0 ∧ k.epc = 0 ∧ k.tvecEn = false ∧ k.tvecBase = 0 ∧ k.poison = false ∧ k.mm = false ∧ k.retry = 0 ∧ k.norec = false ∧
  k.pcount = 0 ∧ k.ftv = 0 ∧ k.progidx = 0 ∧ k.waitLast = 0 ∧ k.waitCyc = 0 ∧ k.spincnt = 0 ∧ k.vstride = 0 ∧ k.lgstride = 0 ∧
  k.ydist = 0 ∧ k.overdue = false ∧ k.lost = 0 ∧ k.half = false ∧ k.defer = false ∧ k.nonfin = false ∧ k.gsat = false ∧
  k.sing = false ∧ k.ovf = false ∧ ∀ n : Fin 6, k.lc[n] = 0 ∧ k.lstep[n] = 0

/-- What the machine and its parts hold right after reset, as far as the tables of the spec state it: every core and every team
entry is free, and the management interface ready; a strand has its control registers at the reset values of their tables, every
vector shape 1 x 1 at window base 0 with mode predicate 0 (R152), the geometry 63, 63, 127 (R201); operand slots are FREE
(R193); a team-table entry has the reset values of R365, SPINLIM 64 (R102), every token idle, every join FREE (R317), every
tile-table word zero (R297); a die has the parameter block of R366. -/
def Obligations.ResetHolds : Prop :=
  State.reset.ready = true ∧
  (∀ c n, (State.reset.strand c n).mode = .inactive ∧ controlsAtReset (State.reset.strand c n).ctl ∧
    (State.reset.strand c n).nest = none ∧ (State.reset.strand c n).phase = none ∧
    (∀ g, let l := (State.reset.strand c n).lane g; l.wb = 0 ∧ l.rows = 1 ∧ l.cols = 1 ∧ l.mode = 0) ∧
    (State.reset.strand c n).geoRows = 63 ∧ (State.reset.strand c n).geoCols = 63 ∧ (State.reset.strand c n).geoKlim = 127) ∧
  (∀ c o, ((State.reset.core c).slot o).holder = none) ∧
  (∀ d t, let m := State.reset.team d t
    m.st = 0 ∧ m.weight = 1 ∧ m.cls = 0 ∧ m.gust = 0 ∧ m.lull = 0 ∧ m.deficit = 0 ∧ m.cap = 0 ∧ m.borrow = 0 ∧ m.lsize = 3 ∧
    m.spinlim = 64 ∧ (∀ k, (m.token k).st = .idle) ∧ (∀ q, (m.joinAt q).st = .free) ∧
    ∀ i w, look 0 (State.reset.tile d t i).words w = 0) ∧
  (∀ d, let k := State.reset.die d
    k.qbase = 42500 ∧ k.quantum = 170000 ∧ k.grace = 85000 ∧ k.bcap = 170000 ∧ k.wdwait = 100000)

/-- The invariant holds right after reset. The canonical form is the model's own (log 2). -/
def Obligations.InvariantAtReset : Prop := Inv State.reset

/-- Every step keeps device memory in its canonical form: addresses rise, and no listed byte is one that an unlisted byte reads
as. The canonical form is the model's own (log 2). -/
def Obligations.InvariantKept : Prop := ∀ s t : State, Inv s → step s = .next t → Inv t

/-! ## Steps -/

/-- No instruction and no event stops the machine: in every state each of them answers a next state (faults of a program are
traps, R338). -/
def Sys2Proof.Claims.everyInstructionAnswers : Prop := ∀ (i : Instr) (s : State), ∃ t, exec i s = .next t

/-- A step stops only where its agenda names a core that the package does not have or a syllable outside a bundle. -/
def Sys2Proof.Claims.stopsOfAStep : Prop :=
  ∀ s : State, (∃ t, step s = .next t) ∨
    (∃ c rest, s.agenda = .core c :: rest ∧ 1024 ≤ c ∧ step s = .fault .noSuchCore) ∨
    (∃ i rest, s.agenda = .event i :: rest ∧ isPresented i = true ∧ step s = .refused .syllableInAgenda)

/-- In every state each instruction and event answers a next state, and a step stops only on an agenda that names no core of the
package or a syllable outside a bundle. That an event whose conditions do not hold changes nothing is the model's choice (log
6), and so is the agenda (log 5). -/
def Obligations.NoInstructionStops : Prop := everyInstructionAnswers ∧ stopsOfAStep

/-- The state in which a core's running strand presents its bundle in a cycle of the core: time caught up, work that has
come due landed, blocked strands looked at, results due written. -/
def Sys2Proof.Claims.cycleStart (s : State) (rest : List Turn) (c : Nat) : State :=
  (({ s with agenda := rest }.catchUp c).settleCore c).wakeStrands c

def Sys2Proof.Claims.presenting (s : State) (c n : Nat) : State :=
  let s := s.writeDue c n
  { s with issue := { Issue.reset with core := c, strand := n, addr := (s.strand c n).pc, len := 0 } }

/-- A step of a core whose running strand presents a bundle of one syllable runs exactly the instruction that the word decodes
to: exec of it on the admitted state, after the strand's cursor has moved past the bundle (R30, R94), then the counters of the
issue, the end of the cycle, and the departure of a strand that the frost line held (R93). The contract of exec (its slot, strand
and core) and the order of moves are the model's choices (log 5, log 89). -/
def Obligations.StepRunsTheDecodedInstruction : Prop :=
  ∀ (s t : State) (c n slot team : Nat) (rest : List Turn) (i : Instr) (w h : Word32),
    s.agenda = .core c :: rest → c < 1024 →
    (((({ s with agenda := rest } : State).catchUp c).settleCore c).teamOn c) = some team →
    (((({ s with agenda := rest } : State).catchUp c).settleCore c).team (coreDie c) team).st = 4 →
    ((cycleStart s rest c).core c).running = some n → ((cycleStart s rest c).core c).switchLeft = 0 →
    ((cycleStart s rest c).strand c n).late = false → ((cycleStart s rest c).core c).stall = 0 →
    ∀ p, p = presenting (cycleStart s rest c) c n →
    (p.strand c n).ending = false → (p.strand c n).issueAt ≤ (p.strand c n).time → (p.die (coreDie c)).throttling = false →
    (p.team (coreDie c) (p.teamAt c)).st = 4 → (p.strand c n).spin = none → (p.strand c n).badStep = none →
    slot < 16 → h = BitVec.ofNat 32 (2 ^ (16 + slot)) →
    p.fetchWord c (p.strand c n).pc.toNat = .ok h →
    p.startBit (coreDie c) (p.vfAt c) (p.strand c n).pc.toNat = true →
    p.fetchWords c 1 ((p.strand c n).pc.toNat + 4) = .ok [w] →
    decodeSyllable slot w = .ok i →
    ∀ q, q = ((p.noteFetch c (p.strand c n).pc.toNat).noteFetch c ((p.strand c n).pc.toNat + 4)) →
    ∀ q', q' = ({ q with issue := { q.issue with len := 2 } } : State).modMe Strand.takeStep →
    ((q'.atSlot slot false []).run i).issue.verdict = none →
    ∀ a, a = q'.admitted (headerOf h) →
    exec i { a with issue := { a.issue with slot := slot, mirrored := false } } = .next t →
    step s = .next (((let u := t.closeIssue c n
      if (u.core c).running == some n then u.advance c n else u).endCycle c true).departs c)

/-! ## Scalar results -/

/-- R88, R89, R103, R105 to R107: what every scalar integer instruction without a divide answers, and when its result is due
(R94). -/
def Obligations.IntegerResults : Prop :=
  ∀ (s : State) (d a b p l n : BitVec 6) (u : Bool) (m : BitVec 14) (h : BitVec 20) (k : BitVec 3),
  Completes (.add d a b) s (twoNext s d a b 1 fun x y => x + y) ∧
  Completes (.sub d a b) s (twoNext s d a b 1 fun x y => x - y) ∧
  Completes (.mul d a b) s (twoNext s d a b 3 fun x y => x * y) ∧
  Completes (.mulh d a b u) s (twoNext s d a b 3 (upperProduct u)) ∧
  Completes (.and d a b) s (twoNext s d a b 1 fun x y => x &&& y) ∧
  Completes (.or d a b) s (twoNext s d a b 1 fun x y => x ||| y) ∧
  Completes (.xor d a b) s (twoNext s d a b 1 fun x y => x ^^^ y) ∧
  Completes (.shl d a b) s (twoNext s d a b 1 fun x y => x <<< (y.extractLsb' 0 6).toNat) ∧
  Completes (.shr d a b) s (twoNext s d a b 1 fun x y => x >>> (y.extractLsb' 0 6).toNat) ∧
  Completes (.sar d a b) s (twoNext s d a b 1 fun x y => x.sshiftRight (y.extractLsb' 0 6).toNat) ∧
  Completes (.slt d a b u) s (twoNext s d a b 1 fun x y =>
    if (if u then decide (x.toNat < y.toNat) else decide (x.toInt < y.toInt)) then 1 else 0) ∧
  Completes (.seq d a b) s (twoNext s d a b 1 fun x y => if x = y then 1 else 0) ∧
  Completes (.min d a b u) s (twoNext s d a b 1 fun x y =>
    if (if u then decide (y.toNat < x.toNat) else decide (y.toInt < x.toInt)) then y else x) ∧
  Completes (.max d a b u) s (twoNext s d a b 1 fun x y =>
    if (if u then decide (x.toNat < y.toNat) else decide (x.toInt < y.toInt)) then y else x) ∧
  Completes (.sel d a b) s ((s.src2 a b).2.result 1
    (.x d (if s.me.reg d = 0 then (s.src2 a b).1.2.1 else (s.src2 a b).1.1)) (s.me.regMark d || (s.src2 a b).1.2.2)) ∧
  Completes (.agen d a b k) s (twoNext s d a b 1 fun x y => x + y * BitVec.ofNat 64 (2 ^ k.toNat)) ∧
  Completes (.clz d a) s (oneNext s d a 1 fun x => BitVec.ofNat 64 (leadingZeros x)) ∧
  Completes (.ctz d a) s (oneNext s d a 1 fun x => BitVec.ofNat 64 (trailingZeros x)) ∧
  Completes (.popc d a) s (oneNext s d a 1 fun x => BitVec.ofNat 64 ((List.range 64).filter x.getLsbD).length) ∧
  Completes (.brev d a) s (oneNext s d a 1 fun x => x.reverse) ∧
  Completes (.peek d k) s (let e := (look [] s.issue.popped k.toNat ++ s.me.stream k.toNat).headD { val := 0, mark := false }
    valueNext s d 1 e.val e.mark) ∧
  Completes (.bfx d a p l) s (oneNext s d a 1 fun x => (x >>> p.toNat) &&& BitVec.ofNat 64 (2 ^ (l.toNat + 1) - 1)) ∧
  Completes (.bfi d a p l) s (keepNext s d a (insertField p.toNat (l.toNat + 1))) ∧
  Completes (.addi d a m) s (oneNext s d a 1 fun x => x + m.signExtend 64) ∧
  Completes (.andi d a m) s (oneNext s d a 1 fun x => x &&& m.setWidth 64) ∧
  Completes (.ori d a m) s (oneNext s d a 1 fun x => x ||| m.setWidth 64) ∧
  Completes (.xori d a m) s (oneNext s d a 1 fun x => x ^^^ m.setWidth 64) ∧
  Completes (.shli d a n) s (oneNext s d a 1 fun x => x <<< n.toNat) ∧
  Completes (.shri d a n) s (oneNext s d a 1 fun x => x >>> n.toNat) ∧
  Completes (.sari d a n) s (oneNext s d a 1 fun x => x.sshiftRight n.toNat) ∧
  Completes (.slti d a m) s (oneNext s d a 1 fun x => if x.toInt < m.toInt then 1 else 0) ∧
  Completes (.movi d h) s (valueNext s d 1 (h.signExtend 64) false) ∧
  Completes (.movhi d h) s (valueNext s d 1 ((h.setWidth 64 <<< 12) ||| (s.me.reg d &&& 0xFFF)) (s.me.regMark d)) ∧
  Completes (.movhh d h) s (valueNext s d 1 ((h.setWidth 64 <<< 44) ||| (s.me.reg d &&& 0xFFFFFFFFFFF)) (s.me.regMark d))

/-- R106 bit by bit: BFX moves bits [pos + len - 1 : pos] to the bottom and clears the rest; BFI puts the low len bits of xa at
[pos + len - 1 : pos] and keeps the rest of xd. -/
def Sys2Proof.Claims.bitFields : Prop :=
  ∀ (pos len j : Nat) (x y : Word), 1 ≤ len → pos + len ≤ 64 → j < 64 →
    (extractField pos len x).getLsbD j = (decide (j < len) && x.getLsbD (pos + j)) ∧
    (insertField pos len x y).getLsbD j = (if pos ≤ j ∧ j < pos + len then y.getLsbD (j - pos) else x.getLsbD j)

/-- R105: CLZ and CTZ count the zero bits above the highest and below the lowest set bit; both give 64 for 0. -/
def Sys2Proof.Claims.zeroCounts : Prop :=
  leadingZeros 0 = 64 ∧ trailingZeros 0 = 64 ∧
  ∀ x : Word, x ≠ 0 →
    (leadingZeros x < 64 ∧ x.getLsbD (63 - leadingZeros x) = true ∧ ∀ j, 63 - leadingZeros x < j → x.getLsbD j = false) ∧
    (trailingZeros x < 64 ∧ x.getLsbD (trailingZeros x) = true ∧ ∀ j, j < trailingZeros x → x.getLsbD j = false)

/-- R105, R106: the bit fields and the zero counts, bit by bit. -/
def Obligations.BitFieldsAndCounts : Prop := bitFields ∧ zeroCounts

/-- R104: DIV and REM, in SB alone, answer at latency 20 once the divide unit of SB is free, and keep it busy for 20 cycles; by zero
the quotient is all ones and the remainder the dividend; the most negative number by -1 gives itself and 0; else the quotient
rounds toward zero and the remainder is what is left. A DIV, REM, FDIV or FSQRT in SB that finds the unit busy is held for the cycle:
nothing of it is done, and strand time and the core's matrix and Eddy time pass. -/
def Obligations.DivisionResults : Prop :=
  (∀ (s : State) (d a b : BitVec 6) (u : Bool),
    let idle := ¬ s.myCore.mtime < s.myCore.divB
    let busy := fun (t : State) => t.modMyCore fun k => { k with divB := k.mtime + 20 }
    Completes (.div d a b u) s ((busy (s.src2 a b).2).result 20 (.x d (divide u (s.src2 a b).1.1 (s.src2 a b).1.2.1).1)
      (s.src2 a b).1.2.2) idle ∧
    Completes (.rem d a b u) s ((busy (s.src2 a b).2).result 20 (.x d (divide u (s.src2 a b).1.1 (s.src2 a b).1.2.1).2)
      (s.src2 a b).1.2.2) idle) ∧
  (∀ (u : Bool) (a : Word), divide u a 0 = (BitVec.allOnes 64, a)) ∧
  divide false (BitVec.intMin 64) (BitVec.allOnes 64) = (BitVec.intMin 64, 0) ∧
  (∀ a b : Word, b ≠ 0 → (divide true a b).1 * b + (divide true a b).2 = a ∧ (divide true a b).2.toNat < b.toNat) ∧
  (∀ a b : Word, b ≠ 0 → ¬ (a = BitVec.intMin 64 ∧ b = BitVec.allOnes 64) →
    (divide false a b).1.toInt * b.toInt + (divide false a b).2.toInt = a.toInt ∧
    (divide false a b).2.toInt.natAbs < b.toInt.natAbs ∧
    ((divide false a b).2 = 0 ∨ ((divide false a b).2.toInt < 0 ↔ a.toInt < 0))) ∧
  (∀ (s : State) (i : Instr) (d a b : BitVec 6) (u : Bool) (p : BitVec 2) (r : BitVec 3),
    i = .div d a b u ∨ i = .rem d a b u ∨ i = .fdiv d a b p r ∨ i = .fsqrt d a p r → s.issue.slot = 1 → s.issue.admitted = false →
    Clear i s → s.myCore.mtime < s.myCore.divB →
    ∃ t, exec i s = .next t ∧ t = ({ s with issue := { s.issue with verdict := some (.hold true) } } : State).holdCycle
        s.issue.core s.issue.strand true ∧
      t.me = { s.me with time := s.me.time + 1 } ∧ t.myCore.mtime = s.myCore.mtime + 1 ∧ t.myCore.divB = s.myCore.divB ∧ t.hbm = s.hbm) ∧
  (∀ (s : State) (d a b : BitVec 6) (u : Bool), d.toNat < 56 → s.issue.slot = 0 →
    s.decodeVerdict (.div d a b u) = some (decodeFault 0x02 (.div d a b u)) ∧
    s.decodeVerdict (.rem d a b u) = some (decodeFault 0x02 (.rem d a b u))) ∧
  decodeSyllable 1 0x1491C801 = .ok (.div 9 7 8 true)

/-- R78, R108 to R112: the result, the rounding mode, the latency in each precision and the records of every scalar float
instruction; FDIV and FSQRT wait for the divide-and-root unit of their slot (and SB's, with a mirror) and occupy it. A result is marked
where a source is, and where the mode comes from RMODE and RMODE is marked (R348). -/
def Obligations.FloatResults : Prop :=
  ∀ (s : State) (d a b : BitVec 6) (p k t : BitVec 2) (r c : BitVec 3),
  let mode := r.toNat == 7 && s.me.ctlMarks.contains 0x007
  let two := fun (l : Nat) (f : RMode → Val → Val → Val) =>
    let q := s.src2 a b
    let x := floatOf p q.1.1
    let y := floatOf p q.1.2.1
    let v := (precFmt p).result (s.roundMode r) (x.isNan || y.isNan) (f (s.roundMode r) x y)
    q.2.result l (.x d (BitVec.ofNat 64 v.1)) (q.1.2.2 || mode) (q.2.eventRecords v.2)
  let ready := ¬ s.myCore.mtime < (if s.issue.slot = 0 then s.myCore.divA else s.myCore.divB) ∧
    (s.issue.mirrored = true → ¬ s.myCore.mtime < s.myCore.divB)
  let n := if p = 0 then 14 else 24
  let busy := fun (s : State) =>
    let s := s.useDivider (s.issue.slot != 0) n
    if s.issue.mirrored then s.useDivider true n else s
  Completes (.fadd d a b p r) s (two 4 Val.add) ∧
  Completes (.fsub d a b p r) s (two 4 Val.sub) ∧
  Completes (.fmul d a b p r) s (two (if p = 0 then 4 else 6) fun _ x y => x.mul y) ∧
  Completes (.fmin d a b p r) s (two 4 fun _ x y => x.min y) ∧
  Completes (.fmax d a b p r) s (two 4 fun _ x y => x.max y) ∧
  Completes (.fdiv d a b p r) s (let q := s.src2 a b
    let v := (precFmt p).divide (s.roundMode r) (floatOf p q.1.1) (floatOf p q.1.2.1)
    (busy q.2).result n (.x d (BitVec.ofNat 64 v.1)) (q.1.2.2 || mode) ((busy q.2).eventRecords v.2)) ready ∧
  Completes (.fsqrt d a p r) s (let q := s.src a
    let v := (precFmt p).sqrt (s.roundMode r) (floatOf p q.1.1)
    (busy q.2).result n (.x d (BitVec.ofNat 64 v.1)) (q.1.2 || mode) ((busy q.2).eventRecords v.2)) ready ∧
  Completes (.ffma d a b p r) s (let q := s.src2 a b
    let acc := floatOf p (s.me.reg d)
    let x := floatOf p q.1.1
    let y := floatOf p q.1.2.1
    let v := (precFmt p).result (s.roundMode r) (acc.isNan || x.isNan || y.isNan) (Val.add (s.roundMode r) acc (x.mul y))
    q.2.result (if p = 0 then 5 else 7) (.x d (BitVec.ofNat 64 v.1)) (s.me.regMark d || q.1.2.2 || mode) (q.2.eventRecords v.2)) ∧
  Completes (.fcvt d a k t r) s (let q := s.src a
    let v := toKind t (s.roundMode r) (kindOf k q.1.1)
    q.2.result 3 (.x d v.1) (q.1.2 || mode) (q.2.eventRecords v.2)) ∧
  Completes (.fcmp d a b p c) s (twoNext s d a b 2 fun x y => if fcmpHolds c (floatOf p x) (floatOf p y) then 1 else 0)

/-! ## Control flow, traps and checks -/

/-- R113, R114: where each transfer goes and when its next bundle issues: a taken displacement 2 strand cycles later, a register
target 3; CALL and JRL write the address of the next bundle at latency 1. A branch that is not taken only reads its sources. In
a loop body a taken transfer does not issue (R100), and a register target that is no multiple of 4 traps (R114): both are
stated by WaitsAndFaults. -/
def Obligations.Transfers : Prop :=
  ∀ (s : State) (a b d : BitVec 6) (c : BitVec 3) (d11 : BitVec 11) (d19 : BitVec 19) (d26 : BitVec 26) (g : Bool),
  let free := s.me.nest = none
  let whole := fun (v : Word) => v.toNat % 4 = 0
  let after := fun (t : State) (m : Bool) => if m then t.result 1 .none true else t
  let jump := fun (t : State) (v : VAddr) (n : Nat) => t.modMe fun x => { x with pc := v, issueAt := x.time + n }
  let link : Word := BitVec.ofNat 64 (s.issue.addr.toNat + 4 * s.issue.len)
  let q := s.src2 a b
  let r := s.src a
  Completes (.br c a b d11) s
    (if condHolds c (s.srcPeek a) (s.srcPeek2 a b) then jump (after q.2 q.1.2.2) (s.issue.addr + d11.signExtend 42 * 4) 2
      else after q.2 q.1.2.2) (condHolds c (s.srcPeek a) (s.srcPeek2 a b) = true → free) ∧
  Completes (.bz a d19) s
    (if s.srcPeek a = 0 then jump (after r.2 r.1.2) (s.issue.addr + d19.signExtend 42 * 4) 2 else after r.2 r.1.2)
    (s.srcPeek a = 0 → free) ∧
  Completes (.bnz a d19) s
    (if s.srcPeek a ≠ 0 then jump (after r.2 r.1.2) (s.issue.addr + d19.signExtend 42 * 4) 2 else after r.2 r.1.2)
    (s.srcPeek a ≠ 0 → free) ∧
  Completes (.jmp d26) s (jump s (s.issue.addr + d26.signExtend 42 * 4) 2) free ∧
  Completes (.call d26) s (jump (s.result 1 (.x 55 link)) (s.issue.addr + d26.signExtend 42 * 4) 2) free ∧
  Completes (.jr a g) s (jump (after r.2 r.1.2) (r.1.1.setWidth 42) 3) (free ∧ whole (s.srcPeek a)) ∧
  Completes (.jrl d a g) s (jump ((after r.2 r.1.2).result 1 (.x d link)) (r.1.1.setWidth 42) 3)
    (free ∧ whole (s.srcPeek a))

/-- R98, R99: LOOP latches the counts of LC 0 to p - 1 and the steps of LSTEP 0 to p - 1, and consumes their marks (R348); with every
count positive the nest of n bundles (64 for 0) that follow begins with every index 0; with a zero count the body is skipped and
the next bundle issues 2 cycles later. -/
def Sys2Proof.Claims.loopBegins : Prop :=
  ∀ (s : State) (n : BitVec 6) (p : BitVec 3),
  let counts := (s.me.ctl.lc.toList.take p.toNat).map BitVec.toNat
  let steps := (s.me.ctl.lstep.toList.take p.toNat).zipIdx.map fun w => (w.1, s.me.ctlMarks.contains (0x018 + w.2))
  let marked := (List.range p.toNat).any fun k => s.me.ctlMarks.contains (0x010 + k) || s.me.ctlMarks.contains (0x018 + k)
  let body := if n = 0 then 64 else n.toNat
  let next := s.issue.addr.toNat + 4 * s.issue.len
  let u := if marked then s.result 1 .none true else s
  Completes (.loop n p) s
    (if counts.any (· == 0) then u.modMe fun t =>
        { t with pc := BitVec.ofNat 42 (u.skipBundles s.issue.core body next), issueAt := t.time + 2 }
      else
        let nest : Nest := { depth := p.toNat, body := body, pos := 0, first := BitVec.ofNat 42 next, counts := counts
                             steps := steps, idx := counts.map fun _ => 0, due := false }
        u.modMe fun t => { t with nest := some nest })
    (s.me.nest = none)

/-- R99: a nest runs its body once for every index vector, dimension 0 fastest: the last bundle of a pass is followed by the
first with the advance due, until every index is at its last value; an advance raises the first index that is below its last
value, sets those before it to 0, and adds the latched step of the dimension that advances to its base register. -/
def Sys2Proof.Claims.loopAdvances : Prop :=
  (∀ q : Nest, q.next = if q.pos + 1 < q.body then some { q with pos := q.pos + 1 }
    else if (q.idx.zip q.counts).all (fun p => p.1 + 1 == p.2) then none else some { q with pos := 0, due := true }) ∧
  (∀ (idx counts : List Nat) (k : Nat), idx.length = counts.length → (∀ p ∈ idx.zip counts, p.1 < p.2) → k < idx.length →
    (∀ j, j < k → (idx[j]?).map (· + 1) = counts[j]?) → (idx[k]?).map (· + 1) ≠ counts[k]? →
    advanceIdx idx counts 0 = (List.replicate k 0 ++ ((idx[k]?).getD 0 + 1) :: idx.drop (k + 1), k)) ∧
  ∀ (t : Strand) (q : Nest), t.nest = some q → q.due = true →
    let r := advanceIdx q.idx q.counts 0
    let w := nth (0, false) q.steps r.2
    let base : BitVec 6 := w.1.extractLsb' 48 6
    t.takeStep.nest = some { q with idx := r.1, due := false } ∧
    (∀ x : BitVec 6, t.takeStep.reg x =
      if x = base ∧ 1 ≤ base.toNat ∧ base.toNat ≤ 55 then t.reg base + (w.1.extractLsb' 0 48).signExtend 64 else t.reg x) ∧
    ∀ x : BitVec 6, t.takeStep.regMark x =
      if x = base ∧ 1 ≤ base.toNat ∧ base.toNat ≤ 55 then (t.regMark base || w.2) else t.regMark x

/-- R98, R99: LOOP, and the passes of a nest. -/
def Obligations.Loops : Prop := loopBegins ∧ loopAdvances

/-- R33, R113, R118, R352, R355, R379: NOP changes nothing; CMPT goes on when its relation holds; CHKERR writes the error bits
(and with C, outside a phase, clears them) when it neither traps nor rolls back; ENDK ends the strand's issue and its phase;
YIELD makes the next bundle a yield point. Which consumptions CHKERR sees and the wait reason of ENDK are the model's reading
(log 21, log 27). -/
def Obligations.ChecksAndEnds : Prop :=
  ∀ (s : State) (a b d : BitVec 6) (c : BitVec 3) (t k y : Bool),
  let q := s.src2 a b
  exec (.nop y k) s = .next s ∧
  Completes (.cmpt a b c) s (if q.1.2.2 then q.2.result 1 .none true else q.2)
    (condHolds c (s.srcPeek a) (s.srcPeek2 a b) = true) ∧
  (s.me.ctl.poison = false → s.me.ctl.mm = false →
    Completes (.chkerr d t k) s (s.result 2 (.x d 0))) ∧
  ((s.me.ctl.poison || s.me.ctl.mm) = true → s.me.phase = none →
    Completes (.chkerr d t k) s
      (let u := s.result 2 (.x d ((if s.me.ctl.poison then 1 else 0) + (if s.me.ctl.mm then 2 else 0)))
       if k then u.modMe fun x => { x with ctl := { x.ctl with poison := false, mm := false } } else u)
      (t = false)) ∧
  (s.me.condemned = none → ∃ u,
    Completes .endk s u ∧ u.me.ending = true ∧ u.me.nest = none ∧ u.me.phase = none ∧ u.me.pend = s.me.pend ∧ u.me.x = s.me.x) ∧
  ∃ u, Completes .yield s u ∧ u.me.yieldNext = true ∧ u.me.ctl.ydist = 0 ∧ u.me.ctl.overdue = false ∧ u.me.x = s.me.x ∧
    u.me.pend = s.me.pend ∧ u.me.pc = s.me.pc

/-- R353: in an open phase, with an error bit set, retries left and nothing unrecorded, CHKERR rolls the phase back: the
registers, the nest and the pc are those of its start, results in flight and blocks are gone, the error bits are clear, and RETRY
counts. -/
def Sys2Proof.Claims.rollback : Prop :=
  ∀ (s : State) (d : BitVec 6) (t k : Bool) (ph : Phase), s.me.phase = some ph → (s.me.ctl.poison || s.me.ctl.mm) = true →
  ∃ u, Completes (.chkerr d t k) s u (s.me.ctl.retry ≠ 3 ∧ s.me.ctl.norec = false) ∧
    u.me.x = ph.regs ∧ u.me.pc = ph.first ∧ u.me.nest = ph.nest ∧ u.me.pend = [] ∧ u.me.blocks = [] ∧
    u.me.ctl.poison = false ∧ u.me.ctl.mm = false ∧ u.me.ctl.retry = s.me.ctl.retry + 1 ∧ u.me.phase = some ph ∧
    u.me.issueAt = s.me.time + 4

/-- R119: phase.begin records the strand as it goes on after the bundle, with its registers as they stand at issue (log 120),
phase.commit closes the phase; both at latency 1, when the phase before commits. A length that is no multiple of 64 is ILLEGAL_ENCODING. -/
def Sys2Proof.Claims.phases : Prop :=
  ∀ (s : State) (a b : BitVec 6),
  let q := s.src2 a b
  let begun : Phase := { first := q.2.me.pc, nest := q.2.me.nest, regs := q.2.me.x, marks := q.2.me.marks
                         bad := q.2.me.bad.filter (·.kind == .scalarReg), base := q.1.1, len := q.1.2.1.toNat, recorded := [], firstCmd := s.nextId }
  Completes (.phaseBegin a b) s (q.2.result 1 (.phase (some begun)) q.1.2.2)
    ((s.srcPeek2 a b).toNat % 64 = 0) ∧
  Completes .phaseCommit s (s.result 1 (.phase none)) ∧
  (s.issue.admitted = false → Clear (.phaseBegin a b) s → (s.srcPeek2 a b).toNat % 64 ≠ 0 →
    ∃ v, exec (.phaseBegin a b) s = .next (({ s with issue := v } : State).takeTrap s.issue.core s.issue.strand
      (causeWord 0x01 0 s.issue.slot 0 0 s.issue.len) (BitVec.ofNat 17 (2 ^ s.issue.slot))
      ((Instr.phaseBegin a b).encode.setWidth 64) s.issue.addr))

/-- R119, R352, R353: phases open, commit and roll back. The nest that a rollback restores and the registers that a phase records are
the model's readings (log 24, log 120). -/
def Obligations.PhasesAndRollback : Prop := rollback ∧ phases

/-- R345: TRAP raises TRAP_INSTR with FINFO the immediate, and nothing of its bundle commits: its own effect is the trap of its slot, taken
from the state in which the bundle was presented, with EPC that bundle's address and CAUSE.LEN its length, so that an ERET to that
EPC meets the TRAP again. It encodes as 0xC000_0000 plus the code, and stands in SB alone. -/
def Obligations.TrapInstruction : Prop :=
  (∀ (s : State) (c : BitVec 20), s.issue.admitted = false → Clear (.trap c) s →
    exec (.trap c) s = .next (({ s with issue := { s.issue with
        verdict := some (.fault 0x11 0 (c.setWidth 64) 0 0 false) } }).takeTrap s.issue.core s.issue.strand
      (causeWord 0x11 0 s.issue.slot 0 0 s.issue.len) (BitVec.ofNat 17 (2 ^ s.issue.slot)) (c.setWidth 64) s.issue.addr)) ∧
  (∀ c : BitVec 20, (Instr.trap c).encode = 0xC0000000 + c.setWidth 32 ∧
    decodeSyllable 1 (0xC0000000 + c.setWidth 32) = .ok (.trap c)) ∧
  ∀ (s : State) (c : BitVec 20), s.issue.slot = 0 → s.decodeVerdict (.trap c) = some (decodeFault 0x02 (.trap c))

/-! ## Special registers, tokens, descriptors -/

/-- R98, R101, R102, R120: MFC answers the register at latency 1; MTC answers a write of the register due at latency 1. The registers
of R101 read field by field as they stood when the bundle issued: a syllable of a bundle that has been admitted does not see what
the issue itself changes (YDIST, the loop nest). -/
def Obligations.SpecialRegisters : Prop :=
  (∀ (s : State) (d a : BitVec 6) (i : BitVec 12),
    Completes (.mfc d i) s (valueNext s d 1 (s.readCtl i.toNat) (s.me.ctlMarks.contains i.toNat))
      (s.me.isBad .controlReg 0 i.toNat = false) ∧
    Completes (.mtc a i) s ((s.src a).2.result 1 (.ctrl i (s.src a).1.1) (s.src a).1.2)) ∧
  (∀ (s : State) (h : Header), (s.admitted h).issue.seen = some (s.me.ctl, (s.me.nest.map (·.idx)).getD [])) ∧
  ∀ s : State,
    let seen := s.issue.seen.getD (s.me.ctl, (s.me.nest.map (·.idx)).getD [])
    let k := seen.1
    s.readCtl 0x001 = k.cause ∧ s.readCtl 0x002 = zext64 k.epc ∧ s.readCtl 0x003 = zext64 k.fmask ∧ s.readCtl 0x004 = k.finfo ∧
    s.readCtl 0x007 = zext64 k.rmode ∧ s.readCtl 0x009 = k.progidx ∧ s.readCtl 0x00B = zext64 k.frostsw ∧
    s.readCtl 0x020 = zext64 k.vstride ∧ s.readCtl 0x021 = zext64 k.lgstride ∧ s.readCtl 0x040 = zext64 s.myTeam.spinlim ∧
    s.readCtl 0x041 = zext64 k.spincnt ∧ s.readCtl 0x043 = zext64 s.myTeam.gang ∧ s.readCtl 0x047 = zext64 k.poolpart ∧
    (s.readCtl 0x000).getLsbD 0 = k.priv ∧ (s.readCtl 0x000).getLsbD 1 = k.ppriv ∧ (s.readCtl 0x000).getLsbD 2 = k.exl ∧
    (s.readCtl 0x000).getLsbD 3 = k.mirrorPending ∧
    (s.readCtl 0x005).getLsbD 0 = k.tvecEn ∧ (s.readCtl 0x005).extractLsb' 2 40 = k.tvecBase ∧
    (∀ n : Fin 6, (s.readCtl (0x010 + n)).extractLsb' 0 32 = k.lc[n] ∧
      (s.readCtl (0x010 + n)).extractLsb' 32 32 = BitVec.ofNat 32 (nth 0 seen.2 n) ∧ s.readCtl (0x018 + n) = zext64 k.lstep[n]) ∧
    s.readCtl 0x042 = BitVec.ofNat 64 (s.myTeamIndex + 2 ^ 16 * s.myTeam.vf + 2 ^ 25 * s.myTeam.part) ∧
    (s.readCtl 0x045).toNat = s.issue.core % 8 ∧ (s.readCtl 0x046).toNat = s.logicalCluster s.issue.core ∧
    (∀ n : Fin 16, s.readCtl (0x030 + n) = if k.mslot.getLsbD n then 1 else 0) ∧
    (s.readCtl 0x006).getLsbD 0 = k.poison ∧ (s.readCtl 0x006).getLsbD 1 = k.mm ∧ (s.readCtl 0x006).extractLsb' 2 2 = k.retry ∧
    (s.readCtl 0x006).getLsbD 4 = s.me.phase.isSome ∧ (s.readCtl 0x006).getLsbD 5 = k.norec ∧
    (s.readCtl 0x006).extractLsb' 16 16 = k.pcount ∧ (s.readCtl 0x008).extractLsb' 0 8 = k.ftv ∧
    (s.readCtl 0x00A).extractLsb' 0 4 = 0 ∧ (s.readCtl 0x00A).extractLsb' 4 4 = k.waitLast ∧
    (s.readCtl 0x00A).extractLsb' 8 32 = k.waitCyc ∧ (s.issue.strand < 4 → (s.readCtl 0x044).getLsbD 2 = s.meConductor) ∧
    (s.readCtl 0x048).extractLsb' 0 32 = k.ydist ∧ (s.readCtl 0x048).getLsbD 32 = k.overdue ∧
    (s.me.stats.length ≤ 64 → (s.readCtl 0x050).extractLsb' 0 16 = BitVec.ofNat 16 s.me.stats.length ∧
      (s.readCtl 0x050).extractLsb' 16 32 = k.lost) ∧
    (s.readCtl 0x060).getLsbD 0 = k.half ∧ (s.readCtl 0x060).getLsbD 1 = k.defer ∧ (s.readCtl 0x060).getLsbD 2 = k.nonfin ∧
    (s.readCtl 0x060).getLsbD 3 = k.gsat ∧ (s.readCtl 0x060).getLsbD 4 = k.sing ∧ (s.readCtl 0x060).getLsbD 5 = k.ovf

/-- R101, R120: what a write of MTC leaves in the register file when it is due, register by register; read-only bits keep. -/
def Obligations.ControlWrites : Prop :=
  ∀ (k : Ctl) (v : Word),
    k.write 0x000 v = { k with ppriv := v.getLsbD 1, exl := v.getLsbD 2, mirrorPending := k.mirrorPending && !v.getLsbD 3 } ∧
    k.write 0x005 v = { k with tvecEn := v.getLsbD 0, tvecBase := v.extractLsb' 2 40 } ∧
    k.write 0x006 v = { k with poison := v.getLsbD 0, mm := v.getLsbD 1 } ∧
    k.write 0x007 v = { k with rmode := v.extractLsb' 0 2 } ∧ k.write 0x008 v = { k with ftv := v.extractLsb' 0 8 } ∧
    k.write 0x00B v = { k with frostsw := v.extractLsb' 0 16 } ∧
    (∀ n : Fin 6, k.write (0x010 + n) v = { k with lc := k.lc.set n (v.extractLsb' 0 32) } ∧
      k.write (0x018 + n) v = { k with lstep := k.lstep.set n (v.extractLsb' 0 54) }) ∧
    k.write 0x020 v = { k with vstride := v.extractLsb' 0 26 } ∧ k.write 0x021 v = { k with lgstride := v.extractLsb' 0 26 } ∧
    (∀ n m : Fin 16, (k.write (0x030 + n) v).mslot.getLsbD m = if m = n then v.getLsbD 0 else k.mslot.getLsbD m) ∧
    (∀ (s : State) (c n : Nat),
      s.writeCtl c n 0x002 v = s.modStrand c n (fun t => { t with ctl := { t.ctl with epc := v.extractLsb' 0 42 } }) ∧
      s.writeCtl c n 0x040 v = s.modTeam (coreDie c) (s.teamAt c) fun t => { t with spinlim := v.extractLsb' 0 16 })

/-- R115, R117, R245, R246, R248, R277, R348, R360: what the token, statistics and descriptor syllables and LAUNCH answer. TKWAIT goes
on on a produced token and on the same terms as TKTEST, which never waits; on a pending token it blocks, and its reason is PEER_LOST,
LANDING_FULL or TOKEN; an idle one raises TOKEN. TKSET sets a token that is not pending; a pending one raises TOKEN. STPOP takes
the oldest record of an earlier cycle, or answers zeros; ESET writes two fields at once; EGET reads one at latency 2. LAUNCH goes once
every earlier access of the strand is performed, its block stores, own-pool writes and committed lines among them, and answers its
status at latency 2; a refused launch with a token produces it as an error; an accepted one leaves the token pending and one launch,
not yet started, with the entry, argument, partition, clusters and handler of the record, of all its node strands.
-/
def Sys2Proof.Claims.tokensAndDescriptors : Prop :=
  ∀ (s : State) (a b d x : BitVec 6) (k : BitVec 2) (t : BitVec 8) (e f : BitVec 5),
  let st := (s.myTeam.token t.toNat).st
  let even : BitVec 6 := BitVec.ofNat 6 (2 * e.toNat)
  Completes (.tkwait d t) s (s.tokenResult d t.toNat) (st = .ok ∨ st = .cancelled ∨ st = .error) ∧
  (s.issue.admitted = false → Clear (.tkwait d t) s →
    (st = .pending → exec (.tkwait d t) s = .next (s.refuse (.block
      (if s.tokenPeerLost s.myDie s.myTeamIndex t.toNat then 12 else if s.tokenInRetry s.myDie s.myTeamIndex t.toNat then 6 else 2)
      [] none none))) ∧
    (st = .idle → exec (.tkwait d t) s = .next (s.refuse (.fault 0x0E 0 (zext64 t) 0 0 false)))) ∧
  Completes (.tktest d t) s (s.tokenResult d t.toNat) ∧
  (∃ ps, (s.tokenResult d t.toNat).me.pend = s.me.pend ++ ps ∧ ps.map (·.write) = [.x d (match st with
    | .ok => 0
    | .cancelled => 1
    | .error => 2
    | .pending => 3
    | .idle => 4), .progidx (s.progress t.toNat)] ∧ ∀ p ∈ ps, p.due = s.me.time + 2 ∧ p.mark = false) ∧
  Completes (.tkset k t) s (s.setToken s.myDie s.myTeamIndex t.toNat (plainToken
    (if k = 0 then .ok else if k = 1 then .cancelled else .error))) (st ≠ .pending) ∧
  (s.issue.admitted = false → Clear (.tkset k t) s → st = .pending →
    exec (.tkset k t) s = .next (s.refuse (.fault 0x0E 0 (zext64 t) 0 0 false))) ∧
  Completes (.stpop e) s (match s.me.stats.take (s.me.stats.length - s.me.newStats) with
    | [] => (s.result 2 (.x even 0)).result 2 (.x (even + 1) 0)
    | r :: _ => ((s.modMe fun u => { u with stats := u.stats.drop 1 }).result 2 (.x even r.low)).result 2 (.x (even + 1) r.high)) ∧
  Completes (.eset a b d f) s (let p := s.src a
    let q := p.2.src b
    let u := q.2.modMe fun w => (w.setDesc d.toNat f.toNat p.1.1 p.1.2).setDesc d.toNat (f.toNat + 1) q.1.1 q.1.2
    if p.1.2 || q.1.2 then u.result 1 .none true else u) ∧
  Completes (.eget x d f) s (valueNext s x 2 (look 0 s.me.desc (32 * d.toNat + f.toNat))
    (s.me.descMarks.contains (32 * d.toNat + f.toNat))) (s.me.isBad .descriptorReg f.toNat d.toNat = false) ∧
  (let r := launchRecord (s.me.reg a) (s.me.reg (a + 1)) (s.me.reg (a + 2))
   let mine := fun (n : Nat) => n = s.issue.strand
   Goes (.launch d a) s (s.me.storingAny = false ∧ (∀ l ∈ s.myCore.loads, ¬ mine l.strand) ∧ (∀ w ∈ s.myCore.stores, ¬ mine w.strand) ∧
      (∀ w ∈ s.myCore.poolWrites, ¬ mine w.strand) ∧ s.owesCommit s.myDie s.myTeamIndex s.myName (fun _ => true) = false) →
   ∃ u p, exec (.launch d a) s = .next u ∧ u.me.pend = s.me.pend ++ [p] ∧ p.write = .x d (BitVec.ofNat 64 (s.launchStatus r)) ∧
    p.due = s.me.time + 2 ∧ p.mark = (((List.range 8).any fun i => s.me.regMark (a + BitVec.ofNat 6 i)) || s.me.ctlMarks.contains 0x005) ∧ u.hbm = s.hbm ∧
    (s.launchStatus r = 5 → u.dies = s.dies) ∧
    (s.launchStatus r ∈ [1, 2, 3, 4] → ((u.team s.myDie s.myTeamIndex).token r.ctok).st = .error ∧
      (u.team s.myDie s.myTeamIndex).launches = s.myTeam.launches) ∧
    (s.launchStatus r = 0 → ((u.team s.myDie s.myTeamIndex).token r.ctok).st = .pending ∧
      ∃ l : Launch, (u.team s.myDie s.myTeamIndex).launches = s.myTeam.launches ++ [l] ∧ l.started = false ∧ l.ctok = r.ctok ∧
        l.d = s.myDie ∧ l.t = s.myTeamIndex ∧ l.part = r.pool ∧ l.entry = r.entry.setWidth 42 ∧ l.arg = r.arg ∧
        l.argMark = s.me.regMark (a + 1) ∧ l.mask = r.mask ∧ l.tvecEn = s.me.ctl.tvecEn ∧ l.tvecBase = s.me.ctl.tvecBase ∧
        l.tvecMark = s.me.ctlMarks.contains 0x005 ∧ l.closing = [] ∧
        l.poisoned = false ∧ l.left = launchStrands (maskBitsOf r.mask) (s.clustersOn s.myTeam.part s.myDie).head? r.pool))

/-- R117, R395, R424: the record's fields, and LAUNCH's status: that of the first check that fails, of the token, the pool partition, the
clusters, strands and images that run, the entry address; 0 when none does. The node strands of a launch are, cluster by cluster and core
by core, strands 0 to T - 1, but 0 to 2 where the conductor is strand 3 (R18). -/
def Sys2Proof.Claims.launchStatus : Prop :=
  (∀ e0 e1 e2 : Word, let r := launchRecord e0 e1 e2
    r.entry = e0 ∧ r.arg = e1 ∧ r.pool = e2.extractLsb' 0 32 ∧ r.mask = e2.extractLsb' 32 16 ∧ r.ctok = (e2.extractLsb' 48 8).toNat) ∧
  (∀ (s : State) (r : LaunchRecord),
    let noToken := r.ctok = 255 ∨ (s.myTeam.token r.ctok).st = .pending
    let badPart := partLegal r.pool = false
    let badMask := r.mask = 0 ∨ ∃ c, c < 16 ∧ r.mask.getLsbD c = true ∧ c ∉ s.clustersOn s.myTeam.part s.myDie
    let busy := (∃ l ∈ s.myTeam.launches, ∃ w ∈ l.left, w.cl < 16 ∧ r.mask.getLsbD w.cl = true) ∨
      ∃ m ∈ s.cmds, m.imageOf s.myDie s.myTeamIndex r.mask = true
    let badEntry := 2 ^ 42 ≤ r.entry.toNat ∨ localBase ≤ r.entry.toNat ∨ s.startBit s.myDie s.myTeam.vf r.entry.toNat = false
    (noToken → s.launchStatus r = 5) ∧ (¬ noToken → badPart → s.launchStatus r = 1) ∧
    (¬ noToken → ¬ badPart → badMask → s.launchStatus r = 2) ∧
    (¬ noToken → ¬ badPart → ¬ badMask → busy → s.launchStatus r = 3) ∧
    (¬ noToken → ¬ badPart → ¬ badMask → ¬ busy → badEntry → s.launchStatus r = 4) ∧
    (¬ noToken → ¬ badPart → ¬ badMask → ¬ busy → ¬ badEntry → s.launchStatus r = 0)) ∧
  ∀ (cls : List Nat) (first : Option Nat) (part : Word32) (w : StrandName), w ∈ launchStrands cls first part ↔
    w.cl ∈ cls ∧ w.co < 8 ∧ w.n < partStrands part ∧ ¬ (first = some w.cl ∧ w.co = 0 ∧ partStrands part = 4 ∧ w.n = 3)

/-- R18, R115, R117, R245, R246, R248, R277, R348, R360, R395, R424: tokens, records, descriptors, and LAUNCH with its status. Which
records STPOP sees, and that a wait with both reasons names PEER_LOST before LANDING_FULL, are the model's readings (log 72, log 53). -/
def Obligations.TokensAndLaunch : Prop := tokensAndDescriptors ∧ launchStatus

/-! ## Memory -/

/-- R143, R144: the address of a scalar access. -/
def Sys2Proof.Claims.addressOf (base : Word) (disp : BitVec 10) (size : Nat) : Word :=
  base + disp.signExtend 64 * BitVec.ofNat 64 size

/-- The conditions under which an access at ea goes on: aligned, translated to a place that may be accessed, no pending write of
its line (R95, R143), staging for a held store (R139). -/
def Sys2Proof.Claims.opens (s : State) (ea : Word) (size : Nat) (acc : Acc) (tgt : Target) (pg : Option Nat) : Prop :=
  ea.toNat % size = 0 ∧ s.resolve s.issue.core ea acc = .ok tgt pg ∧
  (if acc = .read then s.lineHold (touchedLine s.issue.core (.ok tgt pg)) []
    else s.lineHold [] (touchedLine s.issue.core (.ok tgt pg))) = none ∧
  (acc = .write → s.holdFull [(ea, tgt)] = none) ∧ s.accessVerdict ea (.ok tgt pg) = none

/-- The seven loads: size in bytes and whether the value is sign-extended (R143). -/
def Sys2Proof.Claims.loadOf : Instr → Option (BitVec 6 × BitVec 6 × BitVec 10 × Nat × Bool)
  | .ldb x a d => some (x, a, d, 1, true)
  | .ldbu x a d => some (x, a, d, 1, false)
  | .ldh x a d => some (x, a, d, 2, true)
  | .ldhu x a d => some (x, a, d, 2, false)
  | .ldw x a d => some (x, a, d, 4, true)
  | .ldwu x a d => some (x, a, d, 4, false)
  | .ldd x a d => some (x, a, d, 8, false)
  | _ => none

/-- The four stores with their sizes (R143). -/
def Sys2Proof.Claims.storeOf : Instr → Option (BitVec 6 × BitVec 6 × BitVec 10 × Nat)
  | .stb x a _ d => some (x, a, d, 1)
  | .sth x a _ d => some (x, a, d, 2)
  | .stw x a _ d => some (x, a, d, 4)
  | .std x a _ d => some (x, a, d, 8)
  | _ => none

/-- R143, R144, R270: LDB, LDBU, LDH, LDHU, LDW, LDWU and LDD. From the own scratchpad and the identity line the extended value is due at
issue + 4; from anywhere else the load is on its way and its result is due at issue + 4 and late until it is answered; through the core's own
cluster window it has read its bytes of the own pool at issue, in bundle order. The value reads the bytes little-endian. SPINW (R116) reads its word in the same way and waits. How late a load from elsewhere may be is left free (log
8). -/
def Obligations.LoadResults : Prop :=
  (∀ (s : State) (i : Instr) (x a : BitVec 6) (disp : BitVec 10) (size : Nat) (sg : Bool) (tgt : Target) (pg : Option Nat),
    loadOf i = some (x, a, disp, size, sg) →
    (s.src a).2.resolve s.issue.core (addressOf (s.src a).1.1 disp size) .read = .ok tgt pg →
    let ea := addressOf (s.src a).1.1 disp size
    ∃ u p, Completes i s u (opens s (addressOf (s.srcPeek a) disp size) size .read tgt pg) ∧
      u.me.pend = (s.src a).2.me.pend ++ [p] ∧ p.due = s.me.time + 4 ∧
      (ownRegion ea = true → (∀ c off, tgt = .pool c off →
        p.load = none ∧ p.write = .x x (extendLoad size sg ((s.core c).poolRead off size).1)) ∧
        (tgt = .hole → p.load = none ∧ p.write = .x x 0)) ∧
      (ownRegion ea = false → ∀ off, tgt = .ident off →
        p.load = none ∧ p.write = .x x (extendLoad size sg (((identLine s.myDie).drop off).take size))) ∧
      (ownRegion ea = false → (∀ off, tgt ≠ .ident off) →
        p.load = some s.nextId ∧ p.write = .x x 0 ∧ u.nextId = s.nextId + 1 ∧
        ∃ l, u.myCore.loads = s.myCore.loads ++ [l] ∧ l.id = s.nextId ∧ l.strand = s.issue.strand ∧ l.target = tgt ∧
          l.kind = .scalar x size sg ∧ l.got = (match tgt with
            | .pool c off => if c = s.issue.core then some (s.myCore.poolRead off size) else none
            | _ => none))) ∧
  (∀ (size : Nat) (v : Nat), size ∈ [1, 2, 4, 8] → v < 2 ^ (8 * size) →
    extendLoad size false (bytesOf size v) = BitVec.ofNat 64 v ∧
    extendLoad size true (bytesOf size v) = (if v < 2 ^ (8 * size - 1) then BitVec.ofNat 64 v
      else BitVec.ofNat 64 (v + 2 ^ 64 - 2 ^ (8 * size)))) ∧
  (∀ (s : State) (d a : BitVec 6) (c : BitVec 3) (tgt : Target) (pg : Option Nat),
    (s.src a).2.resolve s.issue.core (s.src a).1.1 .read = .ok tgt pg →
    ∃ u p w, Completes (.spinw d a c) s u (opens s (s.srcPeek a) 8 .read tgt pg) ∧
      u.me.pend = (s.src a).2.me.pend ++ [p] ∧ p.due = s.me.time + 1 ∧ p.write = .none ∧ p.load = some s.nextId ∧
      u.me.spin = some w ∧ w.addr = (s.src a).1.1 ∧ w.cond = c ∧ w.cmp = s.me.reg d ∧ w.xd = d)

/-- R144, R265, R326: STB, STH, STW and STD. The address and the low bytes of xa, least significant first, are put on their way to the
place that the address means: into the own scratchpad as a line write due at issue + 4, into the own pool through the core's own cluster
window as one due at issue + 24, anywhere else as a posted store, unless it is a condemned strand's store into its held ranges. That a line
write falls due in matrix time, and that a write through the own window keeps bundle order, are the model's readings (log 16, log 117). -/
def Obligations.StoreResults : Prop :=
  ∀ (s : State) (i : Instr) (x a : BitVec 6) (disp : BitVec 10) (size : Nat) (tgt : Target) (pg : Option Nat),
    storeOf i = some (x, a, disp, size) →
    let q := s.src2 x a
    let ea := addressOf q.1.2.1 disp size
    let line := fun (off : Nat) => off / 64 * 64
    q.2.resolve s.issue.core ea .write = .ok tgt pg →
    ∃ u, Completes i s u (opens s (addressOf (s.srcPeek2 x a) disp size) size .write tgt pg) ∧
      (∀ c off, tgt = .pool c off → (ownRegion ea = true ∨ c = s.issue.core) → ∃ w, u.myCore.poolWrites = s.myCore.poolWrites ++ [w] ∧
        u.myCore.stores = s.myCore.stores ∧ w.due = s.myCore.mtime + (if ownRegion ea then 4 else 24) ∧ w.off = line off ∧
        w.mask = BitVec.ofNat 64 ((2 ^ size - 1) * 2 ^ (off - line off)) ∧
        w.data = BitVec.ofNat 512 (ofBytes (bytesOf size q.1.1.toNat) * 2 ^ (8 * (off - line off))) ∧ w.mark = q.1.2.2) ∧
      (((∃ pa, tgt = .hbm pa) ∨ (∃ o, tgt = .outside o) ∨ (∃ c off, tgt = .pool c off ∧ ownRegion ea = false ∧ c ≠ s.issue.core)) →
        u.myCore.poolWrites = s.myCore.poolWrites ∧
        (q.2.discards s.issue.core s.issue.strand ea = true → u.myCore.stores = s.myCore.stores) ∧
        (q.2.discards s.issue.core s.issue.strand ea = false → ∃ w, u.myCore.stores = s.myCore.stores ++ [w] ∧
          w.id = s.nextId ∧ w.strand = s.issue.strand ∧ w.target = tgt ∧ w.bytes = bytesOf size q.1.1.toNat ∧ w.mark = q.1.2.2)) ∧
      (tgt = .hole → u.myCore.stores = s.myCore.stores ∧ u.myCore.poolWrites = s.myCore.poolWrites)

/-- The lane groups of a block access are free and no pending write meets its lines (R95, R161). -/
def Sys2Proof.Claims.blockOpens (s : State) (w : BitVec 7) (a : BitVec 6) (m : BitVec 8) (o : BitVec 5) (strided write : Bool) : Prop :=
  let lines := (maskGroups m).flatMap (s.blockLines w (s.srcPeek a) o strided)
  let pool := lines.filterMap fun l => s.poolLine l.off
  (∀ lg ∈ maskGroups m, s.me.busy lg = false) ∧ (if write then s.lineHold [] pool else s.lineHold pool []) = none ∧
    (s.srcPeek a).toNat % 64 = 0 ∧
    (write = true → ∀ l ∈ lines, s.me.isBad .vectorReg l.lg l.reg = false)

/-- R145, R155: line i of a block access in lane group lg stands at xa + disp5 lines + lg x LGSTRIDE lines + i lines, strided
(i / COLS) x VSTRIDE + (i mod COLS) lines; its register is i of the block (R153). -/
def Sys2Proof.Claims.blockAddresses : Prop :=
  ∀ (s : State) (w : BitVec 7) (base : Word) (o : BitVec 5) (strided : Bool) (lg : Nat),
    let l := s.me.lane lg
    let start := base + BitVec.ofNat 64 (64 * o.toNat) + BitVec.ofNat 64 lg * s.me.ctl.lgstride.signExtend 64 * 64
    let row := s.me.ctl.vstride.signExtend 64
    (s.blockLines w base o strided lg).length = l.rows * l.cols ∧
    ∀ i, i < l.rows * l.cols → (s.blockLines w base o strided lg)[i]? = some
      { lg := lg, i := i
        off := (start + (if strided then BitVec.ofNat 64 (i / l.cols) * row + BitVec.ofNat 64 (i % l.cols) else BitVec.ofNat 64 i) * 64).toNat
        reg := (l.wb + w.toNat + 32 * (i / l.cols) + i % l.cols) % s.regCount }

/-- R146: VLD and VLDS read their lines at issue and write register i at issue + 6 + i; a line in the hole reads zero. VST and
VSTS read register i at issue + i (`blockStoreSteps`); nothing of memory changes as they issue. Each of the four occupies its lane groups
for ROWS x COLS cycles. -/
def Sys2Proof.Claims.blockLoadsStores : Prop :=
  ∀ (s : State) (w : BitVec 7) (a : BitVec 6) (m : BitVec 8) (o : BitVec 5),
  let q := s.src a
  let lines := fun (strided : Bool) => (maskGroups m).flatMap (q.2.blockLines w q.1.1 o strided)
  let loads := fun (i : Instr) (strided : Bool) =>
    ∃ u ps, Completes i s u (blockOpens s w a m o strided false) ∧ u.me.pend = s.me.pend ++ ps ∧
      u.myCore.pool = s.myCore.pool ∧
      (∀ k, k < (lines strided).length → ∃ p l, ps[k]? = some p ∧ (lines strided)[k]? = some l ∧ p.due = s.me.time + 6 + l.i ∧
        p.write = .vec l.lg l.reg (match s.poolLine l.off with
          | some x => (s.myCore.line x).1
          | none => 0) (BitVec.allOnes 64)) ∧
      ∃ bs, u.me.blocks = s.me.blocks ++ bs ∧ bs.map (·.lg) = maskGroups m ∧ ∀ b ∈ bs, b.idle = true ∧ b.start = s.me.time ∧
        b.busyFor = (s.me.lane b.lg).rows * (s.me.lane b.lg).cols
  let stores := fun (i : Instr) (strided : Bool) =>
    ∃ u bs, Completes i s u (blockOpens s w a m o strided true) ∧ u.me.blocks = s.me.blocks ++ bs ∧
      u.myCore.pool = s.myCore.pool ∧ u.myCore.poolWrites = s.myCore.poolWrites ∧ bs.map (·.lg) = maskGroups m ∧
      ∀ b ∈ bs, b.op = i ∧ b.start = s.me.time ∧ b.interval = 1 ∧ b.idle = false ∧
        b.busyFor = (s.me.lane b.lg).rows * (s.me.lane b.lg).cols ∧
        b.offs = (q.2.blockLines w q.1.1 o strided b.lg).map fun l => s.poolLine l.off
  loads (.vld w a m o) false ∧ loads (.vlds w a m o) true ∧ stores (.vst w a m o) false ∧ stores (.vsts w a m o) true

/-- R146, R160: a block store of a strand takes step i in cycle start + i. The step reads register i of the block, and its line is written 6
cycles later, whole; a line in the hole is not written. -/
def Sys2Proof.Claims.blockStoreSteps : Prop :=
  ∀ (s : State) (c n : Nat) (b : Block), isBlockStore b.op = true →
    let q := s.blockStep c n b
    let word := match b.op with
      | .vst w _ _ _ | .vsts w _ _ _ => w.toNat
      | _ => 0
    let reg := (b.wb + word + 32 * (b.step / b.cols) + b.step % b.cols) % vregCount (s.strand c n).ctl.poolpart
    q.1 = { b with step := b.step + 1 } ∧ (q.2.core c).pool = (s.core c).pool ∧
    (nth none b.offs b.step = none → (q.2.core c).poolWrites = (s.core c).poolWrites) ∧
    (∀ off, nth none b.offs b.step = some off → ∃ w, (q.2.core c).poolWrites = (s.core c).poolWrites ++ [w] ∧ w.off = off ∧
      w.due = (s.core c).mtime + 6 ∧ w.mask = BitVec.allOnes 64 ∧ w.strand = n ∧
      (b.saved = [] → w.data = ((s.core c).vreg b.lg n reg).1)) ∧
    (b.due (s.strand c n).time = true ↔ b.idle = false ∧ b.step < b.rows * b.cols ∧
      b.start + b.interval * b.step = (s.strand c n).time) ∧
    ((s.strand c n).blocks = [b] → b.due (s.strand c n).time = true →
      ((s.advance c n).core c).poolWrites = (q.2.core c).poolWrites)

/-- R145, R146, R155, R160: block loads and stores, and where their lines stand. When VST data and VLD data are read, and that a line
write falls due in matrix time, are the model's readings (log 14, log 16). -/
def Obligations.BlockAccesses : Prop := blockAddresses ∧ blockLoadsStores ∧ blockStoreSteps

/-- The element addresses of a gather or scatter (R147): xa plus the sign-extended 32-bit index of each lane, scaled. -/
def Sys2Proof.Claims.gatherAddresses : Prop :=
  ∀ (s : State) (lgs : List Nat) (wi : BitVec 7) (base : Word) (sc : BitVec 2) (e : Nat × Nat × Word),
    e ∈ s.gatherAddrs lgs wi base sc ↔ e.1 ∈ lgs ∧ e.2.1 < 16 ∧
      e.2.2 = base + ((((s.myVreg e.1 (s.singleReg e.1 wi)).1.extractLsb' (32 * e.2.1) 32).signExtend 64) <<< sc.toNat)

/-- An element of a gather or scatter stands in the own scratchpad region, or is one of the own pool through the core's own window. -/
def Sys2Proof.Claims.atHome (s : State) (ea : Word) (tgt : Target) : Bool := ownRegion ea || (ownByte s.issue.core tgt).isSome

/-- Where the elements stand: each is aligned, names no remote endpoint, and is translated (R147, R148). -/
def Sys2Proof.Claims.elementsStand (s : State) (es : List (Nat × Nat × Word)) (acc : Acc) (place : Nat → Nat → Target) : Prop :=
  ∀ e ∈ es, e.2.2.toNat % 4 = 0 ∧ (localBase ≤ e.2.2.toNat % 2 ^ 42 ∨ e.2.2.toNat / 2 ^ 42 = endpointOf s.myDie) ∧
    ∃ pg, s.resolve s.issue.core e.2.2 acc = .ok (place e.1 e.2.1) pg

/-- The conditions under which a gather or scatter goes on at its first presentation (R95, R136, R139, R147, R148, R161, R356): its
elements stand, none met a refused page, its lane groups are free, its index registers (and a scatter's data registers) are sound, no
pending write meets its lines, and staging has room for a scatter's held stores. -/
def Sys2Proof.Claims.elementsOpen (s : State) (lgs : List Nat) (wi : BitVec 7) (base : Word) (sc : BitVec 2) (data : Option (BitVec 7))
    (place : Nat → Nat → Target) : Prop :=
  let es := s.gatherAddrs lgs wi base sc
  let lines := es.flatMap fun e => touchedLine s.issue.core (.ok (place e.1 e.2.1) none)
  elementsStand s es (if data.isSome then .write else .read) place ∧
  (∀ e ∈ es, s.refusedAt s.myDie s.myTeamIndex s.me.wait.refused e.2.2 = false) ∧
  (∀ lg ∈ lgs, s.me.busy lg = false ∧ s.me.isBad .vectorReg lg (s.singleReg lg wi) = false ∧
    ∀ w, data = some w → s.me.isBad .vectorReg lg (s.singleReg lg w) = false) ∧
  (if data.isSome then s.lineHold [] lines = none ∧ s.holdFull (es.map fun e => (e.2.2, place e.1 e.2.1)) = none
    else s.lineHold lines [] = none)

/-- R147, R148: a gather that waits for no page. When every element stands in the own scratchpad region, register w of each lane group is due
after 12 cycles, or 20 for all lane groups, and lane j of it is the 4 bytes at its element's address. Else its registers are late, and a
load is on its way with the elements, lane group by lane group and lane by lane; those of the own pool have been read. -/
def Sys2Proof.Claims.gathers (s : State) (i : Instr) (lgs : List Nat) (w wi : BitVec 7) (a : BitVec 6) (sc : BitVec 2) (late : Nat) : Prop :=
  ∀ place : Nat → Nat → Target,
  let q := s.src a
  let es := q.2.gatherAddrs lgs wi q.1.1 sc
  let read := fun (lg j : Nat) => BitVec.ofNat 32 (ofBytes (q.2.readOwn s.issue.core s.issue.strand s.me.nextSeq (place lg j) 4).1.1)
  s.me.gather = none → elementsStand q.2 es .read place →
  ∃ u ps qs, Completes i s u (elementsOpen s lgs wi (s.srcPeek a) sc none place) ∧ u.me.gather = none ∧
    u.me.pend = s.me.pend ++ qs ++ ps ∧ qs.length ≤ 1 ∧ (∀ p ∈ qs, p.write = .none) ∧ ps.length = lgs.length ∧
    (∀ n, n < lgs.length → ∃ p v, ps[n]? = some p ∧ p.due = s.me.time + late ∧
      p.write = .vec (nth 0 lgs n) (s.singleReg (nth 0 lgs n) w) v (BitVec.allOnes 64) ∧
      (if ∀ e ∈ es, ownRegion e.2.2 = true then
        p.load = none ∧ ∀ j, j < 16 → v.extractLsb' (32 * j) 32 = read (nth 0 lgs n) j
      else p.load = some s.nextId)) ∧
    (¬ (∀ e ∈ es, ownRegion e.2.2 = true) → ∃ l, u.myCore.loads = s.myCore.loads ++ [l] ∧ l.id = s.nextId ∧ l.kind = .gather ∧
      l.strand = s.issue.strand ∧ l.elems.map (fun k => (k.lg, k.lane, k.ea, k.target)) =
        es.map (fun e => (e.1, e.2.1, e.2.2, place e.1 e.2.1)) ∧
      ∀ k ∈ l.elems, k.read = atHome s k.ea k.target ∧ (k.read = true → k.val = read k.lg k.lane))

/-- R147, R148: a scatter that waits for no page puts the 4 bytes of each lane of register w on their way to the lane's element address, in
ascending lane group and lane: into the own scratchpad as line writes due at issue + 12, or + 20 for all lane groups, into the own pool
through the core's own window at issue + 24, anywhere else as posted stores; an element in the hole stores nothing. -/
def Sys2Proof.Claims.scatters (s : State) (i : Instr) (lgs : List Nat) (w wi : BitVec 7) (a : BitVec 6) (sc : BitVec 2) (late : Nat) : Prop :=
  ∀ place : Nat → Nat → Target,
  let q := s.src a
  let es := q.2.gatherAddrs lgs wi q.1.1 sc
  let word := fun (lg j : Nat) => (s.myVreg lg (s.singleReg lg w)).1.extractLsb' (32 * j) 32
  let shift := fun (off : Nat) => off - off / 64 * 64
  s.me.gather = none → elementsStand q.2 es .write place →
  ∃ u ps pw st, Completes i s u (elementsOpen s lgs wi (s.srcPeek a) sc (some w) place) ∧ u.me.gather = none ∧
    u.me.pend = s.me.pend ++ ps ∧ (∀ p ∈ ps, p.write = .none) ∧
    u.myCore.poolWrites = s.myCore.poolWrites ++ pw ∧ u.myCore.stores = s.myCore.stores ++ st ∧
    pw.map (fun k => (k.due, k.off, k.mask, k.data)) = es.filterMap (fun e => match place e.1 e.2.1 with
      | .pool c off => if atHome s e.2.2 (.pool c off) then
          some (s.myCore.mtime + (if ownRegion e.2.2 then late else 24), off / 64 * 64, BitVec.ofNat 64 (15 * 2 ^ shift off),
            BitVec.ofNat 512 ((word e.1 e.2.1).toNat * 2 ^ (8 * shift off)))
        else none
      | _ => none) ∧
    (s.me.condemned = none → st.map (fun k => (k.target, k.bytes)) = es.filterMap (fun e => match place e.1 e.2.1 with
      | .hole => none
      | tgt => match tgt, atHome s e.2.2 tgt with
        | .pool _ _, true => none
        | _, _ => some (tgt, bytesOf 4 (word e.1 e.2.1).toNat)))

/-- R147 to R149: the gathers, the scatters and VPOP. VPOP takes one element of its stream for each lane group of its mask, ascending, at
latency 2. -/
def Sys2Proof.Claims.gatherScatterPop : Prop :=
  ∀ (s : State) (w wi : BitVec 7) (a : BitVec 6) (k : BitVec 3) (sc j : BitVec 2) (m : BitVec 8),
  gathers s (.vgather w wi a k sc) [k.toNat] w wi a sc 12 ∧ gathers s (.vgatherAll w wi a sc) (List.range 8) w wi a sc 20 ∧
  scatters s (.vscatter w wi a k sc) [k.toNat] w wi a sc 12 ∧ scatters s (.vscatterAll w wi a sc) (List.range 8) w wi a sc 20 ∧
  ∃ u ps, Completes (.vpop w j m) s u ((maskGroups m).length ≤ (s.me.vstream j.toNat).length ∧ (∀ lg ∈ maskGroups m, s.me.busy lg = false) ∧
      ∀ e ∈ (s.me.vstream j.toNat).take (maskGroups m).length, e.bad = false) ∧
    ((maskGroups m).length ≤ (s.me.vstream j.toNat).length →
      u.me.vstream j.toNat = (s.me.vstream j.toNat).drop (maskGroups m).length ∧ u.me.pend = s.me.pend ++ ps ∧
      ps.map (·.write) = ((maskGroups m).zip (s.me.vstream j.toNat)).map (fun p =>
        Write.vec p.1 (s.singleReg p.1 w) p.2.val (BitVec.allOnes 64)) ∧ ∀ p ∈ ps, p.due = s.me.time + 2)

/-- R147 to R149: gathers, scatters and stream pops, and where their elements stand. Holding on a busy lane group, the matrix time of line
writes, and the bundle order of accesses through the own window are the model's readings (log 25, log 16, log 117). -/
def Obligations.GathersAndPops : Prop := gatherAddresses ∧ gatherScatterPop

/-- R150, R272, R273, R278: DRAIN and FENCE change nothing; DRAIN issues once every earlier store of the strand is performed, those
that its commits wrote and those through the core's own window among them; FENCE once the strand's accesses in the places of its scope
are, from scope 2 on those to its own pool too, with the block stores that a trap has suspended; scopes 0 and 1 wait for nothing. -/
def Sys2Proof.Claims.drainAndFence : Prop :=
  (∀ s : State, Completes .drain s s ((∀ w ∈ s.myCore.stores, w.strand ≠ s.issue.strand) ∧
    (∀ w ∈ s.myCore.poolWrites, w.window = true → w.strand ≠ s.issue.strand) ∧
    s.owesCommit s.myDie s.myTeamIndex s.myName (fun _ => true) = false)) ∧
  (∀ (s : State) (k : BitVec 3), Completes (.fence k) s s ((∀ (p : Nat × Target),
    ((∃ w ∈ s.myCore.stores, p = (w.strand, w.target)) ∨
      (∃ l ∈ s.myCore.loads, p = (l.strand, l.target) ∨ ∃ e ∈ l.elems, p = (l.strand, e.target))) →
    p.1 = s.issue.strand → inScope k.toNat s.myDie p.2 = false) ∧
    s.owesCommit s.myDie s.myTeamIndex s.myName (fun l => inScope k.toNat s.myDie (.hbm l.pa)) = false ∧
    (2 ≤ k.toNat → s.me.storingAny = false ∧ ∀ w ∈ s.myCore.poolWrites, w.strand ≠ s.issue.strand))) ∧
  ∀ (s : State) (k : BitVec 3), k.toNat < 2 → Completes (.fence k) s s

/-- R7, R154, R348: VWIN writes the window base (xa + imm14) mod N of the selected lane groups, the sum exact, with the mark of xa,
VSHAPE their rows and columns, VMODE their mode predicate, each at latency 1. -/
def Sys2Proof.Claims.windowsAndShapes : Prop :=
  ∀ (s : State) (l : Bool) (k r : BitVec 3) (a : BitVec 6) (i : BitVec 14) (rows : BitVec 4) (cols : BitVec 5),
  let groups := if l then [0, 1, 2, 3, 4, 5, 6, 7] else [k.toNat]
  let after := fun (u t : State) (w : Nat → Write) => ∃ ps, u.me.pend = t.me.pend ++ ps ∧ ps.map (·.write) = groups.map w ∧
    ∀ p ∈ ps, p.due = s.me.time + 1
  (∃ u, Completes (.vwin l k a i) s u ∧ (after u (s.src a).2 fun g => .window g (((s.src a).1.1.toNat + i.toNat) % s.regCount)) ∧
    ∀ p ∈ u.me.pend, p ∈ (s.src a).2.me.pend ∨ p.mark = (s.src a).1.2) ∧
  (∃ u, Completes (.vshape l k rows cols) s u ∧ after u s fun g => .shape g (rows.toNat + 1) (cols.toNat + 1)) ∧
  (∃ u, Completes (.vmode l k r) s u ∧ after u s fun g => .vmode g r.toNat)

/-- R7, R150, R154, R272, R273, R278, R348: DRAIN, FENCE, VWIN, VSHAPE and VMODE. That a marked window base taints what is read
through it is the model's reading (log 26). -/
def Obligations.OrderAndWindows : Prop := drainAndFence ∧ windowsAndShapes

/-! ## Vector, matrix, Eddy -/

/-- The vector syllables that run over a block. -/
def Sys2Proof.Claims.isBlockOp : Instr → Bool
  | .vadd _ _ _ _ _ | .vsub _ _ _ _ _ | .vmul _ _ _ _ _ | .vfma _ _ _ _ _ | .vfms _ _ _ _ _ | .vmin _ _ _ _ _
  | .vmax _ _ _ _ _ | .vabs _ _ _ _ | .vneg _ _ _ _ | .vdiv _ _ _ _ _ | .vsqrt _ _ _ _ | .vand _ _ _ _ _
  | .vor _ _ _ _ _ | .vxor _ _ _ _ _ | .vnot _ _ _ _ | .vshl _ _ _ _ _ | .vshr _ _ _ _ _ | .vsar _ _ _ _ _
  | .vmov _ _ _ _ | .vmovi _ _ _ _ | .vfloor _ _ _ _ | .vclass _ _ _ _ | .vadds _ _ _ _ _ | .vsel _ _ _ _
  | .vcvt _ _ _ _ | .vquant _ _ _ _ | .vdeq _ _ _ _ | .vpack _ _ _ _ | .vunpk _ _ _ _ | .vrsum _ _ _ _
  | .vrmax _ _ _ _ | .vrmin _ _ _ _ | .vscan _ _ _ _ | .vperm _ _ _ _ _ | .vxfer _ _ _ | .vbcast _ _ _ _ _
  | .vextr _ _ _ _ | .viota _ _ _ | .vrcp _ _ _ _ | .vrsqrt _ _ _ _ | .vexp2 _ _ _ _ | .vlog2 _ _ _ _
  | .vexp _ _ _ _ | .vlog _ _ _ _ | .vsin _ _ _ _ | .vcos _ _ _ _ | .vtanh _ _ _ _ | .verf _ _ _ _
  | .vsigm _ _ _ _ => true
  | _ => false

/-- The lane groups of a vector syllable's slot: all eight in VB, else the slot's own (R156). -/
def Sys2Proof.Claims.groupsOf (slot : Nat) : List Nat := if slot = 3 then [0, 1, 2, 3, 4, 5, 6, 7] else [slot - 4]

/-- R156 to R163, R184: each of the 49 block operations starts one block on each lane group of its slot, in the shape, window,
rounding mode, predicate and function-table version of its issue, and one on the mirror's lane group; it issues once those
groups are free (R161). Nothing else of the strand changes at issue. -/
def Obligations.VectorBlocks : Prop :=
  ∀ (s : State) (i : Instr), isBlockOp i = true →
    let v := vfields i
    ∃ u bs, Completes i s u ((∀ lg ∈ s.vecGroups, s.me.busy lg = false) ∧
        (∀ b ∈ (groupsOf s.issue.slot).map (s.vecBlock i), ∀ k, k < b.rows * b.cols → ∀ r ∈ b.reads s.regCount k,
          s.me.isBad .vectorReg b.lg r = false) ∧
        ((v.m = true ∨ v.op = 0x23) → ∀ lg ∈ groupsOf s.issue.slot, s.me.isBad .predicateReg lg (s.me.lane lg).mode = false)) ∧
      u = s.modMe (fun t => { t with blocks := t.blocks ++ bs }) ∧
      (bs.filter fun b => !b.idle).map (·.lg) = groupsOf s.issue.slot ∧
      (∀ b ∈ bs, b.idle = false → b.op = i ∧ b.rows = (s.me.lane b.lg).rows ∧ b.cols = (s.me.lane b.lg).cols ∧
        b.wb = (s.me.lane b.lg).wb ∧ b.start = s.me.time ∧ b.step = 0 ∧ b.rmode = s.me.ctl.rmode ∧
        b.version = s.me.ctl.version ∧ b.pred = look (BitVec.allOnes 64) (s.me.lane b.lg).preds (s.me.lane b.lg).mode ∧
        b.interval = (vectorTiming v).1 ∧ b.busyFor = (vectorTiming v).1 * (b.rows * b.cols)) ∧
      (bs.filter fun b => b.idle).map (·.lg) = (if s.issue.mirrored then (groupsOf s.issue.slot).map fun _ => s.issue.slot - 3 else [])

/-- A step of a block writes one result, to register n of the block of wd, L strand cycles later, and puts v into element k: unmasked in
every byte, and masked (m = 1) in the bytes of the elements whose predicate bit is set alone (R153, R159, R160). -/
def Sys2Proof.Claims.stepPuts (b : Block) (i : Bool → Instr) (count n k w : Nat) (d : BitVec 7) (L v : Nat) : Prop :=
  ∀ m, ∃ o : BlockOut, ({ b with op := i m } : Block).outs count n = [o] ∧ o.latency = L ∧ o.lg = b.lg ∧
    o.reg = (b.wb + d.toNat + 32 * (n / b.cols) + n % b.cols) % count ∧
    (∀ j, j < 64 → o.mask.getLsbD j = (!m || b.pred.getLsbD (j / (w / 8)))) ∧
    ((m = true → b.pred.getLsbD k = true) → elemOf w o.val k = v % 2 ^ w)

/-- R158 to R160, R165, R177: one step of a block whose operation is element by element, with its latency: p, q and r are the elements k of
the registers that the step has read (of wa, wb and wd), u, v and z their values in a float format. An operation of a float format rounds the
exact result once in the mode of the block; one of an integer format keeps the low bits; the shifts count modulo the width. -/
def Sys2Proof.Claims.elementByElement : Prop :=
  ∀ (b : Block) (count n : Nat) (f : BitVec 3) (d x y : BitVec 7) (k : Nat),
  let c := f.toNat
  let w := efcWidth c
  let elem := fun (j : Nat) => elemOf w (nth 0 (nth [] b.srcs n) j) k
  let p := elem 0
  let q := elem 1
  let r := elem 2
  let rm := RMode.ofBits b.rmode
  let is := fun (i : Bool → Instr) (L v : Nat) => stepPuts b i count n k w d L v
  k < 512 / w →
  is (fun m => .vand f m d x y) 2 (p &&& q) ∧ is (fun m => .vor f m d x y) 2 (p ||| q) ∧ is (fun m => .vxor f m d x y) 2 (p ^^^ q) ∧
  is (fun m => .vnot f m d x) 2 (2 ^ w - 1 - p) ∧ is (fun m => .vmov f m d x) 2 p ∧
  is (fun m => .vshl f m d x y) 2 (p * 2 ^ (q % w)) ∧ is (fun m => .vshr f m d x y) 2 (p / 2 ^ (q % w)) ∧
  is (fun m => .vsar f m d x y) 2 ((BitVec.ofNat w p).sshiftRight (q % w)).toNat ∧
  is (fun m => .vperm f m d x y) 2 (elemOf w (nth 0 (nth [] b.srcs n) 0) (q % (512 / w))) ∧
  (c < 4 → ∀ fm, efcFmt c = some fm →
    let u := fm.decode p
    let v := fm.decode q
    let z := fm.decode r
    let once := fun (e : Val) => (fm.conv rm e).1
    let L := if c = 3 then 6 else 4
    let D := if c = 3 then 30 else 16
    is (fun m => .vadd f m d x y) L (once (Val.add rm u v)) ∧ is (fun m => .vsub f m d x y) L (once (Val.add rm u v.neg)) ∧
    is (fun m => .vmul f m d x y) L (once (u.mul v)) ∧ is (fun m => .vfma f m d x y) L (once (Val.add rm z (u.mul v))) ∧
    is (fun m => .vfms f m d x y) L (once (Val.add rm z (u.mul v).neg)) ∧
    is (fun m => .vmin f m d x y) 2 (once (u.min v)) ∧ is (fun m => .vmax f m d x y) 2 (once (u.max v)) ∧
    is (fun m => .vabs f m d x) 2 (p % 2 ^ (w - 1)) ∧ is (fun m => .vneg f m d x) 2 (p + 2 ^ (w - 1)) ∧
    is (fun m => .vdiv f m d x y) D (fm.divide rm u v).1 ∧ is (fun m => .vsqrt f m d x) D (fm.sqrt rm u).1 ∧
    is (fun m => .vfloor f m d x) 2 (once (floorVal u)) ∧ is (fun m => .vclass f m d x) 2 (2 ^ fm.classBit p)) ∧
  (4 ≤ c →
    let u := intOf c p
    let v := intOf c q
    let lim := efcLimits c
    is (fun m => .vadd f m d x y) 2 (p + q) ∧ is (fun m => .vsub f m d x y) 2 (p + 2 ^ w - q) ∧
    is (fun m => .vmul f m d x y) 3 (p * q) ∧ is (fun m => .vfma f m d x y) 3 (r + p * q) ∧
    is (fun m => .vfms f m d x y) 3 (r + (2 ^ w - p) * q) ∧ is (fun m => .vmin f m d x y) 2 (if u ≤ v then p else q) ∧
    is (fun m => .vmax f m d x y) 2 (if u ≥ v then p else q) ∧ is (fun m => .vabs f m d x) 2 u.natAbs ∧
    is (fun m => .vneg f m d x) 2 (2 ^ w - p) ∧ is (fun m => .vadds f m d x y) 2 (wrap w (max lim.1 (min lim.2 (u + v)))))

/-- R166, R169, R178 to R181: the moves. VMOVI and VIOTA put a constant and the element's number into every element, VBCAST
one element of a single register; VSEL takes each element of wa or wb as its predicate bit says; VXFER moves register n whole to the lane group
k above; VEXTR gathers element j of every register of the block into registers from wd, once the last has been read. -/
def Sys2Proof.Claims.moves : Prop :=
  ∀ (b : Block) (count n : Nat) (f : BitVec 3) (d x y : BitVec 7) (imm : BitVec 14) (j : BitVec 6) (g : BitVec 3) (k : Nat),
  let c := f.toNat
  let w := efcWidth c
  let e := 512 / w
  let line := fun (step r : Nat) => nth 0 (nth [] b.srcs step) r
  k < e →
  stepPuts b (fun m => .vmovi f m d imm) count n k w d 2 (vmoviValue c imm.toNat) ∧
  stepPuts b (fun m => .viota f m d) count n k w d 2 (match efcFmt c with
    | some fm => (fm.conv (RMode.ofBits b.rmode) (.fin false (n * e + k) 0)).1
    | none => n * e + k) ∧
  stepPuts b (fun m => .vbcast f m d x j) count n k w d 2 (elemOf w (line 0 0) (j.toNat % e)) ∧
  (∃ o : BlockOut, ({ b with op := .vsel f d x y } : Block).outs count n = [o] ∧ o.latency = 2 ∧ o.lg = b.lg ∧ o.mask = BitVec.allOnes 64 ∧
    o.reg = (b.wb + d.toNat + 32 * (n / b.cols) + n % b.cols) % count ∧
    elemOf w o.val k = if b.pred.getLsbD k then elemOf w (line n 0) k else elemOf w (line n 1) k) ∧
  (∃ o : BlockOut, ({ b with op := .vxfer d x g } : Block).outs count n = [o] ∧ o.latency = 6 ∧ o.lg = (b.lg + g.toNat) % 8 ∧
    o.mask = BitVec.allOnes 64 ∧ o.reg = (b.target + d.toNat + 32 * (n / b.cols) + n % b.cols) % count ∧ o.val = line n 0) ∧
  (let N := b.rows * b.cols
   let outs := ({ b with op := .vextr f d x j } : Block).outs count n
   (n + 1 < N → outs = []) ∧
   (n + 1 = N → b.srcs.length = N → outs.length = (N + e - 1) / e ∧ ∀ t, t < outs.length → ∃ o : BlockOut, outs[t]? = some o ∧ o.latency = 3 ∧
     o.lg = b.lg ∧ o.mask = BitVec.allOnes 64 ∧ o.reg = (b.wb + d.toNat + t) % count ∧
     elemOf w o.val k = if t * e + k < N then elemOf w (line (t * e + k) 0) (j.toNat % e) else 0))

/-- The elements of some registers in order, of those positions that the predicate includes (R175, R176). -/
def Sys2Proof.Claims.elemsTaken (m : Bool) (pred : BitVec 64) (w : Nat) (ls : List Line) : List Nat :=
  ls.flatMap fun l => ((List.range (512 / w)).filter fun e => !m || pred.getLsbD e).map (elemOf w l)

/-- The sum, the maximum (0x41) and the minimum (0x42) of some elements: exact, rounded once or saturated; of none +0, and the
infinities or limits that no element passes (R175). -/
def Sys2Proof.Claims.reduced (op c : Nat) (rm : RMode) (es : List Nat) : Nat :=
  match efcFmt c with
  | some fm =>
    if op = 0x40 then (fm.conv rm (exactSum rm (es.map fm.decode))).1
    else if es = [] then fm.infCode (op == 0x41)
    else (fm.conv rm ((es.map fm.decode).foldl (if op = 0x41 then Val.max else Val.min) .nan)).1
  | none =>
    let lim := efcLimits c
    let is := es.map (intOf c)
    wrap (efcWidth c) (if op = 0x40 then max lim.1 (min lim.2 is.sum) else if op = 0x41 then is.foldl max lim.1 else is.foldl min lim.2)

/-- R175, R176: the reductions write once, c + 4 cycles after the last register is read, the value into element 0 of one register and
zeros beside it; VSCAN writes into each element the sum of the included elements up to and with its own. -/
def Sys2Proof.Claims.reductions : Prop :=
  ∀ (b : Block) (count n : Nat) (f : BitVec 3) (m : Bool) (d x : BitVec 7),
  let c := f.toNat
  let w := efcWidth c
  let rm := RMode.ofBits b.rmode
  let N := b.rows * b.cols
  let all := fun (i : Instr) (op : Nat) =>
    let outs := ({ b with op := i } : Block).outs count n
    (n + 1 < N → outs = []) ∧
    (n + 1 = N → ∃ o : BlockOut, outs = [o] ∧ o.latency = (if c = 3 then 2 else 1) + 4 ∧ o.lg = b.lg ∧ o.mask = BitVec.allOnes 64 ∧
      o.reg = (b.wb + d.toNat) % count ∧ ∀ k, k < 512 / w →
        elemOf w o.val k = if k = 0 then reduced op c rm (elemsTaken m b.pred w b.srcs.flatten) % 2 ^ w else 0)
  all (.vrsum f m d x) 0x40 ∧ all (.vrmax f m d x) 0x41 ∧ all (.vrmin f m d x) 0x42 ∧
  ∃ o : BlockOut, ({ b with op := .vscan f m d x } : Block).outs count n = [o] ∧ o.latency = 6 ∧ o.lg = b.lg ∧
    o.reg = (b.wb + d.toNat + 32 * (n / b.cols) + n % b.cols) % count ∧
    (∀ j, j < 64 → o.mask.getLsbD j = (!m || b.pred.getLsbD (j / (w / 8)))) ∧
    ∀ k, k < 512 / w → (m = true → b.pred.getLsbD k = true) → elemOf w o.val k = reduced 0x40 c rm
      (elemsTaken m b.pred w (b.srcs.take n).flatten ++
        ((List.range (k + 1)).filter fun e => !m || b.pred.getLsbD e).map (elemOf w (nth 0 (nth [] b.srcs n) 0))) % 2 ^ w

/-- Element g of registers that hold elements of w bits in order (R68). -/
def Sys2Proof.Claims.linear (w : Nat) (ls : List Line) (g : Nat) : Nat := elemOf w (nth 0 ls (g / (512 / w))) (g % (512 / w))

/-- The registers of a narrow destination that step n completes: register j with its last source register (R171). -/
def Sys2Proof.Claims.completes (N es ed n : Nat) : List Nat :=
  (List.range ((N * es + ed - 1) / ed)).filter fun j => min (N - 1) (((j + 1) * ed + es - 1) / es - 1) = n

/-- R171, R172: VCVT, VPACK and VUNPK convert each element by R79 in the mode of the block. With equal widths register n becomes register n, element
by element; into a narrower format the elements are packed in order, and a register is written once the last register that it needs has
been read; into a wider one register n takes the elements from n times its count on. -/
def Sys2Proof.Claims.conversions : Prop :=
  ∀ (b : Block) (count n : Nat) (f : BitVec 3) (g : BitVec 4) (d x : BitVec 7), g.toNat ≤ 12 →
  let N := b.rows * b.cols
  let block := (b.wb + d.toNat + 32 * (n / b.cols) + n % b.cols) % count
  let from_ := b.srcs.flatten
  let converts := fun (i : Instr) (sc dc : Nat) =>
    let es := 512 / efcWidth sc
    let ed := 512 / efcWidth dc
    let outs := ({ b with op := i } : Block).outs count n
    let value := fun (t : Nat) => (efcConv dc (RMode.ofBits b.rmode) (efcDecode sc (linear (efcWidth sc) from_ t))).1 % 2 ^ efcWidth dc
    (∀ o ∈ outs, o.latency = 4 ∧ o.lg = b.lg ∧ o.mask = BitVec.allOnes 64) ∧
    (ed < es → ∃ o : BlockOut, outs = [o] ∧ o.reg = block ∧ ∀ k, k < ed → elemOf (efcWidth dc) o.val k = value (n * ed + k)) ∧
    (ed = es → ∃ o : BlockOut, outs = [o] ∧ o.reg = block ∧ ∀ k, k < ed →
      elemOf (efcWidth dc) o.val k = if n * ed + k < es * from_.length then value (n * ed + k) else 0) ∧
    (es < ed → outs.map (·.reg) = (completes N es ed n).map (fun j => (b.wb + d.toNat + j) % count) ∧
      ∀ t j : Nat, (completes N es ed n)[t]? = some j → ∃ o : BlockOut, outs[t]? = some o ∧ ∀ k, k < ed →
        elemOf (efcWidth dc) o.val k = if j * ed + k < es * from_.length then value (j * ed + k) else 0)
  converts (.vcvt f d x g) f.toNat g.toNat ∧ converts (.vpack f d x g) f.toNat g.toNat ∧ converts (.vunpk f d x g) g.toNat f.toNat

/-- R173, R174: a block of 32 values becomes codes of a format and a scale: 0xFF and zero codes with a NaN; else s is 0 for zeros, 127 with an
infinity, and else the least in -127 to 127 with amax at most M x 2^s, and each code is the value times 2 to -s, converted. -/
def Sys2Proof.Claims.quantises : Prop :=
  (∀ (c : Nat) (rm : RMode) (vs : List Val), vs.any Val.isNan = true →
    quantBlock c rm vs = ((vs.map fun _ => if c = 12 then 0x77 else 0), 0xFF, [])) ∧
  (∀ (c : Nat) (rm : RMode) (vs : List Val), vs.any Val.isNan = false →
    let s := quantScale c ((vs.map Val.abs).foldl Val.max (.fin false 0 0))
    (quantBlock c rm vs).1 = vs.map (fun v => (efcConv c rm (v.shift (-s))).1) ∧ ((quantBlock c rm vs).2.1 : Int) = s + 127) ∧
  (∀ c sg, quantScale c (.inf sg) = 127 ∧ ∀ e, quantScale c (.fin sg 0 e) = 0) ∧
  (∀ (c m : Nat) (sg : Bool) (e : Int), m ≠ 0 → let s := quantScale c (.fin sg m e)
    (-127 : Int) ≤ s ∧ s ≤ 127 ∧ (s < 127 → exceeds m e (quantMax c) s = false) ∧ (-127 < s → exceeds m e (quantMax c) (s - 1) = true)) ∧
  (quantMax 6 = 127 ∧ quantMax 8 = 480 ∧ quantMax 9 = 114688 ∧ quantMax 10 = 6 ∧ quantMax 11 = 7 ∧ quantMax 12 = 2) ∧
  ∀ (b : Block) (count n : Nat) (f : BitVec 3) (g : BitVec 4) (d x : BitVec 7), f.toNat < 3 → g.toNat ∈ [6, 8, 9, 10, 11, 12] →
    let rm := RMode.ofBits b.rmode
    let N := b.rows * b.cols
    let w := efcWidth f.toNat
    let v := efcWidth g.toNat
    let es := 512 / w
    let ed := 512 / v
    let K := (N * es + ed - 1) / ed
    let outs := ({ b with op := .vquant f d x g } : Block).outs count n
    let G := es * b.srcs.flatten.length
    let part := fun (q : Nat) => (List.range (min 32 (G - 32 * q))).map fun t => efcDecode f.toNat (linear w b.srcs.flatten (32 * q + t))
    let deq := ({ b with op := .vdeq f d x g } : Block).outs count n
    -- the codes, and the scales with the last register of codes
    (∀ t j : Nat, (completes N es ed n)[t]? = some j → ∃ o : BlockOut, outs[t]? = some o ∧ o.latency = 4 ∧ o.lg = b.lg ∧ o.mask = BitVec.allOnes 64 ∧
      o.reg = (b.wb + d.toNat + j) % count ∧ ∀ k, k < ed → elemOf v o.val k = if j * ed + k < G then
        nth 0 (quantBlock g.toNat rm (part ((j * ed + k) / 32))).1 ((j * ed + k) % 32) % 2 ^ v else 0) ∧
    outs.length = (completes N es ed n).length + (if (completes N es ed n).contains (K - 1) then 1 else 0) ∧
    ((completes N es ed n).contains (K - 1) = true → ∃ o : BlockOut, outs.getLast? = some o ∧ o.latency = 4 ∧ o.lg = b.lg ∧
      o.mask = BitVec.allOnes 64 ∧ o.reg = (b.wb + d.toNat + K) % count ∧ ∀ k, k < 64 →
        elemOf 8 o.val k = if 32 * k < G then (quantBlock g.toNat rm (part k)).2.1 % 256 else 0) ∧
    -- the values again: the first register that VDEQ reads holds the scales
    ∃ o : BlockOut, deq = [o] ∧ o.latency = 4 ∧ o.lg = b.lg ∧ o.mask = BitVec.allOnes 64 ∧
      o.reg = (b.wb + d.toNat + 32 * (n / b.cols) + n % b.cols) % count ∧ ∀ k, k < es →
        let t := n * es + k
        let sc := elemOf 8 (nth 0 b.srcs.flatten 0) (t / 32)
        elemOf w o.val k = (efcConv f.toNat rm (if sc = 0xFF then .nan
          else (efcDecode g.toNat (linear v (b.srcs.flatten.drop 1) t)).shift ((sc : Int) - 127))).1 % 2 ^ w

/-- R158 to R160, R165, R166, R169, R171 to R181: what a step of a vector block writes, where, when and with which value: the
element operations in float and integer formats, masked and not, the moves, the reductions and scans, the conversions, and quantisation. -/
def Obligations.VectorElements : Prop := elementByElement ∧ moves ∧ reductions ∧ conversions ∧ quantises

/-- R168, R170: the compares read their single registers and write a predicate at T + 2; the predicate operations read and
write whole predicates at T + 1; each occupies its lane groups for one cycle. -/
def Obligations.ComparesAndPredicates : Prop :=
  ∀ (s : State) (f p d a b : BitVec 3) (x y : BitVec 7) (m : Bool),
  let free := (∀ lg ∈ s.vecGroups, s.me.busy lg = false) ∧
    (∀ lg ∈ groupsOf s.issue.slot, (∀ r, s.me.isBad .vectorReg lg r = false) ∧ ∀ r, s.me.isBad .predicateReg lg r = false)
  let pred := fun (lg k : Nat) => look (BitVec.allOnes 64) (s.me.lane lg).preds k
  let holds := fun (i : Instr) (rel : Val → Val → Bool) =>
    ∃ u ps, Completes i s u free ∧ u.me.pend = s.me.pend ++ ps ∧ ps.length = (groupsOf s.issue.slot).length ∧
      ∀ n, n < ps.length → ∃ q v, ps[n]? = some q ∧ q.due = s.me.time + 2 ∧
        let lg := nth 0 (groupsOf s.issue.slot) n
        q.write = .pred lg p.toNat v (if m then pred lg (s.me.lane lg).mode else BitVec.allOnes 64) ∧
        ∀ k, k < 64 → v.getLsbD k = (decide (k < 512 / efcWidth f.toNat) &&
          rel (efcDecode f.toNat (elemOf (efcWidth f.toNat) (s.myVreg lg (s.singleReg lg x)).1 k))
            (efcDecode f.toNat (elemOf (efcWidth f.toNat) (s.myVreg lg (s.singleReg lg y)).1 k)))
  let writes := fun (i : Instr) (g : BitVec 64 → BitVec 64 → BitVec 64) =>
    ∃ u ps, Completes i s u free ∧ u.me.pend = s.me.pend ++ ps ∧
      ps.map (·.write) = (groupsOf s.issue.slot).map (fun lg =>
        .pred lg d.toNat (g (pred lg a.toNat) (pred lg b.toNat)) (BitVec.allOnes 64)) ∧ ∀ q ∈ ps, q.due = s.me.time + 1
  holds (.vceq f m p x y) Val.beq ∧ holds (.vclt f m p x y) Val.lt ∧ holds (.vcle f m p x y) (fun u v => u.lt v || u.beq v) ∧
  writes (.pand d a b) (fun u v => u &&& v) ∧ writes (.por d a b) (fun u v => u ||| v) ∧
  writes (.pnot d a) (fun u _ => ~~~u) ∧ writes (.pmov d a) (fun u _ => u)

/-- R199: entry e of the slot table of a core is open, or belongs to strand n: the first node strand, started by a launch and not
ended, whose register claims it. -/
def Sys2Proof.Claims.entryFor (k : Core) (e n : Nat) : Prop :=
  let claims := fun (i : Nat) => (k.strand i).launch.isSome = true ∧ (k.strand i).mode ≠ .inactive ∧
    (k.strand i).ctl.mslot.getLsbD e = true
  ∀ i, i < partStrands k.part → claims i → (∀ j, j < i → ¬ claims j) → i = n

/-- R200: the matrix cycle counter C at matrix time m; it stands at 0 until the first bundle of a resumed team. -/
def Sys2Proof.Claims.counterAt (k : Core) (m : Nat) : Nat := if k.resumed.isSome = true then m - k.mtime else m - k.cBase

/-- R190, R197 to R200, R203 to R206: the conditions of a multiply of occupancy D on slots a and b and tile t: the array is free, the entry
of the slot table that C names is the strand's or open, D cycles of it are left, the slots are the strand's own and loaded, no
work of the port is pending on the tile. -/
def Sys2Proof.Claims.multiplies (s : State) (D : Nat) (a b : BitVec 6) (t : BitVec 5) : Prop :=
  let k := s.myCore
  let C := counterAt k k.mtime
  let own := fun (o : Nat) => o < slotCount k.part ∧ (k.slot o).holder = some s.issue.strand ∧ ¬ k.mtime < (k.slot o).loadUntil
  k.arrayUntil ≤ k.mtime ∧ entryFor k (C / 64 % 16) s.issue.strand ∧ C % 64 + D ≤ 64 ∧ own a.toNat ∧ own b.toNat ∧
    t.toNat < partAcc k.part ∧ ∀ w ∈ k.tileWork, w.tile = t.toNat → w.reads = true ∧ w.start + 64 ≤ k.mtime

/-- The operand element (line, e) of a slot, as the format gives it (R192, R204). -/
def Sys2Proof.Claims.operand (k : Core) (o : BitVec 6) (f : BitVec 4) (line e : Nat) : Val :=
  efcDecode f.toNat (elemOf (efcWidth f.toNat) (k.line (slotAddr k.part o.toNat + 64 * line)).1 e)

/-- The scale codes of a line of an operand of K elements: K / 32 bytes of the slot's scale buffer (R194, R204). -/
def Sys2Proof.Claims.scaleCodes (k : Core) (o : BitVec 6) (K line : Nat) : List Nat :=
  (((k.scaleBuffer o.toNat).drop (line * (K / 32))).take (K / 32)).map BitVec.toNat

/-- R204, the value of tile element (i, j): the starting value c, which is +0 for MMAZ and MMASZ and else the tile's with the results
of earlier multiplies, and the products of line i of A and line j of B over elements 0 to KL = min(KLIM, K - 1), accumulated;
with scales block by block. -/
def Sys2Proof.Claims.productAt (s : State) (f g : BitVec 4) (a b : BitVec 6) (t : BitVec 5) (zero scaled : Bool) (K i j : Nat) : Nat :=
  let k := s.myCore
  let x := (List.range (min s.me.geoKlim.toNat (K - 1) + 1)).map (operand k a f i)
  let y := (List.range (min s.me.geoKlim.toNat (K - 1) + 1)).map (operand k b g j)
  let c := fmtF32.decode (if zero then 0 else (tileElem (k.tileChained t.toNat) i j).1)
  (if scaled then macScaled f.toNat g.toNat c x y (scaleCodes k a K i) (scaleCodes k b K j) else macPlain c x y).1

/-- R81, R82, R204: one element. Without scales c and the exact products are accumulated; with scales a NaN code of a block makes the
element the canonical NaN; else c and the block sums, each times 2 to the sum of its scales, are accumulated. -/
def Sys2Proof.Claims.oneElement : Prop :=
  (∀ (c : Val) (x y : List Val), macPlain c x y =
    accumulate (c.isNan || x.any Val.isNan || y.any Val.isNan) (c :: (x.zip y).map fun p => p.1.mul p.2)) ∧
  (∀ (f g : Nat) (c : Val) (x y : List Val) (sa sb : List Nat), 0 < x.length → x.length ≤ 32 → x.length = y.length →
    macScaled f g c x y sa sb = match scaleExp f (nth 0 sa 0), scaleExp g (nth 0 sb 0) with
      | some p, some q => accumulate (c.isNan || x.any Val.isNan || y.any Val.isNan)
          [c, (exactSum .rne ((x.zip y).map fun r => r.1.mul r.2)).shift (p + q)]
      | _, _ => (fmtF32.nan, Events.none)) ∧
  ∀ f code : Nat, scaleExp f code = if f = 1 ∨ f = 2 then some 0 else if code = 255 then none else some ((code : Int) - 127)

/-- R200, R203 to R205: MMA, MMAZ, MMAS and MMASZ of an accepted pair start in their issue cycle: the array is taken for the pair's
occupancy, the slots' reads stay pending as long, and a slot whose release bit is set is released. One multiply is on its way; what
it will write are the tile elements of rows 0 to ROWS and columns 0 to COLS, with the value that R204 gives each, and no byte
of any other element. The pool does not change at issue. -/
def Sys2Proof.Claims.multiplyStarts : Prop :=
  ∀ (s : State) (f g : BitVec 4) (a b : BitVec 6) (t : BitVec 5) (ra rb : Bool) (K D : Nat), pairOf f.toNat g.toNat = some (K, D) →
  let starts := fun (i : Instr) (zero scaled : Bool) => Goes i s (multiplies s D a b t) → ∃ u m, exec i s = .next u ∧
    u.myCore.mults = s.myCore.mults ++ [m] ∧ m.strand = s.issue.strand ∧ m.start = s.myCore.mtime ∧ m.tile = t.toNat ∧
    u.myCore.arrayUntil = s.myCore.mtime + D ∧ u.myCore.pool = s.myCore.pool ∧
    (∀ l ∈ m.lines, ∃ i q, i ≤ s.me.geoRows.toNat ∧ 16 * q ≤ s.me.geoCols.toNat ∧
      l.off = tileAddr s.myCore.part t.toNat + 256 * i + 64 * q) ∧
    (∀ i j, i ≤ s.me.geoRows.toNat → j ≤ s.me.geoCols.toNat →
      ∃ l ∈ m.lines, l.off = tileAddr s.myCore.part t.toNat + 256 * i + 64 * (j / 16) ∧
        elemOf 32 l.data (j % 16) = productAt s f g a b t zero scaled K i j % 2 ^ 32 ∧
        ∀ y, y < 64 → l.mask.getLsbD y = decide (16 * (j / 16) + y / 4 ≤ s.me.geoCols.toNat)) ∧
    (ra = true → (u.myCore.slot a.toNat).holder = none) ∧ (rb = true → (u.myCore.slot b.toNat).holder = none) ∧
    (ra = false → (rb = true → b ≠ a) → (u.myCore.slot a.toNat).holder = (s.myCore.slot a.toNat).holder) ∧
    (rb = false → (ra = true → a ≠ b) → (u.myCore.slot b.toNat).holder = (s.myCore.slot b.toNat).holder) ∧
    (u.myCore.slot a.toNat).readsUntil = s.myCore.mtime + D ∧ (u.myCore.slot b.toNat).readsUntil = s.myCore.mtime + D ∧
    (∀ o, o ≠ a.toNat → o ≠ b.toNat → u.myCore.slot o = s.myCore.slot o)
  starts (.mma f g a b t rb ra) false false ∧ starts (.mmaz f g a b t rb ra) true false ∧
    starts (.mmas f g a b t rb ra) false true ∧ starts (.mmasz f g a b t rb ra) true true

/-- R190, R200, R203 to R205: what a multiply answers, and the value of each element that it writes. That 16-bit operands of a scaled
multiply take every scale as 0, the code 0xFF included, and where the cycle counter of a resumed team stands, are the model's readings
(log 31, log 28). -/
def Obligations.Multiplies : Prop := oneElement ∧ multiplyStarts

/-- R193, R195, R196, R202, R207 to R209: operand slots, tiles and the geometry. OCLAIM takes a free slot, of which no read is
pending, and ORELEASE gives it up; OLD takes 64 lines as they stand at issue, transposed or not, and completes at issue + 20, SLD 4 lines for the
slot's scale buffer at issue + 24; ACLR, AADD and AMOV take the accumulator port for 4, 64 and 64 cycles: ACLR leaves zeros, AADD in each
element the sum rounded once in F32, and AMOV puts each element, converted in the strand's mode, on its way to its place in the scratchpad,
row i at issue + i + 6; MGEO writes rows, columns and the K limit at latency 1. The poison mark of a geometry, and that line writes fall due
in matrix time, are the model's readings (log 26, log 16). -/
def Obligations.SlotsAndTiles : Prop :=
  ∀ (s : State) (a x : BitVec 6) (t y : BitVec 5) (f : BitVec 4) (tr : Bool) (i : BitVec 14),
  let k := s.myCore
  let mine := fun (o : Nat) => o < slotCount k.part ∧ (k.slot o).holder = some s.issue.strand
  let quiet := fun (o : Nat) => ¬ k.mtime < (k.slot o).loadUntil ∧ ¬ k.mtime < (k.slot o).readsUntil
  let idleTile := fun (o : Nat) => o < partAcc k.part ∧ ∀ w ∈ k.tileWork, w.tile = o → w.reads = true
  let noMult := fun (o : Nat) => ∀ m ∈ k.mults, m.tile ≠ o
  let off := (s.src x).1.1
  let line := fun (o : Nat) => match scratchAt k.part o with
    | some p => (k.line p).1
    | none => 0
  let elem := fun (o i j : Nat) => fmtF32.decode (tileElem (k.tileLines o) i j).1
  (∃ u, Completes (.oclaim a) s u (a.toNat < slotCount k.part ∧ (k.slot a.toNat).holder = none ∧ ¬ k.mtime < (k.slot a.toNat).readsUntil) ∧
    u.myCore.slot a.toNat = { k.slot a.toNat with holder := some s.issue.strand } ∧
    ∀ o, o ≠ a.toNat → u.myCore.slot o = k.slot o) ∧
  (∃ u, Completes (.orelease a) s u (mine a.toNat ∧ ¬ k.mtime < (k.slot a.toNat).loadUntil) ∧
    (u.myCore.slot a.toNat).holder = none ∧ ∀ o, o ≠ a.toNat → u.myCore.slot o = k.slot o) ∧
  (∃ u, Completes (.old f a x tr) s u (mine a.toNat ∧ quiet a.toNat ∧ k.loaderUntil ≤ k.mtime ∧ (s.srcPeek x).toNat % 64 = 0 ∧
      s.lineHold ((s.scratchLines (s.srcPeek x).toNat 64).filterMap id) [] = none) ∧
    u.myCore.loaderUntil = k.mtime + 16 ∧ (u.myCore.slot a.toNat).loadUntil = k.mtime + 20 ∧ u.myCore.pool = k.pool ∧
    (tr = false → (u.myCore.slot a.toNat).load.map (fun l => (l.off, l.data)) = (List.range 64).map fun n =>
      (slotAddr k.part a.toNat + 64 * n, line (off.toNat + 64 * n))) ∧
    (tr = true → (u.myCore.slot a.toNat).load.length = 64 ∧ ∀ n, n < 64 → ∃ l, (u.myCore.slot a.toNat).load[n]? = some l ∧
      l.off = slotAddr k.part a.toNat + 64 * n ∧ ∀ e, e < 32 →
        elemOf 16 l.data e = elemOf 16 (line (off.toNat + 64 * ((64 * e + n) / 32))) ((64 * e + n) % 32))) ∧
  (∃ u p, Completes (.sld a x i) s u (mine a.toNat ∧ (s.srcPeek x + i.setWidth 64 * 256).toNat % 64 = 0 ∧
      s.lineHold ((s.scratchLines (s.srcPeek x + i.setWidth 64 * 256).toNat 4).filterMap id) [] = none) ∧
    u.me.pend = (s.src x).2.me.pend ++ [p] ∧ p.due = s.me.time + 24 ∧ ∃ v, p.write = .scale a.toNat v ∧
      ∀ n, n < 4 → v.extractLsb' (512 * n) 512 = line ((off + i.setWidth 64 * 256).toNat + 64 * n)) ∧
  (∃ u w, Completes (.aclr t) s u (idleTile t.toNat ∧ k.portUntil ≤ k.mtime) ∧ u.myCore.tileWork = k.tileWork ++ [w] ∧
    w.tile = t.toNat ∧ w.until_ = k.mtime + 4 ∧ u.myCore.portUntil = k.mtime + 4 ∧
    w.lines.map (fun l => (l.off, l.data, l.mask)) =
      (List.range 256).map fun n => (tileAddr k.part t.toNat + 64 * n, 0, BitVec.allOnes 64)) ∧
  (∃ u w, Completes (.aadd y t) s u (idleTile t.toNat ∧ idleTile y.toNat ∧ noMult t.toNat ∧ noMult y.toNat ∧ k.portUntil ≤ k.mtime) ∧
    u.myCore.tileWork = k.tileWork ++ [w] ∧ w.tile = t.toNat ∧ w.reads = false ∧ w.until_ = k.mtime + 70 ∧
    u.myCore.portUntil = k.mtime + 64 ∧ u.myCore.pool = k.pool ∧
    (∀ l ∈ w.lines, l.mask = BitVec.allOnes 64) ∧ w.lines.length = 256 ∧
    ∀ i j, i < 64 → j < 64 → ∃ l ∈ w.lines, l.off = tileAddr k.part t.toNat + 256 * i + 64 * (j / 16) ∧
      elemOf 32 l.data (j % 16) = (fmtF32.conv .rne (Val.add .rne (elem t.toNat i j) (elem y.toNat i j))).1 % 2 ^ 32) ∧
  (∃ u w, Completes (.amov f x t) s u (idleTile t.toNat ∧ noMult t.toNat ∧ k.portUntil ≤ k.mtime ∧ (s.srcPeek x).toNat % 64 = 0 ∧
      s.lineHold [] ((s.scratchLines (s.srcPeek x).toNat (8 * efcWidth f.toNat)).filterMap id) = none) ∧
    u.myCore.tileWork = k.tileWork ++ [w] ∧ w.tile = t.toNat ∧ w.reads = true ∧ u.myCore.portUntil = k.mtime + 64 ∧
    u.myCore.pool = k.pool ∧ u.myCore.tris = k.tris ∧ w.lines = [] ∧
    (f.toNat ∈ [0, 1, 2, 4, 6, 8, 9] → ∃ ws, u.myCore.poolWrites = k.poolWrites ++ ws ∧ ∀ i j, i < 64 → j < 64 →
      let v := efcWidth f.toNat
      ∀ p, scratchAt k.part (off.toNat + (64 * i + j) * v / 512 * 64) = some p → ∃ q ∈ ws, q.off = p ∧ q.due = k.mtime + i + 6 ∧
        q.mask = BitVec.allOnes 64 ∧
        elemOf v q.data ((64 * i + j) % (512 / v)) = (efcConv f.toNat (RMode.ofBits s.me.ctl.rmode) (elem t.toNat i j)).1 % 2 ^ v)) ∧
  Completes (.mgeo x) s ((s.src x).2.result 1
    (.geometry (off.extractLsb' 0 6) (off.extractLsb' 8 6) (off.extractLsb' 16 7)) (s.src x).1.2)

/-- No pending write of a file that a syllable names, and none of its pending reads either (R226). -/
def Sys2Proof.Claims.fileFree (k : Core) (f : Nat) : Prop := k.triWritten f false = false ∧ k.triRead f = false

/-- Rows of 32 F32 or BF16 elements from bytes, in order (R228, R229). -/
def Sys2Proof.Claims.rowsIn (bf16 : Bool) (bytes : List Byte) (count : Nat) : List (List Val) :=
  let n := if bf16 then 2 else 4
  (List.range count).map fun k => (List.range 32).map fun j =>
    (if bf16 then fmtBF16 else fmtF32).decode (ofBytes ((bytes.drop (n * (32 * k + j))).take n))

/-- Rows streamed one at a time, in order; a row with a NaN or an infinity changes nothing (R229). -/
def Sys2Proof.Claims.rowsStreamed (p : Nat) (defer : Bool) (rows : List TriRow) : List (List Val) → List TriRow
  | [] => rows
  | v :: vs => rowsStreamed p defer (match rowOfVals p v ⟨0, []⟩ with
    | some x => (streamRow p defer rows x.1 ⟨0, []⟩).1
    | none => rows) vs

/-- R213, R223, R226 to R234: the Eddy syllables of the triangular files. Each is admitted once the files it names and its unit
are free, its lines are not pending, and its offset is a multiple of 64; it leaves one work, which EDDY_WORK_COMPLETE ends, with the file
that it will leave: CYQR and CYAPPLY the rows streamed into it, CYRD.c its rows compensated, CYWR those of the image, CYCLR none. CYRD writes
line l of the image at issue + 8 + l, CYSOLVE the F32 unknowns, zeros beyond them, at issue + (k + 1) x S + 4. The units stay busy for I x rows,
for the lines of the image, for 2 cycles and for S x (k + 1). CYMODE writes the mode and clears the sticky bits at latency 1. -/
def Sys2Proof.Claims.fileSyllables : Prop :=
  ∀ (s : State) (t v : BitVec 2) (a b : BitVec 6) (f : Bool) (im : BitVec 2) (c g p keep : Bool),
  let k := s.myCore
  let i := eddyI s.eddyP
  let aligned := fun (w : Word) => w.toNat % 64 = 0
  let x := s.srcPeek a
  let y := s.srcPeek2 a b
  let one := fun (u : State) (w : EddyWork) => u.myCore.eddy = k.eddy ++ [w] ∧ w.strand = s.issue.strand ∧
    u.myCore.tris = k.tris ∧ u.myCore.pool = k.pool
  let rows := cyqrRows (s.src2 a b).1.2.1
  let range := cyapplyRange (s.src2 a b).1.1 (s.src2 a b).1.2.1
  let n := (s.src2 a b).1.1.toNat % 32
  let defer := s.me.ctl.defer
  let at_ := fun (o : Nat) => scratchAt k.part o
  let lines := fun (o count : Nat) => (List.range count).map fun l => match at_ (o + 64 * l) with
    | some q => (k.line q).1
    | none => 0
  let bytes := fun (o count : Nat) => (lines o count).flatMap lineBytes
  Completes (.cymode g p) s (s.result 1 (.eddyMode p g)) ∧
  (∃ u w, Completes (.cyqr t a b f) s u (k.triWritten t.toNat true = false ∧ aligned x ∧ k.triUntil ≤ k.eddyTime ∧
      s.lineHold ((s.cyqrLines x.toNat (cyqrRows y) f).filterMap id) [] = none) ∧
    one u w ∧ w.file = t.toNat ∧ w.streams = true ∧ (w.value = none ↔ rows = 0) ∧ u.myCore.triUntil = k.mtime + i * rows ∧
    ∀ z, w.value = some z → z.rows = (triOf (rowsStreamed s.eddyP defer (k.triChained t.toNat).rows
      (rowsIn f (bytes (s.src2 a b).1.1.toNat (if f then rows else 2 * rows)) rows)) false).rows) ∧
  (∃ u w, Completes (.cyapply t v a b keep) s u (k.triWritten t.toNat true = false ∧ k.triWritten v.toNat false = false ∧
      (keep = false → k.triRead t.toNat = false ∧ k.triRead v.toNat = false) ∧ k.triUntil ≤ k.eddyTime) ∧
    one u w ∧ w.file = t.toNat ∧ w.streams = true ∧ (w.value = none ↔ range.2 = 0) ∧
    w.clearFile = (if keep = false ∧ range.2 ≠ 0 then some v.toNat else none) ∧ u.myCore.triUntil = k.mtime + i * range.2 ∧
    ∀ z, w.value = some z → z.rows = (triOf (streamRows s.eddyP defer (k.triChained t.toNat).rows
      (((k.tri v.toNat).rows.drop range.1).take range.2) ⟨0, []⟩).1 false).rows) ∧
  (∃ u w, Completes (.cyrd t a c im) s u (k.triWritten t.toNat false = false ∧ aligned x ∧ k.filePortUntil ≤ k.mtime ∧
      s.lineHold [] ((s.scratchLines x.toNat (imageLines im)).filterMap id) = none) ∧
    one u w ∧ w.file = t.toNat ∧ (w.value.isSome ↔ c = true) ∧ u.myCore.filePortUntil = k.mtime + imageLines im ∧
    (∃ ws, u.myCore.poolWrites = k.poolWrites ++ ws ∧ ∀ l q, l < imageLines im → at_ ((s.src a).1.1.toNat + 64 * l) = some q →
      ∃ e ∈ ws, e.off = q ∧ e.due = k.mtime + 8 + l ∧ e.mask = BitVec.allOnes 64 ∧
        lineBytes e.data = ((imageOf im (k.tri t.toNat)).1.drop (64 * l)).take 64) ∧
    ∀ z, w.value = some z → z.rows = (triOf ((k.tri t.toNat).rows.map fun x =>
      { (x.times (gainOf (eddyN x.g) x.c)).1 with c := 0, g := s.eddyP }) false).rows) ∧
  (∃ u w, Completes (.cywr t a im) s u (fileFree k t.toNat ∧ aligned x ∧ k.filePortUntil ≤ k.mtime ∧
      s.lineHold ((s.scratchLines x.toNat (imageLines im)).filterMap id) [] = none) ∧
    one u w ∧ w.file = t.toNat ∧ w.value.isSome ∧ u.myCore.filePortUntil = k.mtime + imageLines im ∧
    let image := bytes (s.src a).1.1.toNat (imageLines im)
    ∀ z, w.value = some z → z.rows = (triOf (if im = 2 then (rawRows image).map (·.1)
      else (rowsIn (im == 1) image 32).zipIdx.map fun x =>
        match rowOfVals s.eddyP (List.replicate x.2 (.fin false 0 0) ++ x.1.drop x.2) ⟨0, []⟩ with
        | some y => y.1
        | none => TriRow.reset) false).rows) ∧
  (∃ u w, Completes (.cyclr t) s u (fileFree k t.toNat ∧ k.filePortUntil ≤ k.mtime) ∧
    one u w ∧ w.file = t.toNat ∧ w.value = some Tri.reset ∧ w.until_ = k.mtime + 2 ∧ w.flags = 0 ∧ w.recs = [] ∧
    u.myCore.filePortUntil = k.mtime + 2) ∧
  (∃ u w, Completes (.cysolve t a b) s u (k.triWritten t.toNat false = false ∧ aligned y ∧ k.triUntil ≤ k.eddyTime ∧
      s.lineHold [] ((s.solveLines y.toNat (x.toNat % 32)).filterMap id) = none) ∧
    one u w ∧ w.value = none ∧ u.myCore.triUntil = k.mtime + eddyS s.eddyP * (n + 1) ∧
    w.until_ = k.mtime + (n + 1) * eddyS s.eddyP + 4 ∧
    ∃ ws, u.myCore.poolWrites = k.poolWrites ++ ws ∧ ∃ xh : Nat → Val, ∀ j q, j < n →
      at_ ((s.src2 a b).1.2.1.toNat + j / 16 * 64) = some q → ∃ e ∈ ws, e.off = q ∧ e.due = k.mtime + (n + 1) * eddyS s.eddyP + 4 ∧
        e.mask = BitVec.allOnes 64 ∧
        let r := solveRow (if s.eddyP = 1 then 14 else 28) n j (nth TriRow.reset (k.tri t.toNat).rows j)
          ((List.range (n - 1 - j)).map fun g => xh (j + 1 + g))
        xh j = r.1 ∧ elemOf 32 e.data (j % 16) = r.2.1 % 2 ^ 32 ∧ ∀ g, n ≤ g → g / 16 = j / 16 → elemOf 32 e.data (g % 16) = 0)

/-- R214, R228: a row written from the exact values u x 2^q, the widest u of magnitude top: its exponent is the least at which each
lies below 2^(E - 127), and at least 1; each mantissa is the value times 2^(164 - E) rounded, ties to even; past 255 the
exponent is 255 and the mantissas saturate. The images hold each entry at its place. -/
def Sys2Proof.Claims.rowsAndImages : Prop :=
  (∀ (us : List Int) (q : Int), (∀ u ∈ us, u = 0) → writeRow us q = (1, us, false)) ∧
  (∀ (us : List Int) (q : Int), (∃ u ∈ us, u ≠ 0) →
    let top := (us.map Int.natAbs).foldl max 0
    let e := max 1 ((Nat.log2 top : Int) + q + 128)
    (e ≤ 255 → writeRow us q = (e.toNat, us.map (fun u => roundShift u (q + 164 - e)), false)) ∧
    (255 < e → writeRow us q =
      (255, us.map (fun u => max (-(2 ^ 39 - 1)) (min (2 ^ 39 - 1) (roundShift u (q - 91)))), true))) ∧
  (∀ (u : Int) (k : Nat), roundShift u k = u * 2 ^ k ∧
    2 * (roundShift u (-(k : Int)) * 2 ^ k - u).natAbs ≤ 2 ^ k ∧
    (2 * (roundShift u (-(k : Int)) * 2 ^ k - u).natAbs = 2 ^ k → roundShift u (-(k : Int)) % 2 = 0)) ∧
  ∀ (t : Tri) (i j : Nat), i < 32 → j < 32 →
    let r := nth TriRow.reset t.rows i
    let g := gainOf (eddyN r.g) r.c
    let m := nth 0 r.m j
    let field := fun (im : BitVec 2) (o n : Nat) => ofBytes (((imageOf im t).1.drop o).take n)
    let entry := fun (fm : Fmt) => (fm.conv .rne (.fin (m < 0) (m.natAbs * g.1) ((r.e : Int) - 164 + g.2))).1
    field 0 (128 * i + 4 * j) 4 = entry fmtF32 % 2 ^ 32 ∧ field 1 (64 * i + 2 * j) 2 = entry fmtBF16 % 2 ^ 16 ∧
    field 2 (256 * i + 8 * j) 8 = wrap 64 m ∧ field 2 (8192 + i) 1 = r.e % 256 ∧ field 2 (8224 + i) 1 = (r.c + 128 * r.g) % 256

/-- R218, R219: one rotation of file row s with an incoming row, where neither has a foreign count nor counts to align: both are
scaled to the larger exponent with 8 more bits, the micro-rotations of `vectoring` turn all columns, and each is written under R214; under EACH a
rotation of some steps takes the gain of one step count, under DEFER the count rises. -/
def Sys2Proof.Claims.oneRotation : Prop :=
  (∀ (p s : Nat) (f x : TriRow) (v : RowEvents), f.c = 0 → x.c = 0 →
    let ec := max f.e x.e
    let scale := fun (r : TriRow) => (r.m.drop s).map fun m => roundShift m (8 + (r.e : Int) - ec)
    let r := vectoring p (scale f) (scale x)
    let turns := r.2.2 / 2 ^ 27
    let each := if turns = 0 then (1, 0) else gainOf (eddyN p) 1
    let file := fun (t : Nat × Int) => writeRow (r.1.map fun u => u * (t.1 : Int)) ((ec : Int) - 172 + t.2)
    let out := fun (t : Nat × Int) => writeRow ((r.2.1.drop 1).map fun u => u * (t.1 : Int)) ((ec : Int) - 172 + t.2)
    let a := rotateRow p false s f x v
    let b := rotateRow p true s f x v
    let n := if turns = 0 then 0 else 1
    a.1 = { f with e := (file each).1, m := List.replicate s 0 ++ (file each).2.1 } ∧
    a.2.1 = { x with e := (out each).1, m := List.replicate (s + 1) 0 ++ (out each).2.1 } ∧
    b.1 = { e := (file (1, 0)).1, m := List.replicate s 0 ++ (file (1, 0)).2.1, c := n, g := if turns = 0 then f.g else p } ∧
    b.2.1 = { e := (out (1, 0)).1, m := List.replicate (s + 1) 0 ++ (out (1, 0)).2.1, c := n, g := if turns = 0 then x.g else p }) ∧
  (∀ (neg : Bool) (i : Nat) (xs ys : List Int), let d : Int := if neg then -1 else 1
    microStep neg i xs ys = ((xs.zip ys).map (fun c => c.1 - d * (c.2 / 2 ^ i)), (xs.zip ys).map fun c => c.2 + d * (c.1 / 2 ^ i))) ∧
  (∀ (n : Nat) (xs ys : List Int), let r := vectorSteps n xs ys
    let up := decide (0 ≤ nth 0 r.2.1 0)
    vectorSteps (n + 1) xs ys = ((microStep up n r.1 r.2.1).1, (microStep up n r.1 r.2.1).2, r.2.2 + (if up then 2 ^ n else 0))) ∧
  (∀ xs ys, vectorSteps 0 xs ys = (xs, ys, 0)) ∧
  ∀ (p : Nat) (xs ys : List Int),
    let q := decide (nth 0 xs 0 < 0)
    let n := if nth 0 ys 0 = 0 then 0 else eddyN p
    let r := if q then vectorSteps n (xs.map (-·)) (ys.map (-·)) else vectorSteps n xs ys
    vectoring p xs ys = (r.1, r.2.1, n * 2 ^ 27 + (if q then 2 ^ 26 else 0) + r.2.2)

/-- R234: one unknown of the back-substitution: with a zero diagonal it is 0 and its code the NaN; else the exact remainder of the
right-hand side over the diagonal, truncated toward zero to p bits, and its code is that rounded to F32. -/
def Sys2Proof.Claims.unknowns : Prop :=
  (∀ (p k i : Nat) (r : TriRow) (done : List Val), nth 0 r.m i = 0 →
    (solveRow p k i r done).1 = .fin false 0 0 ∧ (solveRow p k i r done).2.1 = fmtF32.nan) ∧
  (∀ (p k i : Nat) (r : TriRow) (done : List Val), nth 0 r.m i ≠ 0 →
    let terms := ((r.m.drop (i + 1)).zip done).map fun t => (Val.mul (.fin (t.1 < 0) t.1.natAbs 0) t.2).neg
    let all := Val.fin (nth 0 r.m k < 0) (nth 0 r.m k).natAbs 0 :: terms
    let q := min (minExp all) 0
    let x := truncQuot p ((all.map (·.units q)).sum) (nth 0 r.m i) q
    (solveRow p k i r done).1 = x ∧ (solveRow p k i r done).2.1 = (fmtF32.conv .rne x).1) ∧
  ∀ (p : Nat) (n d e : Int), 0 < p → n ≠ 0 → d ≠ 0 → ∃ (m : Nat) (g : Int), truncQuot p n d e = .fin (decide (n < 0) != decide (d < 0)) m (e - g) ∧
    2 ^ (p - 1) ≤ m ∧ m < 2 ^ p ∧ m * d.natAbs * pow2Den g ≤ n.natAbs * pow2Num g ∧
    n.natAbs * pow2Num g < (m + 1) * d.natAbs * pow2Den g

/-- R213, R214, R218, R219, R223, R226 to R234: the Eddy syllables of the triangular files, what they leave in them and write from
them, and the arithmetic of their rows. When the work reads its files is the model's reading (log 39, log 41). -/
def Obligations.EddyFiles : Prop := fileSyllables ∧ rowsAndImages ∧ oneRotation ∧ unknowns

/-- R218, R225, R235 to R237: CYGIV, CYROT and CYANG wait for the scalar cell, take it for I cycles and answer one register, with the
records of their events; operands that are not finite answer as the rules say, and NONFIN becomes set when the latency has passed;
finite ones set no sticky bit. The precision of the intermediate results is the model's reading (log 42). -/
def Obligations.EddyCell : Prop :=
  ∀ (s : State) (a b d : BitVec 6) (c : Bool),
  let k := s.myCore
  let free := k.cellUntil ≤ k.mtime
  let x := fmtF32.decode (bits (s.src2 a b).1.1 0)
  let y := fmtF32.decode (bits (s.src2 a b).1.2.1 0)
  let z := fmtF32.decode (bits (s.src2 a b).1.1 32)
  let odd := fun (v : Val) => (v.isNan || v.isInf) = true
  let answers := fun (i : Instr) (pops : State) (latency : Nat) (value : Word → Prop) (bad : Prop) (events : List Events → Prop) =>
    ∃ u p v es, Completes i s u free ∧ u.me.pend = pops.me.pend ++ [p] ∧ p.write = .x d v ∧ p.due = s.me.time + latency ∧
      u.myCore.cellUntil = k.mtime + eddyI s.eddyP ∧ u.myCore.tris = k.tris ∧ u.myCore.pool = k.pool ∧ value v ∧
      p.recs = s.eddyRecords (countEvents es) 0xFF ∧ events es ∧
      (bad → ∃ w, u.myCore.eddy = k.eddy ++ [w] ∧ w.strand = s.issue.strand ∧ w.until_ = k.mtime + latency ∧ w.value = none ∧
        w.clearFile = none ∧ w.recs = [] ∧ w.flags = stickyBits true false false false) ∧
      (¬ bad → u.myCore.eddy = k.eddy)
  let nans : Events := { Events.none with nanProduced := true }
  let toFinite : Events := { Events.none with nanToFinite := true }
  let F := eddyN s.eddyP + 6
  let R := min (bits (s.src2 a b).1.2.1 0 / 2 ^ 27) 26 + 6
  answers (.cygiv a b d) (s.src2 a b).2 F (fun v =>
    ((x.isNan || y.isNan) = true → v = BitVec.ofNat 64 (fmtF32.nan * 2 ^ 32)) ∧
    ((x.isNan || y.isNan) = false → odd x ∨ odd y → v = BitVec.ofNat 64 (fmtF32.infCode false * 2 ^ 32)) ∧
    (¬ odd x → ¬ odd y → v = BitVec.ofNat 64 ((givens s.eddyP x y).1 * 2 ^ 32 + (givens s.eddyP x y).2.1)))
    (odd x ∨ odd y) (fun es => (odd x ∨ odd y → es = []) ∧ (¬ odd x → ¬ odd y → es = [(givens s.eddyP x y).2.2])) ∧
  answers (.cyrot a b d) (s.src2 a b).2 R (fun v =>
    (odd x ∨ odd z → v = BitVec.ofNat 64 (fmtF32.nan * 2 ^ 32 + fmtF32.nan)) ∧
    (¬ odd x → ¬ odd z → let r := rotatePair (bits (s.src2 a b).1.2.1 0) x z
      v = BitVec.ofNat 64 (r.2.1 * 2 ^ 32 + r.1)))
    (odd x ∨ odd z) (fun es => let r := rotatePair (bits (s.src2 a b).1.2.1 0) x z
      (¬ odd x → ¬ odd z → es = [r.2.2.1, r.2.2.2]) ∧ ((x.isNan || z.isNan) = true → es = [Events.none, Events.none]) ∧
      ((x.isNan || z.isNan) = false → odd x ∨ odd z → es = [nans, nans])) ∧
  answers (.cyang a d c) (s.src a).2 8 (fun v =>
    let w := bits (s.src a).1.1 0
    (c = false → v = BitVec.ofNat 64 (angleF32 w 4 128)) ∧
    (c = true → (∀ sg m e, fmtF32.decode w = .fin sg m e → v = BitVec.ofNat 64 (angleCode (eddyN s.eddyP) sg m e)) ∧
      (odd (fmtF32.decode w) → v = 0)))
    (c = true ∧ odd (fmtF32.decode (bits (s.src a).1.1 0)))
    (fun es => if c = true ∧ odd (fmtF32.decode (bits (s.src a).1.1 0)) then es = [toFinite] else es = [])

/-! ## Engine commands -/

/-- The register of a command's first operand, of its dependence word, and its descriptor (R54, R240, R241). -/
def Sys2Proof.Claims.commandOf : Instr → Option (Option (BitVec 6) × BitVec 6 × Option (BitVec 6))
  | .cpy b d _ | .cpyst b d _ _ _ _ | .sacc b d _ _ _ | .zip b d _ _ | .unzip b d _ _ | .repl b d _ _ _ | .qdecl b d _
  | .tsave b d _ | .tload b d _ => some (none, b, some d)
  | .qarrive b _ | .unlease b _ => some (none, b, none)
  | .rcnt a b _ | .rsnap a b _ | .ttset a b | .tready a b | .qread a b _ | .qreplay a b _ => some (some a, b, none)
  | .send a b d _ _ | .trkarm a b d => some (some a, b, some d)
  | _ => none

/-- R226, R241, R242, R246, R247, R324: each of the nineteen queued commands, when the dependence word passes (R241), the strand has
fewer than 32 unfinished commands and no line that the command may write is awaited by the Eddy array (R226): one command enters
the queues, with what it captures, in the order of issue; the token it names is pending; nothing else of the strand changes. A
command of a condemned strand is cancelled at once: its token is produced-cancelled. -/
def Obligations.QueuedCommands : Prop :=
  ∀ (s : State) (i : Instr) (xa : Option (BitVec 6)) (xb : BitVec 6) (dn : Option (BitVec 6)), commandOf i = some (xa, xb, dn) →
    let dep := match xa with
      | some a => s.srcPeek2 a xb
      | none => s.srcPeek xb
    let first := match xa with
      | some a => s.srcPeek a
      | none => 0
    let tok := dep.toNat % 256
    Goes i s (s.queueLength s.myDie s.myTeamIndex s.myName < 32 ∧ s.myTeam.depFault dep = none ∧
        s.commandHold (s.captures i first dep dn) = none ∧
        ∀ d, dn = some d → (s.me.bad.all fun p => !(p.kind == .descriptorReg && p.index == d.toNat)) = true) →
    ∃ u, exec i s = .next u ∧ u.nextId = s.nextId + 1 ∧ u.hbm = s.hbm ∧
      (s.me.condemned = none → ∃ m, (∃ olds, u.cmds = olds ++ [m] ∧ ∀ k ∈ s.cmds, k ∉ olds → k.done = true ∧ k.token = tok) ∧
        m.id = s.nextId ∧ m.who = s.myName ∧ m.cap.op = i ∧ m.cap.dep = dep ∧ m.token = tok ∧ m.started = false ∧ m.done = false ∧
        (∀ a, xa = some a → m.cap.xa = (s.src a).1.1) ∧ (∀ d, dn = some d → m.cap.desc = s.me.descOf d.toNat) ∧
        ((u.team s.myDie s.myTeamIndex).token tok).st = .pending ∧
        ((u.team s.myDie s.myTeamIndex).token tok).cmd = some s.nextId ∧
        (∀ k, k ≠ tok → (u.team s.myDie s.myTeamIndex).token k = s.myTeam.token k) ∧
        u.me.pend = s.me.pend ∧ u.me.x = s.me.x) ∧
      (s.me.condemned.isSome = true → (∀ k ∈ s.cmds, k.id ≠ s.nextId) →
        ((u.team s.myDie s.myTeamIndex).token tok).st = .cancelled)

/-! ## Events of a core -/

/-- R193, R199, R200, R205, R208, R209, R229 to R235, R239: the matrix and Eddy events, once their work is due. MMA_RESULT lands the
oldest multiply 200 cycles after its start, in the pool and in nothing else of the core; OPERAND_LOAD_COMPLETE lands a slot's lines at
its time; OPERAND_SLOT_FREE frees a released slot; ACCUMULATOR_PORT_COMPLETE ends the oldest due work of the port;
EDDY_WORK_COMPLETE ends every work whose time has come, in the order of admission: its file has the value, the file that it clears is
clear, its strand has the sticky bits; the others stay, a stream with the rows of later streams of its file that have ended; what a
forced pre-emption has stopped rests, and nothing moves until the first bundle of a resumed team. MATRIX_SLOT_WAKE makes the blocked
strand READY at a team's return and two cycles before an entry that it may use. A clause about an event whose work is not due says
the model's choice (log 6). -/
def Obligations.ArrayEvents : Prop :=
  (∀ (s : State) (c : Nat) (m : Multiply) (rest : List Multiply), (s.core c).mults = m :: rest → m.start + 200 ≤ (s.core c).mtime →
    ∃ u, exec (.mmaResult c) s = .next u ∧ (u.core c).mults = rest ∧ (u.core c).tris = (s.core c).tris ∧
      (u.core c).slots = (s.core c).slots ∧ (u.core c).scale = (s.core c).scale ∧
      (u.core c).pool = ((s.core c).landLines m.lines).pool ∧ (u.core c).poolPoison = ((s.core c).landLines m.lines).poolPoison ∧
      (u.strand c m.strand).stats = ((s.strand c m.strand).appendAll m.recs).stats ∧
      (m.mark = true → (u.strand c m.strand).ctl.poison = true)) ∧
  (∀ (s : State) (c o : Nat), ((s.core c).slot o).load ≠ [] → ((s.core c).slot o).loadUntil ≤ (s.core c).mtime →
    ∃ u, exec (.operandLoadComplete c o) s = .next u ∧ ((u.core c).slot o).load = [] ∧
      (u.core c).pool = ((s.core c).landLines ((s.core c).slot o).load).pool ∧ (u.core c).tris = (s.core c).tris ∧
      ((u.core c).slot o).holder = ((s.core c).slot o).holder ∧ ∀ p, p ≠ o → (u.core c).slot p = (s.core c).slot p) ∧
  (∀ (s : State) (c o : Nat), ((s.core c).slot o).holder = none → ((s.core c).slot o).load = [] →
    ((s.core c).slot o).loadUntil ≤ (s.core c).mtime → ((s.core c).slot o).readsUntil ≤ (s.core c).mtime →
    ∃ u, exec (.operandSlotFree c o) s = .next u ∧ (u.core c).slot o = Slot.reset ∧ (u.core c).pool = (s.core c).pool ∧
      ∀ p, p ≠ o → (u.core c).slot p = (s.core c).slot p) ∧
  (∀ (s : State) (c : Nat) (before after : List TileWork) (w : TileWork), (s.core c).tileWork = before ++ w :: after →
    w.until_ ≤ (s.core c).mtime → (∀ v ∈ before, (s.core c).mtime < v.until_) →
    ∃ u, exec (.accumulatorPortComplete c) s = .next u ∧ (u.core c).tileWork = before ++ after ∧
      (u.core c).pool = ((s.core c).landLines w.lines).pool ∧ (u.core c).tris = (s.core c).tris ∧
      (u.core c).slots = (s.core c).slots ∧ (u.strand c w.strand).stats = ((s.strand c w.strand).appendAll w.recs).stats) ∧
  (∀ (s : State) (c : Nat), (s.core c).rowsWait = none →
    let k := s.core c
    let ends := fun (w : EddyWork) => w.until_ ≤ k.mtime ∧ w.stopped = none
    let clears := fun (w : EddyWork) (f : Nat) => w.clearFile = some f ∧ w.clearAt ≤ k.mtime ∧ w.stopped = none
    let flag := fun (n i : Nat) => ∃ w ∈ k.eddy, ends w ∧ w.strand = n ∧ w.flags.getLsbD i = true
    ∃ u, exec (.eddyWorkComplete c) s = .next u ∧ (u.core c).pool = k.pool ∧ (u.core c).slots = k.slots ∧
      (u.core c).eddy.map (fun w => (w.strand, w.file, w.until_, w.flags, w.recs)) =
        (k.eddy.filter fun w => !(decide (w.until_ ≤ k.mtime) && w.stopped.isNone)).map (fun w => (w.strand, w.file, w.until_, w.flags, w.recs)) ∧
      (∀ e ∈ (u.core c).eddy, ∃ o ∈ k.eddy, ¬ ends o ∧ e.file = o.file ∧ e.until_ = o.until_ ∧
        (e.value = o.value ∨ ∃ w ∈ k.eddy, ends w ∧ w.file = o.file ∧ w.streams = true ∧ o.streams = true ∧ e.value = w.value)) ∧
      (∀ f, (u.core c).tri f = k.eddy.foldl (fun v w =>
        let v := if w.clearFile = some f ∧ w.clearAt ≤ k.mtime ∧ w.stopped = none then Tri.reset else v
        if w.until_ ≤ k.mtime ∧ w.stopped = none ∧ w.file = f then
          match w.value with
          | some x => if w.streams = true ∨ w.readFile.isSome = true then { x with poison := x.poison || v.poison } else x
          | none => v
        else v) (k.tri f)) ∧
      (∀ f, (∀ w ∈ k.eddy, ¬ clears w f ∧ (ends w → w.file ≠ f ∨ w.value = none)) → (u.core c).tri f = k.tri f) ∧
      ∀ n, let old := (s.strand c n).ctl
        let new := (u.strand c n).ctl
        (new.nonfin = true ↔ old.nonfin = true ∨ flag n 0) ∧ (new.gsat = true ↔ old.gsat = true ∨ flag n 1) ∧
        (new.sing = true ↔ old.sing = true ∨ flag n 2) ∧ (new.ovf = true ↔ old.ovf = true ∨ flag n 3)) ∧
  (∀ (s : State) (c : Nat), (s.core c).rowsWait.isSome = true → exec (.eddyWorkComplete c) s = .next s) ∧
  (∀ (s : State) (c n : Nat), (s.strand c n).mode = .blocked → (s.strand c n).wait.reason = 7 →
    ((s.core c).resumed.isSome = true ∨
      (counterAt (s.core c) ((s.core c).mtime + 2) % 64 = 0 ∧
        entryFor (s.core c) (counterAt (s.core c) ((s.core c).mtime + 2) / 64 % 16) n)) →
    ∃ u, exec (.matrixSlotWake c n) s = .next u ∧ (u.strand c n).mode = .ready ∧ (u.strand c n).wait.reason = 0 ∧
      (u.strand c n).ctl = (s.strand c n).ctl.waited ((s.core c).cycle - (s.strand c n).wait.since) ∧
      (u.strand c n).pc = (s.strand c n).pc ∧ (u.strand c n).x = (s.strand c n).x ∧ (u.strand c n).pend = (s.strand c n).pend)

/-- R139, R270: what a strand reads at HBM byte pa + i: of its earlier stores that are not performed the latest one that covers the byte;
else its latest staged byte; else memory. -/
def Sys2Proof.Claims.ownBytes : Prop :=
  ∀ (s : State) (c n seq pa size i : Nat), i < size →
    let covers := fun (w : Store) => w.strand = n ∧ w.seq < seq ∧ ∃ q, w.target = .hbm q ∧ q ≤ pa + i ∧ pa + i < q + w.bytes.length
    let got := nth 0 (s.readOwn c n seq (.hbm pa) size).1.1 i
    (∀ (before after : List Store) (w : Store) (q : Nat), (s.core c).stores = before ++ w :: after → covers w → (∀ v ∈ after, ¬ covers v) →
      w.target = .hbm q → got = nth 0 w.bytes (pa + i - q)) ∧
    ((∀ w ∈ (s.core c).stores, ¬ covers w) →
      got = match s.heldByte (coreDie c) (s.teamAt c) (s.nameOf c n) (pa + i) with
        | some h => h.1
        | none => readByte s.hbm (pa + i))

/-- R95, R116, R144, R147, R269, R270: what a late load is answered. A scalar load's result has the extended bytes that the strand sees
there, or those of the own pool that it read at its issue;
the word of a SPINW is written if it meets the condition, else the wait stands; of a gather one element or more is read, each as the
strand sees its place, and when none is left the registers have the elements. A frozen-out strand with no late result left is READY. -/
def Sys2Proof.Claims.lateAnswers : Prop :=
  ∀ (s : State) (c id : Nat) (l : Load), (s.core c).loads.find? (fun l => l.id == id) = some l →
    let t := s.strand c l.strand
    let gone := fun (u : State) => (u.core c).loads = (s.core c).loads.filter fun m => m.id != id
    let thawed := fun (u : State) => t.mode = .frozenOut →
      (∀ q ∈ (u.strand c l.strand).pend, q.load = none ∨ t.time < q.due) → (u.strand c l.strand).mode = .ready
    let others := fun (u : State) => ∀ p ∈ t.pend, p.load ≠ some id → p ∈ (u.strand c l.strand).pend
    (∀ (r : BitVec 6) (size : Nat) (sg : Bool), l.kind = .scalar r size sg →
      (l.got = none → s.mayRead c l.strand l.seq l.target size = true) →
      let v := l.got.getD (s.readOwn c l.strand l.seq l.target size).1
      ∃ u, exec (.lateResult c id) s = .next u ∧ gone u ∧ thawed u ∧ others u ∧ ∀ p ∈ t.pend, p.load = some id →
        { p with write := .x r (extendLoad size sg v.1), mark := p.mark || v.2, load := none } ∈ (u.strand c l.strand).pend) ∧
    (∀ (r : BitVec 6), l.kind = .spin r → (l.got = none → s.mayRead c l.strand l.seq l.target 8 = true) →
      let v := l.got.getD (s.readOwn c l.strand l.seq l.target 8).1
      let word : Word := BitVec.ofNat 64 (ofBytes v.1)
      ∃ u, exec (.lateResult c id) s = .next u ∧ gone u ∧ thawed u ∧ others u ∧
        (∀ w, t.spin = some w → spinHolds w.cond word w.cmp = true → (u.strand c l.strand).spin = none ∧
          ∀ p ∈ t.pend, p.load = some id → { p with write := .x r word, mark := p.mark || v.2, load := none } ∈ (u.strand c l.strand).pend) ∧
        (∀ w, t.spin = some w → spinHolds w.cond word w.cmp = false → (u.strand c l.strand).spin = some w ∧
          ∀ p ∈ t.pend, p.load = some id → { p with write := .none, mark := p.mark || v.2, load := none } ∈ (u.strand c l.strand).pend)) ∧
    (l.kind = .gather → (∃ e ∈ l.elems, e.read = false ∧ s.mayRead c l.strand l.seq e.target 4 = true) →
      let left := fun (es : List KeptElem) => (es.filter fun e => !e.read).length
      let seen := fun (e f : KeptElem) => f = e ∨ (e.read = false ∧ s.mayRead c l.strand l.seq e.target 4 = true ∧
        ∃ v m, f = { e with val := v, mark := m, read := true } ∧
          ((∀ a, e.target ≠ .outside a) → (∀ a, e.target ≠ .readback a) →
            v = BitVec.ofNat 32 (ofBytes (s.readOwn c l.strand l.seq e.target 4).1.1) ∧ m = (s.readOwn c l.strand l.seq e.target 4).1.2))
      ∃ u es, exec (.lateResult c id) s = .next u ∧ List.Forall₂ seen l.elems es ∧ left es < left l.elems ∧ others u ∧
        (left es ≠ 0 → (u.core c).loads = (s.core c).loads.map (fun m => if m.id = id then { m with elems := es } else m) ∧
          (u.strand c l.strand).pend = t.pend) ∧
        (left es = 0 → gone u ∧ thawed u ∧ ∀ p ∈ t.pend, p.load = some id → ∀ lg reg old mask, p.write = .vec lg reg old mask →
          { p with write := .vec lg reg (gatherLine es lg).1 mask, mark := p.mark || (gatherLine es lg).2, load := none } ∈
            (u.strand c l.strand).pend))

/-- R139, R141, R144, R265, R270, R278: what becomes of a posted store. Performed once no earlier access of the strand to its location
is ahead of it, it writes exactly its bytes at its target; one that is held goes to staging under its holders, and writes no memory;
one to a replicated page waits for its update. -/
def Sys2Proof.Claims.storeEvents : Prop :=
  ∀ (s : State) (c id : Nat) (w : Store), (s.core c).store id = some w → (s.core c).storeFirst w = true →
    let gone := fun (u : State) => (u.core c).stores = (s.core c).stores.filter fun v => v.id != id
    ((w.holders = [] → s.commitBefore c w.strand w.target w.bytes.length = false) → (w.holders = [] ∨ ∀ pa, w.target ≠ .hbm pa) →
      (s.isReplicated w.target = false → ∃ u, exec (.storePerformed c id) s = .next u ∧ gone u ∧
        (∀ pa, w.target = .hbm pa → ∀ a, readByte u.hbm a =
          if pa ≤ a ∧ a < pa + w.bytes.length then nth 0 w.bytes (a - pa) else readByte s.hbm a) ∧
        ((∀ pa, w.target ≠ .hbm pa) → u.hbm = s.hbm) ∧
        (∀ e off, w.target = .pool e off → ∀ a, readByte (u.core e).pool a =
          if off ≤ a ∧ a < off + w.bytes.length then nth 0 w.bytes (a - off) else readByte (s.core e).pool a) ∧
        ∀ e, (∀ off, w.target ≠ .pool e off) → (u.core e).pool = (s.core e).pool) ∧
      (s.isReplicated w.target = true → exec (.storePerformed c id) s = .next s)) ∧
    (∀ pa, w.target = .hbm pa → w.holders ≠ [] → 0 < w.bytes.length → pa % 64 + w.bytes.length ≤ 64 →
      ∃ u, exec (.storePerformed c id) s = .next u ∧ gone u ∧ u.hbm = s.hbm ∧
        ∃ h ∈ (u.die (stackOf (pa / 64 * 64))).staging, h.pa = pa / 64 * 64 ∧ h.who = s.nameOf c w.strand ∧ h.holders = w.holders ∧
          ∀ i, i < w.bytes.length → h.mask.getLsbD (pa % 64 + i) = true ∧
            Sys2Proof.bits h.data.toNat (8 * (pa % 64 + i)) 8 = nth 0 w.bytes i)

/-- R141, R270: the update of a replicated page by the stores of one syllable to it: once nothing of an earlier bundle of the strand is ahead
of any of them
it locks the replicas of the page; when it holds the lock it writes every store's bytes, in order, and no others, and unlocks. -/
def Sys2Proof.Claims.pageUpdates : Prop :=
  ∀ (s : State) (c id pa : Nat) (w : Store) (r : Replica),
    s.cores.findSome? (fun e => (e.2.store id).map fun w => (e.1, w)) = some (c, w) →
    w.target = .hbm pa → s.replicaOf pa = some r → w.holders = [] →
    (r.locked = none → (∀ v ∈ (s.core c).stores, w.sameUpdate v = true → s.mayUpdate c v = true) →
      exec (.replicaUpdate id) s = .next (s.modReplica r.home fun r => { r with locked := some id })) ∧
    (r.locked = some id → ∃ u, exec (.replicaUpdate id) s = .next u ∧
      u.replicas = s.replicas.map (fun q => if q.home = r.home then { q with locked := none } else q) ∧
      (u.core c).stores = (s.core c).stores.filter (fun v => !w.sameUpdate v) ∧
      ∀ a, readByte u.hbm a = ((s.core c).stores.filter w.sameUpdate).foldl (fun b v => match v.target with
        | .hbm p => if p ≤ a ∧ a < p + v.bytes.length then nth 0 v.bytes (a - p) else b
        | _ => b) (readByte s.hbm a)) ∧
    (∀ k, r.locked = some k → k ≠ id → exec (.replicaUpdate id) s = .next s)

/-- R116, R270: the re-read of a waiting SPINW, where its word can be read: as a load of the strand would see it. A word that meets the
condition is written and the wait ends; else the wait goes on. -/
def Sys2Proof.Claims.spinRereads : Prop :=
  ∀ (s : State) (c n : Nat) (w : SpinWait) (tgt : Target) (pg : Option Nat), (s.strand c n).spin = some w →
    (∀ l ∈ (s.core c).loads, l.strand = n → ∀ r, l.kind ≠ .spin r) → s.resolve c w.addr .read = .ok tgt pg →
    s.mayRead c n (s.strand c n).nextSeq tgt 8 = true →
    let t := s.strand c n
    let v := (s.readOwn c n t.nextSeq tgt 8).1
    let word : Word := BitVec.ofNat 64 (ofBytes v.1)
    ∃ u, exec (.spinwReread c n) s = .next u ∧ (u.strand c n).x = t.x ∧ (u.strand c n).pc = t.pc ∧
      (spinHolds w.cond word w.cmp = true → (u.strand c n).spin = none ∧
        (u.strand c n).pend = t.pend ++ [{ due := t.time, seq := t.nextSeq, write := .x w.xd word, mark := v.2, load := none, recs := [] }] ∧
        (t.mode = .blocked → t.wait.reason = 4 → (u.strand c n).mode = .ready)) ∧
      (spinHolds w.cond word w.cmp = false → (u.strand c n).spin = some { w with last := (s.core c).cycle } ∧
        (u.strand c n).pend = t.pend ∧ (u.strand c n).mode = t.mode)

/-- R95, R116, R139, R141, R144, R147, R265, R269, R270, R278: what the outside answers: LATE_RESULT, STORE_PERFORMED, REPLICA_UPDATE and
SPINW_REREAD, and the bytes that a strand sees. How many elements of a gather are read at once, and the order within a replica update, are
the model's readings (log 87, log 116, log 17), and so is that an event with nothing to do answers the same state (log 6). -/
def Obligations.MemoryEvents : Prop := ownBytes ∧ lateAnswers ∧ storeEvents ∧ pageUpdates ∧ spinRereads

/-! ## Events of strands, teams and the scheduler -/

/-- R118, R327: a strand that has ended is INACTIVE, off the core, without results in flight, blocks, nest or phase; its operand
slots are released; its registers stand. -/
def Sys2Proof.Claims.goneFrom (s u : State) (c n : Nat) : Prop :=
  (u.strand c n).mode = .inactive ∧ (u.strand c n).pend = [] ∧ (u.strand c n).blocks = [] ∧ (u.strand c n).frames = [] ∧
    (u.strand c n).nest = none ∧ (u.strand c n).phase = none ∧ (u.strand c n).x = (s.strand c n).x ∧ (u.core c).running ≠ some n ∧
    (∀ o, ((u.core c).slot o).holder ≠ some n) ∧ u.hbm = s.hbm

/-- R327: a killed strand has ended, and the held stores of its open phase are discarded on every die. -/
def Sys2Proof.Claims.killed (s u : State) (c n : Nat) : Prop :=
  goneFrom s u c n ∧ ∀ d, (u.die d).staging = (s.die d).staging.filter fun l => !l.holders.contains (s.phaseHolder c n)

/-- R24, R118, R277: STRAND_END of a strand that has issued ENDK, once its block stores, own-pool writes, posted stores, committed lines and
commands are done. Of a launch whose last strand it is, the token is produced: an error when a strand of it ended with an error
bit set. -/
def Sys2Proof.Claims.strandEnds : Prop :=
  ∀ (s : State) (c n : Nat),
    let d := coreDie c
    let t := s.teamAt c
    let w := s.nameOf c n
    let x := s.strand c n
    (s.teamOn c).isSome = true → x.ending = true → x.storingAny = false → s.owesCommit d t w (fun _ => true) = false →
    (∀ m ∈ s.cmds, m.d = d → m.t = t → m.who = w → m.done = true) →
    (∀ e, s.coreNamed d t w = some e →
      (∀ q ∈ (s.core e).stores, q.strand ≠ n) ∧ ∀ q ∈ (s.core e).poolWrites, q.strand ≠ n) →
    (∀ q ∈ (s.core c).stores, q.strand ≠ n) → (∀ q ∈ (s.core c).poolWrites, q.strand ≠ n) →
    ((s.team d t).launches.map (·.id)).Nodup →
    ∃ u, exec (.strandEnd c n) s = .next u ∧ goneFrom s u c n ∧
      ∀ i l, x.launch = some i → (s.team d t).launches.find? (fun m => m.id == i) = some l → l.closing = [] →
        (∀ m ∈ (s.team d t).launches, m.id ≠ i → m.left ≠ [] ∨ m.closing ≠ []) →
        ((∀ v ∈ l.left, v = w) → ((u.team d t).token l.ctok).st =
            (if l.poisoned = true ∨ x.ctl.poison = true ∨ x.ctl.mm = true then .error else .ok) ∧
          ∀ m ∈ (u.team d t).launches, m.id ≠ i) ∧
        ((∃ v ∈ l.left, v ≠ w) → (u.team d t).tokens = (s.team d t).tokens ∧
          ∃ m ∈ (u.team d t).launches, m.id = i ∧ m.left = l.left.filter (· != w))

/-- R117, R121, R152, R199, R200, R339, R348: NODE_STRAND_START: every node strand of the launch is READY at the entry address at level U,
with its argument in x1, its index in x2, the number of strands in x3, zero in every other register, the launch's handler, and the entries
of the slot table whose number modulo T is its own; its core has the launch's partition; C is 0 on a core where none ran. -/
def Sys2Proof.Claims.launchStarts : Prop :=
  ∀ (s : State) (id : Nat) (l : Launch),
    s.dies.findSome? (fun e => e.2.teams.findSome? fun m => m.2.launches.find? fun l => l.id == id && !l.started) = some l →
    s.resident l.d l.t = true → l.left.Nodup →
    (∀ v w, v ∈ l.left → w ∈ l.left → (s.coreNamed l.d l.t v).isSome = true → s.coreNamed l.d l.t v = s.coreNamed l.d l.t w →
      v.n = w.n → v = w) →
    ∃ u, exec (.nodeStrandStart id) s = .next u ∧ u.hbm = s.hbm ∧
      (u.team l.d l.t).launches = (s.team l.d l.t).launches.map (fun k => if k.id = id then { k with started := true } else k) ∧
      ∀ (i c : Nat) (w : StrandName), l.left[i]? = some w → s.coreNamed l.d l.t w = some c →
        let x := u.strand c w.n
        x.mode = .ready ∧ x.pc = l.entry ∧ x.reg 1 = l.arg ∧ x.regMark 1 = l.argMark ∧ x.reg 2 = BitVec.ofNat 64 i ∧
        x.reg 3 = BitVec.ofNat 64 l.left.length ∧ (∀ r, r ≠ 1 → r ≠ 2 → r ≠ 3 → x.reg r = 0) ∧ x.launch = some l.id ∧
        x.ctl.priv = false ∧ x.ctl.exl = false ∧ x.ctl.tvecEn = l.tvecEn ∧ x.ctl.tvecBase = l.tvecBase ∧ x.ctl.poolpart = l.part ∧
        x.ctlMarks = (if l.tvecMark = true then [0x005] else []) ∧
        (∀ e, e < 16 → (x.ctl.mslot.getLsbD e = true ↔ e % partStrands l.part = w.n)) ∧ x.lanes = [] ∧ x.desc = [] ∧ x.streams = [] ∧
        (u.core c).part = l.part ∧ (u.core c).ran = true ∧ ((s.core c).ran = false → (u.core c).cBase = (u.core c).mtime)

/-- R24, R93, R95, R97, R117, R118, R142, R326, R327, R378: the events of strands: STRAND_END, NODE_STRAND_START, the kill of a condemned
strand that presents a bundle with K set or has run 2^22 cycles on, YIELD_OVERDUE after more than 2^22 cycles, the switch of a strand on
the frost line for FROSTSW cycles to another READY strand, and the switch of one whose load has met a locked replica for 256 cycles, which
blocks, or is killed when condemned. That a condemned strand which would block dies at once is the model's reading (log 38). -/
def Obligations.StrandEvents : Prop :=
  strandEnds ∧ launchStarts ∧
  (∀ (s : State) (c n : Nat) (w : Word32), (s.strand c n).condemned.isSome = true →
    ((s.strand c n).mode = .running ∨ (s.strand c n).mode = .ready) → (s.teamOn c).isSome = true →
    s.fetchWord c (s.strand c n).pc.toNat = .ok w → s.startBit (coreDie c) (s.vfAt c) (s.strand c n).pc.toNat = true → w.getLsbD 6 = true →
    ∃ u, exec (.killPoint c n) s = .next u ∧ killed s u c n) ∧
  (∀ (s : State) (c n k : Nat), (s.strand c n).condemned = some k → k + 4194304 ≤ (s.strand c n).time → (s.teamOn c).isSome = true →
    ∃ u, exec (.killLimit c n) s = .next u ∧ killed s u c n) ∧
  (∀ (s : State) (c n : Nat), 4194304 < (s.strand c n).ctl.ydist.toNat → (s.strand c n).ctl.overdue = false → (s.teamOn c).isSome = true →
    ∃ u, exec (.yieldOverdue c n) s = .next u ∧ (u.strand c n).ctl.overdue = true ∧ (u.strand c n).pc = (s.strand c n).pc ∧
      (u.team (coreDie c) (s.teamAt c)).overdue = min 65535 ((s.team (coreDie c) (s.teamAt c)).overdue + 1) ∧
      (u.team (coreDie c) (s.teamAt c)).fcause = 0x14) ∧
  (∀ (s : State) (c n m : Nat), (s.core c).running = some n → (s.strand c n).ctl.frostsw ≠ 0 →
    (s.strand c n).ctl.frostsw.toNat ≤ (s.core c).frost → m < 4 → (s.strand c m).mode = .ready → (s.strand c m).parked = false →
    ∃ u, exec (.frostSwitch c) s = .next u ∧ (u.core c).running = none ∧ (u.core c).last = n ∧ (u.core c).switchLeft = 2 ∧
      (u.core c).frost = 0 ∧ (u.strand c n).mode = .frozenOut ∧ (u.strand c n).pend = (s.strand c n).pend ∧
      (u.strand c n).pc = (s.strand c n).pc ∧ ∀ k, k ≠ n → u.strand c k = s.strand c k) ∧
  (∀ (s : State) (c n : Nat) (l : Load) (p : Target) (q : Pending), (s.core c).running = some n → l ∈ (s.core c).loads → l.strand = n →
    p ∈ l.places → s.readLocked p = true → q ∈ (s.strand c n).pend → q.load = some l.id → q.due ≤ (s.strand c n).time →
    256 ≤ (s.core c).lockFrost →
    ((s.strand c n).condemned = none → ∃ u, exec (.replicaLockSwitch c) s = .next u ∧ (u.core c).running = none ∧
      (u.core c).switchLeft = 2 ∧ (u.strand c n).mode = .blocked ∧ (u.strand c n).wait.reason = 11 ∧
      (u.strand c n).ctl.waitLast = 11 ∧ (u.strand c n).pend = (s.strand c n).pend) ∧
    ((s.strand c n).condemned.isSome = true → ∃ u, exec (.replicaLockSwitch c) s = .next u ∧ killed s u c n))

/-- R373: a team may be boosted: it is below its cap, has gust, and its borrow has not reached the bound. -/
def Sys2Proof.Claims.boostable (k : Die) (m : Team) : Prop := (m.cap = 0 ∨ m.used < m.cap) ∧ 0 < m.gust ∧ m.borrow < k.bcap

/-- R374: the seven ends of a slice of team t: no deficit and no boost; its quantum with another team eligible; no deficit and the borrow
at its bound; its cap; an eligible team with a larger key; every strand parked or waiting at a yield point with another team eligible; a
reason to stop. -/
def Sys2Proof.Claims.sliceEnds (s : State) (d t : Nat) : Prop :=
  let k := s.die d
  let m := s.team d t
  let others := s.candidates d m.part
  let key := fun (m : Team) => 32 * (m.cls.toNat : Int) + m.gust - m.lull
  (m.deficit ≤ 0 ∧ ¬ (boostable k m ∧ s.runnable d t = true)) ∨ (m.sliceStart + k.quantum ≤ k.now ∧ others ≠ []) ∨
    (m.deficit ≤ 0 ∧ k.bcap ≤ m.borrow) ∨ ¬ (m.cap = 0 ∨ m.used < m.cap) ∨ (∃ u ∈ others, key m < key (s.team d u)) ∨
    ((∀ e ∈ s.teamStrands d t, e.2.isParked = true ∧ (e.2.mode = .blocked → s.awaitOver d t e.1 e.2 = false)) ∧ others ≠ []) ∨
    m.stopping ≠ 0

/-- R257: the free bulk engine with the lowest number. -/
def Sys2Proof.Claims.firstFree (k : Die) (e : Nat) : Prop :=
  e < 16 ∧ seek k.engines e = none ∧ ∀ f, f < e → (seek k.engines f).isSome = true

/-- R257, R258, R366, R370 to R374, R378: the timers of a die. GUST_TICK takes one from the gust of every team that no message reached
since the tick before; LULL_STEP raises a lull below 15; WINDOW_BOUNDARY clears borrow and use; ROUND_BEGIN, when some team of the
partition is runnable and none of those has deficit or boost, adds weight x QBASE to the deficits of the runnable ones and caps the
others at 0; SLICE_END makes the team PARKING, or starts a forced pre-emption when a strand is overdue; LEASE_GRANT binds the lowest
free engine to the first of the waiting requests of resident teams with the largest lease deficit; LEASE_EXPIRY returns the engine,
charges the time held and requests the lease again. That every expired lease is requested again is the model's reading (log 74), the
cap of deficits its choice (log 75). -/
def Obligations.SchedulerTimers : Prop :=
  (∀ (s : State) (d : Nat), 1700 * ((s.die d).gustTicks + 1) ≤ (s.die d).now →
    ∃ u, exec (.gustTick d) s = .next u ∧ (u.die d).gustTicks = (s.die d).gustTicks + 1 ∧
      ∀ t, u.team d t = { s.team d t with
        gust := if (s.team d t).arrived then (s.team d t).gust else (s.team d t).gust - 1, arrived := false }) ∧
  (∀ (s : State) (d t : Nat), (s.team d t).spinlim ≠ 0 → 256 * (s.team d t).spinlim.toNat ≤ (s.team d t).lullTimer →
    exec (.lullStep d t) s = .next (s.modTeam d t fun m => { m with lull := min 15 (m.lull + 1), lullTimer := 0 })) ∧
  (∀ (s : State) (d : Nat), (s.die d).windowStart + (s.die d).windowLen ≤ (s.die d).now →
    ∃ u, exec (.windowBoundary d) s = .next u ∧ (u.die d).windowStart = (s.die d).windowStart + (s.die d).windowLen ∧
      (u.die d).windowLen = 8 * (s.die d).quantum ∧ ∀ t, u.team d t = { s.team d t with borrow := 0, used := 0 }) ∧
  (∀ (s : State) (d p : Nat), (∃ t ∈ s.teamsOf d p, s.runnable d t = true) →
    (∀ t ∈ s.teamsOf d p, s.runnable d t = true → (s.team d t).deficit ≤ 0 ∧ ¬ boostable (s.die d) (s.team d t)) →
    exec (.roundBegin d p) s = .next ((s.teamsOf d p).foldl (fun r t => r.modTeam d t fun m =>
      { m with deficit := if s.runnable d t
          then max (-2147483648) (min 2147483647 (m.deficit + m.weight.toNat * (s.die d).qbase)) else min m.deficit 0 }) s)) ∧
  (∀ (s : State) (d t : Nat), (s.team d t).st = 4 → sliceEnds s d t →
    ((∀ e ∈ s.teamStrands d t, e.2.mode = .inactive ∨ e.2.ctl.overdue = false) →
      exec (.sliceEnd d t) s = .next (s.modTeam d t fun m => { m with st := 5, graceStart := (s.die d).now })) ∧
    ((∃ e ∈ s.teamStrands d t, e.2.mode ≠ .inactive ∧ e.2.ctl.overdue = true) →
      ∃ u, exec (.sliceEnd d t) s = .next u ∧ (u.team d t).st = 7 ∧ (u.team d t).spillStart = (s.die d).now ∧ (u.team d t).watch = 0 ∧
        ∀ c ∈ s.coresOf (s.team d t).part d, (u.core c).running = none)) ∧
  (∀ (s : State) (d e : Nat) (r : Nat × Nat) (before after : List (Nat × Nat)),
    (s.die d).leaseRequests.filter (fun r => s.resident d r.1) = before ++ r :: after →
    (∀ q ∈ before, (s.team d q.1).leaseDeficit < (s.team d r.1).leaseDeficit) →
    (∀ q ∈ after, (s.team d q.1).leaseDeficit ≤ (s.team d r.1).leaseDeficit) → firstFree (s.die d) e →
    ∃ u, exec (.leaseGrant d) s = .next u ∧ seek (u.die d).engines e = some r ∧ ((u.team d r.1).lease r.2).engine = some e ∧
      ((u.team d r.1).lease r.2).requested = false ∧ ((u.team d r.1).lease r.2).held = 0 ∧
      ((u.team d r.1).lease r.2).left = ((s.team d r.1).lease r.2).left ∧ ∀ f, f ≠ e → seek (u.die d).engines f = seek (s.die d).engines f) ∧
  (∀ (s : State) (d t e : Nat) (l : BitVec 2), ((s.team d t).lease l.toNat).engine = some e → ((s.team d t).lease l.toNat).left = 0 →
    ∃ u, exec (.leaseExpiry d t l) s = .next u ∧ ((u.team d t).lease l.toNat).engine = none ∧ seek (u.die d).engines e = none ∧
      ((u.team d t).lease l.toNat).requested = true ∧ ((u.team d t).lease l.toNat).left = ((s.team d t).lease l.toNat).period ∧
      (u.team d t).leaseDeficit = (s.team d t).leaseDeficit - ((s.team d t).lease l.toNat).held)

/-- R21, R373: the clusters of a partition on a die are empty: no team is resident, and none is entering, running or leaving. -/
def Sys2Proof.Claims.emptyClusters (s : State) (d p : Nat) : Prop :=
  seek (s.die d).running p = none ∧ ∀ t ∈ s.teamsOf d p, (s.team d t).st ∉ [3, 4, 5, 6, 7]

/-- R381: a team is parked: every strand of it is, and every unfinished command carries over. -/
def Sys2Proof.Claims.teamParked (s : State) (d t : Nat) : Prop :=
  (∀ e ∈ s.teamStrands d t, e.2.isParked = true) ∧
    ∀ m ∈ s.cmds, m.done = true ∨ m.d ≠ d ∨ m.t ≠ t ∨ Instr.carriesOver m.cap.op = true

/-- R382, R384: no matrix, port, load or pool write of a core is left, and no Eddy work, but for what a forced pre-emption has stopped. -/
def Sys2Proof.Claims.coreQuiet (k : Core) (forced : Bool) : Prop :=
  k.mults = [] ∧ k.tileWork = [] ∧ k.poolWrites = [] ∧ (∀ e ∈ k.slots, e.2.load = []) ∧
    if forced = true then ∀ w ∈ k.eddy, w.stopped.isSome = true else k.eddy = []

/-- R210, R211, R266, R381, R384: nothing of the work of a team's cores is left, and no line of a one-sided write to a pool of it. -/
def Sys2Proof.Claims.teamQuiet (s : State) (d t : Nat) (forced : Bool) : Prop :=
  (∀ c ∈ s.coresOf (s.team d t).part d, coreQuiet (s.core c) forced) ∧ s.poolPending d t = false

/-- R368, R382, R388: what leaves. An exchange takes the team to SWAPOUT, its register files to its image, its cores to zero and
the image to the shadow, and begins the entry of the next; an uncorrectable register word makes it LOST. A complete save makes it HALTED
when it was to stop, else WAITING or IDLE. A LOST team has status 9, its cause, no image, no launch, and no clusters. -/
def Sys2Proof.Claims.leavingTeams : Prop :=
  (∀ (s : State) (d t : Nat) (next : Option Nat), (∀ v, next = some v → v ≠ t) →
    let p := (s.team d t).part
    let u := s.exchange d t next
    (s.badSave d t = true → u = s.loseTeam d t 0x15) ∧
    (s.badSave d t = false → (u.team d t).st = 6 ∧ (u.team d t).spilled = false ∧
      (u.team d t).saved.map (fun v => (v.part, v.pool)) = (s.coresOf p d).map (fun c => ((s.core c).part, (s.core c).registerFile)) ∧
      (∀ c ∈ s.coresOf p d, (u.core c).strands = [] ∧ (u.core c).pool = []) ∧ seek (u.die d).running p = none ∧
      ((u.die d).shadowOf p).draining = some t ∧ ((u.die d).shadowOf p).staged = none ∧
      ∀ v, next = some v → (u.team d v).st = 3 ∧ seek (u.die d).selected (s.team d v).part = some v ∧
        (u.team d v).sliceStart = (u.team d t).sliceStart + (if (s.team d v).spilled then restoreCycles (s.team d v).saved else 0))) ∧
  (∀ (s : State) (d t : Nat), let u := s.saveComplete d t
    let why := (s.team d t).stopping
    (u.team d t).stopping = 0 ∧ (1 ≤ why → why ≤ 3 → (u.team d t).st = 8) ∧
      (why = 0 ∨ 3 < why → (u.team d t).st = 1 ∨ (u.team d t).st = 2) ∧ (u.team d t).saved = (s.team d t).saved) ∧
  ∀ (s : State) (d t cause : Nat), let u := s.loseTeam d t cause
    (u.team d t).st = 9 ∧ (u.team d t).fcause = cause ∧ (u.team d t).saved = [] ∧ (u.team d t).launches = [] ∧
      seek (u.die d).running (s.team d t).part ≠ some t

/-- R373, R381 to R383: TEAM_SELECT, SWAPIN, COOPERATIVE_SWAP and the two events of the shadow SRAM. -/
def Sys2Proof.Claims.cooperativeSwaps : Prop :=
  (∀ (s : State) (d p t : Nat), emptyClusters s d p → (∀ x ∈ (s.die d).scans, x.part ≠ some p) →
    s.pick d (s.candidates d p) = some t →
    let sh := (s.die d).shadowOf p
    ∃ u, exec (.teamSelect d p) s = .next u ∧ (u.team d t).st = 3 ∧ seek (u.die d).selected (s.team d t).part = some t ∧
      (u.team d t).sliceStart = (s.die d).now + ((if sh.draining.isSome then sh.until_ - (s.die d).now else 0) +
        exchangeCycles [] (s.team d t).saved (sh.staged == some t && decide (sh.until_ ≤ (s.die d).now))) +
        (if (s.team d t).spilled then restoreCycles (s.team d t).saved else 0)) ∧
  (∀ (s : State) (d t : Nat), (s.team d t).st = 3 → (s.team d t).sliceStart ≤ (s.die d).now →
    ∃ u, exec (.swapin d t) s = .next u ∧ (u.team d t).st = 4 ∧ (u.team d t).saved = [] ∧ (u.team d t).spilled = false ∧
      (u.team d t).sliceStart = (s.die d).now ∧ seek (u.die d).running (s.team d t).part = some t ∧
      (∀ v ∈ s.teamsOf d (s.team d t).part, (s.team d v).st = 6 → (u.team d v).st ∈ [1, 2, 8]) ∧
      ∀ v ∈ (s.team d t).saved, ∀ c, s.physCore (s.team d t).part d (v.lcore / 8) (v.lcore % 8) = some c →
        (∀ w ∈ (s.team d t).saved, s.physCore (s.team d t).part d (w.lcore / 8) (w.lcore % 8) = some c → w = v) →
        (u.core c).part = v.part ∧ (u.core c).ran = v.ran ∧ ∀ e ∈ v.strands, (∀ f ∈ v.strands, f.1 = e.1 → f = e) →
          (u.strand c e.1).x = e.2.x ∧ (u.strand c e.1).pc = e.2.pc ∧ (u.strand c e.1).desc = e.2.desc ∧ (u.strand c e.1).parked = false) ∧
  (∀ (s : State) (d t : Nat), (s.team d t).st = 6 →
    exec (.cooperativeSwap d t) s = .next (if (s.die d).now < (s.team d t).sliceStart then s else s.saveComplete d t)) ∧
  (∀ (s : State) (d t : Nat), (s.team d t).st = 5 → teamParked s d t → ¬ teamQuiet s d t false →
    exec (.cooperativeSwap d t) s = .next (s.startRows d t)) ∧
  (∀ (s : State) (d t : Nat), (s.team d t).st = 5 → teamParked s d t → teamQuiet s d t false →
    let r := s.serveTeam d t
    let p := (s.team d t).part
    let among := (if r.eligible d t then [t] else []) ++ r.candidates d p
    ((∀ c ∈ s.coresOf p d, (s.core c).loads = [] ∧ (s.core c).stores = []) → r = s ∧ r.served d t = true) ∧
    (r.served d t = false → exec (.cooperativeSwap d t) s = .next r) ∧
    (r.served d t = true → (s.team d t).stopping ≠ 0 →
      ((∃ x ∈ (r.die d).scans, x.part = some p) → exec (.cooperativeSwap d t) s = .next (r.exchange d t none)) ∧
      ((∀ x ∈ (r.die d).scans, x.part ≠ some p) →
        exec (.cooperativeSwap d t) s = .next (r.exchange d t (r.pick d (r.candidates d p))))) ∧
    (r.served d t = true → (s.team d t).stopping = 0 →
      (r.pick d among = none →
        exec (.cooperativeSwap d t) s = .next (if r.roundDue d p then r else r.exchange d t none)) ∧
      (r.pick d among = some t → ∃ u, exec (.cooperativeSwap d t) s = .next u ∧ (u.team d t).st = 4 ∧
        (u.team d t).sliceStart = (s.die d).now ∧ ∀ c ∈ s.coresOf p d, ∀ e ∈ (u.core c).strands, e.2.parked = false) ∧
      ∀ v, r.pick d among = some v → v ≠ t → exec (.cooperativeSwap d t) s = .next (r.exchange d t (some v)))) ∧
  (∀ (s : State) (d p : Nat), ((s.die d).shadowOf p).draining.isSome = true → ((s.die d).shadowOf p).until_ ≤ (s.die d).now →
    ∃ u, exec (.shadowDrain d p) s = .next u ∧ (u.die d).shadowOf p = Shadow.reset ∧ u.hbm = s.hbm) ∧
  (∀ (s : State) (d p t : Nat), s.pick d (s.candidates d p) = some t → ((s.die d).shadowOf p).draining = none →
    ((s.die d).shadowOf p).staged ≠ some t → ∃ u, exec (.imageStage d p) s = .next u ∧
      (u.die d).shadowOf p = ⟨some t, none, shadowHeld (s.team d t).saved,
        (s.die d).now + spillCycles (shadowBytes (s.team d t).saved)⟩ ∧ ∀ v, u.team d v = s.team d v)

/-- R239, R378, R384, R386 to R388: forced pre-emption, GRACE after the slice end and not before, its save, and the two watchdogs. Of a
stream into a triangular file the rows admitted complete, and the rows left are kept. -/
def Sys2Proof.Claims.forcedSwaps : Prop :=
  (∀ (s : State) (d t : Nat), (s.team d t).st = 5 → (s.team d t).graceStart + (s.die d).grace ≤ (s.die d).now → ¬ teamParked s d t →
    ∃ u, exec (.forcedPreemption d t) s = .next u ∧ (u.team d t).st = 7 ∧ (u.team d t).watch = 0 ∧
      (u.team d t).spillStart = (s.die d).now ∧ ∀ c ∈ s.coresOf (s.team d t).part d, (u.core c).running = none ∧
        (∀ w ∈ (u.core c).eddy, w.streams = true → (s.core c).mtime < w.admits → w.stopped.isSome = true) ∧
        ((s.coresOf (s.team d t).part d).Nodup → (s.core c).rowsWait = none →
          (u.core c).eddy = (s.core c).eddy.flatMap fun w => w.cut (s.core c).mtime)) ∧
  (∀ (s : State) (d t : Nat), (s.team d t).st = 5 → (s.die d).now < (s.team d t).graceStart + (s.die d).grace →
    exec (.forcedPreemption d t) s = .next s) ∧
  (∀ (w : EddyWork) (now : Nat), (w.streams = false ∨ w.admits ≤ now → w.cut now = [w]) ∧
    (w.streams = true → now < w.admits → 0 < w.every →
      let n := min w.steps.length (ceilDiv (now - w.start) w.every)
      let rest := { w with
        stopped := some now, steps := w.steps.drop n, start := w.start + n * w.every, readLines := w.readLines.filter fun l => now ≤ l.2 }
      (n = 0 → w.cut now = [rest]) ∧ (0 < n → ∃ done, w.cut now = [done, rest] ∧ done.file = w.file ∧ done.stopped = w.stopped ∧
        done.value = w.steps[n - 1]? ∧ done.clearFile = none ∧ done.until_ = w.start + (n - 1) * w.every + w.tail ∧ done.flags = 0))) ∧
  (∀ (s : State) (d t : Nat), (s.team d t).st = 7 →
    exec (.spillDone d t false) s = .next (s.loseTeam d t 0x15) ∧
    (s.badSave d t = true → exec (.spillDone d t true) s = .next (s.loseTeam d t 0x15)) ∧
    (s.badSave d t = false → teamQuiet s d t true →
      let r := s.serveTeam d t
      (r.served d t = false → exec (.spillDone d t true) s = .next r) ∧
      (r.served d t = true → ∃ u, exec (.spillDone d t true) s = .next u ∧ u = (r.swapOut d t true).saveComplete d t ∧
        (u.team d t).st ∈ [1, 2, 8] ∧ (u.team d t).spilled = true ∧ seek (u.die d).running (r.team d t).part = none ∧
        (u.team d t).saved.map (fun v => (v.part, v.pool, v.scale, v.tris)) =
          (r.coresOf (r.team d t).part d).map fun c => ((r.core c).part, (r.core c).pool, (r.core c).scale, (r.core c).tris)))) ∧
  (∀ (s : State) (d t : Nat), (s.team d t).st = 7 →
    (if 7 < (s.clustersOn (s.team d t).part d).length then 8 else 4) * (s.die d).grace ≤ (s.team d t).watch →
    exec (.preemptWatchdog d t) s = .next (s.loseTeam d t 0x12)) ∧
  (∀ (s : State) (c n t : Nat), s.teamOn c = some t → (s.die (coreDie c)).wdwait ≠ 0 →
    ((s.team (coreDie c) t).st = 4 ∨ (s.team (coreDie c) t).st = 5 ∨ (s.team (coreDie c) t).st = 7) →
    1700 * (s.die (coreDie c)).wdwait ≤ (s.strand c n).waited →
    exec (.waitWatchdog c n) s = .next (s.loseTeam (coreDie c) t 0x12))

/-- R407: a healthy cluster of a die that no partition holds and that is not under test. -/
def Sys2Proof.Claims.spare (s : State) (d n : Nat) : Prop :=
  n < 16 ∧ s.clusterPart d n = none ∧ 16 * d + n ∉ s.withdrawn ∧ ∀ x ∈ (s.die d).scans, x.cl ≠ n

/-- R22, R401, R407: scan tests. A test takes a cluster that runs no team and zeroes it; a claim ends the slice of a team that has held a
cluster for an interval; 340,000 cycles after its start a test ends: the cluster is zeroed and returns, or is withdrawn and
replaced in its partition by a spare one; without one the partition loses it and its teams on the die stop. Which spare cluster is
taken is the model's choice (log 109). -/
def Sys2Proof.Claims.scanTests : Prop :=
  (∀ (s : State) (d cl : Nat), cl < 16 → 16 * d + cl ∉ s.withdrawn → (∀ x ∈ (s.die d).scans, x.cl = cl → x.start = none) →
    (∀ p, s.clusterPart d cl = some p → emptyClusters s d p) →
    ∃ u, exec (.scanTest d cl) s = .next u ∧
      (∃ x ∈ (u.die d).scans, x.cl = cl ∧ x.start = some (s.die d).now ∧ x.part = s.clusterPart d cl) ∧
      (∀ x ∈ (u.die d).scans, x.cl = cl → x.start.isSome = true) ∧
      ∀ co, co < 8 → (u.core (128 * d + 8 * cl + co)).strands = [] ∧ (u.core (128 * d + 8 * cl + co)).pool = []) ∧
  (∀ (s : State) (d cl p t : Nat), s.clusterPart d cl = some p → seek (s.die d).running p = some t →
    look 0 (s.die d).scanned cl + s.scanHours * 3600 * 1700000000 ≤ (s.die d).now → (∀ x ∈ (s.die d).scans, x.cl ≠ cl) →
    ∃ u, exec (.scanClaim d cl) s = .next u ∧ (u.die d).scans = (s.die d).scans ++ [{ cl := cl, part := some p, start := none }] ∧
      (u.team d t).stopping = if (s.team d t).stopping = 0 then 4 else (s.team d t).stopping) ∧
  (∀ (s : State) (d cl k : Nat) (x : Scan), (s.die d).scans.find? (fun x => x.cl == cl) = some x → x.start = some k →
    k + 340000 ≤ (s.die d).now →
    let ended := fun (u : State) => (u.die d).scans = (s.die d).scans.filter (fun y => y.cl != cl) ∧
      look 0 (u.die d).scanned cl = (s.die d).now ∧ ∀ co, co < 8 → (u.core (128 * d + 8 * cl + co)).pool = []
    (∃ u, exec (.scanComplete d cl true) s = .next u ∧ ended u ∧ u.withdrawn = s.withdrawn ∧ u.parts = s.parts) ∧
    (∃ u, exec (.scanComplete d cl false) s = .next u ∧ ended u ∧ 16 * d + cl ∈ u.withdrawn ∧
      (s.clusterPart d cl = none → u.parts = s.parts) ∧
      ∀ p, s.clusterPart d cl = some p →
        (∀ n, spare s d n → (∀ j, j < n → ¬ spare s d j) → (u.part p).clusters = (s.part p).clusters.map (fun e =>
          if e.1 / 16 = d ∧ e.2 = cl then (e.1, n) else e)) ∧
        ((∀ n, ¬ spare s d n) → (u.part p).clusters = (s.part p).clusters.filter (fun e => !(e.1 / 16 == d && e.2 == cl)) ∧
          seek (u.part p).before d = some ((seek (s.part p).before d).getD ((s.part p).clusters.filter fun e => e.1 / 16 == d).length))))

/-- R21, R22, R368, R373, R378, R381 to R388, R401, R407: the swaps, the watchdogs and the scan tests. Details of swaps are the model's
reading (log 61, log 62, log 66). -/
def Obligations.Swaps : Prop := leavingTeams ∧ cooperativeSwaps ∧ forcedSwaps ∧ scanTests

/-! ## Messages, links, engines, joins -/

/-- R10, R284, R286, R288, R290: a message arrives at its team: it has the type, no other of its source and destination is ahead of it,
it has the form of R286, its destination is a die of the package on which a team answers to it, and its tag verifies under that
team's key. -/
def Sys2Proof.Claims.arrives (s : State) (kind : Nat) (m : Message) (d t : Nat) : Prop :=
  m.kind.toNat = kind ∧ s.behind m = false ∧ dieOfEndpoint m.dst.toNat = some d ∧ messageOk m = true ∧
    s.messageTeam d m = some t ∧ s.authentic d t m = true

/-- The message comes off its way. -/
def Sys2Proof.Claims.offWire (s : State) (m : Message) : State := { s with wire := s.wire.erase m }

/-- R289: the message comes off its way and raises its team's gust. -/
def Sys2Proof.Claims.received (s : State) (m : Message) (d t : Nat) : State := (offWire s m).raiseGust d t

/-- R287: an answer to a message that came from a die of the package leaves as one RESPONSE to its sender, with the number of the
message, the answer, the fault code and the reason. -/
def Sys2Proof.Claims.answersLeave : Prop :=
  ∀ (s : State) (d t : Nat) (m : Message) (a cause reason : Nat), (dieOfEndpoint m.src.toNat).isSome = true →
  ∃ r : Message, (s.answer d t m a cause reason).wire = s.wire ++ [r] ∧ r.kind = 5 ∧ r.dst = m.src ∧ r.gang = m.gang ∧ r.vf = m.vf ∧
    r.src = BitVec.ofNat 22 (endpointOf d) ∧ r.wordA = m.seq.setWidth 64 ∧ r.payload = [] ∧
    r.wordB = BitVec.ofNat 64 (a + 256 * cause + 65536 * reason)

/-- R266, R269, R291: the lines of a one-sided write that are written now: all those left, and the answer is given with them, or one of them,
of which a note is taken. -/
def Sys2Proof.Claims.linesWritten : Prop :=
  ∀ (s : State) (m : Message) (ls : List (Nat × Word × Nat × Nat)),
    let noted := ((s.partWritten.find? fun e => e.1 == m).map (·.2)).getD []
    let left := ls.filter fun l => !noted.contains l.1
    ((s.linesNow m ls).2 = true → (s.linesNow m ls).1 = left) ∧
      ((s.linesNow m ls).2 = false → 1 < left.length ∧ ∃ l ∈ left, (s.linesNow m ls).1 = [l])

/-- R141, R266, R290 to R293: the one-sided writes. A write of memory whose range its team can reach is made and answered OK; a page miss, a fault and
a locked page have their own outcomes. A write of a pool or of a stream register is applied where its team takes messages, and lands
elsewhere; a stream register that cannot take it, or that a landed message waits for, answers NOT_READY; a core the team has not and a
strand that does not run fault. A landed message takes the next free entry, or is refused; landed messages are applied in order. -/
def Sys2Proof.Claims.oneSidedWrites : Prop :=
  (∀ (s : State) (d t : Nat) (m : Message), arrives s 1 m d t →
    let r := received s m d t
    let ea : Word := BitVec.ofNat 64 (m.wordA.toNat % 2 ^ 42 + 2 ^ 42 * endpointOf d)
    let locked := fun p : Word × Nat => match r.teamTarget none d t m.gang p.1 .write with
      | .ok tgt _ => r.isLocked tgt
      | _ => false
    (r.teamBar d t ea m.payload.length .write = none →
      ((∀ p ∈ piecesOf ea m.payload.length, locked p = false) →
        let lines := payloadLines ea m.payload.length
        let write := fun (u : State) (ls : List (Nat × Word × Nat × Nat)) => ls.foldl (fun (u : State) l =>
          u.teamWrite d t l.2.1 ((m.payload.drop l.2.2.2).take l.2.2.1) m.mark) u
        let now := s.linesNow m lines
        ((∃ p ∈ piecesOf ea m.payload.length, ∃ tgt pg, r.teamTarget none d t m.gang p.1 .write = .ok tgt pg ∧ r.isReplicated tgt = true) →
          exec (.memWrite m) s = .next (((write r lines).dropPart m).answer d t m 0)) ∧
        ((∀ p ∈ piecesOf ea m.payload.length, ∀ tgt pg, r.teamTarget none d t m.gang p.1 .write = .ok tgt pg → r.isReplicated tgt = false) →
          (now.2 = true → exec (.memWrite m) s = .next (((write r now.1).dropPart m).answer d t m 0)) ∧
          (now.2 = false → exec (.memWrite m) s = .next ((write s now.1).notePart m now.1)))) ∧
      ((∃ p ∈ piecesOf ea m.payload.length, locked p = true) → exec (.memWrite m) s = .next s)) ∧
    (∀ q, r.teamBar d t ea m.payload.length .write = some (.miss q) →
      exec (.memWrite m) s = .next ((((r.postAll [q]).2).dropPart m).answer d t m 3)) ∧
    ∀ c why, r.teamBar d t ea m.payload.length .write = some (.fault c why) →
      exec (.memWrite m) s = .next ((r.dropPart m).answer d t m 4 c why)) ∧
  (∀ (s : State) (d t : Nat) (m : Message), arrives s 2 m d t →
    let r := received s m d t
    (r.coreNamed d t (poolName m).1 = none → exec (.poolWrite m) s = .next (r.answer d t m 4 pageFaultCode localReason)) ∧
    ∀ c, r.coreNamed d t (poolName m).1 = some c →
      let off := (poolName m).2
      let begun := r.resident d t = true ∧ ∃ e ∈ r.partWritten, e.1 = m
      let now := r.linesNow m (payloadLines (BitVec.ofNat 64 off) m.payload.length)
      (r.takesMessages d t = true ∨ begun →
        (now.2 = true → exec (.poolWrite m) s = .next (((r.applyPool c off m now.1).dropPart m).answer d t m 0)) ∧
        (now.2 = false → exec (.poolWrite m) s = .next ((s.applyPool c off m now.1).notePart m now.1))) ∧
      (r.takesMessages d t = false → ¬ begun → exec (.poolWrite m) s = .next ((r.dropPart m).land d t m))) ∧
  (∀ (s : State) (d t : Nat) (m : Message), arrives s 3 m d t →
    let r := received s m d t
    let w := streamName m
    let v := if w.2 = 7 ∧ r.namesConductor d t w.1 = true ∧ classThree m = true then r.abortScans d (r.team d t).part else r
    (r.strandRuns d t w.1 = false → exec (.streamWrite m) s = .next (r.answer d t m 4 pageFaultCode localReason)) ∧
    (r.strandRuns d t w.1 = true → v.takesMessages d t = false → exec (.streamWrite m) s = .next (v.land d t m)) ∧
    ∀ c, r.strandRuns d t w.1 = true → v.takesMessages d t = true → v.coreNamed d t w.1 = some c →
      ((∃ l ∈ (v.team d t).landing, l.m.kind = 3 ∧ streamName l.m = w) ∨ (v.strand c w.1.n).takes w.2 m = false →
        exec (.streamWrite m) s = .next (v.answer d t m 2)) ∧
      ((∀ l ∈ (v.team d t).landing, l.m.kind = 3 → streamName l.m ≠ w) → (v.strand c w.1.n).takes w.2 m = true →
        exec (.streamWrite m) s = .next ((v.modStrand c w.1.n fun x => x.applyStream w.2 m).answer d t m 0))) ∧
  (∀ (s : State) (d t : Nat) (m : Message),
    ((s.team d t).nextEntry = none → s.land d t m = s.answer d t m 1) ∧
    ∀ e, (s.team d t).nextEntry = some e →
      e < 2 ^ (s.team d t).lsize ∧ (∀ l ∈ (s.team d t).landing, l.slot ≠ e) ∧
      ((s.land d t m).team d t).landing = (s.team d t).landing ++ [{ slot := e, m := m }]) ∧
  ∀ (s : State) (d t : Nat), exec (.landedStreamApply d t) s =
    .next (if s.takesMessages d t then s.applyAll d t (s.team d t).landing [] else s)

/-- R305 to R307, R315, R316, R331: chunks. One for a valid entry enters the staging that its port grants and is answered OK; while none is
granted it stays on its way; a result for which its contribution's sender has kept room has it; one of a contributor that an ended run left out is discarded; one for an entry that is not valid faults. A
CHUNK_ABORT ends the entry's run with CANCELLED, but not one of a contributor that the run leaves out, and not in the cycle of the last
result. How staging is granted is the
model's choice (log 100), and which late chunk belongs to which run (log 102). -/
def Sys2Proof.Claims.chunkMessages : Prop :=
  (∀ (s : State) (d t : Nat) (m : Message), arrives s 4 m d t → m.wordB.toNat % 256 ≠ 2 →
    let r := received s m d t
    let i := m.wordA.toNat % 1024
    let k := r.tile d t i
    let h : HeldChunk := { phase := m.wordB.toNat % 256, from_ := m.wordA.toNat / 1024 % 65536, chunk := m.wordA.toNat / 4294967296,
                           repeated := m.wordB.getLsbD 8, payload := m.payload, mark := m.mark, slots := [] }
    (k.st = 0 → exec (.chunk m) s = .next (r.answer d t m 4 pageFaultCode localReason)) ∧
    (k.st ≠ 0 → k.outdated h = true → exec (.chunk m) s = .next ((r.modTile d t i fun k => k.settleLate h).answer d t m 0)) ∧
    (k.st ≠ 0 → k.outdated h = false →
      (r.roomFor d t i h.phase h.chunk h.repeated m.payload.length = none → exec (.chunk m) s = .next s) ∧
      (∀ room q, r.roomFor d t i h.phase h.chunk h.repeated m.payload.length = some (room, q) →
        exec (.chunk m) s = .next (((q.modTile d t i fun k =>
          { k.settleLate h with held := k.held ++ [({ h with slots := room } : HeldChunk)] }).answer d t m 0).tileArrivals d t i)) ∧
      (∀ run slot, k.run = some run → (h.chunk, h.repeated, slot) ∈ run.rooms → h.phase = 1 →
        (r.roomFor d t i h.phase h.chunk h.repeated m.payload.length).isSome = true) ∧
      ((∀ run x, k.run = some run → x ∈ run.rooms → x.1 ≠ h.chunk ∨ x.2.1 ≠ h.repeated) ∨ h.phase = 0 →
        r.roomFor d t i h.phase h.chunk h.repeated m.payload.length =
          (r.grant d t i h.chunk m.payload.length).map fun room => (room, r)))) ∧
  (∀ (s : State) (d t : Nat) (m : Message), arrives s 4 m d t → m.wordB.toNat % 256 = 2 →
    let r := received s m d t
    let i := m.wordA.toNat % 1024
    exec (.chunkAbort m) s = .next
      (if (m.wordA.toNat / 1024 % 65536) ∈ (r.tile d t i).excluded i ∨ r.lastWritten d t i = true then r
        else (r.endRun d t i stCancelled 0 false).noteStopped d t i (r.tile d t i)))

/-- R287, R288, R293, R315: answers. A RESPONSE of the current or previous epoch to a message that is awaited, with a tag that verifies under the
sender's key or under the key that stands in for one (log 34), is taken; one to no message is counted; 1 ms without one answers NO_RESPONSE. Answers 1 to 3 put the message to rest, for 1, 2, 4 and up to 64 microseconds, after
which it is sent again under a number of its own, or its sender stops. The number is the model's reading (log 52), and the reason of a
wait that goes on (log 53). -/
def Sys2Proof.Claims.answersArrive : Prop :=
  (∀ (s : State) (d : Nat) (m : Message), m.kind.toNat = 5 → s.behind m = false → dieOfEndpoint m.dst.toNat = some d → messageOk m = true →
    let r := offWire s m
    let awaited := fun x : Sent => x.d == d && !x.resting && x.m.gang == m.gang && x.m.seq == m.wordA.setWidth 48
    let genuine := fun x : Sent => (m.epoch = (s.gang m.gang).epoch ∨ m.epoch + 1 = (s.gang m.gang).epoch) ∧
      ((∃ k, (s.part (s.senderPart x)).gangKey m.gang m.epoch = some k ∧ tagOf k m = m.tag) ∨ tagOf (sharedKey m.gang m.epoch) m = m.tag)
    ((∀ x ∈ s.sent, awaited x = false) → exec (.response m) s = .next (r.countDrop dropMessage)) ∧
    ∀ x, s.sent.find? awaited = some x →
      (genuine x → exec (.response m) s = .next (r.takeAnswer x m (m.wordB.toNat % 256) (m.wordB.toNat / 256 % 256))) ∧
      (¬ genuine x → exec (.response m) s = .next r)) ∧
  (∀ (s : State) (x : Sent) (r : Message) (answer cause : Nat),
    (1 ≤ answer → answer ≤ 3 → s.abandoned x = false → s.takeAnswer x r answer cause =
      (s.modSent x.id fun x => { x with refusals := x.refusals + 1, resting := true, sentAt := (s.die x.d).now }).rewait x) ∧
    (answer = 0 → x.tile = none → (s.takeAnswer x r answer cause).sent = s.sent.filter (fun y => y.id != x.id) ∧
      ∀ id, x.cmd = some id → x.window = none → (s.takeAnswer x r answer cause).cmds =
        s.cmds.map fun k => if k.id = id then { k with unanswered := k.unanswered - 1, progress := k.progress + 1 } else k)) ∧
  (∀ (s : State) (id : Nat) (x : Sent), s.sent.find? (fun x => x.id == id) = some x → x.resting = false →
    x.sentAt + 1700000 ≤ (s.die x.d).now → exec (.noResponse id) s = .next (s.takeAnswer x
      { bareMessage (endpointOf x.d) x.m.gang 5 (x.m.seq.setWidth 64) 7 [] false with src := x.m.dst } 7 0)) ∧
  ∀ (s : State) (id : Nat) (x : Sent), s.sent.find? (fun x => x.id == id) = some x → x.resting = true →
    x.sentAt + 1700 * min 64 (2 ^ (x.refusals - 1)) ≤ (s.die x.d).now →
    (∀ r, s.transmit x.d (s.senderPart x) x.m = .ok r → exec (.messageRetry id) s =
      .next ((r.2.modSent id fun x => { x with m := r.1, resting := false, sentAt := (s.die x.d).now }).rewait x)) ∧
    ∀ st, s.transmit x.d (s.senderPart x) x.m = .error st → exec (.messageRetry id) s = .next (s.stopSender x st State.failRun)

/-- R301 to R303, R308, R314: tile-table entries. A slot request has no effect on a die; a slot answer sets its entry going, contributor 0 forwards
it, and one that comes early is kept, but not by contributor 0, which asked for none; a tracker whose count is reached fires its entry; the sequencer of a port serves the next entry in
turn, by one chunk, and a run with nothing left to do ends. -/
def Sys2Proof.Claims.tileRuns : Prop :=
  (∀ (s : State) (d : Nat) (m : Message), m.kind.toNat = 6 → s.behind m = false → dieOfEndpoint m.dst.toNat = some d → messageOk m = true →
    exec (.slotRequest m) s = .next (offWire s m)) ∧
  (∀ (s : State) (d t : Nat) (m : Message), arrives s 7 m d t →
    let r := offWire s m
    let i := m.wordA.toNat % 1024
    let k := r.tile d t i
    (k.st = 0 → exec (.slotAnswer m) s = .next r) ∧
    (k.st = tileSlotWait → exec (.slotAnswer m) s =
      .next ((if k.entry.idx = 0 then r.forwardAnswer d t i m else r).slotAnswered d t i (m.wordB.getLsbD 0))) ∧
    (k.st ≠ tileSlotWait → k.entry.idx = 0 → exec (.slotAnswer m) s = .next r) ∧
    (k.st ≠ 0 → k.st ≠ tileSlotWait → k.entry.idx ≠ 0 → exec (.slotAnswer m) s = .next (r.modTile d t i fun k => { k with held := k.held ++
      [{ phase := 3, from_ := 0, chunk := if m.wordB.getLsbD 0 then 1 else 0, repeated := false, payload := [], mark := false, slots := [] }] }))) ∧
  (∀ (s : State) (d t i : Nat) (k : Tracker), (s.team d t).trackers.find? (fun k => k.tile == i) = some k → k.expected ≤ k.count →
    let e := s.tile d t i
    (((e.st ≠ tileIdle ∧ e.st ≠ tileArmed) ∨ ((s.team d t).token e.entry.ctok).st = .pending) → exec (.trackerFire d t i) s = .next s) ∧
    (e.st = tileIdle ∨ e.st = tileArmed → ((s.team d t).token e.entry.ctok).st ≠ .pending → e.entry.alg ≠ 2 → e.entry.jv = false →
      ∃ u, exec (.trackerFire d t i) s = .next u ∧ (u.tile d t i).st = tileRunning ∧ (u.tile d t i).ready = true ∧
        (u.tile d t i).sent = 0 ∧ (u.tile d t i).recv = 0 ∧ (u.tile d t i).words = e.words ∧ (u.tile d t i).firedAt = some (s.die d).now ∧
        ((u.team d t).token e.entry.ctok).st = .pending ∧ ∀ x ∈ (u.team d t).trackers, x.tile ≠ i)) ∧
  (∀ (s : State) (d t i : Nat), let a := s.tileArrivals d t i
    (a.nextServed d (i % 3) ≠ some (t, i) → exec (.tileRunEnd d t i) s = .next (a.runWaits d t i)) ∧
    ∀ u, a.nextServed d (i % 3) = some (t, i) → a.runStep d t i = some u → exec (.tileRunEnd d t i) s = .next (u.noteServed d t i)) ∧
  ∀ (s : State) (d t i : Nat) (r : Run), (s.tile d t i).run = some r → (s.tile d t i).st = tileRunning → r.cancel = false →
    (r.join.isSome = true → r.swept = true) → r.exceeded = false → r.done.length = (s.tile d t i).entry.total → r.unanswered = 0 →
    r.substFault = none → ∃ u, s.runStep d t i = some u ∧ (u.tile d t i).st = tileIdle ∧ (u.tile d t i).run = none ∧
      (u.tile d t i).status = 0 ∧ (u.tile d t i).cause = 0 ∧ (u.tile d t i).ready = false ∧
      (u.team d t).token r.token = { st := .ok, index := r.done.length, status := 0, cause := 0, cmd := none }

/-- R10, R287 to R293, R301 to R303, R305 to R308, R314, R315: the messages, and what the entries of the tile table do on their own. That
the INDEX of a collective's token counts its done chunks, that contributor 0 forwards the slot answer to the endpoint of the switch, and
that an event whose conditions do not hold changes nothing are the model's readings (log 57, log 36, log 6). -/
def Obligations.MessageEvents : Prop := answersLeave ∧ linesWritten ∧ oneSidedWrites ∧ chunkMessages ∧ answersArrive ∧ tileRuns

/-- R283, R288: the link. A frame in sequence whose CRC matches is taken; one whose CRC does not is asked for again, and the sixteenth failure in a
row retrains the port; a replay goes on from the frame asked for; a retraining ends, or the port goes down: its messages are lost, the
senders and the entries that wait for the link end with LINK_DOWN, and the host is told; a gang whose count runs out moves to its next
epoch. The CRC is that of IEEE 802.3 (log 101). -/
def Sys2Proof.Claims.linkEvents : Prop :=
  (∀ (s : State) (p : Nat) (f : Frame),
    let good := crc32 (f.flits.flatMap lineBytes ++ bytesOf 4 f.control.toNat) = f.control.extractLsb' 32 32
    ((s.port p).up = false ∨ (s.port p).retraining = true → exec (.linkFrame p f) s = .next s) ∧
    ((s.port p).up = true → (s.port p).retraining = false →
      (good → f.control.setWidth 24 = (s.port p).next →
        exec (.linkFrame p f) s = .next (s.modPort p fun k => { k with next := k.next + 1, fails := 0 })) ∧
      (good → f.control.setWidth 24 ≠ (s.port p).next → exec (.linkFrame p f) s = .next s) ∧
      (¬ good → exec (.linkFrame p f) s = .next (s.modPort p fun k =>
        { k with fails := k.fails + 1, retraining := 15 < k.fails + 1 })))) ∧
  (∀ (s : State) (p : Nat) (n : BitVec 24),
    ((∀ f ∈ (s.port p).sent, f.number ≠ n) → exec (.linkReplay p n) s = .next s) ∧
    ((∃ f ∈ (s.port p).sent, f.number = n) → ∃ u, exec (.linkReplay p n) s = .next u ∧
      ((u.port p).sent.head?.map (·.number)) = some n ∧ (u.port p).sent <:+ (s.port p).sent ∧
      u = s.modPort p fun k => { k with sent := (u.port p).sent })) ∧
  (∀ (s : State) (p : Nat) (ok : Bool),
    exec (.linkRetrain p ok) s = .next (if (s.port p).retraining = true ∧ (s.port p).up = true then
      s.modPort p fun k => if ok then { k with retraining := false, fails := 0 } else { k with up := false } else s)) ∧
  (∀ (s : State) (p : Nat), (s.port p).up = false → (s.port p).retraining = true →
    let a : State := { s.modPort p (fun k => { k with retraining := false, sent := [] }) with
      wire := s.wire.filter fun m => !usesPort p m.src.toNat m }
    let b := (s.sent.filter fun x => !x.resting && usesPort p x.d x.m).foldl (fun r x => r.stopSender x 12 State.failRun) a
    let ends := (b.portRuns (p / 3) (p % 3)).filter fun x => (b.tile (p / 3) x.1 x.2).awaitsLink
    exec (.portDown p) s = .next ((ends.foldl (fun r x => r.failRun (p / 3) x.1 x.2 12 0) b).postEvent 4 (p / 3) 0 0 0)) ∧
  (∀ (s : State) (x : Sent) (st id : Nat), x.cmd = some id → x.window = none → x.tile = none →
    (s.stopSender x st State.failRun).sent = s.sent.filter (fun y => y.id != x.id) ∧
    (s.stopSender x st State.failRun).cmds = s.cmds.map fun m => if m.id = id then
      { m with unanswered := m.unanswered - 1, status := if m.status = 0 then st else m.status,
               failAddr := if m.status = 0 then x.m.wordA else m.failAddr } else m) ∧
  ∀ (s : State) (g : BitVec 24),
    ((∀ e ∈ (s.gang g).seqs, e.2 < 2 ^ 48 - 2 ^ 21) → exec (.epochAutoAdvance g) s = .next s) ∧
    ((∃ e ∈ (s.gang g).seqs, 2 ^ 48 - 2 ^ 21 ≤ e.2) → ∃ u, exec (.epochAutoAdvance g) s = .next u ∧
      (u.gang g).epoch = (s.gang g).epoch + 1 ∧ (u.gang g).seqs = [] ∧ ∀ h, h ≠ g → u.gang h = s.gang h)

/-- The state after so many steps of a command. -/
def Sys2Proof.Claims.afterSteps (id : Nat) : Nat → State → Option State
  | 0, s => some s
  | n + 1, s => (s.cmdStep id).bind (afterSteps id n)

/-- R241, R243, R244, R251, R258: ENGINE_COMMAND_START ends a cancelled command and one whose consumed token was produced in error or
cancelled, holds one back whose tokens are pending or that a command before it on its unit keeps waiting, and starts the others, which
their checks may end at once; ENGINE_COMMAND_DONE performs what is left of a command, up to the fuel of one event (log 51); the end of a
command produces its token. A command that ends waits for the stores to the own pool before it (R268, R275). -/
def Sys2Proof.Claims.commandsRun : Prop :=
  (∀ (s : State) (id : Nat) (m : Cmd), s.cmd? id = some m →
    let sts := m.own :: m.consumed.map fun k => ((s.team m.d m.t).token k).st
    let v := s.modCmd id fun k => { k with started := true }
    let ends := fun (r : State) (f : Nat × Nat × Word) => exec (.engineCommandStart id) s = .next
      (match r.endCmd id f.1 f.2.1 f.2.2 with
        | some u => if s.owesPool m then (s.waitPool m).getD s else u
        | none => s)
    (m.done = true ∨ m.started = true ∨ s.resident m.d m.t = false → exec (.engineCommandStart id) s = .next s) ∧
    (m.done = false → m.started = false → s.resident m.d m.t = true →
      (m.cancel = true → ends s (stCancelled, 0, 0)) ∧
      (m.cancel = false →
        (.pending ∈ sts → exec (.engineCommandStart id) s = .next s) ∧
        (.pending ∉ sts → .error ∈ sts → ends s (stDependency, 0, 0)) ∧
        (.pending ∉ sts → .error ∉ sts → .cancelled ∈ sts → ends s (stCancelled, 0, 0)) ∧
        (.pending ∉ sts → .error ∉ sts → .cancelled ∉ sts →
          (s.startsLater m = true ∨ s.sendBehind m = true → exec (.engineCommandStart id) s = .next s) ∧
          (s.startsLater m = false → s.sendBehind m = false →
            (v.startCheck m = none → exec (.engineCommandStart id) s = .next v) ∧
            ∀ f, v.startCheck m = some f → ends v f))))) ∧
  (∀ (s u : State) (id n : Nat), n ≤ runFuel → afterSteps id n s = some u → n = runFuel ∨ u.cmdStep id = none →
    exec (.engineCommandDone id) s = .next u) ∧
  (∀ (s : State) (id status cause : Nat) (addr : Word) (m : Cmd), s.cmd? id = some m → m.updates = [] → m.adds = [] →
    ∃ u, s.endCmd id status cause addr = some u ∧ (∀ k ∈ u.cmds, k.id = id → k.done = true) ∧
      (u.team m.d m.t).token m.token =
        ⟨if status = 0 then .ok else if status = stCancelled then .cancelled else .error, m.progress, status, cause, some id⟩)

/-- R251, R257, R315, R320, R323, R335: QARRIVE registers at its join once its strand's earlier stores and commands are performed, unless
a task of a higher index was taken in the same cycle; ECANCEL cancels what last named the token; LEASE takes a free engine when no
request of another team on the cores waits for one; QWAIT answers the outcome of a join that is neither open nor releasing. -/
def Sys2Proof.Claims.engineEvents : Prop :=
  (∀ (s : State) (id q : Nat) (m : Cmd), s.cmds.find? (fun m => m.id == id && m.started && !m.done && !m.cancel) = some m →
    arriveJoin m.cap.op = some q →
    let j := (s.team m.d m.t).joinAt q
    let later := ∃ n k, j.taken = some ((s.die m.d).now, k) ∧ n < k ∧ n = (j.number (.localTask m.who)).getD 4096
    (s.resident m.d m.t = false ∨ s.arrivalReady m = false ∨ later → exec (.qarriveRegister id) s = .next s) ∧
    (s.resident m.d m.t = true → s.arrivalReady m = true → ¬ later →
      let st := match j.arrival (.localTask m.who) with
        | .counted | .already => 0
        | .late | .excluded => stCancelled
        | .noJoin => stJoinState
        | .noTask => stNotTask
      let u := s.modCmd id fun k => { k with progress := if st = 0 then 1 else 0 }
      exec (.qarriveRegister id) s = .next (((u.endCmd id st 0 0).getD u).arrive m.d m.t q (.localTask m.who)))) ∧
  (∀ (s : State) (t : BitVec 8), (s.myTeam.token t.toNat).st ≠ .pending → Completes (.ecancel t) s s) ∧
  (∀ (s : State) (t : BitVec 8) (id : Nat), (s.myTeam.token t.toNat).st = .pending → (s.myTeam.token t.toNat).cmd = some id →
    Completes (.ecancel t) s { s with cmds := s.cmds.map fun m => if m.id = id ∧ m.done = false then { m with cancel := true } else m }) ∧
  (∀ (s : State) (t : BitVec 8), (s.myTeam.token t.toNat).st = .pending → (s.myTeam.token t.toNat).cmd = none →
    Completes (.ecancel t) s (s.modMyTeam fun m => { m with tiles := m.tiles.map fun e =>
      (e.1, { e.2 with run := e.2.run.map fun r => if r.token = t.toNat then { r with cancel := true } else r }) })) ∧
  (∀ (s : State) (a : BitVec 6) (l : BitVec 2), (s.myTeam.lease l.toNat).engine.isSome = true →
    Completes (.lease a l) s ((s.src a).2.consumed (s.src a).1.2)) ∧
  (∀ (s : State) (a : BitVec 6) (l : BitVec 2) (e : Nat), (s.myTeam.lease l.toNat).engine = none → (s.die s.myDie).freeEngine = some e →
    ∃ u, Completes (.lease a l) s u (∀ r ∈ (s.die s.myDie).leaseRequests, s.resident s.myDie r.1 = true → r = (s.myTeamIndex, l.toNat)) ∧
      ((u.team s.myDie s.myTeamIndex).lease l.toNat).engine = some e ∧
      ((u.team s.myDie s.myTeamIndex).lease l.toNat).period = leasePeriod (s.src a).1.1 ∧
      ((u.team s.myDie s.myTeamIndex).lease l.toNat).left = leasePeriod (s.src a).1.1 ∧
      ((u.team s.myDie s.myTeamIndex).lease l.toNat).requested = false ∧
      seek (u.die s.myDie).engines e = some (s.myTeamIndex, l.toNat)) ∧
  (∀ (s : State) (d : BitVec 6) (q : BitVec 4), Completes (.qwait d q) s
    (valueNext s d 2 ((s.myTeam.joinAt q.toNat).outcome s.myName) false)
    ((s.myTeam.joinAt q.toNat).st ≠ .open_ ∧ (s.myTeam.joinAt q.toNat).st ≠ .releasing)) ∧
  ∀ (j : Join) (w : StrandName),
    (j.st = .free ∨ j.record = none → j.outcome w = 0) ∧
    ∀ r, j.st ≠ .free → j.record = some r → r.mask.length < 2 ^ 13 → r.fill < 4 →
      (j.outcome w).toNat % 2 ^ 13 = r.mask.length ∧
      ((j.outcome w).getLsbD 13 = true ↔ ∃ k, j.number (.localTask w) = some k ∧ k ∈ r.mask) ∧
      ((j.outcome w).getLsbD 14 = true ↔ (j.number (.localTask w)).isSome = true) ∧
      (j.outcome w).toNat / 2 ^ 15 % 4 = r.fill ∧ (j.outcome w).toNat / 2 ^ 17 % 8 = r.flags.toNat % 8 ∧
      (j.outcome w).getLsbD 63 = true

/-- R241, R243, R244, R251, R257, R258, R283, R288, R315, R320, R323, R335: the events of links and engine commands, and ECANCEL, LEASE,
QWAIT. The order in which commands of a unit start is the model's reading (log 44, log 51); so are that an arrival waits behind one of a
higher index in its cycle, and that an event whose conditions do not hold changes nothing (log 103, log 6). -/
def Obligations.LinksAndEngines : Prop := linkEvents ∧ commandsRun ∧ engineEvents

/-! ## The host -/

/-- A command is taken: its slot has no answer pending, its form and values are legal (R396, R397). -/
def Sys2Proof.Claims.taken (s : State) (m : HostCmd) (n : Nat) : Prop :=
  (s.pfSlot m.slot.toNat).status ≠ 0 ∧ commandForm n m = true

/-- It ends with a status in its slot (R396). -/
def Sys2Proof.Claims.endsWith (i : Instr) (s : State) (m : HostCmd) (status : BitVec 8) (after : State → Prop) : Prop :=
  ∃ u, exec i s = .next u ∧ (u.pfSlot m.slot.toNat).status = status ∧ (u.pfSlot m.slot.toNat).tag = m.tag ∧ after u

/-- The command's slot says that it runs (R396). -/
def Sys2Proof.Claims.begun (s : State) (code : Nat) (m : HostCmd) : State :=
  s.modSlot m.slot.toNat fun k => { bytes := k.bytes, code := BitVec.ofNat 16 code, tag := m.tag, status := 0, a := [], cmd := none, load := none, order := 0 }

/-- A command that changes nothing but its slot's answer. -/
def Sys2Proof.Claims.answersOnly (i : Instr) (s : State) (code : Nat) (m : HostCmd) (status : Nat) : Prop :=
  exec i s = .next ((begun s code m).answerSlot m.slot.toNat (status, []))

/-- R22, R396, R397, R401: PART_SET. The partition holds the clusters named and no others; a cluster that stays keeps its logical number;
every cluster added or removed is zeroed, and no other core changes. -/
def Sys2Proof.Claims.partitionsSet : Prop :=
  ∀ (s : State) (m : HostCmd) (p : Nat), m.p0.toNat = p → taken s m 4 → p < 64 → m.p3.toNat < 2 ^ 24 →
    s.othersPorts p (m.p3.setWidth 24) = false →
    (∀ e, e < 8 → ∀ c ∈ maskClusters m e, s.othersHold p e c = false ∧ 16 * e + c ∉ s.withdrawn) →
    (∀ e, e < 8 → s.teamsOf e p ≠ [] → ∀ c ∈ (s.part p).held e, c ∈ maskClusters m e) →
    (2 ≤ (s.boundVfs p).length → ∀ e, e < 8 → (maskClusters m e).length ≤ 7) →
    (∀ e, e < 8 → ∀ t ∈ s.teamsOf e p, saveNeed (maskClusters m e).length ≤ 65536 * (s.team e t).spages) →
    (∀ e, e < 8 → ((s.part p).held e).Nodup) →
    endsWith (.partSet m) s m 1 fun u => (u.part p).exists_ = true ∧ (u.part p).ports = m.p3.setWidth 24 ∧
      ∀ e, e < 8 → (∀ c, c ∈ (u.part p).held e ↔ c ∈ maskClusters m e) ∧
        (∀ l c, l < 16 → seek (s.part p).clusters (16 * e + l) = some c → c ∈ maskClusters m e →
          seek (u.part p).clusters (16 * e + l) = some c) ∧
        ∀ c co, c < 16 → co < 8 →
          ((c ∈ maskClusters m e ↔ c ∈ (s.part p).held e) → u.core (128 * e + 8 * c + co) = s.core (128 * e + 8 * c + co)) ∧
          (¬ (c ∈ maskClusters m e ↔ c ∈ (s.part p).held e) → (u.core (128 * e + 8 * c + co)).strands = [] ∧
            (u.core (128 * e + 8 * c + co)).pool = [])

/-- R131 to R133, R362, R396, R397: VF_BIND and INVALIDATE. A binding moves a VF, or takes it out of its partition: its leaves, image keys and
TLB entries go; a VF with a team, and a second VF of a partition with more than seven clusters on a die, are refused. INVALIDATE drops,
on every die, the VF's entries for a first-stage page, for a second-stage page, or all of them. -/
def Sys2Proof.Claims.functionsBound : Prop :=
  ∀ (s : State) (m : HostCmd) (p : Nat), m.p0.toNat = p →
  let v := m.vf.toNat
  let onDie := ∃ d, d < 8 ∧ (s.teamOf v d).isSome = true
  let crowded := s.boundVfs p ≠ [] ∧ ∃ d, d < 8 ∧ 7 < (s.clustersOn p d).length
  let cleared := fun (u : State) => (u.vf v).s2 = [] ∧ (u.vf v).imageKeys = [] ∧ (u.vf v).counters = (s.vf v).counters ∧
    (∀ c, (u.core c).utlb = (s.core c).utlb.filter fun e => e.vf != v) ∧ ∀ d, (u.die d).stlb = (s.die d).stlb.filter fun e => e.vf != v
  (taken s m 1 → p = 0xFFFF →
    ((s.vf v).part = none → answersOnly (.vfBind m) s 3 m 6) ∧
    (∀ q, (s.vf v).part = some q → (onDie → answersOnly (.vfBind m) s 3 m 3) ∧
      (¬ onDie → endsWith (.vfBind m) s m 1 fun u => (u.vf v).part = none ∧ cleared u))) ∧
  (taken s m 1 → p < 64 →
    ((s.part p).exists_ = false → answersOnly (.vfBind m) s 3 m 6) ∧
    ((s.part p).exists_ = true →
      ((s.vf v).part = some p → answersOnly (.vfBind m) s 3 m 1) ∧
      ((s.vf v).part = none → (crowded → answersOnly (.vfBind m) s 3 m 3) ∧
        (¬ crowded → endsWith (.vfBind m) s m 1 fun u => (u.vf v).part = some p ∧ (u.vf v).counters = [] ∧ (u.vf v).s2 = (s.vf v).s2)) ∧
      ∀ q, (s.vf v).part = some q → q ≠ p → (onDie ∨ crowded → answersOnly (.vfBind m) s 3 m 3) ∧
        (¬ onDie → ¬ crowded → endsWith (.vfBind m) s m 1 fun u => (u.vf v).part = some p ∧ cleared u))) ∧
  (taken s m 2 → m.p1.toNat < 4 →
    let gone := fun (e : TlbEntry) => e.vf == v && (m.p1.getLsbD 1 || (if m.p1.getLsbD 0 then e.ipa == p / 65536 else e.va == p / 65536))
    endsWith (.invalidate m) s m 1 fun u => (∀ c, (u.core c).utlb = (s.core c).utlb.filter fun e => !gone e) ∧
      ∀ d, (u.die d).stlb = (s.die d).stlb.filter fun e => !gone e)

/-- R129, R130, R133, R136, R366, R396 to R398, R400, R401: the management commands of partitions, VFs, translations, ownership and
parameters, where they answer OK, and what they leave. Which parameters are checked with which status is the model's reading
(log 76, log 77). -/
def Sys2Proof.Claims.managed : Prop :=
  ∀ (s : State) (m : HostCmd) (p : Nat), m.p0.toNat = p →
  let v := m.vf.toNat
  let d := m.die.toNat
  (taken s m 1 → p < 64 → (s.part p).exists_ = true → s.boundVfs p = [] →
    endsWith (.partDestroy m) s m 1 fun u => (u.part p).exists_ = false) ∧
  (taken s m 2 → p < 2 ^ 11 → field p 5 6 ≤ 56 → (∀ k, k < 8 → m.p1.toNat / 2 ^ (8 * k) % 256 < 128) →
    endsWith (.slotSet m) s m 1 fun u => ∀ k, k < 8 →
      look 0 (u.die d).slotTable (64 * (p % 32) + field p 5 6 + k) = BitVec.ofNat 7 (m.p1.toNat / 2 ^ (8 * k) % 256)) ∧
  (∀ l : S2Leaf, l = ⟨m.p2.toNat % 4, m.p1.toNat, m.p2.getLsbD 2, m.p2.getLsbD 3, m.p2.getLsbD 4, false⟩ →
    taken s m 3 → l.level ≠ 0 → m.p2.toNat < 32 → p < 2 ^ 42 → m.p1.toNat < 2 ^ 42 → p % leafSpan l.level = 0 → m.p1.toNat % leafSpan l.level = 0 →
    s.leafAllowed v l = true → endsWith (.s2Map m) s m 1 fun u => seek (u.vf v).s2 (p / 65536) = some l) ∧
  (∀ e, taken s m 1 → p < 2 ^ 42 →
    (s.vf v).s2.find? (fun e => decide (65536 * e.1 ≤ p) && decide (p < 65536 * e.1 + leafSpan e.2.level)) = some e →
    endsWith (.s2Unmap m) s m 1 fun u => seek (u.vf v).s2 e.1 = none) ∧
  (taken s m 2 → p < 65536 → m.p1.toNat < 2 →
    ((∀ r ∈ (s.vf v).queue, r.tag ≠ p) → answersOnly (.pageAnswer m) s 0x0F m 6) ∧
    ∀ r, (s.vf v).queue.find? (fun r => r.tag == p) = some r →
      exec (.pageAnswer m) s = .next (((begun s 0x0F m).answerPage v r (m.p1 == 1)).answerSlot m.slot.toNat (1, []))) ∧
  (∀ (x : Strand) (tag ipa : Nat) (refused : Bool) (again : Word → Resolved) (page : PageRequest → Nat) (read : KeptElem → KeptElem),
    let y := x.pageAnswered tag ipa refused again page read
    (tag ∉ x.wait.tags → y = x) ∧
    (tag ∈ x.wait.tags → y.wait.tags = x.wait.tags.filter (fun k => k != tag) ∧
      (refused = true → ipa ∈ y.wait.refused) ∧ (refused = false → y.wait.refused = x.wait.refused) ∧
      (x.gather = none → x.mode = .blocked → (y.mode = .ready ↔ ∀ k ∈ x.wait.tags, k = tag)))) ∧
  (taken s m 3 → p % 65536 = 0 → m.p1 ≠ 0 → p + 65536 * m.p1.toNat ≤ 412316860416 → m.p2.toNat < 256 →
    endsWith (.ownerSet m) s m 1 fun u => (∀ a, readByte u.hbm a = if p ≤ a ∧ a < p + 65536 * m.p1.toNat then 0 else readByte s.hbm a) ∧
      ∀ k, look 0 u.owner k = if p / 65536 ≤ k ∧ k < p / 65536 + m.p1.toNat then m.p2.setWidth 16 else look 0 s.owner k) ∧
  (taken s m 2 → p < 64 → (s.part p).exists_ = true →
    endsWith (.replicaReserve m) s m 1 fun u => (u.part p).reserve = m.p1.toNat) ∧
  (taken s m 3 → paramsOk m = true → endsWith (.paramSet m) s m 1 fun u => (u.die d).qbase = m.p0.toNat % 2 ^ 32 ∧
    (u.die d).quantum = m.p0.toNat / 2 ^ 32 ∧ (u.die d).grace = m.p1.toNat % 2 ^ 32 ∧ (u.die d).bcap = m.p1.toNat / 2 ^ 32 ∧
    (u.die d).wdwait = m.p2.toNat) ∧
  (taken s m 1 → p < 2 ^ 24 → endsWith (.epochAdvance m) s m 1 fun u =>
    (u.gang (m.p0.setWidth 24)).epoch = (s.gang (m.p0.setWidth 24)).epoch + 1) ∧
  (taken s m 1 → 1 ≤ p → p ≤ 1000 → endsWith (.scanSet m) s m 1 fun u => u.scanHours = p) ∧
  (taken s m 1 → 600 ≤ p → p ≤ 2600 → endsWith (.powerSet m) s m 1 fun u => u.powerLimit = p)

/-- R22, R129 to R133, R136, R362, R366, R396 to R398, R400, R401: the management commands of partitions, functions, memory and parameters.
Which parameters are checked with which status is the model's reading (log 76, log 77). -/
def Obligations.ManagementCommands : Prop := partitionsSet ∧ functionsBound ∧ managed

/-- The commands over teams, images and keys: code, operand words, the command, and the limits of its values (R397). -/
def Sys2Proof.Claims.teamCommand : Instr → Option (Nat × Nat × HostCmd × Bool)
  | .teamCreate m => some (0x05, 7, m, createOk m)
  | .teamSet m => some (0x06, 3, m, decide (m.p0.toNat < 5))
  | .teamStop m => some (0x07, 0, m, true)
  | .teamResume m => some (0x08, 0, m, true)
  | .teamRestart m => some (0x09, 0, m, true)
  | .teamDestroy m => some (0x0A, 0, m, true)
  | .imageLoad m => some (0x12, 3, m, decide (m.p2.toNat < 2 ^ 42))
  | .attest m => some (0x13, 2, m, true)
  | .keySession m => some (0x14, 2, m, true)
  | .keyInstall m => some (0x15, 2, m, true)
  | .teamExport m => some (0x19, 2, m, true)
  | .teamImport m => some (0x1A, 2, m, true)
  | _ => none

/-- R396, R397: a command into a slot whose answer is pending is discarded and counted; one of a wrong form, or with a value beyond its limit,
answers BAD_COMMAND and changes nothing. -/
def Sys2Proof.Claims.turnedAway : Prop :=
  ∀ (s : State) (i : Instr) (code n : Nat) (m : HostCmd) (ok : Bool), teamCommand i = some (code, n, m, ok) →
    ((s.pfSlot m.slot.toNat).status = 0 → exec i s = .next (s.countDrop dropCommand)) ∧
    ((s.pfSlot m.slot.toNat).status ≠ 0 → commandForm n m = false ∨ ok = false → answersOnly i s code m 2)

/-- R365, R397, R399: TEAM_CREATE and TEAM_SET: what they make and write, and what turns them away. -/
def Sys2Proof.Claims.teamsMade : Prop :=
  (∀ (s : State) (m : HostCmd), taken s m 7 → createOk m = true →
    let v := m.vf.toNat
    let d := m.die.toNat
    ((s.vf v).part = none → answersOnly (.teamCreate m) s 5 m 6) ∧
    ∀ p, (s.vf v).part = some p →
      ((s.clustersOn p d).head? = none → answersOnly (.teamCreate m) s 5 m 3) ∧
      ∀ cl, (s.clustersOn p d).head? = some cl →
        let bad := s.startBit d v m.p2.toNat = false ∨ (s.teamOf v d).isSome = true ∨ s.areaRefused p m.p5 m.p6 = true ∨
          s.areaRefused p m.p6 m.p5 = true ∨ m.p1.toNat / 2 ^ 40 % 256 = 0
        (bad → answersOnly (.teamCreate m) s 5 m 3) ∧
        (¬ bad →
          ((∀ t, t < 128 → (s.team d t).st ≠ 0) → answersOnly (.teamCreate m) s 5 m 5) ∧
          ∀ t, (List.range 128).find? (fun t => (s.team d t).st == 0) = some t →
            let small := 65536 * (m.p5.toNat / 2 ^ 42) < 4160 * 2 ^ (m.p1.toNat % 16) ∨
              65536 * (m.p6.toNat / 2 ^ 42) < 4509952 * (8 * (s.clustersOn p d).length) + 1048576
            (small → answersOnly (.teamCreate m) s 5 m 5) ∧
            (¬ small → endsWith (.teamCreate m) s m 1 fun u => u.team d t = newTeam m p cl ∧
              (u.pfSlot m.slot.toNat).a = [BitVec.ofNat 64 t, zext64 (newTeam m p cl).lbase, zext64 (newTeam m p cl).sbase] ∧
              (∀ k, areaHolds m.p5 k = true ∨ areaHolds m.p6 k = true → look 0 u.owner k = 0x80 ∧
                ∀ a, 65536 * k ≤ a → a < 65536 * k + 65536 → readByte u.hbm a = 0)))) ∧
  (∀ (m : HostCmd) (p cl : Nat), let k := newTeam m p cl
    k.st = 2 ∧ k.vf = m.vf.toNat ∧ k.part = p ∧ k.gang = m.p0.setWidth 24 ∧ k.weight.toNat = m.p1.toNat / 2 ^ 40 % 256 ∧
      k.cls.toNat = m.p1.toNat / 2 ^ 48 % 4 ∧ k.cap = m.p4.toNat / 2 ^ 32 ∧ k.lsize = m.p1.toNat % 16 ∧
      ∃ v, k.saved = [v] ∧ v.lcore = 8 * cl ∧ ∃ x, v.strands = [(3, x)] ∧ x.mode = .ready ∧ x.pc = m.p2.setWidth 42 ∧
        x.ctl.priv = true ∧ ∀ r, x.reg r = if r = 1 then m.p3 else 0) ∧
  (∀ (s : State) (m : HostCmd), taken s m 3 → m.p0.toNat < 5 →
    let d := m.die.toNat
    (s.teamOf m.vf.toNat d = none → answersOnly (.teamSet m) s 6 m 6) ∧
    ∀ t, s.teamOf m.vf.toNat d = some t →
      let k := (s.team d t).setWord m.p0.toNat m.p1 m.p2
      let refused := (m.p0 = 0 ∧ m.p1.toNat % 2 ^ 15 ≠ 0) ∨ k.weight = 0
      (refused → answersOnly (.teamSet m) s 6 m 3) ∧
      (¬ refused → k.lsize < 3 ∨ 12 < k.lsize → answersOnly (.teamSet m) s 6 m 2) ∧
      (¬ refused → 3 ≤ k.lsize → k.lsize ≤ 12 → 65536 * k.lpages < 4160 * 2 ^ k.lsize → answersOnly (.teamSet m) s 6 m 5) ∧
      (¬ refused → 3 ≤ k.lsize → k.lsize ≤ 12 → 4160 * 2 ^ k.lsize ≤ 65536 * k.lpages →
        endsWith (.teamSet m) s m 1 fun u => u.team d t = k)) ∧
  ∀ (k : Team) (mask value : Word),
    let bit := fun (i : Nat) (old : Bool) => if mask.getLsbD i then value.getLsbD i else old
    (∀ i, i < 24 → (k.setWord 0 mask value).gang.getLsbD i = bit (16 + i) (k.gang.getLsbD i)) ∧
    (∀ i, i < 8 → (k.setWord 0 mask value).weight.getLsbD i = bit (40 + i) (k.weight.getLsbD i)) ∧
    (∀ i, i < 2 → (k.setWord 0 mask value).cls.getLsbD i = bit (48 + i) (k.cls.getLsbD i)) ∧
    (∀ i, i < 32 → (k.setWord 1 mask value).cap.testBit i = bit (32 + i) (k.cap.testBit i)) ∧
    k.setWord 2 mask value = k ∧
    (∀ i, i < 4 → (k.setWord 3 mask value).lsize.testBit i = bit i (k.lsize.testBit i)) ∧
    (∀ i, i < 26 → (k.setWord 3 mask value).lbase.getLsbD i = bit (22 + i) (k.lbase.getLsbD i)) ∧
    ∀ i, i < 26 → (k.setWord 4 mask value).sbase.getLsbD i = bit i (k.sbase.getLsbD i)

/-- R368, R389, R398, R399: TEAM_STOP, TEAM_RESUME, TEAM_RESTART and TEAM_DESTROY. -/
def Sys2Proof.Claims.teamsMove : Prop :=
  ∀ (s : State) (m : HostCmd), taken s m 0 →
  let d := m.die.toNat
  (s.teamOf m.vf.toNat d = none → answersOnly (.teamStop m) s 7 m 6 ∧ answersOnly (.teamResume m) s 8 m 6 ∧
    answersOnly (.teamRestart m) s 9 m 6 ∧ answersOnly (.teamDestroy m) s 10 m 6) ∧
  ∀ t, s.teamOf m.vf.toNat d = some t →
    let k := s.team d t
    (k.st = 1 ∨ k.st = 2 → endsWith (.teamStop m) s m 1 fun u => (u.team d t).st = 8 ∧ (u.team d t).saved = k.saved) ∧
    (3 ≤ k.st → k.st ≤ 7 → endsWith (.teamStop m) s m 0 fun u =>
      (u.pfSlot m.slot.toNat).cmd = some (7, m) ∧ (u.team d t).stopping = 1 ∧ (u.team d t).st = k.st) ∧
    (k.st = 8 → answersOnly (.teamStop m) s 7 m 1) ∧
    (k.st = 9 → exec (.teamStop m) s = .next ((begun s 7 m).answerSlot m.slot.toNat (3, [9]))) ∧
    (k.st ≠ 8 → answersOnly (.teamResume m) s 8 m 4) ∧
    (k.st = 8 → s.clustersThere d t = false → answersOnly (.teamResume m) s 8 m 5) ∧
    (k.st = 8 → s.clustersThere d t = true → s.resumable d t = false → answersOnly (.teamResume m) s 8 m 7) ∧
    (k.st = 8 → s.clustersThere d t = true → s.resumable d t = true →
      let r := (begun s 8 m).modTeam d t fun k => { k with st := 2 }
      endsWith (.teamResume m) s m 1 fun u => (u.team d t).st = if r.runnable d t then 2 else 1) ∧
    (k.st ≠ 9 → k.st ≠ 1 → answersOnly (.teamRestart m) s 9 m 4) ∧
    (k.st = 9 ∨ k.st = 1 → (s.clustersOn k.part d).head? = none → answersOnly (.teamRestart m) s 9 m 5) ∧
    (∀ cl, k.st = 9 ∨ k.st = 1 → (s.clustersOn k.part d).head? = some cl →
      endsWith (.teamRestart m) s m 1 fun u => (u.team d t).st = 2 ∧ (∀ e ∈ (u.team d t).joins, e.2.st = .free) ∧
        (u.team d t).leases = [] ∧ (u.team d t).tokens = [] ∧ (u.team d t).landing = k.landing ∧
        (u.team d t).saved = [conductorImage cl k.entry k.arg]) ∧
    endsWith (.teamDestroy m) s m 1 fun u => (u.team d t).st = 0 ∧ (∀ c ∈ u.cmds, c.d = d → c.t ≠ t) ∧
      ∀ n, (k.lbase.toNat ≤ n ∧ n < k.lbase.toNat + k.lpages) ∨ (k.sbase.toNat ≤ n ∧ n < k.sbase.toNat + k.spages) →
        look 0 u.owner n = BitVec.ofNat 16 (64 + k.part) ∧ ∀ a, 65536 * n ≤ a → a < 65536 * n + 65536 → readByte u.hbm a = 0

/-- R397, R398, R403: the commands that run in the background start, and KEY_INSTALL installs the key that its blob holds. -/
def Sys2Proof.Claims.keysAndStarts : Prop :=
  (∀ (s : State) (m : HostCmd),
    let v := m.vf.toNat
    let starts := fun (i : Instr) (code : Nat) => endsWith i s m 0 fun u => (u.pfSlot m.slot.toNat).cmd = some (code, m)
    (taken s m 3 → m.p2.toNat < 2 ^ 42 →
      ((s.vf v).part = none → answersOnly (.imageLoad m) s 0x12 m 6) ∧ ((s.vf v).part.isSome = true → starts (.imageLoad m) 0x12)) ∧
    (taken s m 2 → (s.vf v).part = none → answersOnly (.attest m) s 0x13 m 6 ∧ answersOnly (.keySession m) s 0x14 m 6) ∧
    (taken s m 2 → (s.vf v).part.isSome = true → starts (.attest m) 0x13 ∧ starts (.keySession m) 0x14) ∧
    (taken s m 2 → s.teamOf v m.die.toNat = none → answersOnly (.teamExport m) s 0x19 m 6 ∧ answersOnly (.teamImport m) s 0x1A m 6) ∧
    ∀ t, taken s m 2 → s.teamOf v m.die.toNat = some t →
      ((s.team m.die.toNat t).st ≠ 8 → answersOnly (.teamExport m) s 0x19 m 4 ∧ answersOnly (.teamImport m) s 0x1A m 4) ∧
      ((s.team m.die.toNat t).st = 8 → starts (.teamExport m) 0x19 ∧ starts (.teamImport m) 0x1A)) ∧
  (∀ (s : State) (m : HostCmd), taken s m 2 →
    let v := m.vf.toNat
    let blob := readBytes s.hostMem m.p0.toNat m.p1.toNat
    let fails := answersOnly (.keyInstall m) s 0x15 m
    ((s.vf v).part = none → fails 6) ∧
    ∀ p, (s.vf v).part = some p →
      ((s.part p).session = none → fails 8) ∧
      ∀ k, (s.part p).session = some k →
        let barred := ((s.part p).confidential = true ∧ s.ide = false) ∨ ofBytes (blob.take 12) ≠ k.counter + 1
        (barred ∨ openBlob k.key blob = none → fails 8) ∧
        ∀ plain, ¬ barred → openBlob k.key blob = some plain →
          ((s.part p).install plain = none → fails 2) ∧
          ∀ q, (s.part p).install plain = some q → endsWith (.keyInstall m) s m 1 fun u =>
            (u.part p).gangKeys = q.gangKeys ∧ (u.part p).readKey = q.readKey ∧ (u.part p).memKey = q.memKey ∧
              (u.part p).confidential = q.confidential ∧ (u.part p).switches = q.switches ∧
              (u.part p).session = some { k with counter := k.counter + 1 } ∧
              (u.vf v).imageKeys = ((s.vf v).install plain).imageKeys) ∧
  ∀ (q : Partition) (plain : List Byte),
    (num plain 0 1 = 1 → plain.length = 65 → q.install plain = some { q with memKey := some (BitVec.ofNat 512 (num plain 1 64)) }) ∧
    (num plain 0 1 = 2 → plain.length = 37 → ∃ r, q.install plain = some r ∧
      r.gangKey (BitVec.ofNat 24 (num plain 1 3)) (BitVec.ofNat 8 (num plain 4 1)) = some (BitVec.ofNat 256 (num plain 5 32))) ∧
    (num plain 0 1 = 4 → plain.length = 33 → q.install plain = some { q with readKey := some (BitVec.ofNat 256 (num plain 1 32)) }) ∧
    (num plain 0 1 = 5 → plain.length = 2 → ∃ r, q.install plain = some r ∧
      r.confidential = (q.confidential || (num plain 1 1).testBit 0) ∧ r.switches = (num plain 1 1).testBit 1) ∧
    (num plain 0 1 = 0 ∨ 5 < num plain 0 1 → q.install plain = none)

/-- R64 to R66, R397, R398, R402, R403: a background command ends. An IMAGE_LOAD waits for those of its VF before it; one that fails its
checks answers the status word; one that passes clears the start bits and writes its sections, then publishes what it has loaded. A
TEAM_STOP ends with its team's save. ATTEST writes the report and the certificate; KEY_SESSION writes the device's key and a report and
begins a session; TEAM_EXPORT seals the team; TEAM_IMPORT takes an image that the partition's key opens. The bytes of an export, and
what an image of another part holds, are free values (log 23, log 82). -/
def Sys2Proof.Claims.backgroundEnds : Prop :=
  (∀ (s : State) (b : BitVec 4), (s.pfSlot b.toNat).cmd = none → exec (.backgroundCommandDone b) s = .next s) ∧
  (∀ (s : State) (b : BitVec 4) (code : Nat) (m : HostCmd), (s.pfSlot b.toNat).cmd = some (code, m) →
    let i := b.toNat
    let v := m.vf.toNat
    let d := m.die.toNat
    let ends := fun (r : (Nat × List Word) × State) => exec (.backgroundCommandDone b) s = .next (r.2.answerSlot i r.1)
    (code = 0x12 →
      let image := readBytes s.hostMem m.p0.toNat m.p1.toNat
      (s.loadBefore i m = true → exec (.backgroundCommandDone b) s = .next s) ∧
      (s.loadBefore i m = false → (s.pfSlot i).load = none →
        (∀ e, s.gimLoad v d image m.p2.toNat = .error e → ends ((1, [gimStatus e]), s)) ∧
        ∀ l, s.gimLoad v d image m.p2.toNat = .ok l → ∃ u, exec (.backgroundCommandDone b) s = .next u ∧
          (u.pfSlot i).load = some l ∧ (u.pfSlot i).status = (s.pfSlot i).status ∧
          ∀ a, a ∈ look [] (u.vf v).starts d → a ∈ look [] (s.vf v).starts d ∧ ∀ t ∈ l.texts, ¬ (t.1 ≤ a ∧ a < t.1 + t.2)) ∧
      (∀ l, s.loadBefore i m = false → (s.pfSlot i).load = some l → ∃ u, exec (.backgroundCommandDone b) s = .next u ∧
        (u.pfSlot i).status = 1 ∧ (u.pfSlot i).a = [0] ∧ (u.pfSlot i).cmd = none ∧
        ((s.vf v).part.isSome = true →
          (∀ a, a ∈ look [] (u.vf v).starts d ↔ a ∈ look [] (s.vf v).starts d ∨ a ∈ l.starts) ∧
          look [] (u.vf v).symbols d = look [] (s.vf v).symbols d ++ l.symbols ∧
          look [] (u.vf v).kernels d = look [] (s.vf v).kernels d ++ l.kernels))) ∧
    (code = 0x07 →
      (s.teamOf v d = none → ends ((1, []), s)) ∧
      ∀ t, s.teamOf v d = some t →
        ((s.team d t).stopping ≠ 0 → exec (.backgroundCommandDone b) s = .next s) ∧
        ((s.team d t).stopping = 0 → ends (if (s.team d t).st = 9 then (3, [9]) else (1, []), s))) ∧
    (code = 0x13 →
      let n := s.draw
      let written := n.2.report v (readBytes s.hostMem m.p0.toNat 32) n.1 ++ certificate s.bootSerial
      ends ((1, []), { n.2 with hostMem := writeBytes s.hostMem m.p1.toNat written })) ∧
    (code = 0x14 → ∀ p, (s.vf v).part = some p →
      let input := readBytes s.hostMem m.p0.toNat 96
      ∃ (secret : BitVec 256) (n : Nat) (u : State), exec (.backgroundCommandDone b) s = .next u ∧
        let qd := pairBytes (Config.p256Public secret)
        let z := Config.p256Shared secret (BitVec.ofNat 256 (num (input.take 64) 0 32)) (BitVec.ofNat 256 (num (input.take 64) 32 32))
        let hash := Config.sha256 (input.take 64 ++ qd ++ input.drop 64)
        (u.part p).session = some { key := Config.sha256 (bytesOf 32 z.toNat ++ input.take 64 ++ qd), counter := 0 } ∧
        u.hostMem = writeBytes s.hostMem m.p1.toNat (qd ++ s.report v (bytesOf 32 hash.toNat) n) ∧
        (u.pfSlot i).status = 1 ∧ (u.pfSlot i).cmd = none) ∧
    (code = 0x19 → ends (s.endExport m) ∧
      ∀ t, s.teamOf v d = some t → (s.team d t).st = 8 →
        ((s.endExport m).1.1 = 1 ∧ (s.endExport m).2.exports.map (fun e => (e.key, e.image)) =
          s.exports.map (fun e => (e.key, e.image)) ++ [(s.sealKey (s.team d t).part, s.imageOf d t)]) ∨
        ((s.endExport m).1 = (5, []) ∧ (0 < (s.team d t).spages → m.p1.toNat < 64 + 65536 * (s.team d t).spages))) ∧
    (code = 0x1A → ends (s.endImport m) ∧
      ∀ t, s.teamOf v d = some t → (s.team d t).st = 8 →
        let image := s.openImage (s.sealKey (s.team d t).part) (readBytes s.hostMem m.p0.toNat m.p1.toNat)
        (image = none → s.endImport m = ((8, []), s)) ∧
        ∀ e, image = some e →
          ((∃ k ∈ e.team.saved, ∃ x ∈ k.strands, x.2.supported = false) → s.endImport m = ((7, []), s)) ∧
          ((∀ k ∈ e.team.saved, ∀ x ∈ k.strands, x.2.supported = true) → e.team.landing.length ≤ 2 ^ (s.team d t).lsize →
            (∀ k ∈ e.team.saved, k.strands = [] ∨ (s.physCore (s.team d t).part d (k.lcore / 8) (k.lcore % 8)).isSome = true) →
            s.endImport m = ((1, []), s.takeImage d t e))))

/-- R64 to R66, R365, R367, R368, R389, R396 to R399, R402, R403: the commands over teams, images and keys, in every case that they meet.
Which parameters are checked with which status is the model's reading (log 76, log 78, log 79, log 82); so are the layout of a key blob
and that the report stands before the certificate (log 81). -/
def Obligations.TeamCommands : Prop := turnedAway ∧ teamsMade ∧ teamsMove ∧ keysAndStarts ∧ backgroundEnds

/-- R392 to R394: a VF's message window, translations that it drops, and its registers and the physical function's, by register writes; other
offsets discard. -/
def Sys2Proof.Claims.functionRegisters : Prop :=
  (∀ (s u : State) (vf : BitVec 9) (p : Nat) (m r : Message), (s.vf vf.toNat).window = none → 1 ≤ m.kind.toNat → m.kind.toNat ≤ 3 →
    m.payload.length ≤ 4096 → (s.vf vf.toNat).part = some p →
    s.draw.2.transmit 0 p { bareMessage m.dst.toNat (s.windowGang vf.toNat m.dst.toNat) m.kind.toNat m.wordA 0 m.payload m.mark with
      vf := vf, byGang := false } = .ok (r, u) →
    ∃ w, exec (.vfMessage vf m) s = .next w ∧ (w.vf vf.toNat).window = some r ∧
      w.sent.map (fun x => (x.m, x.window)) = s.sent.map (fun x => (x.m, x.window)) ++ [(r, some vf.toNat)]) ∧
  (∀ (s : State) (vf : BitVec 9) (m : Message), (s.vf vf.toNat).window.isSome = true ∨ m.kind.toNat = 0 ∨ 3 < m.kind.toNat ∨
    4096 < m.payload.length ∨ (s.vf vf.toNat).part = none → exec (.vfMessage vf m) s = .next { s with drops := s.drops + 1 }) ∧
  (∀ (s : State) (vf : BitVec 9) (v : Word),
    let kept := fun e : TlbEntry => e.vf != vf.toNat || (!v.getLsbD 0 && e.va != v.toNat / 65536 % 2 ^ 26)
    ∃ u, exec (.s1inv vf v) s = .next u ∧ exec (.registerWrite vf.toNat 0x2010 v) s = .next u ∧
      (∀ c, (u.core c).utlb = (s.core c).utlb.filter kept) ∧ ∀ d, (u.die d).stlb = (s.die d).stlb.filter kept) ∧
  (∀ (s : State) (fn : Nat) (v : Word), fn < 512 →
    ∃ u, exec (.registerWrite fn 0x2008 v) s = .next u ∧ (u.vf fn).s1root.toNat = v.toNat / 2 ^ 15 % 2 ^ 27 * 2 ^ 15 ∧
      ∀ g, g ≠ fn → u.vf g = s.vf g) ∧
  (∀ (s : State) (v : Word), exec (.registerWrite 512 0x2008 v) s = .next { s with eventsIn := v.toNat } ∧
    exec (.registerWrite 512 0x2018 v) s = .next { s with aperture := BitVec.ofNat 64 (v.toNat % 2 ^ 48) } ∧
    ∀ fn, fn < 512 → exec (.registerWrite fn 0x2018 v) s =
      .next (s.modVf fn fun f => { f with aperture := BitVec.ofNat 64 (v.toNat % 2 ^ 48) })) ∧
  ∀ (s : State) (fn : Nat) (o : BitVec 16) (v : Word),
    (o ≠ 0x2008 ∧ o ≠ 0x2018 ∧ (fn < 512 → o ≠ 0x2010) ∧ ¬ (fn = 512 ∧ o.toNat < 0x800 ∧ o.toNat % 128 < 64 ∧ o.toNat % 8 = 0)) ∨ 512 < fn →
    exec (.registerWrite fn o v) s = .next s

/-- R396, R397: a command slot. A write into its bytes 0 to 63 changes those bytes; with the last of them the command that they hold runs:
its code, tag, VF, die and seven parameters stand at their places, little-endian. The 26 codes of R397 name their commands; any other
code returns BAD_COMMAND and changes nothing. -/
def Sys2Proof.Claims.slotWrites : Prop :=
  (∀ (s : State) (i j : Nat) (v : Word), i < 16 → j < 8 →
    let t := s.modSlot i fun k => { k with bytes := k.bytes.take (8 * j) ++ bytesOf 8 v.toNat ++ k.bytes.drop (8 * j + 8) }
    let b := (t.pfSlot i).bytes
    exec (.registerWrite 512 (BitVec.ofNat 16 (128 * i + 8 * j)) v) s =
      if j = 7 then runCommand (num b 0 2) (slotCommand (BitVec.ofNat 4 i) b) t else .next t) ∧
  (∀ (i : BitVec 4) (b : List Byte),
    let m := slotCommand i b
    m.slot = i ∧ m.tag.toNat = num b 2 2 ∧ m.vf.toNat = num b 4 2 ∧ m.die.toNat = num b 6 1 ∧ m.zeros.toNat = num b 7 1 ∧
    m.p0.toNat = num b 8 8 ∧ m.p1.toNat = num b 16 8 ∧ m.p2.toNat = num b 24 8 ∧ m.p3.toNat = num b 32 8 ∧ m.p4.toNat = num b 40 8 ∧
    m.p5.toNat = num b 48 8 ∧ m.p6.toNat = num b 56 8) ∧
  (∀ (m : HostCmd) (s : State),
    let listed : List (Nat × Instr) := [(1, .partSet m), (2, .partDestroy m), (3, .vfBind m), (4, .slotSet m), (5, .teamCreate m), (6, .teamSet m),
      (7, .teamStop m), (8, .teamResume m), (9, .teamRestart m), (10, .teamDestroy m), (11, .paramSet m), (12, .s2Map m), (13, .s2Unmap m),
      (14, .invalidate m), (15, .pageAnswer m), (16, .ownerSet m), (17, .replicaReserve m), (18, .imageLoad m), (19, .attest m), (20, .keySession m),
      (21, .keyInstall m), (22, .epochAdvance m), (23, .scanSet m), (24, .powerSet m), (25, .teamExport m), (26, .teamImport m)]
    (∀ e ∈ listed, runCommand e.1 m s = exec e.2 s) ∧
    ∀ n, n ∉ listed.map (·.1) → (s.pfSlot m.slot.toNat).status ≠ 0 →
      runCommand n m s = .next ((begun s n m).answerSlot m.slot.toNat (2, []))) ∧
  ∀ (s : State) (i : Nat), (s.countDrop i).drops = s.drops + 1 ∧ look 0 (s.countDrop i).pfCounters i = look 0 s.pfCounters i + 1 ∧
    ∀ j, j ≠ i → look 0 (s.countDrop i).pfCounters j = look 0 s.pfCounters j

/-- R29, R392, R396, R404, R405, R409: readback, CXL.mem, IDE, telemetry and device reset. A refused access of the host reads all ones or
writes nothing, and is counted. -/
def Sys2Proof.Claims.hostAccesses : Prop :=
  (∀ (s : State) (fn : Nat) (o : BitVec 48), fn ≤ 512 →
    let line := ((if fn < 512 then (s.vf fn).aperture else s.aperture).toNat + o.toNat) % 2 ^ 48
    ∃ u, exec (.readbackRead fn o) s = .next u ∧ u.hostRead.length = if 0x81 ≤ line / 2 ^ 40 ∧ line / 2 ^ 40 ≤ 0x8A then 32 else 64) ∧
  (∀ (s : State) (a : BitVec 42) (v : Byte), a.toNat < 412316860416 → s.hostPage a.toNat = true →
    (∃ u, exec (.cxlMemAccess true a v) s = .next u ∧ ∀ b, readByte u.hbm b = if b = a.toNat then v else readByte s.hbm b) ∧
    exec (.cxlMemAccess false a v) s = .next { s with hostRead := [readByte s.hbm a.toNat] }) ∧
  (∀ (s : State) (a : BitVec 42) (v : Byte), 412316860416 ≤ a.toNat ∨ s.hostPage a.toNat = false →
    exec (.cxlMemAccess true a v) s = .next (s.countDrop dropAccess) ∧
    exec (.cxlMemAccess false a v) s = .next { s.countDrop dropAccess with hostRead := [0xFF] }) ∧
  (∀ (s : State) (ok : Bool), exec (.ideKm ok) s = .next { s with ide := ok }) ∧
  (∀ (s : State) (d : Nat) (v : Sample), ∃ u, exec (.telemetrySample d v) s = .next u ∧ (u.die d).power = v.power ∧
    (u.die d).junction = v.junction ∧ (u.die d).hbmTemp = v.hbmTemp ∧ (d = 0 → u.inlet = v.inlet ∧ u.flow = v.flow)) ∧
  (∀ s : State, ∃ u, exec .deviceReset s = .next u ∧ u.hbm = [] ∧ u.parts = [] ∧ u.cores = [] ∧ u.dies = [] ∧ u.cmds = [] ∧
    u.hostMem = s.hostMem ∧ u.withdrawn = s.withdrawn ∧ u.exports = s.exports)

/-- R29, R392 to R394, R396, R397, R404, R405, R409: the other ways in which the host and the silicon reach the machine. What a device
reset keeps is the model's reading (log 86); the window and the export are log 23 and log 83, the places of the counters of what is
dropped log 121, and that the readback window begins at the aperture register log 122. -/
def Obligations.HostEvents : Prop := functionRegisters ∧ slotWrites ∧ hostAccesses

/-- R39, R94, R96, R354: a mirror mismatch. In the cycle in which a strand writes a result that a mirror has computed too, the comparison fails: MSTAT
takes the first address and slot, the pending mark stands, the comparison has been made, and the VF's counter of R362 rises; at any
other time nothing is compared. -/
def Sys2Proof.Claims.mirrorFails : Prop :=
  ∀ (s : State) (c n : Nat) (slot : BitVec 5) (a : VAddr),
    let t := s.strand c n
    let writes := (s.core c).running = some n ∧ (s.core c).switchLeft = 0 ∧ t.late = false ∧
      ∃ p ∈ t.pend, p.check = some (a, slot) ∧ p.due ≤ t.time
    (¬ writes → exec (.mirrorMismatch c n slot a) s = .next s) ∧
    (writes → ∃ u, exec (.mirrorMismatch c n slot a) s = .next u ∧ (u.strand c n).ctl.mirrorPending = true ∧
      (u.strand c n).ctl.mm = true ∧
      (t.ctl.mirrorPending = false → (u.strand c n).ctl.mirrorAddr = a.extractLsb' 2 40 ∧ (u.strand c n).ctl.mirrorSlot = slot) ∧
      (t.ctl.mirrorPending = true → (u.strand c n).ctl.mirrorAddr = t.ctl.mirrorAddr ∧
        (u.strand c n).ctl.mirrorSlot = t.ctl.mirrorSlot) ∧
      (u.strand c n).pend.map (fun p => (p.write, p.due)) = t.pend.map (fun p => (p.write, p.due)) ∧
      (∀ p ∈ (u.strand c n).pend, p.due ≤ t.time → p.check ≠ some (a, slot)) ∧ (u.strand c n).pc = t.pc ∧ (u.strand c n).mode = t.mode ∧
      let v := (s.team (coreDie c) (s.teamAt c)).vf
      look 0 (u.vf v).counters 6 = look 0 (s.vf v).counters 6 + 1)

/-- R348, R356, R357, R362, R363, R388, R391: an uncorrectable error is counted and strikes its place; a correctable one is counted, and a read of the
register by the running strand costs a cycle, or the scrubber corrects it without one, as the model leaves free (log 85). A line of HBM keeps
its bytes and is marked; so is a line of a pool, a word of a stream and a register. A team whose image the struck line of shadow SRAM, or of its
save area, holds is LOST. A place that is not there has no error. -/
def Sys2Proof.Claims.errorsStrike : Prop :=
  (∀ (s : State) (p : Place),
    (placeExists p = false → exec (.eccUncorrectable p) s = .next s ∧ ∀ ok, exec (.scrub p ok) s = .next s) ∧
    (placeExists p = true →
      exec (.eccUncorrectable p) s = .next ((s.countError p (2 * placeGroup p.kind + 1)).strike p) ∧
      exec (.scrub p false) s = .next ((s.countError p (2 * placeGroup p.kind + 1)).strike p) ∧
      exec (.scrub p true) s = .next ((s.replay p).countError p (2 * placeGroup p.kind)))) ∧
  (∀ (s : State) (p : Place),
    (p.kind = .hbmLine → (∀ d t, s.inSave d t p.index = false) →
      s.strike p = { s with hbmPoison := insertNat (p.index / 64 * 64) s.hbmPoison } ∧ p.index / 64 * 64 ∈ (s.strike p).hbmPoison) ∧
    (p.kind = .hbmLine → ∀ d t, s.inSave d t p.index = true → ((s.strike p).team d t).st = 9) ∧
    (p.kind = .shadowLine → (s.shadowAt p = none → s.strike p = s) ∧
      ∀ x, s.shadowAt p = some x → ((s.strike p).team (coreDie p.core) x.1).st = 9) ∧
    (p.kind = .streamReg → p.group = 0 → ∀ (j : Nat) (e : Elem),
      ((s.strand p.core p.strand).stream (p.index / 32 % 8))[j]? = some e →
      (((s.strike p).strand p.core p.strand).stream (p.index / 32 % 8))[j]? = some { e with bad := e.bad || j == p.index % 32 / 2 }) ∧
    (p.kind = .poolLine → p.index / 64 * 64 ∈ ((s.strike p).core p.core).poolPoison ∧
      ((s.strike p).core p.core).pool = (s.core p.core).pool) ∧
    (p.kind = .fileWord → (((s.strike p).core p.core).tri p.index).poison = true) ∧
    (p.kind = .scalarReg → p ∈ ((s.strike p).strand p.core p.strand).bad ∧
      ((s.strike p).strand p.core p.strand).x = (s.strand p.core p.strand).x) ∧
    ((s.replay p).hbm = s.hbm ∧ (s.replay p).hbmPoison = s.hbmPoison ∧ ∀ c, ((s.replay p).core c).strands = (s.core c).strands))

/-- R34 to R36, R337, R339 to R341, R424: a bundle that is malformed, or that cannot be fetched, traps at its address: FMASK names the slot or the header, FINFO holds
the word or the address, and EPC the bundle. -/
def Sys2Proof.Claims.bundlesBarred : Prop :=
  (∀ (s : State) (slot : BitVec 5) (w : Word32), ∃ v,
    exec (.illegalEncoding slot w) s = .next (({ s with issue := v } : State).takeTrap s.issue.core s.issue.strand
      (causeWord 0x01 0 slot.toNat 0 0 s.issue.len) (BitVec.ofNat 17 (2 ^ slot.toNat)) (w.setWidth 64) s.issue.addr)) ∧
  (∀ (s : State) (c r : BitVec 8) (a : Word), exec (.bundleFetchFault c r a) s = .next (s.takeTrap s.issue.core s.issue.strand
    (causeWord c.toNat r.toNat 16 0 0 0) (BitVec.ofNat 17 65536) a (a.setWidth 42)))

/-- R32, R34 to R36, R39, R94, R96, R337, R348, R354 to R357, R362, R424: the events of the silicon and of a bundle that cannot be taken. What an error does to
the stored bytes is the model's reading (log 18, log 30, log 84, log 85); so are the cycle of a comparison (log 88) and that an event
whose conditions do not hold changes nothing (log 6). -/
def Obligations.SiliconEvents : Prop := mirrorFails ∧ errorsStrike ∧ bundlesBarred

/-! ## Traps, privilege, checks -/

/-- The registers of a trap: what R36, R340 and R341 write together. -/
def Sys2Proof.Claims.caught (u : Strand) (cause : Word) (fmask : BitVec 17) (info : Word) (epc : VAddr) : Prop :=
  u.ctl.cause = cause ∧ u.ctl.fmask = fmask ∧ u.ctl.finfo = info ∧ u.ctl.epc = epc

/-- R340: the fields of the CAUSE word. -/
def Sys2Proof.Claims.causeFields : Prop :=
  ∀ code reason slot lg lane len : Nat, code < 256 → reason < 256 → slot < 32 → lg < 8 → lane < 16 → len < 32 →
    let c := causeWord code reason slot lg lane len
    (c.extractLsb' 0 8).toNat = code ∧ (c.extractLsb' 8 8).toNat = reason ∧ (c.extractLsb' 16 5).toNat = slot ∧
    (c.extractLsb' 21 3).toNat = lg ∧ (c.extractLsb' 24 4).toNat = lane ∧ c.extractLsb' 28 4 = 0 ∧
    (c.extractLsb' 32 5).toNat = len ∧ c.extractLsb' 37 27 = 0

/-- R342: taking a trap with EXL clear and a handler installed. CAUSE, FMASK, FINFO and EPC are written; PPRIV is the old PRIV, PRIV and
EXL are 1; the next bundle is TVEC.BASE x 4, 4 cycles after the faulting bundle was presented; results in flight, blocks with the
register values that they have still to read (R162) and the loop nest are set aside. The four registers written lose their marks (R348). The scalar registers, descriptors, streams and
lanes, memory, the pool, the tokens and every other strand are as before. -/
def Sys2Proof.Claims.trapEntry : Prop :=
  ∀ (s : State) (c n : Nat) (cause info : Word) (fmask : BitVec 17) (epc : VAddr),
    (s.strand c n).ctl.exl = false → (s.strand c n).ctl.tvecEn = true →
    let t := s.strand c n
    let r := s.takeTrap c n cause fmask info epc
    let u := r.strand c n
    caught u cause fmask info epc ∧ u.ctl.ppriv = t.ctl.priv ∧ u.ctl.priv = true ∧ u.ctl.exl = true ∧
    u.pc.toNat = t.ctl.tvecBase.toNat * 4 ∧ u.issueAt = t.time + 4 ∧ u.mode = t.mode ∧
    u.pend = [] ∧ u.blocks = [] ∧ u.nest = none ∧
    u.frames = { at_ := t.time, seq := t.nextSeq, pend := t.pend, blocks := (t.keepOperands (s.core c) n).blocks, nest := t.nest } :: t.frames ∧
    u.x = t.x ∧ u.marks = t.marks ∧ u.desc = t.desc ∧ u.streams = t.streams ∧ u.vstreams = t.vstreams ∧ u.lanes = t.lanes ∧
    u.phase = t.phase ∧ u.stats = t.stats ∧ u.time = t.time ∧ (∀ i, i ∈ u.ctlMarks ↔ i ∈ t.ctlMarks ∧ i ∉ [0x001, 0x002, 0x003, 0x004]) ∧
    r.hbm = s.hbm ∧ r.hostMem = s.hostMem ∧ r.dies = s.dies ∧ (r.core c).pool = (s.core c).pool ∧
    (∀ c' n', c' ≠ c ∨ n' ≠ n → r.strand c' n' = s.strand c' n') ∧ ∀ c', c' ≠ c → r.core c' = s.core c'

/-- R162: what a trap keeps of a block: each register that it has still to read, with its value and mark as the strand leaves it, but
the value kept by an earlier trap where there is one; a block that only occupies its lane group keeps nothing. -/
def Sys2Proof.Claims.keptOperands : Prop :=
  ∀ (t : Strand) (k : Core) (n : Nat) (b : Block), b ∈ t.blocks →
    (b.idle = true → b ∈ (t.keepOperands k n).blocks) ∧
    (b.idle = false → ∃ v ∈ (t.keepOperands k n).blocks, v.op = b.op ∧ v.start = b.start ∧ v.step = b.step ∧
      v.saved.map (·.1) = b.unread (vregCount t.ctl.poolpart) ∧
      ∀ r ∈ b.unread (vregCount t.ctl.poolpart), (∀ e ∈ b.saved, e.1 ≠ r) → t.isBad .vectorReg b.lg r = false →
        (r, (k.vreg b.lg n r).1, (k.vreg b.lg n r).2) ∈ v.saved)

/-- R343: a trap while EXL is set, or without a handler, is a double trap: the same four registers are written, the strand ends with its
results in flight discarded, and the team's fault record holds them. No memory changes. -/
def Sys2Proof.Claims.doubleTrap : Prop :=
  ∀ (s : State) (c n : Nat) (cause info : Word) (fmask : BitVec 17) (epc : VAddr),
    ((s.strand c n).ctl.exl = true ∨ (s.strand c n).ctl.tvecEn = false) →
    let r := s.takeTrap c n cause fmask info epc
    let u := r.strand c n
    caught u cause fmask info epc ∧ u.mode = .inactive ∧ u.pend = [] ∧ u.blocks = [] ∧ u.frames = [] ∧ u.phase = none ∧
    u.x = (s.strand c n).x ∧ r.hbm = s.hbm ∧ r.hostMem = s.hostMem ∧ (r.core c).running ≠ some n ∧
    (r.team (coreDie c) (s.teamAt c)).fault = { cause := cause, fmask := fmask, finfo := info, epc := epc, strand := n, core := c }

/-- R36, R162, R340 to R343: what taking a trap writes, what it sets aside, where it goes, and when it is a double trap. That entries
nest in a stack is the model's reading (log 13). -/
def Obligations.TrapTaken : Prop := causeFields ∧ trapEntry ∧ keptOperands ∧ doubleTrap

/-- R99, R100, R344, R348: ERET at G with an aligned EPC outside a live body: PRIV is PPRIV, EXL is clear, the next bundle is at EPC 4
cycles later; a marked EPC is consumed. What the latches of the innermost level hold resumes at its offsets from that bundle; its nest
goes on at the body bundle that EPC names, as it stood for an address that names none; where EPC is the bundle after the body the
pass is over, and the nest ends or goes on at its first bundle. At U it is PRIVILEGE, in a live body LOOP, with an EPC that is no multiple
of 4 MISALIGNED. -/
def Sys2Proof.Claims.trapReturn : Prop :=
  (∀ s : State, Goes .eret s (s.me.nest = none ∧ s.me.ctl.epc.toNat % 4 = 0) → ∃ u, exec .eret s = .next u ∧
    u.me.ctl.priv = s.me.ctl.ppriv ∧ u.me.ctl.exl = false ∧ u.me.issueAt = s.me.time + 4 ∧ u.hbm = s.hbm ∧ u.dies = s.dies ∧
    u.me.desc = s.me.desc ∧ u.me.lanes = s.me.lanes ∧ u.me.streams = s.me.streams ∧
    let kept := s.me.pend ++ if s.me.ctlMarks.contains 0x002 then
      [{ due := s.me.time + 1, seq := s.me.nextSeq, write := .none, mark := true, load := none, recs := [] }] else []
    (s.me.frames = [] → u.me.pc = s.me.ctl.epc ∧ u.me.nest = none ∧ u.me.pend = kept ∧ u.me.blocks = s.me.blocks ∧ u.me.x = s.me.x) ∧
    (∀ f fs, s.me.frames = f :: fs → u.me.frames = fs ∧
      u.me.pend = kept ++ f.pend.map (fun p => { p with due := p.due - f.at_ + (s.me.time + 4) }) ∧
      u.me.blocks = s.me.blocks ++
        f.blocks.map (fun b => { b with start := b.start + (s.me.time + 4) - f.at_, deaf := (f.seq, s.me.nextSeq + 1) :: b.deaf }) ∧
      (f.nest = none → u.me.pc = s.me.ctl.epc ∧ u.me.nest = none ∧ u.me.x = s.me.x) ∧
      ∀ q, f.nest = some q →
        let at_ := fun (k : Nat) => s.skipBundles s.issue.core k q.first.toNat = s.me.ctl.epc.toNat
        ((∀ k, k ≤ q.body → ¬ at_ k) → u.me.pc = s.me.ctl.epc ∧ u.me.nest = some q ∧ u.me.x = s.me.x) ∧
        (∀ k, k < q.body → at_ k → (∀ j, j < k → ¬ at_ j) →
          u.me.pc = s.me.ctl.epc ∧ u.me.nest = some { q with pos := k } ∧ u.me.x = s.me.x) ∧
        (at_ q.body → (∀ j, j < q.body → ¬ at_ j) → ∃ v w : Strand, v = { s.me with nest := some q } ∧ w = v.takeStep ∧ u.me.x = w.x ∧
          ∀ z, w.nest = some z → if (z.idx.zip z.counts).all (fun p => p.1 + 1 == p.2) = true
            then u.me.pc = s.me.ctl.epc ∧ u.me.nest = none
            else u.me.pc = z.first ∧ u.me.nest = some { z with pos := 0, due := true }))) ∧
  (∀ s : State, s.issue.admitted = false → s.me.ctl.priv = false →
    ∃ v, exec .eret s = .next (({ s with issue := v } : State).takeTrap s.issue.core s.issue.strand
      (causeWord (if s.meConductor = true ∧ 3 ≤ s.issue.slot ∧ s.issue.slot ≤ 13 ∨ s.issue.slot = 0 then 0x02 else 0x04) 0 s.issue.slot 0 0 s.issue.len)
      (BitVec.ofNat 17 (2 ^ s.issue.slot)) 0xD8000000 s.issue.addr)) ∧
  ∀ s : State, s.issue.admitted = false → Clear .eret s →
    (s.me.nest.isSome = true → exec .eret s = .next (s.refuse (.fault 0x0F 0 0 0 0 false))) ∧
    (s.me.nest = none → s.me.ctl.epc.toNat % 4 ≠ 0 →
      exec .eret s = .next (s.refuse (.fault misalignedCode alignReason (zext64 s.me.ctl.epc) 0 0 false)))

/-- Returning k cycles after the trap just taken gives back the program's pc (EPC was not changed), its level, nest, results in flight
and blocks, which no result of the handler reaches: trap entry and ERET are inverse on them, what was due or began relative to the trapped bundle due or beginning as much
relative to the bundle returned to, k + 4 cycles later (R96, R162, R342, R344). -/
def Sys2Proof.Claims.returnUndoesEntry : Prop :=
  ∀ (t : Strand) (core : Core) (n k : Nat), t.ctl.exl = false → (∀ p ∈ t.pend, t.time < p.due) →
    let e := (t.keepOperands core n).enterTrap
    ∀ (u : Strand) (m : Nat), u = { e with time := t.time + k, nextSeq := m, ctl := { e.ctl with epc := t.pc } } →
    u.returnTrap.pc = t.pc ∧ u.returnTrap.ctl.priv = t.ctl.priv ∧ u.returnTrap.ctl.exl = false ∧ u.returnTrap.nest = t.nest ∧
    u.returnTrap.frames = t.frames ∧ u.returnTrap.issueAt = t.time + k + 4 ∧
    u.returnTrap.pend = t.pend.map (fun p => { p with due := p.due + (k + 4) }) ∧
    u.returnTrap.blocks = (t.keepOperands core n).blocks.map (fun b => { b with start := b.start + (k + 4), deaf := (t.nextSeq, m + 1) :: b.deaf })

/-- R96, R99, R100, R162, R342, R344, R348: ERET, and that it gives back what the trap set aside. That entries nest in a stack, and where
a return into a suspended nest goes on, are the model's reading (log 13, log 37), and so is the reason ALIGN of an EPC that is no multiple of 4 (log 29). -/
def Obligations.TrapReturned : Prop := trapReturn ∧ returnUndoesEntry

/-- R35, R101, R344: what a strand may not do. At U an MTC of a register marked G, and at either level an MTC of one that is RO, is
PRIVILEGE, of the conductor as of a task; only the conductor issues LAUNCH; the conductor issues no syllable of slots VB to CY. -/
def Obligations.Privileges : Prop :=
  (∀ (s : State) (a : BitVec 6) (i : BitVec 12), (Instr.mtc a i).wellFormed = true → (s.meConductor = true → s.issue.slot < 3 ∨ 13 < s.issue.slot) → s.issue.slot ≠ 0 →
    (s.decodeVerdict (.mtc a i) = none ↔
      i.toNat ∉ [0x001, 0x003, 0x004, 0x009, 0x00A, 0x041, 0x042, 0x043, 0x044, 0x045, 0x046, 0x047, 0x048, 0x050, 0x060] ∧
      (s.me.ctl.priv = true ∨ i.toNat ∉ [0x000, 0x002, 0x005, 0x006, 0x030, 0x031, 0x032, 0x033, 0x034, 0x035, 0x036, 0x037,
        0x038, 0x039, 0x03A, 0x03B, 0x03C, 0x03D, 0x03E, 0x03F, 0x040]))) ∧
  (∀ (s : State) (a : BitVec 6) (i : BitVec 12), (Instr.mtc a i).wellFormed = true → (s.meConductor = true → s.issue.slot < 3 ∨ 13 < s.issue.slot) → s.issue.slot ≠ 0 →
    s.issue.admitted = false → s.decodeVerdict (.mtc a i) ≠ none →
    ∃ v info, exec (.mtc a i) s = .next (({ s with issue := v } : State).takeTrap s.issue.core s.issue.strand
      (causeWord 0x04 0 s.issue.slot 0 0 s.issue.len) (BitVec.ofNat 17 (2 ^ s.issue.slot)) info s.issue.addr)) ∧
  (∀ (s : State) (d a : BitVec 6), (Instr.launch d a).wellFormed = true → s.meConductor = false → s.issue.slot = 1 →
    s.issue.admitted = false →
    ∃ v, exec (.launch d a) s = .next (({ s with issue := v } : State).takeTrap s.issue.core s.issue.strand
      (causeWord 0x02 0 1 0 0 s.issue.len) 2 ((Instr.launch d a).encode.setWidth 64) s.issue.addr)) ∧
  (∀ (s : State) (i : Instr), i.wellFormed = true → s.meConductor = true → 3 ≤ s.issue.slot → s.issue.slot ≤ 13 →
    (∀ f, s.decodeVerdict i = some f → f = decodeFault 0x01 i ∨ f = decodeFault 0x02 i) ∧ s.decodeVerdict i ≠ none)

/-- R40, R338, R344: while MIRROR_PENDING is set a guarded syllable that passes its decode checks and does not block or wait raises MIRROR_MISMATCH instead of performing,
in its slot, with the word address and the mirror slot recorded in FINFO (R338). Which syllables are guarded is R40's table, and ERET (R344). -/
def Obligations.Guard : Prop :=
  (∀ i : Instr, i.guarded = true ↔ match i with
    | .br _ _ _ _ | .bz _ _ | .bnz _ _ | .jmp _ | .call _ | .eret => True
    | .jr _ g | .jrl _ _ g | .stb _ _ g _ | .sth _ _ g _ | .stw _ _ g _ | .std _ _ g _ => g = true
    | _ => False) ∧
  (∀ (s : State) (i : Instr) (k : Checks), i.guarded = true → s.me.ctl.mirrorPending = true → s.decodeVerdict i = none →
    s.starves [] i = false → k.blocks = none → k.holds = none →
    s.verdictOf i k = some (.fault 0x05 0 (BitVec.ofNat 64 (s.me.ctl.mirrorAddr.toNat + 2 ^ 40 * s.me.ctl.mirrorSlot.toNat)) 0 0 false)) ∧
  ∀ (s : State) (i : Instr), s.me.ctl.mirrorPending = false → s.guardFault i = none

/-- R91: a decode fault comes first, then a block, then a hold, then the faults of execution. -/
def Obligations.CheckOrder : Prop :=
  ∀ (s : State) (i : Instr) (k : Checks),
    (∀ v, s.decodeVerdict i = some v → s.verdictOf i k = some v) ∧
    (s.decodeVerdict i = none → s.starves [] i = true → s.verdictOf i k = some (.block 1 [] none none)) ∧
    (s.decodeVerdict i = none → s.starves [] i = false → ∀ v, k.blocks = some v → s.verdictOf i k = some v) ∧
    (s.decodeVerdict i = none → s.starves [] i = false → k.blocks = none → ∀ v, k.holds = some v → s.verdictOf i k = some v) ∧
    (s.verdictOf i k = none ↔ Clear i s ∧ k.blocks = none ∧ k.holds = none ∧ k.faults = none)

/-- R92, R100, R114, R115, R143, R335, R355: where a scalar syllable waits or traps by its operands: an unaligned access raises MISALIGNED before any translation; TKWAIT
blocks on a pending token and raises TOKEN on an idle one; CMPT traps with the relation false; QWAIT blocks on an open join; a taken transfer in a live loop body
raises LOOP, whichever of BR, BZ, BNZ, JMP, CALL, JR and JRL it is; a JR or JRL whose target is no multiple of 4 raises MISALIGNED outside such
a body. The reason ALIGN of that trap is the model's reading (log 29), and in a body LOOP comes first by the model's choice (log 112). -/
def Obligations.WaitsAndFaults : Prop :=
  ∀ (s : State), s.issue.admitted = false →
  let traps := fun (i : Instr) (code reason : Nat) (info : Word) => ∃ v,
    exec i s = .next (({ s with issue := v } : State).takeTrap s.issue.core s.issue.strand
      (causeWord code reason s.issue.slot 0 0 s.issue.len) (BitVec.ofNat 17 (2 ^ s.issue.slot)) info s.issue.addr)
  let blocks := fun (i : Instr) (reason : Nat) => ∃ v,
    exec i s = .next (({ s with issue := v } : State).block s.issue.core s.issue.strand reason [] none)
  (∀ (i : Instr) (x a : BitVec 6) (d : BitVec 10) (n : Nat) (sg : Bool), loadOf i = some (x, a, d, n, sg) → Clear i s →
    (addressOf (s.srcPeek a) d n).toNat % n ≠ 0 → traps i 0x0B 7 (addressOf (s.srcPeek a) d n)) ∧
  (∀ (i : Instr) (x a : BitVec 6) (d : BitVec 10) (n : Nat), storeOf i = some (x, a, d, n) → Clear i s →
    (addressOf (s.srcPeek2 x a) d n).toNat % n ≠ 0 → traps i 0x0B 7 (addressOf (s.srcPeek2 x a) d n)) ∧
  (∀ (d : BitVec 6) (t : BitVec 8), Clear (.tkwait d t) s →
    ((s.myTeam.token t.toNat).st = .idle → traps (.tkwait d t) 0x0E 0 (t.setWidth 64)) ∧
    ((s.myTeam.token t.toNat).st = .pending → s.peerLost t.toNat = false → s.inRetry t.toNat = false → blocks (.tkwait d t) 2)) ∧
  (∀ (a b : BitVec 6) (c : BitVec 3), Clear (.cmpt a b c) s → condHolds c (s.srcPeek a) (s.srcPeek2 a b) = false →
    traps (.cmpt a b c) 0x06 c.toNat (s.srcPeek a)) ∧
  (∀ (d : BitVec 6) (q : BitVec 4), Clear (.qwait d q) s → (s.myTeam.joinAt q.toNat).st = .open_ → blocks (.qwait d q) 5) ∧
  (∀ (d a : BitVec 6) (g : Bool), s.me.nest = none → (s.srcPeek a).toNat % 4 ≠ 0 →
    (Clear (.jr a g) s → traps (.jr a g) 0x0B 7 (s.srcPeek a)) ∧ (Clear (.jrl d a g) s → traps (.jrl d a g) 0x0B 7 (s.srcPeek a))) ∧
  (s.me.nest ≠ none →
    let loops := fun (i : Instr) => Clear i s → traps i 0x0F 0 0
    (∀ (c : BitVec 3) (a b : BitVec 6) (e : BitVec 11), condHolds c (s.srcPeek a) (s.srcPeek2 a b) = true → loops (.br c a b e)) ∧
    (∀ (a : BitVec 6) (e : BitVec 19), (s.srcPeek a = 0 → loops (.bz a e)) ∧ (s.srcPeek a ≠ 0 → loops (.bnz a e))) ∧
    (∀ e : BitVec 26, loops (.jmp e) ∧ loops (.call e)) ∧
    ∀ (d a : BitVec 6) (g : Bool), loops (.jr a g) ∧ loops (.jrl d a g))

/-! ## Operands, results, memory -/

/-- R38, R88, R89: what a scalar source reads. x0 reads 0; another register its value; a stream register its head, which it pops;
the second field of the same stream its second element. A write of x0 is discarded. -/
def Obligations.Sources : Prop :=
  (∀ s : State, (s.src 0).1.1 = 0 ∧ (s.src 0).2 = s) ∧
  (∀ (s : State) (r : BitVec 6), r.toNat < 56 → (s.src r).1.1 = s.me.reg r ∧ (s.src r).2 = s) ∧
  (∀ (s : State) (r : BitVec 6) (e : Elem) (es : List Elem), 56 ≤ r.toNat → s.me.stream (r.toNat - 56) = e :: es →
    (s.src r).1 = (e.val, e.mark) ∧ (s.src r).2.me.stream (r.toNat - 56) = es ∧
    (∀ k, k ≠ r.toNat - 56 → (s.src r).2.me.stream k = s.me.stream k) ∧ (s.src r).2.me.x = s.me.x ∧ (s.src r).2.me.pend = s.me.pend) ∧
  (∀ (s : State) (r : BitVec 6) (e f : Elem) (es : List Elem), 56 ≤ r.toNat → s.me.stream (r.toNat - 56) = e :: f :: es →
    (s.src2 r r).1.1 = e.val ∧ (s.src2 r r).1.2.1 = f.val ∧ (s.src2 r r).2.me.stream (r.toNat - 56) = es) ∧
  (∀ (s : State) (a b : BitVec 6), s.srcPeek a = (s.src a).1.1 ∧ s.srcPeek2 a b = (s.src2 a b).1.2.1) ∧
  ∀ (t : Strand) (r q : BitVec 6) (v : Word) (m : Bool), (t.setReg r v m).reg q =
    if q = r ∧ r ≠ 0 ∧ r.toNat < 56 then v else t.reg q

/-- R37, R94: at a strand time every result that is due is written, in issue order, and no other: a scalar register has the value of the last of the
results due for it, else its old one; what is not due stays in flight; a result is put in flight for its latency. Of two results due in one
cycle for one register only the later is written, also where a mask or a predicate keeps it from some of the elements. -/
def Sys2Proof.Claims.resultDelivery : Prop :=
  (∀ (s : State) (c n : Nat), ((s.writeDue c n).strand c n).pend = (s.strand c n).pend.filter fun p => decide ((s.strand c n).time < p.due)) ∧
  (∀ l : List Pending, (sortBy Pending.seq l).Perm l ∧ (sortBy Pending.seq l).Pairwise fun p q => p.seq ≤ q.seq) ∧
  (∀ (s : State) (c n : Nat) (r : BitVec 6), r ≠ 0 → r.toNat < 56 →
    let due := sortBy Pending.seq ((s.strand c n).pend.filter fun p => p.due ≤ (s.strand c n).time)
    ((s.writeDue c n).strand c n).reg r = due.foldl (fun v p => match p.write with
      | .x q w => if q = r then w else v
      | _ => v) ((s.strand c n).reg r)) ∧
  (∀ (s : State) (c n : Nat),
    let t := s.strand c n
    let met := t.pend.filter fun p => p.due ≤ t.time
    let rest := s.modStrand c n fun t => { t with pend := t.pend.filter fun p => t.time < p.due }
    s.writeDue c n = (sortBy Pending.seq (met.map fun p => p.outdone met)).foldl (fun u p => u.deliver c n p) rest) ∧
  (∀ (p : Pending) (due : List Pending),
    ((∃ q ∈ due, q.due = p.due ∧ p.seq < q.seq ∧ p.write.target ≠ none ∧ q.write.target = p.write.target) → p.outdone due = { p with write := .none }) ∧
    ((∀ q ∈ due, q.due = p.due → p.seq < q.seq → p.write.target = none ∨ q.write.target ≠ p.write.target) → p.outdone due = p)) ∧
  (∀ (lg reg lg' reg' : Nat) (v v' : Line) (m m' : BitVec 64),
    (Write.vec lg reg v m).target = (Write.vec lg' reg' v' m').target ↔ lg = lg' ∧ reg = reg') ∧
  (∀ (s : State) (l : Nat) (w : Write) (m : Bool), ∃ p, (s.result l w m).me.pend = s.me.pend ++ [p] ∧ p.due = s.me.time + l ∧ p.write = w ∧
    p.seq = s.me.nextSeq)

/-- What a result that is delivered leaves unchanged: one for a scalar register changes no memory, no pool, no control register but the
consumption of poison, no lane and no other strand; one for a vector register the pool bytes of that register alone; one for a control register of the
strand no scalar register and no memory. -/
def Sys2Proof.Claims.deliveryFrame : Prop :=
  ∀ (s : State) (c n : Nat) (p : Pending), p.recs = [] → p.mark = false →
    let u := s.deliver c n p
    (∀ c' n', c' ≠ c ∨ n' ≠ n → u.strand c' n' = s.strand c' n') ∧
    (∀ r v, p.write = .x r v → u.hbm = s.hbm ∧ u.dies = s.dies ∧ (u.core c).pool = (s.core c).pool ∧ (u.strand c n).ctl = (s.strand c n).ctl ∧
      (u.strand c n).lanes = (s.strand c n).lanes ∧ ∀ q, q ≠ r → (u.strand c n).reg q = (s.strand c n).reg q) ∧
    (∀ lg reg v mask, p.write = .vec lg reg v mask → u.hbm = s.hbm ∧ (u.strand c n).x = (s.strand c n).x ∧
      (u.strand c n).ctl = (s.strand c n).ctl ∧ (u.core c).tris = (s.core c).tris ∧
      ∀ a, (a < vregAddr (s.core c).part lg n reg ∨ vregAddr (s.core c).part lg n reg + 64 ≤ a) →
        readByte (u.core c).pool a = readByte (s.core c).pool a) ∧
    (∀ i v, p.write = .ctrl i v → i ≠ 0x040 → u.hbm = s.hbm ∧ u.dies = s.dies ∧ (u.core c).pool = (s.core c).pool ∧
      (u.strand c n).x = (s.strand c n).x ∧ (u.strand c n).lanes = (s.strand c n).lanes)

/-- R37, R94: which results are written when, and what else their writing leaves as it was. -/
def Obligations.Delivery : Prop := resultDelivery ∧ deliveryFrame

/-- R5: memory holds bytes. What is written is read back, least significant byte first, everything else reads as before, and the
canonical form stays. -/
def Sys2Proof.Claims.bytesReadBack : Prop :=
  ∀ (m : List Host.Cell) (a : Nat) (bs : List Byte),
    (∀ x, readByte (writeBytes m a bs) x = if a ≤ x ∧ x < a + bs.length then nth 0 bs (x - a) else readByte m x) ∧
    readBytes (writeBytes m a bs) a bs.length = bs ∧
    (∀ b n, b + n ≤ a ∨ a + bs.length ≤ b → readBytes (writeBytes m a bs) b n = readBytes m b n) ∧
    (Memory.wf m = true → Memory.wf (writeBytes m a bs) = true) ∧
    (∀ n v : Nat, ofBytes (bytesOf n v) = v % 256 ^ n ∧ (bytesOf n v).length = n) ∧
    (∀ x y : List Host.Cell, Memory.wf x = true → Memory.wf y = true → (∀ k, readByte x k = readByte y k) → x = y)

/-- R348: a masked write of a pool line changes its masked bytes alone. -/
def Sys2Proof.Claims.lineWrites : Prop :=
  ∀ (k : Core) (a : Nat) (v : Line) (mask : BitVec 64) (mark : Bool) (x : Nat),
    readByte (k.setLine a v mask mark).pool x =
      if a ≤ x ∧ x < a + 64 ∧ mask.getLsbD (x - a) = true then v.extractLsb' (8 * (x - a)) 8 else readByte k.pool x

/-- Memory and pool lines read back what was written and nothing else changes. What an unwritten byte reads as is the model's
choice (log 2). -/
def Obligations.MemoryReadsBack : Prop := bytesReadBack ∧ lineWrites

/-- R123, R124: the places of the pool: scratchpad, operand slots, accumulator tiles and vector registers follow one another and do
not overlap, and an offset is reduced modulo P and lies inside the scratchpad or in the hole. -/
def Sys2Proof.Claims.poolLayout : Prop :=
  ∀ w : Word32, partLegal w = true →
    scratchSize w + opndSize w + 16384 * partAcc w + vrfSize w = 4194304 ∧
    (∀ o, o < slotCount w → slotAddr w o + 4096 ≤ scratchSize w + opndSize w) ∧
    (∀ t, t < partAcc w → scratchSize w + opndSize w ≤ tileAddr w t ∧ tileAddr w t + 16384 ≤ 4194304 - vrfSize w) ∧
    (∀ lg n r, lg < 8 → n < partStrands w → r < vregCount w → 4194304 - vrfSize w ≤ vregAddr w lg n r ∧ vregAddr w lg n r + 64 ≤ 4194304) ∧
    (∀ lg n r lg' n' r', lg < 8 → lg' < 8 → n < partStrands w → n' < partStrands w → r < vregCount w → r' < vregCount w →
      vregAddr w lg n r = vregAddr w lg' n' r' → lg = lg' ∧ n = n' ∧ r = r') ∧
    ∀ o, (scratchMod w = 2097152 ∨ scratchMod w = 4194304) ∧ scratchSize w ≤ scratchMod w ∧
      (scratchAt w o = if o % scratchMod w < scratchSize w then some (o % scratchMod w) else none)

/-- R126: the identity line holds the die's endpoint in its first eight bytes and zero beyond; a write to it is a fault, and so is an access beyond it in
the local region. -/
def Sys2Proof.Claims.identityLine : Prop :=
  (∀ d, d < 8 → (identLine d).length = 64 ∧ ofBytes ((identLine d).take 8) = d ∧ ∀ b ∈ (identLine d).drop 8, b = 0) ∧
  (∀ (s : State) (c : Nat) (ea : Word), 0x3F002400000 ≤ ea.toNat % 2 ^ 42 → ea.toNat % 2 ^ 42 < 0x3F002400040 →
    s.resolve c ea .read = .ok (.ident (ea.toNat % 2 ^ 42 - 0x3F002400000)) none ∧ s.resolve c ea .write = .fault 0x08 3) ∧
  ∀ (s : State) (c : Nat) (ea : Word) (acc : Acc), 0x3F002400040 ≤ ea.toNat % 2 ^ 42 → s.resolve c ea acc = .fault 0x08 3

/-- R123, R124, R126: the pool and the identity line. The package is number 0, so endpoint d is die d: the model's choice (log
20). -/
def Obligations.LocalRegion : Prop := poolLayout ∧ identityLine

/-! ## Frames -/

/-- A result-only instruction, once admitted, changes nothing but the streams that it pops, its unit's time and one result in flight for its own
destination: memory, registers, control registers, lanes, files, the strand's place, tokens and every other strand stay. -/
def Sys2Proof.Claims.registerFrame : Prop :=
  ∀ (s t : State) (i : Instr), s.issue.admitted = true → registerOnly i = true → exec i s = .next t →
    SameMemory s t ∧ SameRegisters s t ∧ SameControl s t ∧ SameLanes s t ∧ SameFiles s t ∧ SamePlace s t ∧ SameOthers s t ∧
    AddsOnly i.dests s t ∧ t.dies = s.dies ∧ t.cmds = s.cmds

/-- A branch, jump or call changes the pc and the issue time of its strand, and CALL and JRL add one result for their link register; memory,
registers, control registers, lanes, files and other strands stay. -/
def Sys2Proof.Claims.transferFrame : Prop :=
  ∀ (s t : State) (i : Instr), s.issue.admitted = true → isTransfer i = true → exec i s = .next t →
    SameMemory s t ∧ SameRegisters s t ∧ SameControl s t ∧ SameLanes s t ∧ SameFiles s t ∧ SameOthers s t ∧ AddsOnly i.dests s t ∧
    t.dies = s.dies ∧ t.cmds = s.cmds ∧ t.me.nest = s.me.nest ∧
    ∀ c n, (c ≠ s.issue.core ∨ n ≠ s.issue.strand) → t.strand c n = s.strand c n

/-- What result-only instructions and transfers leave unchanged. -/
def Obligations.ResultFrame : Prop := registerFrame ∧ transferFrame

/-- A load stores nothing: every byte of memory, every register, control register, lane, file and place stays as it is when a load issues; its
results are in flight for its own destinations. -/
def Sys2Proof.Claims.loadFrame : Prop :=
  ∀ (s t : State) (i : Instr), s.issue.admitted = true → isLoad i = true → exec i s = .next t →
    SameMemory s t ∧ SameRegisters s t ∧ SameControl s t ∧ SameLanes s t ∧ SameFiles s t ∧ SamePlace s t ∧ SameOthers s t ∧
    t.cmds = s.cmds ∧ ∀ p ∈ t.me.pend, p ∈ s.me.pend ∨ p.write = .none ∨ (∃ lg r v m, p.write = .vec lg r v m) ∨
      ∃ r v, p.write = .x r v ∧ (r ∈ i.dests ∨ r = 0)

/-- A store issues without changing any byte of memory: what it stores is on its way, and lands by the events that follow. -/
def Sys2Proof.Claims.storeFrame : Prop :=
  ∀ (s t : State) (i : Instr), s.issue.admitted = true → isStore i = true → exec i s = .next t →
    SameMemory s t ∧ SameRegisters s t ∧ SameControl s t ∧ SameLanes s t ∧ SameFiles s t ∧ SamePlace s t ∧ SameOthers s t ∧
    t.cmds = s.cmds ∧ ∀ p ∈ t.me.pend, p ∈ s.me.pend ∨ p.write = .none

/-- What loads and stores leave unchanged as they issue. -/
def Obligations.AccessFrame : Prop := loadFrame ∧ storeFrame

/-- Where a store lands, STB to STD. The address is that of the operands after the source is read; of all memory only the form's bytes from
there change when the store is performed (R143, R144, R265). -/
def Obligations.StoreLands : Prop :=
  ∀ (s u v : State) (i : Instr) (x a : BitVec 6) (disp : BitVec 10) (size pa : Nat) (pg : Option Nat) (w : Store),
    storeOf i = some (x, a, disp, size) → s.issue.admitted = true →
    (s.src2 x a).2.resolve s.issue.core (addressOf (s.src2 x a).1.2.1 disp size) .write = .ok (.hbm pa) pg →
    exec i s = .next u → u.myCore.stores = s.myCore.stores ++ [w] → (∀ k ∈ s.myCore.stores, k.id ≠ s.nextId) →
    w.holders = [] → exec (.storePerformed s.issue.core s.nextId) u = .next v →
    (u.mayStore s.issue.core w = true → u.isReplicated (.hbm pa) = false →
      readBytes v.hbm pa size = bytesOf size (s.src2 x a).1.1.toNat) ∧
    ∀ b, (b < pa ∨ pa + size ≤ b) → readByte v.hbm b = readByte s.hbm b

/-- A vector, matrix or Eddy syllable, and one of their operands, windows, shapes and modes, changes no byte of memory, no scalar register, no control
register, no lane and no file as it issues: its results come later, by their own times. -/
def Sys2Proof.Claims.arrayFrame : Prop :=
  ∀ (s t : State) (i : Instr), s.issue.admitted = true → isArray i = true → exec i s = .next t →
    SameMemory s t ∧ SameRegisters s t ∧ SameControl s t ∧ SameLanes s t ∧ SameFiles s t ∧ SamePlace s t ∧ SameOthers s t ∧
    t.cmds = s.cmds ∧ t.dies = s.dies

/-- A queued command changes no memory, register, lane, file or place as it issues, and nothing of another team; a control register only where a condemned
strand's command, cancelled at once, consumes poison (R326, R348). -/
def Sys2Proof.Claims.commandFrame : Prop :=
  ∀ (s t : State) (i : Instr), s.issue.admitted = true → isQueued i = true → exec i s = .next t →
    SameMemory s t ∧ SameRegisters s t ∧ SameLanes s t ∧ SameFiles s t ∧ SamePlace s t ∧
    (s.me.condemned = none → SameControl s t) ∧
    (∀ c n, (t.strand c n).ctl = (s.strand c n).ctl ∨ (t.strand c n).ctl = (s.strand c n).consume.ctl) ∧
    (∀ c n, (t.strand c n).pend = (s.strand c n).pend) ∧
    ∀ d u, (d ≠ s.myDie ∨ u ≠ s.myTeamIndex) → t.team d u = s.team d u

/-- R94, R160, R191, R205, R225, R241, R242, R326, R348: what array syllables and queued commands leave unchanged as they issue: they act later. -/
def Obligations.QueueFrame : Prop := arrayFrame ∧ commandFrame

/-! ## The scheduler -/

/-- R371, R373: eligibility, the key and the pick: the pick is one of the candidates, and none of them has a larger key, nor, with the
same key, a larger deficit, nor, with the same deficit too, a lower index. -/
def Sys2Proof.Claims.teamSelection : Prop :=
  (∀ (s : State) (d t : Nat), s.eligible d t = true ↔
    s.runnable d t = true ∧ ((s.team d t).cap = 0 ∨ (s.team d t).used < (s.team d t).cap) ∧
      (0 < (s.team d t).deficit ∨ (0 < (s.team d t).gust ∧ (s.team d t).borrow < (s.die d).bcap))) ∧
  (∀ t : Team, t.key = 32 * (t.cls.toNat : Int) + t.gust - t.lull) ∧
  (∀ (s : State) (d : Nat) (l : List Nat), s.pick d l = none ↔ l = []) ∧
  ∀ (s : State) (d : Nat) (l : List Nat) (t : Nat), s.pick d l = some t → t ∈ l ∧ ∀ u ∈ l, u ≠ t →
    let x := s.team d t
    let y := s.team d u
    y.key ≤ x.key ∧ (y.key = x.key → y.deficit ≤ x.deficit ∧ (y.deficit = x.deficit → t < u))

/-- R371: an arrival raises the gust of its team by one, up to 15. -/
def Sys2Proof.Claims.gustOfArrivals : Prop :=
  ∀ (s : State) (d t : Nat), ((s.raiseGust d t).team d t).gust = min 15 ((s.team d t).gust + 1) ∧
    ((s.raiseGust d t).team d t).arrived = true ∧
    ∀ u, u ≠ t → (s.raiseGust d t).team d u = s.team d u

/-- R93: a core turns to the READY strand that comes first after the one that last ran, and only while none is running. -/
def Sys2Proof.Claims.strandChoice : Prop :=
  ∀ (k : Core) (n : Nat), k.nextStrand = some n ↔ n < 4 ∧ (k.strand n).mode = .ready ∧ (k.strand n).parked = false ∧
    ∀ m, m < 4 → (k.strand m).mode = .ready → (k.strand m).parked = false → (n + 7 - k.last % 4) % 4 ≤ (m + 7 - k.last % 4) % 4

/-- R93, R371, R373: which team and which strand is chosen, and the gust. -/
def Obligations.Selection : Prop := teamSelection ∧ gustOfArrivals ∧ strandChoice
end

