-- ==== Sys2Proof/Laws/Exec.lean ====
section
/-!
SUPPORT. One equation per arm of exec: which meaning it calls.
-/

set_option Elab.async false
namespace Sys2Proof.Machine

theorem exec_nop (v1 v2) (s : State) : exec (.nop v1 v2) s = execNop v1 v2 s := rfl
theorem exec_add (v1 v2 v3) (s : State) : exec (.add v1 v2 v3) s = execAdd v1 v2 v3 s := rfl
theorem exec_sub (v1 v2 v3) (s : State) : exec (.sub v1 v2 v3) s = execSub v1 v2 v3 s := rfl
theorem exec_mul (v1 v2 v3) (s : State) : exec (.mul v1 v2 v3) s = execMul v1 v2 v3 s := rfl
theorem exec_mulh (v1 v2 v3 v4) (s : State) : exec (.mulh v1 v2 v3 v4) s = execMulh v1 v2 v3 v4 s := rfl
theorem exec_div (v1 v2 v3 v4) (s : State) : exec (.div v1 v2 v3 v4) s = execDiv v1 v2 v3 v4 s := rfl
theorem exec_rem (v1 v2 v3 v4) (s : State) : exec (.rem v1 v2 v3 v4) s = execRem v1 v2 v3 v4 s := rfl
theorem exec_and (v1 v2 v3) (s : State) : exec (.and v1 v2 v3) s = execAnd v1 v2 v3 s := rfl
theorem exec_or (v1 v2 v3) (s : State) : exec (.or v1 v2 v3) s = execOr v1 v2 v3 s := rfl
theorem exec_xor (v1 v2 v3) (s : State) : exec (.xor v1 v2 v3) s = execXor v1 v2 v3 s := rfl
theorem exec_shl (v1 v2 v3) (s : State) : exec (.shl v1 v2 v3) s = execShl v1 v2 v3 s := rfl
theorem exec_shr (v1 v2 v3) (s : State) : exec (.shr v1 v2 v3) s = execShr v1 v2 v3 s := rfl
theorem exec_sar (v1 v2 v3) (s : State) : exec (.sar v1 v2 v3) s = execSar v1 v2 v3 s := rfl
theorem exec_slt (v1 v2 v3 v4) (s : State) : exec (.slt v1 v2 v3 v4) s = execSlt v1 v2 v3 v4 s := rfl
theorem exec_seq (v1 v2 v3) (s : State) : exec (.seq v1 v2 v3) s = execSeq v1 v2 v3 s := rfl
theorem exec_min (v1 v2 v3 v4) (s : State) : exec (.min v1 v2 v3 v4) s = execMin v1 v2 v3 v4 s := rfl
theorem exec_max (v1 v2 v3 v4) (s : State) : exec (.max v1 v2 v3 v4) s = execMax v1 v2 v3 v4 s := rfl
theorem exec_sel (v1 v2 v3) (s : State) : exec (.sel v1 v2 v3) s = execSel v1 v2 v3 s := rfl
theorem exec_clz (v1 v2) (s : State) : exec (.clz v1 v2) s = execClz v1 v2 s := rfl
theorem exec_ctz (v1 v2) (s : State) : exec (.ctz v1 v2) s = execCtz v1 v2 s := rfl
theorem exec_popc (v1 v2) (s : State) : exec (.popc v1 v2) s = execPopc v1 v2 s := rfl
theorem exec_brev (v1 v2) (s : State) : exec (.brev v1 v2) s = execBrev v1 v2 s := rfl
theorem exec_peek (v1 v2) (s : State) : exec (.peek v1 v2) s = execPeek v1 v2 s := rfl
theorem exec_bfx (v1 v2 v3 v4) (s : State) : exec (.bfx v1 v2 v3 v4) s = execBfx v1 v2 v3 v4 s := rfl
theorem exec_bfi (v1 v2 v3 v4) (s : State) : exec (.bfi v1 v2 v3 v4) s = execBfi v1 v2 v3 v4 s := rfl
theorem exec_agen (v1 v2 v3 v4) (s : State) : exec (.agen v1 v2 v3 v4) s = execAgen v1 v2 v3 v4 s := rfl
theorem exec_addi (v1 v2 v3) (s : State) : exec (.addi v1 v2 v3) s = execAddi v1 v2 v3 s := rfl
theorem exec_andi (v1 v2 v3) (s : State) : exec (.andi v1 v2 v3) s = execAndi v1 v2 v3 s := rfl
theorem exec_ori (v1 v2 v3) (s : State) : exec (.ori v1 v2 v3) s = execOri v1 v2 v3 s := rfl
theorem exec_xori (v1 v2 v3) (s : State) : exec (.xori v1 v2 v3) s = execXori v1 v2 v3 s := rfl
theorem exec_shli (v1 v2 v3) (s : State) : exec (.shli v1 v2 v3) s = execShli v1 v2 v3 s := rfl
theorem exec_shri (v1 v2 v3) (s : State) : exec (.shri v1 v2 v3) s = execShri v1 v2 v3 s := rfl
theorem exec_sari (v1 v2 v3) (s : State) : exec (.sari v1 v2 v3) s = execSari v1 v2 v3 s := rfl
theorem exec_slti (v1 v2 v3) (s : State) : exec (.slti v1 v2 v3) s = execSlti v1 v2 v3 s := rfl
theorem exec_movi (v1 v2) (s : State) : exec (.movi v1 v2) s = execMovi v1 v2 s := rfl
theorem exec_movhi (v1 v2) (s : State) : exec (.movhi v1 v2) s = execMovhi v1 v2 s := rfl
theorem exec_movhh (v1 v2) (s : State) : exec (.movhh v1 v2) s = execMovhh v1 v2 s := rfl
theorem exec_fadd (v1 v2 v3 v4 v5) (s : State) : exec (.fadd v1 v2 v3 v4 v5) s = execFadd v1 v2 v3 v4 v5 s := rfl
theorem exec_fsub (v1 v2 v3 v4 v5) (s : State) : exec (.fsub v1 v2 v3 v4 v5) s = execFsub v1 v2 v3 v4 v5 s := rfl
theorem exec_fmul (v1 v2 v3 v4 v5) (s : State) : exec (.fmul v1 v2 v3 v4 v5) s = execFmul v1 v2 v3 v4 v5 s := rfl
theorem exec_fdiv (v1 v2 v3 v4 v5) (s : State) : exec (.fdiv v1 v2 v3 v4 v5) s = execFdiv v1 v2 v3 v4 v5 s := rfl
theorem exec_fmin (v1 v2 v3 v4 v5) (s : State) : exec (.fmin v1 v2 v3 v4 v5) s = execFmin v1 v2 v3 v4 v5 s := rfl
theorem exec_fmax (v1 v2 v3 v4 v5) (s : State) : exec (.fmax v1 v2 v3 v4 v5) s = execFmax v1 v2 v3 v4 v5 s := rfl
theorem exec_fsqrt (v1 v2 v3 v4) (s : State) : exec (.fsqrt v1 v2 v3 v4) s = execFsqrt v1 v2 v3 v4 s := rfl
theorem exec_ffma (v1 v2 v3 v4 v5) (s : State) : exec (.ffma v1 v2 v3 v4 v5) s = execFfma v1 v2 v3 v4 v5 s := rfl
theorem exec_fcvt (v1 v2 v3 v4 v5) (s : State) : exec (.fcvt v1 v2 v3 v4 v5) s = execFcvt v1 v2 v3 v4 v5 s := rfl
theorem exec_fcmp (v1 v2 v3 v4 v5) (s : State) : exec (.fcmp v1 v2 v3 v4 v5) s = execFcmp v1 v2 v3 v4 v5 s := rfl
theorem exec_br (v1 v2 v3 v4) (s : State) : exec (.br v1 v2 v3 v4) s = execBr v1 v2 v3 v4 s := rfl
theorem exec_bz (v1 v2) (s : State) : exec (.bz v1 v2) s = execBz v1 v2 s := rfl
theorem exec_bnz (v1 v2) (s : State) : exec (.bnz v1 v2) s = execBnz v1 v2 s := rfl
theorem exec_jmp (v1) (s : State) : exec (.jmp v1) s = execJmp v1 s := rfl
theorem exec_call (v1) (s : State) : exec (.call v1) s = execCall v1 s := rfl
theorem exec_jr (v1 v2) (s : State) : exec (.jr v1 v2) s = execJr v1 v2 s := rfl
theorem exec_jrl (v1 v2 v3) (s : State) : exec (.jrl v1 v2 v3) s = execJrl v1 v2 v3 s := rfl
theorem exec_loop (v1 v2) (s : State) : exec (.loop v1 v2) s = execLoop v1 v2 s := rfl
theorem exec_yield (s : State) : exec (.yield) s = execYield s := rfl
theorem exec_endk (s : State) : exec (.endk) s = execEndk s := rfl
theorem exec_trap (v1) (s : State) : exec (.trap v1) s = execTrap v1 s := rfl
theorem exec_cmpt (v1 v2 v3) (s : State) : exec (.cmpt v1 v2 v3) s = execCmpt v1 v2 v3 s := rfl
theorem exec_chkerr (v1 v2 v3) (s : State) : exec (.chkerr v1 v2 v3) s = execChkerr v1 v2 v3 s := rfl
theorem exec_spinw (v1 v2 v3) (s : State) : exec (.spinw v1 v2 v3) s = execSpinw v1 v2 v3 s := rfl
theorem exec_spinwReread (v1 v2) (s : State) : exec (.spinwReread v1 v2) s = execSpinwReread v1 v2 s := rfl
theorem exec_mfc (v1 v2) (s : State) : exec (.mfc v1 v2) s = execMfc v1 v2 s := rfl
theorem exec_mtc (v1 v2) (s : State) : exec (.mtc v1 v2) s = execMtc v1 v2 s := rfl
theorem exec_eret (s : State) : exec (.eret) s = execEret s := rfl
theorem exec_launch (v1 v2) (s : State) : exec (.launch v1 v2) s = execLaunch v1 v2 s := rfl
theorem exec_nodeStrandStart (v1) (s : State) : exec (.nodeStrandStart v1) s = execNodeStrandStart v1 s := rfl
theorem exec_tkwait (v1 v2) (s : State) : exec (.tkwait v1 v2) s = execTkwait v1 v2 s := rfl
theorem exec_tktest (v1 v2) (s : State) : exec (.tktest v1 v2) s = execTktest v1 v2 s := rfl
theorem exec_phaseBegin (v1 v2) (s : State) : exec (.phaseBegin v1 v2) s = execPhaseBegin v1 v2 s := rfl
theorem exec_phaseCommit (s : State) : exec (.phaseCommit) s = execPhaseCommit s := rfl
theorem exec_qwait (v1 v2) (s : State) : exec (.qwait v1 v2) s = execQwait v1 v2 s := rfl
theorem exec_ldb (v1 v2 v3) (s : State) : exec (.ldb v1 v2 v3) s = execLdb v1 v2 v3 s := rfl
theorem exec_ldbu (v1 v2 v3) (s : State) : exec (.ldbu v1 v2 v3) s = execLdbu v1 v2 v3 s := rfl
theorem exec_ldh (v1 v2 v3) (s : State) : exec (.ldh v1 v2 v3) s = execLdh v1 v2 v3 s := rfl
theorem exec_ldhu (v1 v2 v3) (s : State) : exec (.ldhu v1 v2 v3) s = execLdhu v1 v2 v3 s := rfl
theorem exec_ldw (v1 v2 v3) (s : State) : exec (.ldw v1 v2 v3) s = execLdw v1 v2 v3 s := rfl
theorem exec_ldwu (v1 v2 v3) (s : State) : exec (.ldwu v1 v2 v3) s = execLdwu v1 v2 v3 s := rfl
theorem exec_ldd (v1 v2 v3) (s : State) : exec (.ldd v1 v2 v3) s = execLdd v1 v2 v3 s := rfl
theorem exec_stb (v1 v2 v3 v4) (s : State) : exec (.stb v1 v2 v3 v4) s = execStb v1 v2 v3 v4 s := rfl
theorem exec_sth (v1 v2 v3 v4) (s : State) : exec (.sth v1 v2 v3 v4) s = execSth v1 v2 v3 v4 s := rfl
theorem exec_stw (v1 v2 v3 v4) (s : State) : exec (.stw v1 v2 v3 v4) s = execStw v1 v2 v3 v4 s := rfl
theorem exec_std (v1 v2 v3 v4) (s : State) : exec (.std v1 v2 v3 v4) s = execStd v1 v2 v3 v4 s := rfl
theorem exec_vld (v1 v2 v3 v4) (s : State) : exec (.vld v1 v2 v3 v4) s = execVld v1 v2 v3 v4 s := rfl
theorem exec_vst (v1 v2 v3 v4) (s : State) : exec (.vst v1 v2 v3 v4) s = execVst v1 v2 v3 v4 s := rfl
theorem exec_vlds (v1 v2 v3 v4) (s : State) : exec (.vlds v1 v2 v3 v4) s = execVlds v1 v2 v3 v4 s := rfl
theorem exec_vsts (v1 v2 v3 v4) (s : State) : exec (.vsts v1 v2 v3 v4) s = execVsts v1 v2 v3 v4 s := rfl
theorem exec_vgather (v1 v2 v3 v4 v5) (s : State) : exec (.vgather v1 v2 v3 v4 v5) s = execVgather v1 v2 v3 v4 v5 s := rfl
theorem exec_vgatherAll (v1 v2 v3 v4) (s : State) : exec (.vgatherAll v1 v2 v3 v4) s = execVgatherAll v1 v2 v3 v4 s := rfl
theorem exec_vscatter (v1 v2 v3 v4 v5) (s : State) : exec (.vscatter v1 v2 v3 v4 v5) s = execVscatter v1 v2 v3 v4 v5 s := rfl
theorem exec_vscatterAll (v1 v2 v3 v4) (s : State) : exec (.vscatterAll v1 v2 v3 v4) s = execVscatterAll v1 v2 v3 v4 s := rfl
theorem exec_vpop (v1 v2 v3) (s : State) : exec (.vpop v1 v2 v3) s = execVpop v1 v2 v3 s := rfl
theorem exec_drain (s : State) : exec (.drain) s = execDrain s := rfl
theorem exec_fence (v1) (s : State) : exec (.fence v1) s = execFence v1 s := rfl
theorem exec_vadd (v1 v2 v3 v4 v5) (s : State) : exec (.vadd v1 v2 v3 v4 v5) s = execVadd v1 v2 v3 v4 v5 s := rfl
theorem exec_vsub (v1 v2 v3 v4 v5) (s : State) : exec (.vsub v1 v2 v3 v4 v5) s = execVsub v1 v2 v3 v4 v5 s := rfl
theorem exec_vmul (v1 v2 v3 v4 v5) (s : State) : exec (.vmul v1 v2 v3 v4 v5) s = execVmul v1 v2 v3 v4 v5 s := rfl
theorem exec_vfma (v1 v2 v3 v4 v5) (s : State) : exec (.vfma v1 v2 v3 v4 v5) s = execVfma v1 v2 v3 v4 v5 s := rfl
theorem exec_vfms (v1 v2 v3 v4 v5) (s : State) : exec (.vfms v1 v2 v3 v4 v5) s = execVfms v1 v2 v3 v4 v5 s := rfl
theorem exec_vmin (v1 v2 v3 v4 v5) (s : State) : exec (.vmin v1 v2 v3 v4 v5) s = execVmin v1 v2 v3 v4 v5 s := rfl
theorem exec_vmax (v1 v2 v3 v4 v5) (s : State) : exec (.vmax v1 v2 v3 v4 v5) s = execVmax v1 v2 v3 v4 v5 s := rfl
theorem exec_vabs (v1 v2 v3 v4) (s : State) : exec (.vabs v1 v2 v3 v4) s = execVabs v1 v2 v3 v4 s := rfl
theorem exec_vneg (v1 v2 v3 v4) (s : State) : exec (.vneg v1 v2 v3 v4) s = execVneg v1 v2 v3 v4 s := rfl
theorem exec_vdiv (v1 v2 v3 v4 v5) (s : State) : exec (.vdiv v1 v2 v3 v4 v5) s = execVdiv v1 v2 v3 v4 v5 s := rfl
theorem exec_vsqrt (v1 v2 v3 v4) (s : State) : exec (.vsqrt v1 v2 v3 v4) s = execVsqrt v1 v2 v3 v4 s := rfl
theorem exec_vand (v1 v2 v3 v4 v5) (s : State) : exec (.vand v1 v2 v3 v4 v5) s = execVand v1 v2 v3 v4 v5 s := rfl
theorem exec_vor (v1 v2 v3 v4 v5) (s : State) : exec (.vor v1 v2 v3 v4 v5) s = execVor v1 v2 v3 v4 v5 s := rfl
theorem exec_vxor (v1 v2 v3 v4 v5) (s : State) : exec (.vxor v1 v2 v3 v4 v5) s = execVxor v1 v2 v3 v4 v5 s := rfl
theorem exec_vnot (v1 v2 v3 v4) (s : State) : exec (.vnot v1 v2 v3 v4) s = execVnot v1 v2 v3 v4 s := rfl
theorem exec_vshl (v1 v2 v3 v4 v5) (s : State) : exec (.vshl v1 v2 v3 v4 v5) s = execVshl v1 v2 v3 v4 v5 s := rfl
theorem exec_vshr (v1 v2 v3 v4 v5) (s : State) : exec (.vshr v1 v2 v3 v4 v5) s = execVshr v1 v2 v3 v4 v5 s := rfl
theorem exec_vsar (v1 v2 v3 v4 v5) (s : State) : exec (.vsar v1 v2 v3 v4 v5) s = execVsar v1 v2 v3 v4 v5 s := rfl
theorem exec_vmov (v1 v2 v3 v4) (s : State) : exec (.vmov v1 v2 v3 v4) s = execVmov v1 v2 v3 v4 s := rfl
theorem exec_vmovi (v1 v2 v3 v4) (s : State) : exec (.vmovi v1 v2 v3 v4) s = execVmovi v1 v2 v3 v4 s := rfl
theorem exec_vfloor (v1 v2 v3 v4) (s : State) : exec (.vfloor v1 v2 v3 v4) s = execVfloor v1 v2 v3 v4 s := rfl
theorem exec_vclass (v1 v2 v3 v4) (s : State) : exec (.vclass v1 v2 v3 v4) s = execVclass v1 v2 v3 v4 s := rfl
theorem exec_vadds (v1 v2 v3 v4 v5) (s : State) : exec (.vadds v1 v2 v3 v4 v5) s = execVadds v1 v2 v3 v4 v5 s := rfl
theorem exec_vceq (v1 v2 v3 v4 v5) (s : State) : exec (.vceq v1 v2 v3 v4 v5) s = execVceq v1 v2 v3 v4 v5 s := rfl
theorem exec_vclt (v1 v2 v3 v4 v5) (s : State) : exec (.vclt v1 v2 v3 v4 v5) s = execVclt v1 v2 v3 v4 v5 s := rfl
theorem exec_vcle (v1 v2 v3 v4 v5) (s : State) : exec (.vcle v1 v2 v3 v4 v5) s = execVcle v1 v2 v3 v4 v5 s := rfl
theorem exec_vsel (v1 v2 v3 v4) (s : State) : exec (.vsel v1 v2 v3 v4) s = execVsel v1 v2 v3 v4 s := rfl
theorem exec_pand (v1 v2 v3) (s : State) : exec (.pand v1 v2 v3) s = execPand v1 v2 v3 s := rfl
theorem exec_por (v1 v2 v3) (s : State) : exec (.por v1 v2 v3) s = execPor v1 v2 v3 s := rfl
theorem exec_pnot (v1 v2) (s : State) : exec (.pnot v1 v2) s = execPnot v1 v2 s := rfl
theorem exec_pmov (v1 v2) (s : State) : exec (.pmov v1 v2) s = execPmov v1 v2 s := rfl
theorem exec_vcvt (v1 v2 v3 v4) (s : State) : exec (.vcvt v1 v2 v3 v4) s = execVcvt v1 v2 v3 v4 s := rfl
theorem exec_vquant (v1 v2 v3 v4) (s : State) : exec (.vquant v1 v2 v3 v4) s = execVquant v1 v2 v3 v4 s := rfl
theorem exec_vdeq (v1 v2 v3 v4) (s : State) : exec (.vdeq v1 v2 v3 v4) s = execVdeq v1 v2 v3 v4 s := rfl
theorem exec_vpack (v1 v2 v3 v4) (s : State) : exec (.vpack v1 v2 v3 v4) s = execVpack v1 v2 v3 v4 s := rfl
theorem exec_vunpk (v1 v2 v3 v4) (s : State) : exec (.vunpk v1 v2 v3 v4) s = execVunpk v1 v2 v3 v4 s := rfl
theorem exec_vrsum (v1 v2 v3 v4) (s : State) : exec (.vrsum v1 v2 v3 v4) s = execVrsum v1 v2 v3 v4 s := rfl
theorem exec_vrmax (v1 v2 v3 v4) (s : State) : exec (.vrmax v1 v2 v3 v4) s = execVrmax v1 v2 v3 v4 s := rfl
theorem exec_vrmin (v1 v2 v3 v4) (s : State) : exec (.vrmin v1 v2 v3 v4) s = execVrmin v1 v2 v3 v4 s := rfl
theorem exec_vscan (v1 v2 v3 v4) (s : State) : exec (.vscan v1 v2 v3 v4) s = execVscan v1 v2 v3 v4 s := rfl
theorem exec_vperm (v1 v2 v3 v4 v5) (s : State) : exec (.vperm v1 v2 v3 v4 v5) s = execVperm v1 v2 v3 v4 v5 s := rfl
theorem exec_vxfer (v1 v2 v3) (s : State) : exec (.vxfer v1 v2 v3) s = execVxfer v1 v2 v3 s := rfl
theorem exec_vbcast (v1 v2 v3 v4 v5) (s : State) : exec (.vbcast v1 v2 v3 v4 v5) s = execVbcast v1 v2 v3 v4 v5 s := rfl
theorem exec_vextr (v1 v2 v3 v4) (s : State) : exec (.vextr v1 v2 v3 v4) s = execVextr v1 v2 v3 v4 s := rfl
theorem exec_viota (v1 v2 v3) (s : State) : exec (.viota v1 v2 v3) s = execViota v1 v2 v3 s := rfl
theorem exec_vrcp (v1 v2 v3 v4) (s : State) : exec (.vrcp v1 v2 v3 v4) s = execVrcp v1 v2 v3 v4 s := rfl
theorem exec_vrsqrt (v1 v2 v3 v4) (s : State) : exec (.vrsqrt v1 v2 v3 v4) s = execVrsqrt v1 v2 v3 v4 s := rfl
theorem exec_vexp2 (v1 v2 v3 v4) (s : State) : exec (.vexp2 v1 v2 v3 v4) s = execVexp2 v1 v2 v3 v4 s := rfl
theorem exec_vlog2 (v1 v2 v3 v4) (s : State) : exec (.vlog2 v1 v2 v3 v4) s = execVlog2 v1 v2 v3 v4 s := rfl
theorem exec_vexp (v1 v2 v3 v4) (s : State) : exec (.vexp v1 v2 v3 v4) s = execVexp v1 v2 v3 v4 s := rfl
theorem exec_vlog (v1 v2 v3 v4) (s : State) : exec (.vlog v1 v2 v3 v4) s = execVlog v1 v2 v3 v4 s := rfl
theorem exec_vsin (v1 v2 v3 v4) (s : State) : exec (.vsin v1 v2 v3 v4) s = execVsin v1 v2 v3 v4 s := rfl
theorem exec_vcos (v1 v2 v3 v4) (s : State) : exec (.vcos v1 v2 v3 v4) s = execVcos v1 v2 v3 v4 s := rfl
theorem exec_vtanh (v1 v2 v3 v4) (s : State) : exec (.vtanh v1 v2 v3 v4) s = execVtanh v1 v2 v3 v4 s := rfl
theorem exec_verf (v1 v2 v3 v4) (s : State) : exec (.verf v1 v2 v3 v4) s = execVerf v1 v2 v3 v4 s := rfl
theorem exec_vsigm (v1 v2 v3 v4) (s : State) : exec (.vsigm v1 v2 v3 v4) s = execVsigm v1 v2 v3 v4 s := rfl
theorem exec_mma (v1 v2 v3 v4 v5 v6 v7) (s : State) : exec (.mma v1 v2 v3 v4 v5 v6 v7) s = execMma v1 v2 v3 v4 v5 v6 v7 s := rfl
theorem exec_mmaz (v1 v2 v3 v4 v5 v6 v7) (s : State) : exec (.mmaz v1 v2 v3 v4 v5 v6 v7) s = execMmaz v1 v2 v3 v4 v5 v6 v7 s := rfl
theorem exec_mmas (v1 v2 v3 v4 v5 v6 v7) (s : State) : exec (.mmas v1 v2 v3 v4 v5 v6 v7) s = execMmas v1 v2 v3 v4 v5 v6 v7 s := rfl
theorem exec_mmasz (v1 v2 v3 v4 v5 v6 v7) (s : State) : exec (.mmasz v1 v2 v3 v4 v5 v6 v7) s = execMmasz v1 v2 v3 v4 v5 v6 v7 s := rfl
theorem exec_matrixSlotWake (v1 v2) (s : State) : exec (.matrixSlotWake v1 v2) s = execMatrixSlotWake v1 v2 s := rfl
theorem exec_mmaResult (v1) (s : State) : exec (.mmaResult v1) s = execMmaResult v1 s := rfl
theorem exec_operandSlotFree (v1 v2) (s : State) : exec (.operandSlotFree v1 v2) s = execOperandSlotFree v1 v2 s := rfl
theorem exec_oclaim (v1) (s : State) : exec (.oclaim v1) s = execOclaim v1 s := rfl
theorem exec_orelease (v1) (s : State) : exec (.orelease v1) s = execOrelease v1 s := rfl
theorem exec_old (v1 v2 v3 v4) (s : State) : exec (.old v1 v2 v3 v4) s = execOld v1 v2 v3 v4 s := rfl
theorem exec_aclr (v1) (s : State) : exec (.aclr v1) s = execAclr v1 s := rfl
theorem exec_amov (v1 v2 v3) (s : State) : exec (.amov v1 v2 v3) s = execAmov v1 v2 v3 s := rfl
theorem exec_aadd (v1 v2) (s : State) : exec (.aadd v1 v2) s = execAadd v1 v2 s := rfl
theorem exec_mgeo (v1) (s : State) : exec (.mgeo v1) s = execMgeo v1 s := rfl
theorem exec_cyqr (v1 v2 v3 v4) (s : State) : exec (.cyqr v1 v2 v3 v4) s = execCyqr v1 v2 v3 v4 s := rfl
theorem exec_cyapply (v1 v2 v3 v4 v5) (s : State) : exec (.cyapply v1 v2 v3 v4 v5) s = execCyapply v1 v2 v3 v4 v5 s := rfl
theorem exec_cygiv (v1 v2 v3) (s : State) : exec (.cygiv v1 v2 v3) s = execCygiv v1 v2 v3 s := rfl
theorem exec_cyrot (v1 v2 v3) (s : State) : exec (.cyrot v1 v2 v3) s = execCyrot v1 v2 v3 s := rfl
theorem exec_cyrd (v1 v2 v3 v4) (s : State) : exec (.cyrd v1 v2 v3 v4) s = execCyrd v1 v2 v3 v4 s := rfl
theorem exec_cywr (v1 v2 v3) (s : State) : exec (.cywr v1 v2 v3) s = execCywr v1 v2 v3 s := rfl
theorem exec_cyclr (v1) (s : State) : exec (.cyclr v1) s = execCyclr v1 s := rfl
theorem exec_cymode (v1 v2) (s : State) : exec (.cymode v1 v2) s = execCymode v1 v2 s := rfl
theorem exec_cysolve (v1 v2 v3) (s : State) : exec (.cysolve v1 v2 v3) s = execCysolve v1 v2 v3 s := rfl
theorem exec_cyang (v1 v2 v3) (s : State) : exec (.cyang v1 v2 v3) s = execCyang v1 v2 v3 s := rfl
theorem exec_eset (v1 v2 v3 v4) (s : State) : exec (.eset v1 v2 v3 v4) s = execEset v1 v2 v3 v4 s := rfl
theorem exec_eget (v1 v2 v3) (s : State) : exec (.eget v1 v2 v3) s = execEget v1 v2 v3 s := rfl
theorem exec_cpy (v1 v2 v3) (s : State) : exec (.cpy v1 v2 v3) s = execCpy v1 v2 v3 s := rfl
theorem exec_cpyst (v1 v2 v3 v4 v5 v6) (s : State) : exec (.cpyst v1 v2 v3 v4 v5 v6) s = execCpyst v1 v2 v3 v4 v5 v6 s := rfl
theorem exec_sacc (v1 v2 v3 v4 v5) (s : State) : exec (.sacc v1 v2 v3 v4 v5) s = execSacc v1 v2 v3 v4 v5 s := rfl
theorem exec_rcnt (v1 v2 v3) (s : State) : exec (.rcnt v1 v2 v3) s = execRcnt v1 v2 v3 s := rfl
theorem exec_rsnap (v1 v2 v3) (s : State) : exec (.rsnap v1 v2 v3) s = execRsnap v1 v2 v3 s := rfl
theorem exec_send (v1 v2 v3 v4 v5) (s : State) : exec (.send v1 v2 v3 v4 v5) s = execSend v1 v2 v3 v4 v5 s := rfl
theorem exec_ttset (v1 v2) (s : State) : exec (.ttset v1 v2) s = execTtset v1 v2 s := rfl
theorem exec_tready (v1 v2) (s : State) : exec (.tready v1 v2) s = execTready v1 v2 s := rfl
theorem exec_trkarm (v1 v2 v3) (s : State) : exec (.trkarm v1 v2 v3) s = execTrkarm v1 v2 v3 s := rfl
theorem exec_lease (v1 v2) (s : State) : exec (.lease v1 v2) s = execLease v1 v2 s := rfl
theorem exec_unlease (v1 v2) (s : State) : exec (.unlease v1 v2) s = execUnlease v1 v2 s := rfl
theorem exec_zip (v1 v2 v3 v4) (s : State) : exec (.zip v1 v2 v3 v4) s = execZip v1 v2 v3 v4 s := rfl
theorem exec_unzip (v1 v2 v3 v4) (s : State) : exec (.unzip v1 v2 v3 v4) s = execUnzip v1 v2 v3 v4 s := rfl
theorem exec_repl (v1 v2 v3 v4 v5) (s : State) : exec (.repl v1 v2 v3 v4 v5) s = execRepl v1 v2 v3 v4 v5 s := rfl
theorem exec_qdecl (v1 v2 v3) (s : State) : exec (.qdecl v1 v2 v3) s = execQdecl v1 v2 v3 s := rfl
theorem exec_qarrive (v1 v2) (s : State) : exec (.qarrive v1 v2) s = execQarrive v1 v2 s := rfl
theorem exec_qarriveRegister (v1) (s : State) : exec (.qarriveRegister v1) s = execQarriveRegister v1 s := rfl
theorem exec_qread (v1 v2 v3) (s : State) : exec (.qread v1 v2 v3) s = execQread v1 v2 v3 s := rfl
theorem exec_qreplay (v1 v2 v3) (s : State) : exec (.qreplay v1 v2 v3) s = execQreplay v1 v2 v3 s := rfl
theorem exec_tsave (v1 v2 v3) (s : State) : exec (.tsave v1 v2 v3) s = execTsave v1 v2 v3 s := rfl
theorem exec_tload (v1 v2 v3) (s : State) : exec (.tload v1 v2 v3) s = execTload v1 v2 v3 s := rfl
theorem exec_ecancel (v1) (s : State) : exec (.ecancel v1) s = execEcancel v1 s := rfl
theorem exec_sld (v1 v2 v3) (s : State) : exec (.sld v1 v2 v3) s = execSld v1 v2 v3 s := rfl
theorem exec_vwin (v1 v2 v3 v4) (s : State) : exec (.vwin v1 v2 v3 v4) s = execVwin v1 v2 v3 v4 s := rfl
theorem exec_vshape (v1 v2 v3 v4) (s : State) : exec (.vshape v1 v2 v3 v4) s = execVshape v1 v2 v3 v4 s := rfl
theorem exec_vmode (v1 v2 v3) (s : State) : exec (.vmode v1 v2 v3) s = execVmode v1 v2 v3 s := rfl
theorem exec_stpop (v1) (s : State) : exec (.stpop v1) s = execStpop v1 s := rfl
theorem exec_tkset (v1 v2) (s : State) : exec (.tkset v1 v2) s = execTkset v1 v2 s := rfl
theorem exec_lateResult (v1 v2) (s : State) : exec (.lateResult v1 v2) s = execLateResult v1 v2 s := rfl
theorem exec_frostSwitch (v1) (s : State) : exec (.frostSwitch v1) s = execFrostSwitch v1 s := rfl
theorem exec_replicaLockSwitch (v1) (s : State) : exec (.replicaLockSwitch v1) s = execReplicaLockSwitch v1 s := rfl
theorem exec_mirrorMismatch (v1 v2 v3 v4) (s : State) : exec (.mirrorMismatch v1 v2 v3 v4) s = execMirrorMismatch v1 v2 v3 v4 s := rfl
theorem exec_strandEnd (v1 v2) (s : State) : exec (.strandEnd v1 v2) s = execStrandEnd v1 v2 s := rfl
theorem exec_engineCommandStart (v1) (s : State) : exec (.engineCommandStart v1) s = execEngineCommandStart v1 s := rfl
theorem exec_engineCommandDone (v1) (s : State) : exec (.engineCommandDone v1) s = execEngineCommandDone v1 s := rfl
theorem exec_leaseGrant (v1) (s : State) : exec (.leaseGrant v1) s = execLeaseGrant v1 s := rfl
theorem exec_leaseExpiry (v1 v2 v3) (s : State) : exec (.leaseExpiry v1 v2 v3) s = execLeaseExpiry v1 v2 v3 s := rfl
theorem exec_trackerFire (v1 v2 v3) (s : State) : exec (.trackerFire v1 v2 v3) s = execTrackerFire v1 v2 v3 s := rfl
theorem exec_tileRunEnd (v1 v2 v3) (s : State) : exec (.tileRunEnd v1 v2 v3) s = execTileRunEnd v1 v2 v3 s := rfl
theorem exec_memWrite (v1) (s : State) : exec (.memWrite v1) s = execMemWrite v1 s := rfl
theorem exec_poolWrite (v1) (s : State) : exec (.poolWrite v1) s = execPoolWrite v1 s := rfl
theorem exec_streamWrite (v1) (s : State) : exec (.streamWrite v1) s = execStreamWrite v1 s := rfl
theorem exec_chunk (v1) (s : State) : exec (.chunk v1) s = execChunk v1 s := rfl
theorem exec_chunkAbort (v1) (s : State) : exec (.chunkAbort v1) s = execChunkAbort v1 s := rfl
theorem exec_response (v1) (s : State) : exec (.response v1) s = execResponse v1 s := rfl
theorem exec_slotRequest (v1) (s : State) : exec (.slotRequest v1) s = execSlotRequest v1 s := rfl
theorem exec_slotAnswer (v1) (s : State) : exec (.slotAnswer v1) s = execSlotAnswer v1 s := rfl
theorem exec_noResponse (v1) (s : State) : exec (.noResponse v1) s = execNoResponse v1 s := rfl
theorem exec_messageRetry (v1) (s : State) : exec (.messageRetry v1) s = execMessageRetry v1 s := rfl
theorem exec_landedStreamApply (v1 v2) (s : State) : exec (.landedStreamApply v1 v2) s = execLandedStreamApply v1 v2 s := rfl
theorem exec_linkFrame (v1 v2) (s : State) : exec (.linkFrame v1 v2) s = execLinkFrame v1 v2 s := rfl
theorem exec_linkReplay (v1 v2) (s : State) : exec (.linkReplay v1 v2) s = execLinkReplay v1 v2 s := rfl
theorem exec_linkRetrain (v1 v2) (s : State) : exec (.linkRetrain v1 v2) s = execLinkRetrain v1 v2 s := rfl
theorem exec_portDown (v1) (s : State) : exec (.portDown v1) s = execPortDown v1 s := rfl
theorem exec_epochAutoAdvance (v1) (s : State) : exec (.epochAutoAdvance v1) s = execEpochAutoAdvance v1 s := rfl
theorem exec_replicaUpdate (v1) (s : State) : exec (.replicaUpdate v1) s = execReplicaUpdate v1 s := rfl
theorem exec_gustTick (v1) (s : State) : exec (.gustTick v1) s = execGustTick v1 s := rfl
theorem exec_lullStep (v1 v2) (s : State) : exec (.lullStep v1 v2) s = execLullStep v1 v2 s := rfl
theorem exec_windowBoundary (v1) (s : State) : exec (.windowBoundary v1) s = execWindowBoundary v1 s := rfl
theorem exec_roundBegin (v1 v2) (s : State) : exec (.roundBegin v1 v2) s = execRoundBegin v1 v2 s := rfl
theorem exec_sliceEnd (v1 v2) (s : State) : exec (.sliceEnd v1 v2) s = execSliceEnd v1 v2 s := rfl
theorem exec_teamSelect (v1 v2) (s : State) : exec (.teamSelect v1 v2) s = execTeamSelect v1 v2 s := rfl
theorem exec_cooperativeSwap (v1 v2) (s : State) : exec (.cooperativeSwap v1 v2) s = execCooperativeSwap v1 v2 s := rfl
theorem exec_swapin (v1 v2) (s : State) : exec (.swapin v1 v2) s = execSwapin v1 v2 s := rfl
theorem exec_shadowDrain (v1 v2) (s : State) : exec (.shadowDrain v1 v2) s = execShadowDrain v1 v2 s := rfl
theorem exec_imageStage (v1 v2) (s : State) : exec (.imageStage v1 v2) s = execImageStage v1 v2 s := rfl
theorem exec_forcedPreemption (v1 v2) (s : State) : exec (.forcedPreemption v1 v2) s = execForcedPreemption v1 v2 s := rfl
theorem exec_spillDone (v1 v2 v3) (s : State) : exec (.spillDone v1 v2 v3) s = execSpillDone v1 v2 v3 s := rfl
theorem exec_preemptWatchdog (v1 v2) (s : State) : exec (.preemptWatchdog v1 v2) s = execPreemptWatchdog v1 v2 s := rfl
theorem exec_waitWatchdog (v1 v2) (s : State) : exec (.waitWatchdog v1 v2) s = execWaitWatchdog v1 v2 s := rfl
theorem exec_yieldOverdue (v1 v2) (s : State) : exec (.yieldOverdue v1 v2) s = execYieldOverdue v1 v2 s := rfl
theorem exec_killPoint (v1 v2) (s : State) : exec (.killPoint v1 v2) s = execKillPoint v1 v2 s := rfl
theorem exec_killLimit (v1 v2) (s : State) : exec (.killLimit v1 v2) s = execKillLimit v1 v2 s := rfl
theorem exec_eccUncorrectable (v1) (s : State) : exec (.eccUncorrectable v1) s = execEccUncorrectable v1 s := rfl
theorem exec_scrub (v1 v2) (s : State) : exec (.scrub v1 v2) s = execScrub v1 v2 s := rfl
theorem exec_scanTest (v1 v2) (s : State) : exec (.scanTest v1 v2) s = execScanTest v1 v2 s := rfl
theorem exec_scanClaim (v1 v2) (s : State) : exec (.scanClaim v1 v2) s = execScanClaim v1 v2 s := rfl
theorem exec_scanComplete (v1 v2 v3) (s : State) : exec (.scanComplete v1 v2 v3) s = execScanComplete v1 v2 v3 s := rfl
theorem exec_telemetrySample (v1 v2) (s : State) : exec (.telemetrySample v1 v2) s = execTelemetrySample v1 v2 s := rfl
theorem exec_deviceReset (s : State) : exec (.deviceReset) s = execDeviceReset s := rfl
theorem exec_partSet (v1) (s : State) : exec (.partSet v1) s = execPartSet v1 s := rfl
theorem exec_partDestroy (v1) (s : State) : exec (.partDestroy v1) s = execPartDestroy v1 s := rfl
theorem exec_vfBind (v1) (s : State) : exec (.vfBind v1) s = execVfBind v1 s := rfl
theorem exec_slotSet (v1) (s : State) : exec (.slotSet v1) s = execSlotSet v1 s := rfl
theorem exec_teamCreate (v1) (s : State) : exec (.teamCreate v1) s = execTeamCreate v1 s := rfl
theorem exec_teamSet (v1) (s : State) : exec (.teamSet v1) s = execTeamSet v1 s := rfl
theorem exec_teamStop (v1) (s : State) : exec (.teamStop v1) s = execTeamStop v1 s := rfl
theorem exec_teamResume (v1) (s : State) : exec (.teamResume v1) s = execTeamResume v1 s := rfl
theorem exec_teamRestart (v1) (s : State) : exec (.teamRestart v1) s = execTeamRestart v1 s := rfl
theorem exec_teamDestroy (v1) (s : State) : exec (.teamDestroy v1) s = execTeamDestroy v1 s := rfl
theorem exec_paramSet (v1) (s : State) : exec (.paramSet v1) s = execParamSet v1 s := rfl
theorem exec_s2Map (v1) (s : State) : exec (.s2Map v1) s = execS2Map v1 s := rfl
theorem exec_s2Unmap (v1) (s : State) : exec (.s2Unmap v1) s = execS2Unmap v1 s := rfl
theorem exec_invalidate (v1) (s : State) : exec (.invalidate v1) s = execInvalidate v1 s := rfl
theorem exec_pageAnswer (v1) (s : State) : exec (.pageAnswer v1) s = execPageAnswer v1 s := rfl
theorem exec_ownerSet (v1) (s : State) : exec (.ownerSet v1) s = execOwnerSet v1 s := rfl
theorem exec_replicaReserve (v1) (s : State) : exec (.replicaReserve v1) s = execReplicaReserve v1 s := rfl
theorem exec_imageLoad (v1) (s : State) : exec (.imageLoad v1) s = execImageLoad v1 s := rfl
theorem exec_attest (v1) (s : State) : exec (.attest v1) s = execAttest v1 s := rfl
theorem exec_keySession (v1) (s : State) : exec (.keySession v1) s = execKeySession v1 s := rfl
theorem exec_keyInstall (v1) (s : State) : exec (.keyInstall v1) s = execKeyInstall v1 s := rfl
theorem exec_epochAdvance (v1) (s : State) : exec (.epochAdvance v1) s = execEpochAdvance v1 s := rfl
theorem exec_scanSet (v1) (s : State) : exec (.scanSet v1) s = execScanSet v1 s := rfl
theorem exec_powerSet (v1) (s : State) : exec (.powerSet v1) s = execPowerSet v1 s := rfl
theorem exec_teamExport (v1) (s : State) : exec (.teamExport v1) s = execTeamExport v1 s := rfl
theorem exec_teamImport (v1) (s : State) : exec (.teamImport v1) s = execTeamImport v1 s := rfl
theorem exec_backgroundCommandDone (v1) (s : State) : exec (.backgroundCommandDone v1) s = execBackgroundCommandDone v1 s := rfl
theorem exec_vfMessage (v1 v2) (s : State) : exec (.vfMessage v1 v2) s = execVfMessage v1 v2 s := rfl
theorem exec_s1inv (v1 v2) (s : State) : exec (.s1inv v1 v2) s = execS1inv v1 v2 s := rfl
theorem exec_registerWrite (v1 v2 v3) (s : State) : exec (.registerWrite v1 v2 v3) s = execRegisterWrite v1 v2 v3 s := rfl
theorem exec_readbackRead (v1 v2) (s : State) : exec (.readbackRead v1 v2) s = execReadbackRead v1 v2 s := rfl
theorem exec_cxlMemAccess (v1 v2 v3) (s : State) : exec (.cxlMemAccess v1 v2 v3) s = execCxlMemAccess v1 v2 v3 s := rfl
theorem exec_ideKm (v1) (s : State) : exec (.ideKm v1) s = execIdeKm v1 s := rfl
theorem exec_illegalEncoding (v1 v2) (s : State) : exec (.illegalEncoding v1 v2) s = execIllegalEncoding v1 v2 s := rfl
theorem exec_bundleFetchFault (v1 v2 v3) (s : State) : exec (.bundleFetchFault v1 v2 v3) s = execBundleFetchFault v1 v2 v3 s := rfl
theorem exec_operandLoadComplete (v1 v2) (s : State) : exec (.operandLoadComplete v1 v2) s = execOperandLoadComplete v1 v2 s := rfl
theorem exec_accumulatorPortComplete (v1) (s : State) : exec (.accumulatorPortComplete v1) s = execAccumulatorPortComplete v1 s := rfl
theorem exec_eddyWorkComplete (v1) (s : State) : exec (.eddyWorkComplete v1) s = execEddyWorkComplete v1 s := rfl
theorem exec_storePerformed (v1 v2) (s : State) : exec (.storePerformed v1 v2) s = execStorePerformed v1 v2 s := rfl

end Sys2Proof.Machine
end

