-- ==== Sys2Proof/Laws/Sparse.lean ====
section
/-!
SUPPORT. Sparse maps: what is read after an entry has been replaced, and with it what the parts of a state read after an
update.
-/

set_option Elab.async false
namespace Sys2Proof.Machine

theorem look_dropKey_ne {α : Type} (d : α) (m : Sparse α) {j k : Nat} (h : k ≠ j) : look d (dropKey m j) k = look d m k := by
  induction m with
  | nil => rfl
  | cons e rest ih =>
    obtain ⟨i, v⟩ := e
    unfold dropKey at *
    by_cases hi : i = j
    · rw [List.filter_cons_of_neg (by simp [hi]), ih, look, if_neg (by omega)]
    · rw [List.filter_cons_of_pos (by simpa using hi), look, look, ih]

theorem look_dropKey_self {α : Type} (d : α) (m : Sparse α) (k : Nat) : look d (dropKey m k) k = d := by
  induction m with
  | nil => rfl
  | cons e rest ih =>
    obtain ⟨i, v⟩ := e
    unfold dropKey at *
    by_cases hi : i = k
    · rw [List.filter_cons_of_neg (by simp [hi]), ih]
    · rw [List.filter_cons_of_pos (by simpa using hi), look, if_neg hi, ih]

theorem look_insertKey_ne {α : Type} (d v : α) (m : Sparse α) {j k : Nat} (h : k ≠ j) :
    look d (insertKey j v m) k = look d m k := by
  induction m with
  | nil => simp [insertKey, look, Ne.symm h]
  | cons e rest ih =>
    obtain ⟨i, u⟩ := e
    rw [insertKey]
    split
    · rw [look, if_neg (Ne.symm h)]
    · rw [look, look, ih]

theorem look_insertKey_self {α : Type} (d v : α) (m : Sparse α) (k : Nat) (h : ∀ e ∈ m, e.1 ≠ k) :
    look d (insertKey k v m) k = v := by
  induction m with
  | nil => rw [insertKey, look, if_pos rfl]
  | cons e rest ih =>
    obtain ⟨i, u⟩ := e
    rw [insertKey]
    split
    · rw [look, if_pos rfl]
    · rw [look, if_neg (h (i, u) (by simp)), ih fun e he => h e (List.mem_cons_of_mem _ he)]

@[simp] theorem look_ins_self {α : Type} (d v : α) (m : Sparse α) (k : Nat) : look d (ins m k v) k = v :=
  look_insertKey_self d v _ k fun e he => by simpa [dropKey] using (List.mem_filter.1 he).2

theorem look_ins_ne {α : Type} (d v : α) (m : Sparse α) {j k : Nat} (h : k ≠ j) : look d (ins m j v) k = look d m k := by
  rw [ins, look_insertKey_ne d v _ h, look_dropKey_ne d m h]

@[simp] theorem look_put_self {α : Type} [DecidableEq α] (d v : α) (m : Sparse α) (k : Nat) : look d (put d m k v) k = v := by
  unfold put
  split
  · next h => rw [look_dropKey_self, h]
  · exact look_ins_self d v m k

theorem look_put_ne {α : Type} [DecidableEq α] (d e v : α) (m : Sparse α) {j k : Nat} (h : k ≠ j) :
    look e (put d m j v) k = look e m k := by
  unfold put
  split
  · exact look_dropKey_ne e m h
  · exact look_ins_ne e v m h

/-! ## The parts of a state -/

@[simp] theorem State.core_setCore (s : State) (c : Nat) (k : Core) : (s.setCore c k).core c = k := look_ins_self _ _ _ _
theorem State.core_setCore_ne (s : State) (k : Core) {c e : Nat} (h : e ≠ c) : (s.setCore c k).core e = s.core e :=
  look_ins_ne _ _ _ h
@[simp] theorem State.core_modCore (s : State) (c : Nat) (f : Core → Core) : (s.modCore c f).core c = f (s.core c) :=
  look_ins_self _ _ _ _
theorem State.core_modCore_ne (s : State) (f : Core → Core) {c e : Nat} (h : e ≠ c) : (s.modCore c f).core e = s.core e :=
  look_ins_ne _ _ _ h
@[simp] theorem Core.strand_setStrand (k : Core) (n : Nat) (t : Strand) : (k.setStrand n t).strand n = t := look_ins_self _ _ _ _
theorem Core.strand_setStrand_ne (k : Core) (t : Strand) {n m : Nat} (h : m ≠ n) : (k.setStrand n t).strand m = k.strand m :=
  look_ins_ne _ _ _ h
@[simp] theorem State.strand_modStrand (s : State) (c n : Nat) (f : Strand → Strand) :
    (s.modStrand c n f).strand c n = f (s.strand c n) := by
  unfold State.modStrand State.strand
  rw [State.core_modCore, Core.strand_setStrand]
theorem State.strand_modStrand_ne (s : State) (c n : Nat) (f : Strand → Strand) {e m : Nat} (h : e ≠ c ∨ m ≠ n) :
    (s.modStrand c n f).strand e m = s.strand e m := by
  unfold State.modStrand State.strand
  by_cases he : e = c
  · subst he
    rw [State.core_modCore, Core.strand_setStrand_ne _ _ (by tauto)]
  · rw [State.core_modCore_ne _ _ he]
@[simp] theorem State.me_modMe (s : State) (f : Strand → Strand) : (s.modMe f).me = f s.me := State.strand_modStrand _ _ _ _
@[simp] theorem State.die_modDie (s : State) (d : Nat) (f : Die → Die) : (s.modDie d f).die d = f (s.die d) := look_ins_self _ _ _ _
theorem State.die_modDie_ne (s : State) (f : Die → Die) {d e : Nat} (h : e ≠ d) : (s.modDie d f).die e = s.die e :=
  look_ins_ne _ _ _ h
@[simp] theorem State.team_modTeam (s : State) (d t : Nat) (f : Team → Team) : (s.modTeam d t f).team d t = f (s.team d t) := by
  unfold State.modTeam State.team
  rw [State.die_modDie]
  exact look_ins_self _ _ _ _
@[simp] theorem State.part_modPart (s : State) (p : Nat) (f : Partition → Partition) : (s.modPart p f).part p = f (s.part p) :=
  look_ins_self _ _ _ _
@[simp] theorem State.vf_modVf (s : State) (v : Nat) (f : Vf → Vf) : (s.modVf v f).vf v = f (s.vf v) := look_ins_self _ _ _ _

end Sys2Proof.Machine
end

