-- ==== Sys2Proof/Laws/State.lean ====
section
/-!
SUPPORT. One lemma per field per update of the state: what an update leaves alone. Every one holds by unfolding, so that no
later proof unfolds a record update.
-/

set_option Elab.async false
namespace Sys2Proof.Machine

/-! ## State.setCore -/

@[simp] theorem State.setCore_dies (s : State) (c : Nat) (k : Core) : (s.setCore c k).dies = s.dies := rfl
@[simp] theorem State.setCore_hbm (s : State) (c : Nat) (k : Core) : (s.setCore c k).hbm = s.hbm := rfl
@[simp] theorem State.setCore_hbmPoison (s : State) (c : Nat) (k : Core) : (s.setCore c k).hbmPoison = s.hbmPoison := rfl
@[simp] theorem State.setCore_owner (s : State) (c : Nat) (k : Core) : (s.setCore c k).owner = s.owner := rfl
@[simp] theorem State.setCore_parts (s : State) (c : Nat) (k : Core) : (s.setCore c k).parts = s.parts := rfl
@[simp] theorem State.setCore_vfs (s : State) (c : Nat) (k : Core) : (s.setCore c k).vfs = s.vfs := rfl
@[simp] theorem State.setCore_replicas (s : State) (c : Nat) (k : Core) : (s.setCore c k).replicas = s.replicas := rfl
@[simp] theorem State.setCore_gangs (s : State) (c : Nat) (k : Core) : (s.setCore c k).gangs = s.gangs := rfl
@[simp] theorem State.setCore_cmds (s : State) (c : Nat) (k : Core) : (s.setCore c k).cmds = s.cmds := rfl
@[simp] theorem State.setCore_wire (s : State) (c : Nat) (k : Core) : (s.setCore c k).wire = s.wire := rfl
@[simp] theorem State.setCore_partWritten (s : State) (c : Nat) (k : Core) : (s.setCore c k).partWritten = s.partWritten := rfl
@[simp] theorem State.setCore_sent (s : State) (c : Nat) (k : Core) : (s.setCore c k).sent = s.sent := rfl
@[simp] theorem State.setCore_pfSlots (s : State) (c : Nat) (k : Core) : (s.setCore c k).pfSlots = s.pfSlots := rfl
@[simp] theorem State.setCore_ready (s : State) (c : Nat) (k : Core) : (s.setCore c k).ready = s.ready := rfl
@[simp] theorem State.setCore_events (s : State) (c : Nat) (k : Core) : (s.setCore c k).events = s.events := rfl
@[simp] theorem State.setCore_eventsOut (s : State) (c : Nat) (k : Core) : (s.setCore c k).eventsOut = s.eventsOut := rfl
@[simp] theorem State.setCore_eventsIn (s : State) (c : Nat) (k : Core) : (s.setCore c k).eventsIn = s.eventsIn := rfl
@[simp] theorem State.setCore_eventsLost (s : State) (c : Nat) (k : Core) : (s.setCore c k).eventsLost = s.eventsLost := rfl
@[simp] theorem State.setCore_pfCounters (s : State) (c : Nat) (k : Core) : (s.setCore c k).pfCounters = s.pfCounters := rfl
@[simp] theorem State.setCore_drops (s : State) (c : Nat) (k : Core) : (s.setCore c k).drops = s.drops := rfl
@[simp] theorem State.setCore_aperture (s : State) (c : Nat) (k : Core) : (s.setCore c k).aperture = s.aperture := rfl
@[simp] theorem State.setCore_serial (s : State) (c : Nat) (k : Core) : (s.setCore c k).serial = s.serial := rfl
@[simp] theorem State.setCore_lastTag (s : State) (c : Nat) (k : Core) : (s.setCore c k).lastTag = s.lastTag := rfl
@[simp] theorem State.setCore_withdrawn (s : State) (c : Nat) (k : Core) : (s.setCore c k).withdrawn = s.withdrawn := rfl
@[simp] theorem State.setCore_bootSerial (s : State) (c : Nat) (k : Core) : (s.setCore c k).bootSerial = s.bootSerial := rfl
@[simp] theorem State.setCore_powerLimit (s : State) (c : Nat) (k : Core) : (s.setCore c k).powerLimit = s.powerLimit := rfl
@[simp] theorem State.setCore_packagePower (s : State) (c : Nat) (k : Core) : (s.setCore c k).packagePower = s.packagePower := rfl
@[simp] theorem State.setCore_inlet (s : State) (c : Nat) (k : Core) : (s.setCore c k).inlet = s.inlet := rfl
@[simp] theorem State.setCore_flow (s : State) (c : Nat) (k : Core) : (s.setCore c k).flow = s.flow := rfl
@[simp] theorem State.setCore_ide (s : State) (c : Nat) (k : Core) : (s.setCore c k).ide = s.ide := rfl
@[simp] theorem State.setCore_scanHours (s : State) (c : Nat) (k : Core) : (s.setCore c k).scanHours = s.scanHours := rfl
@[simp] theorem State.setCore_hostMem (s : State) (c : Nat) (k : Core) : (s.setCore c k).hostMem = s.hostMem := rfl
@[simp] theorem State.setCore_hostRead (s : State) (c : Nat) (k : Core) : (s.setCore c k).hostRead = s.hostRead := rfl
@[simp] theorem State.setCore_exports (s : State) (c : Nat) (k : Core) : (s.setCore c k).exports = s.exports := rfl
@[simp] theorem State.setCore_agenda (s : State) (c : Nat) (k : Core) : (s.setCore c k).agenda = s.agenda := rfl
@[simp] theorem State.setCore_cur (s : State) (c : Nat) (k : Core) : (s.setCore c k).cur = s.cur := rfl
@[simp] theorem State.setCore_issue (s : State) (c : Nat) (k : Core) : (s.setCore c k).issue = s.issue := rfl
@[simp] theorem State.setCore_fresh (s : State) (c : Nat) (k : Core) : (s.setCore c k).fresh = s.fresh := rfl
@[simp] theorem State.setCore_nextId (s : State) (c : Nat) (k : Core) : (s.setCore c k).nextId = s.nextId := rfl

/-! ## State.modCore -/

@[simp] theorem State.modCore_dies (s : State) (c : Nat) (f : Core → Core) : (s.modCore c f).dies = s.dies := rfl
@[simp] theorem State.modCore_hbm (s : State) (c : Nat) (f : Core → Core) : (s.modCore c f).hbm = s.hbm := rfl
@[simp] theorem State.modCore_hbmPoison (s : State) (c : Nat) (f : Core → Core) : (s.modCore c f).hbmPoison = s.hbmPoison := rfl
@[simp] theorem State.modCore_owner (s : State) (c : Nat) (f : Core → Core) : (s.modCore c f).owner = s.owner := rfl
@[simp] theorem State.modCore_parts (s : State) (c : Nat) (f : Core → Core) : (s.modCore c f).parts = s.parts := rfl
@[simp] theorem State.modCore_vfs (s : State) (c : Nat) (f : Core → Core) : (s.modCore c f).vfs = s.vfs := rfl
@[simp] theorem State.modCore_replicas (s : State) (c : Nat) (f : Core → Core) : (s.modCore c f).replicas = s.replicas := rfl
@[simp] theorem State.modCore_gangs (s : State) (c : Nat) (f : Core → Core) : (s.modCore c f).gangs = s.gangs := rfl
@[simp] theorem State.modCore_cmds (s : State) (c : Nat) (f : Core → Core) : (s.modCore c f).cmds = s.cmds := rfl
@[simp] theorem State.modCore_wire (s : State) (c : Nat) (f : Core → Core) : (s.modCore c f).wire = s.wire := rfl
@[simp] theorem State.modCore_partWritten (s : State) (c : Nat) (f : Core → Core) : (s.modCore c f).partWritten = s.partWritten := rfl
@[simp] theorem State.modCore_sent (s : State) (c : Nat) (f : Core → Core) : (s.modCore c f).sent = s.sent := rfl
@[simp] theorem State.modCore_pfSlots (s : State) (c : Nat) (f : Core → Core) : (s.modCore c f).pfSlots = s.pfSlots := rfl
@[simp] theorem State.modCore_ready (s : State) (c : Nat) (f : Core → Core) : (s.modCore c f).ready = s.ready := rfl
@[simp] theorem State.modCore_events (s : State) (c : Nat) (f : Core → Core) : (s.modCore c f).events = s.events := rfl
@[simp] theorem State.modCore_eventsOut (s : State) (c : Nat) (f : Core → Core) : (s.modCore c f).eventsOut = s.eventsOut := rfl
@[simp] theorem State.modCore_eventsIn (s : State) (c : Nat) (f : Core → Core) : (s.modCore c f).eventsIn = s.eventsIn := rfl
@[simp] theorem State.modCore_eventsLost (s : State) (c : Nat) (f : Core → Core) : (s.modCore c f).eventsLost = s.eventsLost := rfl
@[simp] theorem State.modCore_pfCounters (s : State) (c : Nat) (f : Core → Core) : (s.modCore c f).pfCounters = s.pfCounters := rfl
@[simp] theorem State.modCore_drops (s : State) (c : Nat) (f : Core → Core) : (s.modCore c f).drops = s.drops := rfl
@[simp] theorem State.modCore_aperture (s : State) (c : Nat) (f : Core → Core) : (s.modCore c f).aperture = s.aperture := rfl
@[simp] theorem State.modCore_serial (s : State) (c : Nat) (f : Core → Core) : (s.modCore c f).serial = s.serial := rfl
@[simp] theorem State.modCore_lastTag (s : State) (c : Nat) (f : Core → Core) : (s.modCore c f).lastTag = s.lastTag := rfl
@[simp] theorem State.modCore_withdrawn (s : State) (c : Nat) (f : Core → Core) : (s.modCore c f).withdrawn = s.withdrawn := rfl
@[simp] theorem State.modCore_bootSerial (s : State) (c : Nat) (f : Core → Core) : (s.modCore c f).bootSerial = s.bootSerial := rfl
@[simp] theorem State.modCore_powerLimit (s : State) (c : Nat) (f : Core → Core) : (s.modCore c f).powerLimit = s.powerLimit := rfl
@[simp] theorem State.modCore_packagePower (s : State) (c : Nat) (f : Core → Core) : (s.modCore c f).packagePower = s.packagePower := rfl
@[simp] theorem State.modCore_inlet (s : State) (c : Nat) (f : Core → Core) : (s.modCore c f).inlet = s.inlet := rfl
@[simp] theorem State.modCore_flow (s : State) (c : Nat) (f : Core → Core) : (s.modCore c f).flow = s.flow := rfl
@[simp] theorem State.modCore_ide (s : State) (c : Nat) (f : Core → Core) : (s.modCore c f).ide = s.ide := rfl
@[simp] theorem State.modCore_scanHours (s : State) (c : Nat) (f : Core → Core) : (s.modCore c f).scanHours = s.scanHours := rfl
@[simp] theorem State.modCore_hostMem (s : State) (c : Nat) (f : Core → Core) : (s.modCore c f).hostMem = s.hostMem := rfl
@[simp] theorem State.modCore_hostRead (s : State) (c : Nat) (f : Core → Core) : (s.modCore c f).hostRead = s.hostRead := rfl
@[simp] theorem State.modCore_exports (s : State) (c : Nat) (f : Core → Core) : (s.modCore c f).exports = s.exports := rfl
@[simp] theorem State.modCore_agenda (s : State) (c : Nat) (f : Core → Core) : (s.modCore c f).agenda = s.agenda := rfl
@[simp] theorem State.modCore_cur (s : State) (c : Nat) (f : Core → Core) : (s.modCore c f).cur = s.cur := rfl
@[simp] theorem State.modCore_issue (s : State) (c : Nat) (f : Core → Core) : (s.modCore c f).issue = s.issue := rfl
@[simp] theorem State.modCore_fresh (s : State) (c : Nat) (f : Core → Core) : (s.modCore c f).fresh = s.fresh := rfl
@[simp] theorem State.modCore_nextId (s : State) (c : Nat) (f : Core → Core) : (s.modCore c f).nextId = s.nextId := rfl

/-! ## State.modStrand -/

@[simp] theorem State.modStrand_dies (s : State) (c n : Nat) (f : Strand → Strand) : (s.modStrand c n f).dies = s.dies := rfl
@[simp] theorem State.modStrand_hbm (s : State) (c n : Nat) (f : Strand → Strand) : (s.modStrand c n f).hbm = s.hbm := rfl
@[simp] theorem State.modStrand_hbmPoison (s : State) (c n : Nat) (f : Strand → Strand) : (s.modStrand c n f).hbmPoison = s.hbmPoison := rfl
@[simp] theorem State.modStrand_owner (s : State) (c n : Nat) (f : Strand → Strand) : (s.modStrand c n f).owner = s.owner := rfl
@[simp] theorem State.modStrand_parts (s : State) (c n : Nat) (f : Strand → Strand) : (s.modStrand c n f).parts = s.parts := rfl
@[simp] theorem State.modStrand_vfs (s : State) (c n : Nat) (f : Strand → Strand) : (s.modStrand c n f).vfs = s.vfs := rfl
@[simp] theorem State.modStrand_replicas (s : State) (c n : Nat) (f : Strand → Strand) : (s.modStrand c n f).replicas = s.replicas := rfl
@[simp] theorem State.modStrand_gangs (s : State) (c n : Nat) (f : Strand → Strand) : (s.modStrand c n f).gangs = s.gangs := rfl
@[simp] theorem State.modStrand_cmds (s : State) (c n : Nat) (f : Strand → Strand) : (s.modStrand c n f).cmds = s.cmds := rfl
@[simp] theorem State.modStrand_wire (s : State) (c n : Nat) (f : Strand → Strand) : (s.modStrand c n f).wire = s.wire := rfl
@[simp] theorem State.modStrand_partWritten (s : State) (c n : Nat) (f : Strand → Strand) : (s.modStrand c n f).partWritten = s.partWritten := rfl
@[simp] theorem State.modStrand_sent (s : State) (c n : Nat) (f : Strand → Strand) : (s.modStrand c n f).sent = s.sent := rfl
@[simp] theorem State.modStrand_pfSlots (s : State) (c n : Nat) (f : Strand → Strand) : (s.modStrand c n f).pfSlots = s.pfSlots := rfl
@[simp] theorem State.modStrand_ready (s : State) (c n : Nat) (f : Strand → Strand) : (s.modStrand c n f).ready = s.ready := rfl
@[simp] theorem State.modStrand_events (s : State) (c n : Nat) (f : Strand → Strand) : (s.modStrand c n f).events = s.events := rfl
@[simp] theorem State.modStrand_eventsOut (s : State) (c n : Nat) (f : Strand → Strand) : (s.modStrand c n f).eventsOut = s.eventsOut := rfl
@[simp] theorem State.modStrand_eventsIn (s : State) (c n : Nat) (f : Strand → Strand) : (s.modStrand c n f).eventsIn = s.eventsIn := rfl
@[simp] theorem State.modStrand_eventsLost (s : State) (c n : Nat) (f : Strand → Strand) : (s.modStrand c n f).eventsLost = s.eventsLost := rfl
@[simp] theorem State.modStrand_pfCounters (s : State) (c n : Nat) (f : Strand → Strand) : (s.modStrand c n f).pfCounters = s.pfCounters := rfl
@[simp] theorem State.modStrand_drops (s : State) (c n : Nat) (f : Strand → Strand) : (s.modStrand c n f).drops = s.drops := rfl
@[simp] theorem State.modStrand_aperture (s : State) (c n : Nat) (f : Strand → Strand) : (s.modStrand c n f).aperture = s.aperture := rfl
@[simp] theorem State.modStrand_serial (s : State) (c n : Nat) (f : Strand → Strand) : (s.modStrand c n f).serial = s.serial := rfl
@[simp] theorem State.modStrand_lastTag (s : State) (c n : Nat) (f : Strand → Strand) : (s.modStrand c n f).lastTag = s.lastTag := rfl
@[simp] theorem State.modStrand_withdrawn (s : State) (c n : Nat) (f : Strand → Strand) : (s.modStrand c n f).withdrawn = s.withdrawn := rfl
@[simp] theorem State.modStrand_bootSerial (s : State) (c n : Nat) (f : Strand → Strand) : (s.modStrand c n f).bootSerial = s.bootSerial := rfl
@[simp] theorem State.modStrand_powerLimit (s : State) (c n : Nat) (f : Strand → Strand) : (s.modStrand c n f).powerLimit = s.powerLimit := rfl
@[simp] theorem State.modStrand_packagePower (s : State) (c n : Nat) (f : Strand → Strand) : (s.modStrand c n f).packagePower = s.packagePower := rfl
@[simp] theorem State.modStrand_inlet (s : State) (c n : Nat) (f : Strand → Strand) : (s.modStrand c n f).inlet = s.inlet := rfl
@[simp] theorem State.modStrand_flow (s : State) (c n : Nat) (f : Strand → Strand) : (s.modStrand c n f).flow = s.flow := rfl
@[simp] theorem State.modStrand_ide (s : State) (c n : Nat) (f : Strand → Strand) : (s.modStrand c n f).ide = s.ide := rfl
@[simp] theorem State.modStrand_scanHours (s : State) (c n : Nat) (f : Strand → Strand) : (s.modStrand c n f).scanHours = s.scanHours := rfl
@[simp] theorem State.modStrand_hostMem (s : State) (c n : Nat) (f : Strand → Strand) : (s.modStrand c n f).hostMem = s.hostMem := rfl
@[simp] theorem State.modStrand_hostRead (s : State) (c n : Nat) (f : Strand → Strand) : (s.modStrand c n f).hostRead = s.hostRead := rfl
@[simp] theorem State.modStrand_exports (s : State) (c n : Nat) (f : Strand → Strand) : (s.modStrand c n f).exports = s.exports := rfl
@[simp] theorem State.modStrand_agenda (s : State) (c n : Nat) (f : Strand → Strand) : (s.modStrand c n f).agenda = s.agenda := rfl
@[simp] theorem State.modStrand_cur (s : State) (c n : Nat) (f : Strand → Strand) : (s.modStrand c n f).cur = s.cur := rfl
@[simp] theorem State.modStrand_issue (s : State) (c n : Nat) (f : Strand → Strand) : (s.modStrand c n f).issue = s.issue := rfl
@[simp] theorem State.modStrand_fresh (s : State) (c n : Nat) (f : Strand → Strand) : (s.modStrand c n f).fresh = s.fresh := rfl
@[simp] theorem State.modStrand_nextId (s : State) (c n : Nat) (f : Strand → Strand) : (s.modStrand c n f).nextId = s.nextId := rfl

/-! ## State.modMe -/

@[simp] theorem State.modMe_dies (s : State) (f : Strand → Strand) : (s.modMe f).dies = s.dies := rfl
@[simp] theorem State.modMe_hbm (s : State) (f : Strand → Strand) : (s.modMe f).hbm = s.hbm := rfl
@[simp] theorem State.modMe_hbmPoison (s : State) (f : Strand → Strand) : (s.modMe f).hbmPoison = s.hbmPoison := rfl
@[simp] theorem State.modMe_owner (s : State) (f : Strand → Strand) : (s.modMe f).owner = s.owner := rfl
@[simp] theorem State.modMe_parts (s : State) (f : Strand → Strand) : (s.modMe f).parts = s.parts := rfl
@[simp] theorem State.modMe_vfs (s : State) (f : Strand → Strand) : (s.modMe f).vfs = s.vfs := rfl
@[simp] theorem State.modMe_replicas (s : State) (f : Strand → Strand) : (s.modMe f).replicas = s.replicas := rfl
@[simp] theorem State.modMe_gangs (s : State) (f : Strand → Strand) : (s.modMe f).gangs = s.gangs := rfl
@[simp] theorem State.modMe_cmds (s : State) (f : Strand → Strand) : (s.modMe f).cmds = s.cmds := rfl
@[simp] theorem State.modMe_wire (s : State) (f : Strand → Strand) : (s.modMe f).wire = s.wire := rfl
@[simp] theorem State.modMe_partWritten (s : State) (f : Strand → Strand) : (s.modMe f).partWritten = s.partWritten := rfl
@[simp] theorem State.modMe_sent (s : State) (f : Strand → Strand) : (s.modMe f).sent = s.sent := rfl
@[simp] theorem State.modMe_pfSlots (s : State) (f : Strand → Strand) : (s.modMe f).pfSlots = s.pfSlots := rfl
@[simp] theorem State.modMe_ready (s : State) (f : Strand → Strand) : (s.modMe f).ready = s.ready := rfl
@[simp] theorem State.modMe_events (s : State) (f : Strand → Strand) : (s.modMe f).events = s.events := rfl
@[simp] theorem State.modMe_eventsOut (s : State) (f : Strand → Strand) : (s.modMe f).eventsOut = s.eventsOut := rfl
@[simp] theorem State.modMe_eventsIn (s : State) (f : Strand → Strand) : (s.modMe f).eventsIn = s.eventsIn := rfl
@[simp] theorem State.modMe_eventsLost (s : State) (f : Strand → Strand) : (s.modMe f).eventsLost = s.eventsLost := rfl
@[simp] theorem State.modMe_pfCounters (s : State) (f : Strand → Strand) : (s.modMe f).pfCounters = s.pfCounters := rfl
@[simp] theorem State.modMe_drops (s : State) (f : Strand → Strand) : (s.modMe f).drops = s.drops := rfl
@[simp] theorem State.modMe_aperture (s : State) (f : Strand → Strand) : (s.modMe f).aperture = s.aperture := rfl
@[simp] theorem State.modMe_serial (s : State) (f : Strand → Strand) : (s.modMe f).serial = s.serial := rfl
@[simp] theorem State.modMe_lastTag (s : State) (f : Strand → Strand) : (s.modMe f).lastTag = s.lastTag := rfl
@[simp] theorem State.modMe_withdrawn (s : State) (f : Strand → Strand) : (s.modMe f).withdrawn = s.withdrawn := rfl
@[simp] theorem State.modMe_bootSerial (s : State) (f : Strand → Strand) : (s.modMe f).bootSerial = s.bootSerial := rfl
@[simp] theorem State.modMe_powerLimit (s : State) (f : Strand → Strand) : (s.modMe f).powerLimit = s.powerLimit := rfl
@[simp] theorem State.modMe_packagePower (s : State) (f : Strand → Strand) : (s.modMe f).packagePower = s.packagePower := rfl
@[simp] theorem State.modMe_inlet (s : State) (f : Strand → Strand) : (s.modMe f).inlet = s.inlet := rfl
@[simp] theorem State.modMe_flow (s : State) (f : Strand → Strand) : (s.modMe f).flow = s.flow := rfl
@[simp] theorem State.modMe_ide (s : State) (f : Strand → Strand) : (s.modMe f).ide = s.ide := rfl
@[simp] theorem State.modMe_scanHours (s : State) (f : Strand → Strand) : (s.modMe f).scanHours = s.scanHours := rfl
@[simp] theorem State.modMe_hostMem (s : State) (f : Strand → Strand) : (s.modMe f).hostMem = s.hostMem := rfl
@[simp] theorem State.modMe_hostRead (s : State) (f : Strand → Strand) : (s.modMe f).hostRead = s.hostRead := rfl
@[simp] theorem State.modMe_exports (s : State) (f : Strand → Strand) : (s.modMe f).exports = s.exports := rfl
@[simp] theorem State.modMe_agenda (s : State) (f : Strand → Strand) : (s.modMe f).agenda = s.agenda := rfl
@[simp] theorem State.modMe_cur (s : State) (f : Strand → Strand) : (s.modMe f).cur = s.cur := rfl
@[simp] theorem State.modMe_issue (s : State) (f : Strand → Strand) : (s.modMe f).issue = s.issue := rfl
@[simp] theorem State.modMe_fresh (s : State) (f : Strand → Strand) : (s.modMe f).fresh = s.fresh := rfl
@[simp] theorem State.modMe_nextId (s : State) (f : Strand → Strand) : (s.modMe f).nextId = s.nextId := rfl

/-! ## State.modMyCore -/

@[simp] theorem State.modMyCore_dies (s : State) (f : Core → Core) : (s.modMyCore f).dies = s.dies := rfl
@[simp] theorem State.modMyCore_hbm (s : State) (f : Core → Core) : (s.modMyCore f).hbm = s.hbm := rfl
@[simp] theorem State.modMyCore_hbmPoison (s : State) (f : Core → Core) : (s.modMyCore f).hbmPoison = s.hbmPoison := rfl
@[simp] theorem State.modMyCore_owner (s : State) (f : Core → Core) : (s.modMyCore f).owner = s.owner := rfl
@[simp] theorem State.modMyCore_parts (s : State) (f : Core → Core) : (s.modMyCore f).parts = s.parts := rfl
@[simp] theorem State.modMyCore_vfs (s : State) (f : Core → Core) : (s.modMyCore f).vfs = s.vfs := rfl
@[simp] theorem State.modMyCore_replicas (s : State) (f : Core → Core) : (s.modMyCore f).replicas = s.replicas := rfl
@[simp] theorem State.modMyCore_gangs (s : State) (f : Core → Core) : (s.modMyCore f).gangs = s.gangs := rfl
@[simp] theorem State.modMyCore_cmds (s : State) (f : Core → Core) : (s.modMyCore f).cmds = s.cmds := rfl
@[simp] theorem State.modMyCore_wire (s : State) (f : Core → Core) : (s.modMyCore f).wire = s.wire := rfl
@[simp] theorem State.modMyCore_partWritten (s : State) (f : Core → Core) : (s.modMyCore f).partWritten = s.partWritten := rfl
@[simp] theorem State.modMyCore_sent (s : State) (f : Core → Core) : (s.modMyCore f).sent = s.sent := rfl
@[simp] theorem State.modMyCore_pfSlots (s : State) (f : Core → Core) : (s.modMyCore f).pfSlots = s.pfSlots := rfl
@[simp] theorem State.modMyCore_ready (s : State) (f : Core → Core) : (s.modMyCore f).ready = s.ready := rfl
@[simp] theorem State.modMyCore_events (s : State) (f : Core → Core) : (s.modMyCore f).events = s.events := rfl
@[simp] theorem State.modMyCore_eventsOut (s : State) (f : Core → Core) : (s.modMyCore f).eventsOut = s.eventsOut := rfl
@[simp] theorem State.modMyCore_eventsIn (s : State) (f : Core → Core) : (s.modMyCore f).eventsIn = s.eventsIn := rfl
@[simp] theorem State.modMyCore_eventsLost (s : State) (f : Core → Core) : (s.modMyCore f).eventsLost = s.eventsLost := rfl
@[simp] theorem State.modMyCore_pfCounters (s : State) (f : Core → Core) : (s.modMyCore f).pfCounters = s.pfCounters := rfl
@[simp] theorem State.modMyCore_drops (s : State) (f : Core → Core) : (s.modMyCore f).drops = s.drops := rfl
@[simp] theorem State.modMyCore_aperture (s : State) (f : Core → Core) : (s.modMyCore f).aperture = s.aperture := rfl
@[simp] theorem State.modMyCore_serial (s : State) (f : Core → Core) : (s.modMyCore f).serial = s.serial := rfl
@[simp] theorem State.modMyCore_lastTag (s : State) (f : Core → Core) : (s.modMyCore f).lastTag = s.lastTag := rfl
@[simp] theorem State.modMyCore_withdrawn (s : State) (f : Core → Core) : (s.modMyCore f).withdrawn = s.withdrawn := rfl
@[simp] theorem State.modMyCore_bootSerial (s : State) (f : Core → Core) : (s.modMyCore f).bootSerial = s.bootSerial := rfl
@[simp] theorem State.modMyCore_powerLimit (s : State) (f : Core → Core) : (s.modMyCore f).powerLimit = s.powerLimit := rfl
@[simp] theorem State.modMyCore_packagePower (s : State) (f : Core → Core) : (s.modMyCore f).packagePower = s.packagePower := rfl
@[simp] theorem State.modMyCore_inlet (s : State) (f : Core → Core) : (s.modMyCore f).inlet = s.inlet := rfl
@[simp] theorem State.modMyCore_flow (s : State) (f : Core → Core) : (s.modMyCore f).flow = s.flow := rfl
@[simp] theorem State.modMyCore_ide (s : State) (f : Core → Core) : (s.modMyCore f).ide = s.ide := rfl
@[simp] theorem State.modMyCore_scanHours (s : State) (f : Core → Core) : (s.modMyCore f).scanHours = s.scanHours := rfl
@[simp] theorem State.modMyCore_hostMem (s : State) (f : Core → Core) : (s.modMyCore f).hostMem = s.hostMem := rfl
@[simp] theorem State.modMyCore_hostRead (s : State) (f : Core → Core) : (s.modMyCore f).hostRead = s.hostRead := rfl
@[simp] theorem State.modMyCore_exports (s : State) (f : Core → Core) : (s.modMyCore f).exports = s.exports := rfl
@[simp] theorem State.modMyCore_agenda (s : State) (f : Core → Core) : (s.modMyCore f).agenda = s.agenda := rfl
@[simp] theorem State.modMyCore_cur (s : State) (f : Core → Core) : (s.modMyCore f).cur = s.cur := rfl
@[simp] theorem State.modMyCore_issue (s : State) (f : Core → Core) : (s.modMyCore f).issue = s.issue := rfl
@[simp] theorem State.modMyCore_fresh (s : State) (f : Core → Core) : (s.modMyCore f).fresh = s.fresh := rfl
@[simp] theorem State.modMyCore_nextId (s : State) (f : Core → Core) : (s.modMyCore f).nextId = s.nextId := rfl

/-! ## State.modDie -/

@[simp] theorem State.modDie_cores (s : State) (d : Nat) (f : Die → Die) : (s.modDie d f).cores = s.cores := rfl
@[simp] theorem State.modDie_hbm (s : State) (d : Nat) (f : Die → Die) : (s.modDie d f).hbm = s.hbm := rfl
@[simp] theorem State.modDie_hbmPoison (s : State) (d : Nat) (f : Die → Die) : (s.modDie d f).hbmPoison = s.hbmPoison := rfl
@[simp] theorem State.modDie_owner (s : State) (d : Nat) (f : Die → Die) : (s.modDie d f).owner = s.owner := rfl
@[simp] theorem State.modDie_parts (s : State) (d : Nat) (f : Die → Die) : (s.modDie d f).parts = s.parts := rfl
@[simp] theorem State.modDie_vfs (s : State) (d : Nat) (f : Die → Die) : (s.modDie d f).vfs = s.vfs := rfl
@[simp] theorem State.modDie_replicas (s : State) (d : Nat) (f : Die → Die) : (s.modDie d f).replicas = s.replicas := rfl
@[simp] theorem State.modDie_gangs (s : State) (d : Nat) (f : Die → Die) : (s.modDie d f).gangs = s.gangs := rfl
@[simp] theorem State.modDie_cmds (s : State) (d : Nat) (f : Die → Die) : (s.modDie d f).cmds = s.cmds := rfl
@[simp] theorem State.modDie_wire (s : State) (d : Nat) (f : Die → Die) : (s.modDie d f).wire = s.wire := rfl
@[simp] theorem State.modDie_partWritten (s : State) (d : Nat) (f : Die → Die) : (s.modDie d f).partWritten = s.partWritten := rfl
@[simp] theorem State.modDie_sent (s : State) (d : Nat) (f : Die → Die) : (s.modDie d f).sent = s.sent := rfl
@[simp] theorem State.modDie_pfSlots (s : State) (d : Nat) (f : Die → Die) : (s.modDie d f).pfSlots = s.pfSlots := rfl
@[simp] theorem State.modDie_ready (s : State) (d : Nat) (f : Die → Die) : (s.modDie d f).ready = s.ready := rfl
@[simp] theorem State.modDie_events (s : State) (d : Nat) (f : Die → Die) : (s.modDie d f).events = s.events := rfl
@[simp] theorem State.modDie_eventsOut (s : State) (d : Nat) (f : Die → Die) : (s.modDie d f).eventsOut = s.eventsOut := rfl
@[simp] theorem State.modDie_eventsIn (s : State) (d : Nat) (f : Die → Die) : (s.modDie d f).eventsIn = s.eventsIn := rfl
@[simp] theorem State.modDie_eventsLost (s : State) (d : Nat) (f : Die → Die) : (s.modDie d f).eventsLost = s.eventsLost := rfl
@[simp] theorem State.modDie_pfCounters (s : State) (d : Nat) (f : Die → Die) : (s.modDie d f).pfCounters = s.pfCounters := rfl
@[simp] theorem State.modDie_drops (s : State) (d : Nat) (f : Die → Die) : (s.modDie d f).drops = s.drops := rfl
@[simp] theorem State.modDie_aperture (s : State) (d : Nat) (f : Die → Die) : (s.modDie d f).aperture = s.aperture := rfl
@[simp] theorem State.modDie_serial (s : State) (d : Nat) (f : Die → Die) : (s.modDie d f).serial = s.serial := rfl
@[simp] theorem State.modDie_lastTag (s : State) (d : Nat) (f : Die → Die) : (s.modDie d f).lastTag = s.lastTag := rfl
@[simp] theorem State.modDie_withdrawn (s : State) (d : Nat) (f : Die → Die) : (s.modDie d f).withdrawn = s.withdrawn := rfl
@[simp] theorem State.modDie_bootSerial (s : State) (d : Nat) (f : Die → Die) : (s.modDie d f).bootSerial = s.bootSerial := rfl
@[simp] theorem State.modDie_powerLimit (s : State) (d : Nat) (f : Die → Die) : (s.modDie d f).powerLimit = s.powerLimit := rfl
@[simp] theorem State.modDie_packagePower (s : State) (d : Nat) (f : Die → Die) : (s.modDie d f).packagePower = s.packagePower := rfl
@[simp] theorem State.modDie_inlet (s : State) (d : Nat) (f : Die → Die) : (s.modDie d f).inlet = s.inlet := rfl
@[simp] theorem State.modDie_flow (s : State) (d : Nat) (f : Die → Die) : (s.modDie d f).flow = s.flow := rfl
@[simp] theorem State.modDie_ide (s : State) (d : Nat) (f : Die → Die) : (s.modDie d f).ide = s.ide := rfl
@[simp] theorem State.modDie_scanHours (s : State) (d : Nat) (f : Die → Die) : (s.modDie d f).scanHours = s.scanHours := rfl
@[simp] theorem State.modDie_hostMem (s : State) (d : Nat) (f : Die → Die) : (s.modDie d f).hostMem = s.hostMem := rfl
@[simp] theorem State.modDie_hostRead (s : State) (d : Nat) (f : Die → Die) : (s.modDie d f).hostRead = s.hostRead := rfl
@[simp] theorem State.modDie_exports (s : State) (d : Nat) (f : Die → Die) : (s.modDie d f).exports = s.exports := rfl
@[simp] theorem State.modDie_agenda (s : State) (d : Nat) (f : Die → Die) : (s.modDie d f).agenda = s.agenda := rfl
@[simp] theorem State.modDie_cur (s : State) (d : Nat) (f : Die → Die) : (s.modDie d f).cur = s.cur := rfl
@[simp] theorem State.modDie_issue (s : State) (d : Nat) (f : Die → Die) : (s.modDie d f).issue = s.issue := rfl
@[simp] theorem State.modDie_fresh (s : State) (d : Nat) (f : Die → Die) : (s.modDie d f).fresh = s.fresh := rfl
@[simp] theorem State.modDie_nextId (s : State) (d : Nat) (f : Die → Die) : (s.modDie d f).nextId = s.nextId := rfl

/-! ## State.modTeam -/

@[simp] theorem State.modTeam_cores (s : State) (d t : Nat) (f : Team → Team) : (s.modTeam d t f).cores = s.cores := rfl
@[simp] theorem State.modTeam_hbm (s : State) (d t : Nat) (f : Team → Team) : (s.modTeam d t f).hbm = s.hbm := rfl
@[simp] theorem State.modTeam_hbmPoison (s : State) (d t : Nat) (f : Team → Team) : (s.modTeam d t f).hbmPoison = s.hbmPoison := rfl
@[simp] theorem State.modTeam_owner (s : State) (d t : Nat) (f : Team → Team) : (s.modTeam d t f).owner = s.owner := rfl
@[simp] theorem State.modTeam_parts (s : State) (d t : Nat) (f : Team → Team) : (s.modTeam d t f).parts = s.parts := rfl
@[simp] theorem State.modTeam_vfs (s : State) (d t : Nat) (f : Team → Team) : (s.modTeam d t f).vfs = s.vfs := rfl
@[simp] theorem State.modTeam_replicas (s : State) (d t : Nat) (f : Team → Team) : (s.modTeam d t f).replicas = s.replicas := rfl
@[simp] theorem State.modTeam_gangs (s : State) (d t : Nat) (f : Team → Team) : (s.modTeam d t f).gangs = s.gangs := rfl
@[simp] theorem State.modTeam_cmds (s : State) (d t : Nat) (f : Team → Team) : (s.modTeam d t f).cmds = s.cmds := rfl
@[simp] theorem State.modTeam_wire (s : State) (d t : Nat) (f : Team → Team) : (s.modTeam d t f).wire = s.wire := rfl
@[simp] theorem State.modTeam_partWritten (s : State) (d t : Nat) (f : Team → Team) : (s.modTeam d t f).partWritten = s.partWritten := rfl
@[simp] theorem State.modTeam_sent (s : State) (d t : Nat) (f : Team → Team) : (s.modTeam d t f).sent = s.sent := rfl
@[simp] theorem State.modTeam_pfSlots (s : State) (d t : Nat) (f : Team → Team) : (s.modTeam d t f).pfSlots = s.pfSlots := rfl
@[simp] theorem State.modTeam_ready (s : State) (d t : Nat) (f : Team → Team) : (s.modTeam d t f).ready = s.ready := rfl
@[simp] theorem State.modTeam_events (s : State) (d t : Nat) (f : Team → Team) : (s.modTeam d t f).events = s.events := rfl
@[simp] theorem State.modTeam_eventsOut (s : State) (d t : Nat) (f : Team → Team) : (s.modTeam d t f).eventsOut = s.eventsOut := rfl
@[simp] theorem State.modTeam_eventsIn (s : State) (d t : Nat) (f : Team → Team) : (s.modTeam d t f).eventsIn = s.eventsIn := rfl
@[simp] theorem State.modTeam_eventsLost (s : State) (d t : Nat) (f : Team → Team) : (s.modTeam d t f).eventsLost = s.eventsLost := rfl
@[simp] theorem State.modTeam_pfCounters (s : State) (d t : Nat) (f : Team → Team) : (s.modTeam d t f).pfCounters = s.pfCounters := rfl
@[simp] theorem State.modTeam_drops (s : State) (d t : Nat) (f : Team → Team) : (s.modTeam d t f).drops = s.drops := rfl
@[simp] theorem State.modTeam_aperture (s : State) (d t : Nat) (f : Team → Team) : (s.modTeam d t f).aperture = s.aperture := rfl
@[simp] theorem State.modTeam_serial (s : State) (d t : Nat) (f : Team → Team) : (s.modTeam d t f).serial = s.serial := rfl
@[simp] theorem State.modTeam_lastTag (s : State) (d t : Nat) (f : Team → Team) : (s.modTeam d t f).lastTag = s.lastTag := rfl
@[simp] theorem State.modTeam_withdrawn (s : State) (d t : Nat) (f : Team → Team) : (s.modTeam d t f).withdrawn = s.withdrawn := rfl
@[simp] theorem State.modTeam_bootSerial (s : State) (d t : Nat) (f : Team → Team) : (s.modTeam d t f).bootSerial = s.bootSerial := rfl
@[simp] theorem State.modTeam_powerLimit (s : State) (d t : Nat) (f : Team → Team) : (s.modTeam d t f).powerLimit = s.powerLimit := rfl
@[simp] theorem State.modTeam_packagePower (s : State) (d t : Nat) (f : Team → Team) : (s.modTeam d t f).packagePower = s.packagePower := rfl
@[simp] theorem State.modTeam_inlet (s : State) (d t : Nat) (f : Team → Team) : (s.modTeam d t f).inlet = s.inlet := rfl
@[simp] theorem State.modTeam_flow (s : State) (d t : Nat) (f : Team → Team) : (s.modTeam d t f).flow = s.flow := rfl
@[simp] theorem State.modTeam_ide (s : State) (d t : Nat) (f : Team → Team) : (s.modTeam d t f).ide = s.ide := rfl
@[simp] theorem State.modTeam_scanHours (s : State) (d t : Nat) (f : Team → Team) : (s.modTeam d t f).scanHours = s.scanHours := rfl
@[simp] theorem State.modTeam_hostMem (s : State) (d t : Nat) (f : Team → Team) : (s.modTeam d t f).hostMem = s.hostMem := rfl
@[simp] theorem State.modTeam_hostRead (s : State) (d t : Nat) (f : Team → Team) : (s.modTeam d t f).hostRead = s.hostRead := rfl
@[simp] theorem State.modTeam_exports (s : State) (d t : Nat) (f : Team → Team) : (s.modTeam d t f).exports = s.exports := rfl
@[simp] theorem State.modTeam_agenda (s : State) (d t : Nat) (f : Team → Team) : (s.modTeam d t f).agenda = s.agenda := rfl
@[simp] theorem State.modTeam_cur (s : State) (d t : Nat) (f : Team → Team) : (s.modTeam d t f).cur = s.cur := rfl
@[simp] theorem State.modTeam_issue (s : State) (d t : Nat) (f : Team → Team) : (s.modTeam d t f).issue = s.issue := rfl
@[simp] theorem State.modTeam_fresh (s : State) (d t : Nat) (f : Team → Team) : (s.modTeam d t f).fresh = s.fresh := rfl
@[simp] theorem State.modTeam_nextId (s : State) (d t : Nat) (f : Team → Team) : (s.modTeam d t f).nextId = s.nextId := rfl

/-! ## State.modMyTeam -/

@[simp] theorem State.modMyTeam_cores (s : State) (f : Team → Team) : (s.modMyTeam f).cores = s.cores := rfl
@[simp] theorem State.modMyTeam_hbm (s : State) (f : Team → Team) : (s.modMyTeam f).hbm = s.hbm := rfl
@[simp] theorem State.modMyTeam_hbmPoison (s : State) (f : Team → Team) : (s.modMyTeam f).hbmPoison = s.hbmPoison := rfl
@[simp] theorem State.modMyTeam_owner (s : State) (f : Team → Team) : (s.modMyTeam f).owner = s.owner := rfl
@[simp] theorem State.modMyTeam_parts (s : State) (f : Team → Team) : (s.modMyTeam f).parts = s.parts := rfl
@[simp] theorem State.modMyTeam_vfs (s : State) (f : Team → Team) : (s.modMyTeam f).vfs = s.vfs := rfl
@[simp] theorem State.modMyTeam_replicas (s : State) (f : Team → Team) : (s.modMyTeam f).replicas = s.replicas := rfl
@[simp] theorem State.modMyTeam_gangs (s : State) (f : Team → Team) : (s.modMyTeam f).gangs = s.gangs := rfl
@[simp] theorem State.modMyTeam_cmds (s : State) (f : Team → Team) : (s.modMyTeam f).cmds = s.cmds := rfl
@[simp] theorem State.modMyTeam_wire (s : State) (f : Team → Team) : (s.modMyTeam f).wire = s.wire := rfl
@[simp] theorem State.modMyTeam_partWritten (s : State) (f : Team → Team) : (s.modMyTeam f).partWritten = s.partWritten := rfl
@[simp] theorem State.modMyTeam_sent (s : State) (f : Team → Team) : (s.modMyTeam f).sent = s.sent := rfl
@[simp] theorem State.modMyTeam_pfSlots (s : State) (f : Team → Team) : (s.modMyTeam f).pfSlots = s.pfSlots := rfl
@[simp] theorem State.modMyTeam_ready (s : State) (f : Team → Team) : (s.modMyTeam f).ready = s.ready := rfl
@[simp] theorem State.modMyTeam_events (s : State) (f : Team → Team) : (s.modMyTeam f).events = s.events := rfl
@[simp] theorem State.modMyTeam_eventsOut (s : State) (f : Team → Team) : (s.modMyTeam f).eventsOut = s.eventsOut := rfl
@[simp] theorem State.modMyTeam_eventsIn (s : State) (f : Team → Team) : (s.modMyTeam f).eventsIn = s.eventsIn := rfl
@[simp] theorem State.modMyTeam_eventsLost (s : State) (f : Team → Team) : (s.modMyTeam f).eventsLost = s.eventsLost := rfl
@[simp] theorem State.modMyTeam_pfCounters (s : State) (f : Team → Team) : (s.modMyTeam f).pfCounters = s.pfCounters := rfl
@[simp] theorem State.modMyTeam_drops (s : State) (f : Team → Team) : (s.modMyTeam f).drops = s.drops := rfl
@[simp] theorem State.modMyTeam_aperture (s : State) (f : Team → Team) : (s.modMyTeam f).aperture = s.aperture := rfl
@[simp] theorem State.modMyTeam_serial (s : State) (f : Team → Team) : (s.modMyTeam f).serial = s.serial := rfl
@[simp] theorem State.modMyTeam_lastTag (s : State) (f : Team → Team) : (s.modMyTeam f).lastTag = s.lastTag := rfl
@[simp] theorem State.modMyTeam_withdrawn (s : State) (f : Team → Team) : (s.modMyTeam f).withdrawn = s.withdrawn := rfl
@[simp] theorem State.modMyTeam_bootSerial (s : State) (f : Team → Team) : (s.modMyTeam f).bootSerial = s.bootSerial := rfl
@[simp] theorem State.modMyTeam_powerLimit (s : State) (f : Team → Team) : (s.modMyTeam f).powerLimit = s.powerLimit := rfl
@[simp] theorem State.modMyTeam_packagePower (s : State) (f : Team → Team) : (s.modMyTeam f).packagePower = s.packagePower := rfl
@[simp] theorem State.modMyTeam_inlet (s : State) (f : Team → Team) : (s.modMyTeam f).inlet = s.inlet := rfl
@[simp] theorem State.modMyTeam_flow (s : State) (f : Team → Team) : (s.modMyTeam f).flow = s.flow := rfl
@[simp] theorem State.modMyTeam_ide (s : State) (f : Team → Team) : (s.modMyTeam f).ide = s.ide := rfl
@[simp] theorem State.modMyTeam_scanHours (s : State) (f : Team → Team) : (s.modMyTeam f).scanHours = s.scanHours := rfl
@[simp] theorem State.modMyTeam_hostMem (s : State) (f : Team → Team) : (s.modMyTeam f).hostMem = s.hostMem := rfl
@[simp] theorem State.modMyTeam_hostRead (s : State) (f : Team → Team) : (s.modMyTeam f).hostRead = s.hostRead := rfl
@[simp] theorem State.modMyTeam_exports (s : State) (f : Team → Team) : (s.modMyTeam f).exports = s.exports := rfl
@[simp] theorem State.modMyTeam_agenda (s : State) (f : Team → Team) : (s.modMyTeam f).agenda = s.agenda := rfl
@[simp] theorem State.modMyTeam_cur (s : State) (f : Team → Team) : (s.modMyTeam f).cur = s.cur := rfl
@[simp] theorem State.modMyTeam_issue (s : State) (f : Team → Team) : (s.modMyTeam f).issue = s.issue := rfl
@[simp] theorem State.modMyTeam_fresh (s : State) (f : Team → Team) : (s.modMyTeam f).fresh = s.fresh := rfl
@[simp] theorem State.modMyTeam_nextId (s : State) (f : Team → Team) : (s.modMyTeam f).nextId = s.nextId := rfl

/-! ## State.modPart -/

@[simp] theorem State.modPart_cores (s : State) (p : Nat) (f : Partition → Partition) : (s.modPart p f).cores = s.cores := rfl
@[simp] theorem State.modPart_dies (s : State) (p : Nat) (f : Partition → Partition) : (s.modPart p f).dies = s.dies := rfl
@[simp] theorem State.modPart_hbm (s : State) (p : Nat) (f : Partition → Partition) : (s.modPart p f).hbm = s.hbm := rfl
@[simp] theorem State.modPart_hbmPoison (s : State) (p : Nat) (f : Partition → Partition) : (s.modPart p f).hbmPoison = s.hbmPoison := rfl
@[simp] theorem State.modPart_owner (s : State) (p : Nat) (f : Partition → Partition) : (s.modPart p f).owner = s.owner := rfl
@[simp] theorem State.modPart_vfs (s : State) (p : Nat) (f : Partition → Partition) : (s.modPart p f).vfs = s.vfs := rfl
@[simp] theorem State.modPart_replicas (s : State) (p : Nat) (f : Partition → Partition) : (s.modPart p f).replicas = s.replicas := rfl
@[simp] theorem State.modPart_gangs (s : State) (p : Nat) (f : Partition → Partition) : (s.modPart p f).gangs = s.gangs := rfl
@[simp] theorem State.modPart_cmds (s : State) (p : Nat) (f : Partition → Partition) : (s.modPart p f).cmds = s.cmds := rfl
@[simp] theorem State.modPart_wire (s : State) (p : Nat) (f : Partition → Partition) : (s.modPart p f).wire = s.wire := rfl
@[simp] theorem State.modPart_partWritten (s : State) (p : Nat) (f : Partition → Partition) : (s.modPart p f).partWritten = s.partWritten := rfl
@[simp] theorem State.modPart_sent (s : State) (p : Nat) (f : Partition → Partition) : (s.modPart p f).sent = s.sent := rfl
@[simp] theorem State.modPart_pfSlots (s : State) (p : Nat) (f : Partition → Partition) : (s.modPart p f).pfSlots = s.pfSlots := rfl
@[simp] theorem State.modPart_ready (s : State) (p : Nat) (f : Partition → Partition) : (s.modPart p f).ready = s.ready := rfl
@[simp] theorem State.modPart_events (s : State) (p : Nat) (f : Partition → Partition) : (s.modPart p f).events = s.events := rfl
@[simp] theorem State.modPart_eventsOut (s : State) (p : Nat) (f : Partition → Partition) : (s.modPart p f).eventsOut = s.eventsOut := rfl
@[simp] theorem State.modPart_eventsIn (s : State) (p : Nat) (f : Partition → Partition) : (s.modPart p f).eventsIn = s.eventsIn := rfl
@[simp] theorem State.modPart_eventsLost (s : State) (p : Nat) (f : Partition → Partition) : (s.modPart p f).eventsLost = s.eventsLost := rfl
@[simp] theorem State.modPart_pfCounters (s : State) (p : Nat) (f : Partition → Partition) : (s.modPart p f).pfCounters = s.pfCounters := rfl
@[simp] theorem State.modPart_drops (s : State) (p : Nat) (f : Partition → Partition) : (s.modPart p f).drops = s.drops := rfl
@[simp] theorem State.modPart_aperture (s : State) (p : Nat) (f : Partition → Partition) : (s.modPart p f).aperture = s.aperture := rfl
@[simp] theorem State.modPart_serial (s : State) (p : Nat) (f : Partition → Partition) : (s.modPart p f).serial = s.serial := rfl
@[simp] theorem State.modPart_lastTag (s : State) (p : Nat) (f : Partition → Partition) : (s.modPart p f).lastTag = s.lastTag := rfl
@[simp] theorem State.modPart_withdrawn (s : State) (p : Nat) (f : Partition → Partition) : (s.modPart p f).withdrawn = s.withdrawn := rfl
@[simp] theorem State.modPart_bootSerial (s : State) (p : Nat) (f : Partition → Partition) : (s.modPart p f).bootSerial = s.bootSerial := rfl
@[simp] theorem State.modPart_powerLimit (s : State) (p : Nat) (f : Partition → Partition) : (s.modPart p f).powerLimit = s.powerLimit := rfl
@[simp] theorem State.modPart_packagePower (s : State) (p : Nat) (f : Partition → Partition) : (s.modPart p f).packagePower = s.packagePower := rfl
@[simp] theorem State.modPart_inlet (s : State) (p : Nat) (f : Partition → Partition) : (s.modPart p f).inlet = s.inlet := rfl
@[simp] theorem State.modPart_flow (s : State) (p : Nat) (f : Partition → Partition) : (s.modPart p f).flow = s.flow := rfl
@[simp] theorem State.modPart_ide (s : State) (p : Nat) (f : Partition → Partition) : (s.modPart p f).ide = s.ide := rfl
@[simp] theorem State.modPart_scanHours (s : State) (p : Nat) (f : Partition → Partition) : (s.modPart p f).scanHours = s.scanHours := rfl
@[simp] theorem State.modPart_hostMem (s : State) (p : Nat) (f : Partition → Partition) : (s.modPart p f).hostMem = s.hostMem := rfl
@[simp] theorem State.modPart_hostRead (s : State) (p : Nat) (f : Partition → Partition) : (s.modPart p f).hostRead = s.hostRead := rfl
@[simp] theorem State.modPart_exports (s : State) (p : Nat) (f : Partition → Partition) : (s.modPart p f).exports = s.exports := rfl
@[simp] theorem State.modPart_agenda (s : State) (p : Nat) (f : Partition → Partition) : (s.modPart p f).agenda = s.agenda := rfl
@[simp] theorem State.modPart_cur (s : State) (p : Nat) (f : Partition → Partition) : (s.modPart p f).cur = s.cur := rfl
@[simp] theorem State.modPart_issue (s : State) (p : Nat) (f : Partition → Partition) : (s.modPart p f).issue = s.issue := rfl
@[simp] theorem State.modPart_fresh (s : State) (p : Nat) (f : Partition → Partition) : (s.modPart p f).fresh = s.fresh := rfl
@[simp] theorem State.modPart_nextId (s : State) (p : Nat) (f : Partition → Partition) : (s.modPart p f).nextId = s.nextId := rfl

/-! ## State.modVf -/

@[simp] theorem State.modVf_cores (s : State) (v : Nat) (f : Vf → Vf) : (s.modVf v f).cores = s.cores := rfl
@[simp] theorem State.modVf_dies (s : State) (v : Nat) (f : Vf → Vf) : (s.modVf v f).dies = s.dies := rfl
@[simp] theorem State.modVf_hbm (s : State) (v : Nat) (f : Vf → Vf) : (s.modVf v f).hbm = s.hbm := rfl
@[simp] theorem State.modVf_hbmPoison (s : State) (v : Nat) (f : Vf → Vf) : (s.modVf v f).hbmPoison = s.hbmPoison := rfl
@[simp] theorem State.modVf_owner (s : State) (v : Nat) (f : Vf → Vf) : (s.modVf v f).owner = s.owner := rfl
@[simp] theorem State.modVf_parts (s : State) (v : Nat) (f : Vf → Vf) : (s.modVf v f).parts = s.parts := rfl
@[simp] theorem State.modVf_replicas (s : State) (v : Nat) (f : Vf → Vf) : (s.modVf v f).replicas = s.replicas := rfl
@[simp] theorem State.modVf_gangs (s : State) (v : Nat) (f : Vf → Vf) : (s.modVf v f).gangs = s.gangs := rfl
@[simp] theorem State.modVf_cmds (s : State) (v : Nat) (f : Vf → Vf) : (s.modVf v f).cmds = s.cmds := rfl
@[simp] theorem State.modVf_wire (s : State) (v : Nat) (f : Vf → Vf) : (s.modVf v f).wire = s.wire := rfl
@[simp] theorem State.modVf_partWritten (s : State) (v : Nat) (f : Vf → Vf) : (s.modVf v f).partWritten = s.partWritten := rfl
@[simp] theorem State.modVf_sent (s : State) (v : Nat) (f : Vf → Vf) : (s.modVf v f).sent = s.sent := rfl
@[simp] theorem State.modVf_pfSlots (s : State) (v : Nat) (f : Vf → Vf) : (s.modVf v f).pfSlots = s.pfSlots := rfl
@[simp] theorem State.modVf_ready (s : State) (v : Nat) (f : Vf → Vf) : (s.modVf v f).ready = s.ready := rfl
@[simp] theorem State.modVf_events (s : State) (v : Nat) (f : Vf → Vf) : (s.modVf v f).events = s.events := rfl
@[simp] theorem State.modVf_eventsOut (s : State) (v : Nat) (f : Vf → Vf) : (s.modVf v f).eventsOut = s.eventsOut := rfl
@[simp] theorem State.modVf_eventsIn (s : State) (v : Nat) (f : Vf → Vf) : (s.modVf v f).eventsIn = s.eventsIn := rfl
@[simp] theorem State.modVf_eventsLost (s : State) (v : Nat) (f : Vf → Vf) : (s.modVf v f).eventsLost = s.eventsLost := rfl
@[simp] theorem State.modVf_pfCounters (s : State) (v : Nat) (f : Vf → Vf) : (s.modVf v f).pfCounters = s.pfCounters := rfl
@[simp] theorem State.modVf_drops (s : State) (v : Nat) (f : Vf → Vf) : (s.modVf v f).drops = s.drops := rfl
@[simp] theorem State.modVf_aperture (s : State) (v : Nat) (f : Vf → Vf) : (s.modVf v f).aperture = s.aperture := rfl
@[simp] theorem State.modVf_serial (s : State) (v : Nat) (f : Vf → Vf) : (s.modVf v f).serial = s.serial := rfl
@[simp] theorem State.modVf_lastTag (s : State) (v : Nat) (f : Vf → Vf) : (s.modVf v f).lastTag = s.lastTag := rfl
@[simp] theorem State.modVf_withdrawn (s : State) (v : Nat) (f : Vf → Vf) : (s.modVf v f).withdrawn = s.withdrawn := rfl
@[simp] theorem State.modVf_bootSerial (s : State) (v : Nat) (f : Vf → Vf) : (s.modVf v f).bootSerial = s.bootSerial := rfl
@[simp] theorem State.modVf_powerLimit (s : State) (v : Nat) (f : Vf → Vf) : (s.modVf v f).powerLimit = s.powerLimit := rfl
@[simp] theorem State.modVf_packagePower (s : State) (v : Nat) (f : Vf → Vf) : (s.modVf v f).packagePower = s.packagePower := rfl
@[simp] theorem State.modVf_inlet (s : State) (v : Nat) (f : Vf → Vf) : (s.modVf v f).inlet = s.inlet := rfl
@[simp] theorem State.modVf_flow (s : State) (v : Nat) (f : Vf → Vf) : (s.modVf v f).flow = s.flow := rfl
@[simp] theorem State.modVf_ide (s : State) (v : Nat) (f : Vf → Vf) : (s.modVf v f).ide = s.ide := rfl
@[simp] theorem State.modVf_scanHours (s : State) (v : Nat) (f : Vf → Vf) : (s.modVf v f).scanHours = s.scanHours := rfl
@[simp] theorem State.modVf_hostMem (s : State) (v : Nat) (f : Vf → Vf) : (s.modVf v f).hostMem = s.hostMem := rfl
@[simp] theorem State.modVf_hostRead (s : State) (v : Nat) (f : Vf → Vf) : (s.modVf v f).hostRead = s.hostRead := rfl
@[simp] theorem State.modVf_exports (s : State) (v : Nat) (f : Vf → Vf) : (s.modVf v f).exports = s.exports := rfl
@[simp] theorem State.modVf_agenda (s : State) (v : Nat) (f : Vf → Vf) : (s.modVf v f).agenda = s.agenda := rfl
@[simp] theorem State.modVf_cur (s : State) (v : Nat) (f : Vf → Vf) : (s.modVf v f).cur = s.cur := rfl
@[simp] theorem State.modVf_issue (s : State) (v : Nat) (f : Vf → Vf) : (s.modVf v f).issue = s.issue := rfl
@[simp] theorem State.modVf_fresh (s : State) (v : Nat) (f : Vf → Vf) : (s.modVf v f).fresh = s.fresh := rfl
@[simp] theorem State.modVf_nextId (s : State) (v : Nat) (f : Vf → Vf) : (s.modVf v f).nextId = s.nextId := rfl

/-! ## State.modCmd -/

@[simp] theorem State.modCmd_cores (s : State) (id : Nat) (f : Cmd → Cmd) : (s.modCmd id f).cores = s.cores := rfl
@[simp] theorem State.modCmd_dies (s : State) (id : Nat) (f : Cmd → Cmd) : (s.modCmd id f).dies = s.dies := rfl
@[simp] theorem State.modCmd_hbm (s : State) (id : Nat) (f : Cmd → Cmd) : (s.modCmd id f).hbm = s.hbm := rfl
@[simp] theorem State.modCmd_hbmPoison (s : State) (id : Nat) (f : Cmd → Cmd) : (s.modCmd id f).hbmPoison = s.hbmPoison := rfl
@[simp] theorem State.modCmd_owner (s : State) (id : Nat) (f : Cmd → Cmd) : (s.modCmd id f).owner = s.owner := rfl
@[simp] theorem State.modCmd_parts (s : State) (id : Nat) (f : Cmd → Cmd) : (s.modCmd id f).parts = s.parts := rfl
@[simp] theorem State.modCmd_vfs (s : State) (id : Nat) (f : Cmd → Cmd) : (s.modCmd id f).vfs = s.vfs := rfl
@[simp] theorem State.modCmd_replicas (s : State) (id : Nat) (f : Cmd → Cmd) : (s.modCmd id f).replicas = s.replicas := rfl
@[simp] theorem State.modCmd_gangs (s : State) (id : Nat) (f : Cmd → Cmd) : (s.modCmd id f).gangs = s.gangs := rfl
@[simp] theorem State.modCmd_wire (s : State) (id : Nat) (f : Cmd → Cmd) : (s.modCmd id f).wire = s.wire := rfl
@[simp] theorem State.modCmd_partWritten (s : State) (id : Nat) (f : Cmd → Cmd) : (s.modCmd id f).partWritten = s.partWritten := rfl
@[simp] theorem State.modCmd_sent (s : State) (id : Nat) (f : Cmd → Cmd) : (s.modCmd id f).sent = s.sent := rfl
@[simp] theorem State.modCmd_pfSlots (s : State) (id : Nat) (f : Cmd → Cmd) : (s.modCmd id f).pfSlots = s.pfSlots := rfl
@[simp] theorem State.modCmd_ready (s : State) (id : Nat) (f : Cmd → Cmd) : (s.modCmd id f).ready = s.ready := rfl
@[simp] theorem State.modCmd_events (s : State) (id : Nat) (f : Cmd → Cmd) : (s.modCmd id f).events = s.events := rfl
@[simp] theorem State.modCmd_eventsOut (s : State) (id : Nat) (f : Cmd → Cmd) : (s.modCmd id f).eventsOut = s.eventsOut := rfl
@[simp] theorem State.modCmd_eventsIn (s : State) (id : Nat) (f : Cmd → Cmd) : (s.modCmd id f).eventsIn = s.eventsIn := rfl
@[simp] theorem State.modCmd_eventsLost (s : State) (id : Nat) (f : Cmd → Cmd) : (s.modCmd id f).eventsLost = s.eventsLost := rfl
@[simp] theorem State.modCmd_pfCounters (s : State) (id : Nat) (f : Cmd → Cmd) : (s.modCmd id f).pfCounters = s.pfCounters := rfl
@[simp] theorem State.modCmd_drops (s : State) (id : Nat) (f : Cmd → Cmd) : (s.modCmd id f).drops = s.drops := rfl
@[simp] theorem State.modCmd_aperture (s : State) (id : Nat) (f : Cmd → Cmd) : (s.modCmd id f).aperture = s.aperture := rfl
@[simp] theorem State.modCmd_serial (s : State) (id : Nat) (f : Cmd → Cmd) : (s.modCmd id f).serial = s.serial := rfl
@[simp] theorem State.modCmd_lastTag (s : State) (id : Nat) (f : Cmd → Cmd) : (s.modCmd id f).lastTag = s.lastTag := rfl
@[simp] theorem State.modCmd_withdrawn (s : State) (id : Nat) (f : Cmd → Cmd) : (s.modCmd id f).withdrawn = s.withdrawn := rfl
@[simp] theorem State.modCmd_bootSerial (s : State) (id : Nat) (f : Cmd → Cmd) : (s.modCmd id f).bootSerial = s.bootSerial := rfl
@[simp] theorem State.modCmd_powerLimit (s : State) (id : Nat) (f : Cmd → Cmd) : (s.modCmd id f).powerLimit = s.powerLimit := rfl
@[simp] theorem State.modCmd_packagePower (s : State) (id : Nat) (f : Cmd → Cmd) : (s.modCmd id f).packagePower = s.packagePower := rfl
@[simp] theorem State.modCmd_inlet (s : State) (id : Nat) (f : Cmd → Cmd) : (s.modCmd id f).inlet = s.inlet := rfl
@[simp] theorem State.modCmd_flow (s : State) (id : Nat) (f : Cmd → Cmd) : (s.modCmd id f).flow = s.flow := rfl
@[simp] theorem State.modCmd_ide (s : State) (id : Nat) (f : Cmd → Cmd) : (s.modCmd id f).ide = s.ide := rfl
@[simp] theorem State.modCmd_scanHours (s : State) (id : Nat) (f : Cmd → Cmd) : (s.modCmd id f).scanHours = s.scanHours := rfl
@[simp] theorem State.modCmd_hostMem (s : State) (id : Nat) (f : Cmd → Cmd) : (s.modCmd id f).hostMem = s.hostMem := rfl
@[simp] theorem State.modCmd_hostRead (s : State) (id : Nat) (f : Cmd → Cmd) : (s.modCmd id f).hostRead = s.hostRead := rfl
@[simp] theorem State.modCmd_exports (s : State) (id : Nat) (f : Cmd → Cmd) : (s.modCmd id f).exports = s.exports := rfl
@[simp] theorem State.modCmd_agenda (s : State) (id : Nat) (f : Cmd → Cmd) : (s.modCmd id f).agenda = s.agenda := rfl
@[simp] theorem State.modCmd_cur (s : State) (id : Nat) (f : Cmd → Cmd) : (s.modCmd id f).cur = s.cur := rfl
@[simp] theorem State.modCmd_issue (s : State) (id : Nat) (f : Cmd → Cmd) : (s.modCmd id f).issue = s.issue := rfl
@[simp] theorem State.modCmd_fresh (s : State) (id : Nat) (f : Cmd → Cmd) : (s.modCmd id f).fresh = s.fresh := rfl
@[simp] theorem State.modCmd_nextId (s : State) (id : Nat) (f : Cmd → Cmd) : (s.modCmd id f).nextId = s.nextId := rfl

/-! ## Core.setStrand -/

@[simp] theorem Core.setStrand_part (k : Core) (n : Nat) (t : Strand) : (k.setStrand n t).part = k.part := rfl
@[simp] theorem Core.setStrand_ran (k : Core) (n : Nat) (t : Strand) : (k.setStrand n t).ran = k.ran := rfl
@[simp] theorem Core.setStrand_pool (k : Core) (n : Nat) (t : Strand) : (k.setStrand n t).pool = k.pool := rfl
@[simp] theorem Core.setStrand_poolPoison (k : Core) (n : Nat) (t : Strand) : (k.setStrand n t).poolPoison = k.poolPoison := rfl
@[simp] theorem Core.setStrand_scale (k : Core) (n : Nat) (t : Strand) : (k.setStrand n t).scale = k.scale := rfl
@[simp] theorem Core.setStrand_scaleMarks (k : Core) (n : Nat) (t : Strand) : (k.setStrand n t).scaleMarks = k.scaleMarks := rfl
@[simp] theorem Core.setStrand_running (k : Core) (n : Nat) (t : Strand) : (k.setStrand n t).running = k.running := rfl
@[simp] theorem Core.setStrand_last (k : Core) (n : Nat) (t : Strand) : (k.setStrand n t).last = k.last := rfl
@[simp] theorem Core.setStrand_switchLeft (k : Core) (n : Nat) (t : Strand) : (k.setStrand n t).switchLeft = k.switchLeft := rfl
@[simp] theorem Core.setStrand_cycle (k : Core) (n : Nat) (t : Strand) : (k.setStrand n t).cycle = k.cycle := rfl
@[simp] theorem Core.setStrand_mtime (k : Core) (n : Nat) (t : Strand) : (k.setStrand n t).mtime = k.mtime := rfl
@[simp] theorem Core.setStrand_cBase (k : Core) (n : Nat) (t : Strand) : (k.setStrand n t).cBase = k.cBase := rfl
@[simp] theorem Core.setStrand_resumed (k : Core) (n : Nat) (t : Strand) : (k.setStrand n t).resumed = k.resumed := rfl
@[simp] theorem Core.setStrand_rowsWait (k : Core) (n : Nat) (t : Strand) : (k.setStrand n t).rowsWait = k.rowsWait := rfl
@[simp] theorem Core.setStrand_frost (k : Core) (n : Nat) (t : Strand) : (k.setStrand n t).frost = k.frost := rfl
@[simp] theorem Core.setStrand_lockFrost (k : Core) (n : Nat) (t : Strand) : (k.setStrand n t).lockFrost = k.lockFrost := rfl
@[simp] theorem Core.setStrand_stall (k : Core) (n : Nat) (t : Strand) : (k.setStrand n t).stall = k.stall := rfl
@[simp] theorem Core.setStrand_issued (k : Core) (n : Nat) (t : Strand) : (k.setStrand n t).issued = k.issued := rfl
@[simp] theorem Core.setStrand_divA (k : Core) (n : Nat) (t : Strand) : (k.setStrand n t).divA = k.divA := rfl
@[simp] theorem Core.setStrand_divB (k : Core) (n : Nat) (t : Strand) : (k.setStrand n t).divB = k.divB := rfl
@[simp] theorem Core.setStrand_arrayUntil (k : Core) (n : Nat) (t : Strand) : (k.setStrand n t).arrayUntil = k.arrayUntil := rfl
@[simp] theorem Core.setStrand_loaderUntil (k : Core) (n : Nat) (t : Strand) : (k.setStrand n t).loaderUntil = k.loaderUntil := rfl
@[simp] theorem Core.setStrand_portUntil (k : Core) (n : Nat) (t : Strand) : (k.setStrand n t).portUntil = k.portUntil := rfl
@[simp] theorem Core.setStrand_triUntil (k : Core) (n : Nat) (t : Strand) : (k.setStrand n t).triUntil = k.triUntil := rfl
@[simp] theorem Core.setStrand_filePortUntil (k : Core) (n : Nat) (t : Strand) : (k.setStrand n t).filePortUntil = k.filePortUntil := rfl
@[simp] theorem Core.setStrand_cellUntil (k : Core) (n : Nat) (t : Strand) : (k.setStrand n t).cellUntil = k.cellUntil := rfl
@[simp] theorem Core.setStrand_slots (k : Core) (n : Nat) (t : Strand) : (k.setStrand n t).slots = k.slots := rfl
@[simp] theorem Core.setStrand_mults (k : Core) (n : Nat) (t : Strand) : (k.setStrand n t).mults = k.mults := rfl
@[simp] theorem Core.setStrand_tileWork (k : Core) (n : Nat) (t : Strand) : (k.setStrand n t).tileWork = k.tileWork := rfl
@[simp] theorem Core.setStrand_poolWrites (k : Core) (n : Nat) (t : Strand) : (k.setStrand n t).poolWrites = k.poolWrites := rfl
@[simp] theorem Core.setStrand_ahead (k : Core) (n : Nat) (t : Strand) : (k.setStrand n t).ahead = k.ahead := rfl
@[simp] theorem Core.setStrand_written (k : Core) (n : Nat) (t : Strand) : (k.setStrand n t).written = k.written := rfl
@[simp] theorem Core.setStrand_tris (k : Core) (n : Nat) (t : Strand) : (k.setStrand n t).tris = k.tris := rfl
@[simp] theorem Core.setStrand_eddy (k : Core) (n : Nat) (t : Strand) : (k.setStrand n t).eddy = k.eddy := rfl
@[simp] theorem Core.setStrand_utlb (k : Core) (n : Nat) (t : Strand) : (k.setStrand n t).utlb = k.utlb := rfl
@[simp] theorem Core.setStrand_loads (k : Core) (n : Nat) (t : Strand) : (k.setStrand n t).loads = k.loads := rfl
@[simp] theorem Core.setStrand_stores (k : Core) (n : Nat) (t : Strand) : (k.setStrand n t).stores = k.stores := rfl

/-! ## Core.setLine -/

@[simp] theorem Core.setLine_strands (k : Core) (a : Nat) (v : Line) (m : BitVec 64) (p : Bool) : (k.setLine a v m p).strands = k.strands := rfl
@[simp] theorem Core.setLine_part (k : Core) (a : Nat) (v : Line) (m : BitVec 64) (p : Bool) : (k.setLine a v m p).part = k.part := rfl
@[simp] theorem Core.setLine_ran (k : Core) (a : Nat) (v : Line) (m : BitVec 64) (p : Bool) : (k.setLine a v m p).ran = k.ran := rfl
@[simp] theorem Core.setLine_scale (k : Core) (a : Nat) (v : Line) (m : BitVec 64) (p : Bool) : (k.setLine a v m p).scale = k.scale := rfl
@[simp] theorem Core.setLine_scaleMarks (k : Core) (a : Nat) (v : Line) (m : BitVec 64) (p : Bool) : (k.setLine a v m p).scaleMarks = k.scaleMarks := rfl
@[simp] theorem Core.setLine_running (k : Core) (a : Nat) (v : Line) (m : BitVec 64) (p : Bool) : (k.setLine a v m p).running = k.running := rfl
@[simp] theorem Core.setLine_last (k : Core) (a : Nat) (v : Line) (m : BitVec 64) (p : Bool) : (k.setLine a v m p).last = k.last := rfl
@[simp] theorem Core.setLine_switchLeft (k : Core) (a : Nat) (v : Line) (m : BitVec 64) (p : Bool) : (k.setLine a v m p).switchLeft = k.switchLeft := rfl
@[simp] theorem Core.setLine_cycle (k : Core) (a : Nat) (v : Line) (m : BitVec 64) (p : Bool) : (k.setLine a v m p).cycle = k.cycle := rfl
@[simp] theorem Core.setLine_mtime (k : Core) (a : Nat) (v : Line) (m : BitVec 64) (p : Bool) : (k.setLine a v m p).mtime = k.mtime := rfl
@[simp] theorem Core.setLine_cBase (k : Core) (a : Nat) (v : Line) (m : BitVec 64) (p : Bool) : (k.setLine a v m p).cBase = k.cBase := rfl
@[simp] theorem Core.setLine_resumed (k : Core) (a : Nat) (v : Line) (m : BitVec 64) (p : Bool) : (k.setLine a v m p).resumed = k.resumed := rfl
@[simp] theorem Core.setLine_rowsWait (k : Core) (a : Nat) (v : Line) (m : BitVec 64) (p : Bool) : (k.setLine a v m p).rowsWait = k.rowsWait := rfl
@[simp] theorem Core.setLine_frost (k : Core) (a : Nat) (v : Line) (m : BitVec 64) (p : Bool) : (k.setLine a v m p).frost = k.frost := rfl
@[simp] theorem Core.setLine_lockFrost (k : Core) (a : Nat) (v : Line) (m : BitVec 64) (p : Bool) : (k.setLine a v m p).lockFrost = k.lockFrost := rfl
@[simp] theorem Core.setLine_stall (k : Core) (a : Nat) (v : Line) (m : BitVec 64) (p : Bool) : (k.setLine a v m p).stall = k.stall := rfl
@[simp] theorem Core.setLine_issued (k : Core) (a : Nat) (v : Line) (m : BitVec 64) (p : Bool) : (k.setLine a v m p).issued = k.issued := rfl
@[simp] theorem Core.setLine_divA (k : Core) (a : Nat) (v : Line) (m : BitVec 64) (p : Bool) : (k.setLine a v m p).divA = k.divA := rfl
@[simp] theorem Core.setLine_divB (k : Core) (a : Nat) (v : Line) (m : BitVec 64) (p : Bool) : (k.setLine a v m p).divB = k.divB := rfl
@[simp] theorem Core.setLine_arrayUntil (k : Core) (a : Nat) (v : Line) (m : BitVec 64) (p : Bool) : (k.setLine a v m p).arrayUntil = k.arrayUntil := rfl
@[simp] theorem Core.setLine_loaderUntil (k : Core) (a : Nat) (v : Line) (m : BitVec 64) (p : Bool) : (k.setLine a v m p).loaderUntil = k.loaderUntil := rfl
@[simp] theorem Core.setLine_portUntil (k : Core) (a : Nat) (v : Line) (m : BitVec 64) (p : Bool) : (k.setLine a v m p).portUntil = k.portUntil := rfl
@[simp] theorem Core.setLine_triUntil (k : Core) (a : Nat) (v : Line) (m : BitVec 64) (p : Bool) : (k.setLine a v m p).triUntil = k.triUntil := rfl
@[simp] theorem Core.setLine_filePortUntil (k : Core) (a : Nat) (v : Line) (m : BitVec 64) (p : Bool) : (k.setLine a v m p).filePortUntil = k.filePortUntil := rfl
@[simp] theorem Core.setLine_cellUntil (k : Core) (a : Nat) (v : Line) (m : BitVec 64) (p : Bool) : (k.setLine a v m p).cellUntil = k.cellUntil := rfl
@[simp] theorem Core.setLine_slots (k : Core) (a : Nat) (v : Line) (m : BitVec 64) (p : Bool) : (k.setLine a v m p).slots = k.slots := rfl
@[simp] theorem Core.setLine_mults (k : Core) (a : Nat) (v : Line) (m : BitVec 64) (p : Bool) : (k.setLine a v m p).mults = k.mults := rfl
@[simp] theorem Core.setLine_tileWork (k : Core) (a : Nat) (v : Line) (m : BitVec 64) (p : Bool) : (k.setLine a v m p).tileWork = k.tileWork := rfl
@[simp] theorem Core.setLine_poolWrites (k : Core) (a : Nat) (v : Line) (m : BitVec 64) (p : Bool) : (k.setLine a v m p).poolWrites = k.poolWrites := rfl
@[simp] theorem Core.setLine_ahead (k : Core) (a : Nat) (v : Line) (m : BitVec 64) (p : Bool) : (k.setLine a v m p).ahead = k.ahead := rfl
@[simp] theorem Core.setLine_tris (k : Core) (a : Nat) (v : Line) (m : BitVec 64) (p : Bool) : (k.setLine a v m p).tris = k.tris := rfl
@[simp] theorem Core.setLine_eddy (k : Core) (a : Nat) (v : Line) (m : BitVec 64) (p : Bool) : (k.setLine a v m p).eddy = k.eddy := rfl
@[simp] theorem Core.setLine_utlb (k : Core) (a : Nat) (v : Line) (m : BitVec 64) (p : Bool) : (k.setLine a v m p).utlb = k.utlb := rfl
@[simp] theorem Core.setLine_loads (k : Core) (a : Nat) (v : Line) (m : BitVec 64) (p : Bool) : (k.setLine a v m p).loads = k.loads := rfl
@[simp] theorem Core.setLine_stores (k : Core) (a : Nat) (v : Line) (m : BitVec 64) (p : Bool) : (k.setLine a v m p).stores = k.stores := rfl

/-! ## Strand.modLane -/

@[simp] theorem Strand.modLane_mode (t : Strand) (lg : Nat) (f : Lane → Lane) : (t.modLane lg f).mode = t.mode := rfl
@[simp] theorem Strand.modLane_x (t : Strand) (lg : Nat) (f : Lane → Lane) : (t.modLane lg f).x = t.x := rfl
@[simp] theorem Strand.modLane_marks (t : Strand) (lg : Nat) (f : Lane → Lane) : (t.modLane lg f).marks = t.marks := rfl
@[simp] theorem Strand.modLane_bad (t : Strand) (lg : Nat) (f : Lane → Lane) : (t.modLane lg f).bad = t.bad := rfl
@[simp] theorem Strand.modLane_pc (t : Strand) (lg : Nat) (f : Lane → Lane) : (t.modLane lg f).pc = t.pc := rfl
@[simp] theorem Strand.modLane_time (t : Strand) (lg : Nat) (f : Lane → Lane) : (t.modLane lg f).time = t.time := rfl
@[simp] theorem Strand.modLane_issueAt (t : Strand) (lg : Nat) (f : Lane → Lane) : (t.modLane lg f).issueAt = t.issueAt := rfl
@[simp] theorem Strand.modLane_nextSeq (t : Strand) (lg : Nat) (f : Lane → Lane) : (t.modLane lg f).nextSeq = t.nextSeq := rfl
@[simp] theorem Strand.modLane_pend (t : Strand) (lg : Nat) (f : Lane → Lane) : (t.modLane lg f).pend = t.pend := rfl
@[simp] theorem Strand.modLane_frames (t : Strand) (lg : Nat) (f : Lane → Lane) : (t.modLane lg f).frames = t.frames := rfl
@[simp] theorem Strand.modLane_blocks (t : Strand) (lg : Nat) (f : Lane → Lane) : (t.modLane lg f).blocks = t.blocks := rfl
@[simp] theorem Strand.modLane_streams (t : Strand) (lg : Nat) (f : Lane → Lane) : (t.modLane lg f).streams = t.streams := rfl
@[simp] theorem Strand.modLane_vstreams (t : Strand) (lg : Nat) (f : Lane → Lane) : (t.modLane lg f).vstreams = t.vstreams := rfl
@[simp] theorem Strand.modLane_desc (t : Strand) (lg : Nat) (f : Lane → Lane) : (t.modLane lg f).desc = t.desc := rfl
@[simp] theorem Strand.modLane_descMarks (t : Strand) (lg : Nat) (f : Lane → Lane) : (t.modLane lg f).descMarks = t.descMarks := rfl
@[simp] theorem Strand.modLane_ctl (t : Strand) (lg : Nat) (f : Lane → Lane) : (t.modLane lg f).ctl = t.ctl := rfl
@[simp] theorem Strand.modLane_ctlMarks (t : Strand) (lg : Nat) (f : Lane → Lane) : (t.modLane lg f).ctlMarks = t.ctlMarks := rfl
@[simp] theorem Strand.modLane_nest (t : Strand) (lg : Nat) (f : Lane → Lane) : (t.modLane lg f).nest = t.nest := rfl
@[simp] theorem Strand.modLane_geoRows (t : Strand) (lg : Nat) (f : Lane → Lane) : (t.modLane lg f).geoRows = t.geoRows := rfl
@[simp] theorem Strand.modLane_geoCols (t : Strand) (lg : Nat) (f : Lane → Lane) : (t.modLane lg f).geoCols = t.geoCols := rfl
@[simp] theorem Strand.modLane_geoKlim (t : Strand) (lg : Nat) (f : Lane → Lane) : (t.modLane lg f).geoKlim = t.geoKlim := rfl
@[simp] theorem Strand.modLane_geoMark (t : Strand) (lg : Nat) (f : Lane → Lane) : (t.modLane lg f).geoMark = t.geoMark := rfl
@[simp] theorem Strand.modLane_stats (t : Strand) (lg : Nat) (f : Lane → Lane) : (t.modLane lg f).stats = t.stats := rfl
@[simp] theorem Strand.modLane_newStats (t : Strand) (lg : Nat) (f : Lane → Lane) : (t.modLane lg f).newStats = t.newStats := rfl
@[simp] theorem Strand.modLane_spin (t : Strand) (lg : Nat) (f : Lane → Lane) : (t.modLane lg f).spin = t.spin := rfl
@[simp] theorem Strand.modLane_gather (t : Strand) (lg : Nat) (f : Lane → Lane) : (t.modLane lg f).gather = t.gather := rfl
@[simp] theorem Strand.modLane_phase (t : Strand) (lg : Nat) (f : Lane → Lane) : (t.modLane lg f).phase = t.phase := rfl
@[simp] theorem Strand.modLane_wait (t : Strand) (lg : Nat) (f : Lane → Lane) : (t.modLane lg f).wait = t.wait := rfl
@[simp] theorem Strand.modLane_condemned (t : Strand) (lg : Nat) (f : Lane → Lane) : (t.modLane lg f).condemned = t.condemned := rfl
@[simp] theorem Strand.modLane_ending (t : Strand) (lg : Nat) (f : Lane → Lane) : (t.modLane lg f).ending = t.ending := rfl
@[simp] theorem Strand.modLane_launch (t : Strand) (lg : Nat) (f : Lane → Lane) : (t.modLane lg f).launch = t.launch := rfl
@[simp] theorem Strand.modLane_parked (t : Strand) (lg : Nat) (f : Lane → Lane) : (t.modLane lg f).parked = t.parked := rfl
@[simp] theorem Strand.modLane_yieldNext (t : Strand) (lg : Nat) (f : Lane → Lane) : (t.modLane lg f).yieldNext = t.yieldNext := rfl
@[simp] theorem Strand.modLane_waited (t : Strand) (lg : Nat) (f : Lane → Lane) : (t.modLane lg f).waited = t.waited := rfl

/-! ## Strand.mend -/

@[simp] theorem Strand.mend_mode (t : Strand) (k : PlaceKind) (g i : Nat) : (t.mend k g i).mode = t.mode := rfl
@[simp] theorem Strand.mend_x (t : Strand) (k : PlaceKind) (g i : Nat) : (t.mend k g i).x = t.x := rfl
@[simp] theorem Strand.mend_marks (t : Strand) (k : PlaceKind) (g i : Nat) : (t.mend k g i).marks = t.marks := rfl
@[simp] theorem Strand.mend_pc (t : Strand) (k : PlaceKind) (g i : Nat) : (t.mend k g i).pc = t.pc := rfl
@[simp] theorem Strand.mend_time (t : Strand) (k : PlaceKind) (g i : Nat) : (t.mend k g i).time = t.time := rfl
@[simp] theorem Strand.mend_issueAt (t : Strand) (k : PlaceKind) (g i : Nat) : (t.mend k g i).issueAt = t.issueAt := rfl
@[simp] theorem Strand.mend_nextSeq (t : Strand) (k : PlaceKind) (g i : Nat) : (t.mend k g i).nextSeq = t.nextSeq := rfl
@[simp] theorem Strand.mend_pend (t : Strand) (k : PlaceKind) (g i : Nat) : (t.mend k g i).pend = t.pend := rfl
@[simp] theorem Strand.mend_frames (t : Strand) (k : PlaceKind) (g i : Nat) : (t.mend k g i).frames = t.frames := rfl
@[simp] theorem Strand.mend_blocks (t : Strand) (k : PlaceKind) (g i : Nat) : (t.mend k g i).blocks = t.blocks := rfl
@[simp] theorem Strand.mend_streams (t : Strand) (k : PlaceKind) (g i : Nat) : (t.mend k g i).streams = t.streams := rfl
@[simp] theorem Strand.mend_vstreams (t : Strand) (k : PlaceKind) (g i : Nat) : (t.mend k g i).vstreams = t.vstreams := rfl
@[simp] theorem Strand.mend_desc (t : Strand) (k : PlaceKind) (g i : Nat) : (t.mend k g i).desc = t.desc := rfl
@[simp] theorem Strand.mend_descMarks (t : Strand) (k : PlaceKind) (g i : Nat) : (t.mend k g i).descMarks = t.descMarks := rfl
@[simp] theorem Strand.mend_ctl (t : Strand) (k : PlaceKind) (g i : Nat) : (t.mend k g i).ctl = t.ctl := rfl
@[simp] theorem Strand.mend_ctlMarks (t : Strand) (k : PlaceKind) (g i : Nat) : (t.mend k g i).ctlMarks = t.ctlMarks := rfl
@[simp] theorem Strand.mend_nest (t : Strand) (k : PlaceKind) (g i : Nat) : (t.mend k g i).nest = t.nest := rfl
@[simp] theorem Strand.mend_lanes (t : Strand) (k : PlaceKind) (g i : Nat) : (t.mend k g i).lanes = t.lanes := rfl
@[simp] theorem Strand.mend_geoRows (t : Strand) (k : PlaceKind) (g i : Nat) : (t.mend k g i).geoRows = t.geoRows := rfl
@[simp] theorem Strand.mend_geoCols (t : Strand) (k : PlaceKind) (g i : Nat) : (t.mend k g i).geoCols = t.geoCols := rfl
@[simp] theorem Strand.mend_geoKlim (t : Strand) (k : PlaceKind) (g i : Nat) : (t.mend k g i).geoKlim = t.geoKlim := rfl
@[simp] theorem Strand.mend_geoMark (t : Strand) (k : PlaceKind) (g i : Nat) : (t.mend k g i).geoMark = t.geoMark := rfl
@[simp] theorem Strand.mend_stats (t : Strand) (k : PlaceKind) (g i : Nat) : (t.mend k g i).stats = t.stats := rfl
@[simp] theorem Strand.mend_newStats (t : Strand) (k : PlaceKind) (g i : Nat) : (t.mend k g i).newStats = t.newStats := rfl
@[simp] theorem Strand.mend_spin (t : Strand) (k : PlaceKind) (g i : Nat) : (t.mend k g i).spin = t.spin := rfl
@[simp] theorem Strand.mend_gather (t : Strand) (k : PlaceKind) (g i : Nat) : (t.mend k g i).gather = t.gather := rfl
@[simp] theorem Strand.mend_phase (t : Strand) (k : PlaceKind) (g i : Nat) : (t.mend k g i).phase = t.phase := rfl
@[simp] theorem Strand.mend_wait (t : Strand) (k : PlaceKind) (g i : Nat) : (t.mend k g i).wait = t.wait := rfl
@[simp] theorem Strand.mend_condemned (t : Strand) (k : PlaceKind) (g i : Nat) : (t.mend k g i).condemned = t.condemned := rfl
@[simp] theorem Strand.mend_ending (t : Strand) (k : PlaceKind) (g i : Nat) : (t.mend k g i).ending = t.ending := rfl
@[simp] theorem Strand.mend_launch (t : Strand) (k : PlaceKind) (g i : Nat) : (t.mend k g i).launch = t.launch := rfl
@[simp] theorem Strand.mend_parked (t : Strand) (k : PlaceKind) (g i : Nat) : (t.mend k g i).parked = t.parked := rfl
@[simp] theorem Strand.mend_yieldNext (t : Strand) (k : PlaceKind) (g i : Nat) : (t.mend k g i).yieldNext = t.yieldNext := rfl
@[simp] theorem Strand.mend_waited (t : Strand) (k : PlaceKind) (g i : Nat) : (t.mend k g i).waited = t.waited := rfl

/-! ## Strand.enterTrap -/

@[simp] theorem Strand.enterTrap_mode (t : Strand) : (t.enterTrap).mode = t.mode := rfl
@[simp] theorem Strand.enterTrap_x (t : Strand) : (t.enterTrap).x = t.x := rfl
@[simp] theorem Strand.enterTrap_marks (t : Strand) : (t.enterTrap).marks = t.marks := rfl
@[simp] theorem Strand.enterTrap_bad (t : Strand) : (t.enterTrap).bad = t.bad := rfl
@[simp] theorem Strand.enterTrap_time (t : Strand) : (t.enterTrap).time = t.time := rfl
@[simp] theorem Strand.enterTrap_nextSeq (t : Strand) : (t.enterTrap).nextSeq = t.nextSeq := rfl
@[simp] theorem Strand.enterTrap_streams (t : Strand) : (t.enterTrap).streams = t.streams := rfl
@[simp] theorem Strand.enterTrap_vstreams (t : Strand) : (t.enterTrap).vstreams = t.vstreams := rfl
@[simp] theorem Strand.enterTrap_desc (t : Strand) : (t.enterTrap).desc = t.desc := rfl
@[simp] theorem Strand.enterTrap_descMarks (t : Strand) : (t.enterTrap).descMarks = t.descMarks := rfl
@[simp] theorem Strand.enterTrap_ctlMarks (t : Strand) : (t.enterTrap).ctlMarks = t.ctlMarks := rfl
@[simp] theorem Strand.enterTrap_lanes (t : Strand) : (t.enterTrap).lanes = t.lanes := rfl
@[simp] theorem Strand.enterTrap_geoRows (t : Strand) : (t.enterTrap).geoRows = t.geoRows := rfl
@[simp] theorem Strand.enterTrap_geoCols (t : Strand) : (t.enterTrap).geoCols = t.geoCols := rfl
@[simp] theorem Strand.enterTrap_geoKlim (t : Strand) : (t.enterTrap).geoKlim = t.geoKlim := rfl
@[simp] theorem Strand.enterTrap_geoMark (t : Strand) : (t.enterTrap).geoMark = t.geoMark := rfl
@[simp] theorem Strand.enterTrap_stats (t : Strand) : (t.enterTrap).stats = t.stats := rfl
@[simp] theorem Strand.enterTrap_newStats (t : Strand) : (t.enterTrap).newStats = t.newStats := rfl
@[simp] theorem Strand.enterTrap_spin (t : Strand) : (t.enterTrap).spin = t.spin := rfl
@[simp] theorem Strand.enterTrap_phase (t : Strand) : (t.enterTrap).phase = t.phase := rfl
@[simp] theorem Strand.enterTrap_condemned (t : Strand) : (t.enterTrap).condemned = t.condemned := rfl
@[simp] theorem Strand.enterTrap_ending (t : Strand) : (t.enterTrap).ending = t.ending := rfl
@[simp] theorem Strand.enterTrap_launch (t : Strand) : (t.enterTrap).launch = t.launch := rfl
@[simp] theorem Strand.enterTrap_parked (t : Strand) : (t.enterTrap).parked = t.parked := rfl
@[simp] theorem Strand.enterTrap_waited (t : Strand) : (t.enterTrap).waited = t.waited := rfl

end Sys2Proof.Machine
end

