-- ==== Sys2Proof/Laws/Ops.lean ====
section
/-!
SUPPORT. What the shared operations can do, once each: how a syllable is issued, results in flight, sources, the end of a
strand, traps.
-/

set_option Elab.async false
namespace Sys2Proof.Machine

/-! ## Issue -/

/-- Nothing stops a syllable exactly when the common checks pass and its own do. -/
theorem State.verdictOf_none (s : State) (i : Instr) (k : Checks) :
    s.verdictOf i k = none ↔ Clear i s ∧ k.blocks = none ∧ k.holds = none ∧ k.faults = none := by
  unfold State.verdictOf
  simp only [Option.or_eq_none_iff]
  constructor
  · rintro ⟨a, b, c, d, e, f, g⟩
    refine ⟨⟨a, ?_, e, f⟩, c, d, g⟩
    by_contra h
    simp [h] at b
  · rintro ⟨⟨a, b, e, f⟩, c, d, g⟩
    exact ⟨a, by simp [b], c, d, e, f, g⟩

/-- A syllable that goes performs its effect. -/
theorem issueWith_goes {i : Instr} {s : State} {checks : State → Checks} {effect : State → State} {own : Prop}
    (h : Goes i s own)
    (hc : own → (checks s).blocks = none ∧ (checks s).holds = none ∧ (checks s).faults = none) :
    issueWith i s checks effect = .next (effect s) := by
  unfold issueWith
  rcases h with h | ⟨hcl, ho⟩
  · rw [if_pos h]
  · split
    · rfl
    · rw [(s.verdictOf_none i (checks s)).2 ⟨hcl, hc ho⟩]

/-- Without checks of its own. -/
theorem issuePlain_goes {i : Instr} {s : State} {effect : State → State} {own : Prop} (h : Goes i s own) :
    issuePlain i s effect = .next (effect s) := issueWith_goes h fun _ => ⟨rfl, rfl, rfl⟩

/-- In an admitted bundle the checks are over. -/
theorem issueWith_admitted {i : Instr} {s : State} {checks : State → Checks} {effect : State → State}
    (h : s.issue.admitted = true) : issueWith i s checks effect = .next (effect s) := if_pos h

theorem issuePlain_admitted {i : Instr} {s : State} {effect : State → State} (h : s.issue.admitted = true) :
    issuePlain i s effect = .next (effect s) := if_pos h

/-- A syllable that a check stops is refused. -/
theorem issueWith_refused {i : Instr} {s : State} {checks : State → Checks} {effect : State → State} {v : Verdict}
    (h : s.issue.admitted = false) (hv : s.verdictOf i (checks s) = some v) :
    issueWith i s checks effect = .next (s.refuse v) := by
  unfold issueWith
  rw [if_neg (by simp [h]), hv]

/-- A syllable always answers a next state. -/
theorem issueWith_next (i : Instr) (s : State) (checks : State → Checks) (effect : State → State) :
    ∃ t, issueWith i s checks effect = .next t := by
  unfold issueWith
  split
  · exact ⟨_, rfl⟩
  · split <;> exact ⟨_, rfl⟩

/-- What a failed check answers. -/
theorem State.refuse_fault (s : State) (code reason : Nat) (info : Word) (lg lane : Nat) (b : Bool) :
    s.refuse (.fault code reason info lg lane b) =
      ({ s with issue := { s.issue with verdict := some (.fault code reason info lg lane b) } } : State).takeTrap s.issue.core
        s.issue.strand (causeWord code reason s.issue.slot lg lane s.issue.len) (BitVec.ofNat 17 (2 ^ s.issue.slot)) info
        s.issue.addr := rfl

/-! ## Results -/

theorem State.me_result (s : State) (l : Nat) (w : Write) (m : Bool) (rs : List StatRecord) :
    (s.result l w m rs).me = { s.me with pend := s.me.pend ++
      [{ due := s.me.time + l, seq := s.me.nextSeq, write := w, mark := m, load := none, recs := rs, check := s.issue.compares w }] } := by
  unfold State.result; rw [State.me_modMe]

theorem State.me_result_pend (s : State) (l : Nat) (w : Write) (m : Bool) (rs : List StatRecord) :
    (s.result l w m rs).me.pend = s.me.pend ++
      [{ due := s.me.time + l, seq := s.me.nextSeq, write := w, mark := m, load := none, recs := rs, check := s.issue.compares w }] := by
  rw [State.me_result]

end Sys2Proof.Machine
end

