-- ==== Sys2Proof/Laws/Frames.lean ====
section
/-!
SUPPORT. What the issue of a syllable leaves alone, as one relation that the shared operations keep.
-/

set_option Elab.async false
namespace Sys2Proof.Machine

/-- Everything of a strand but its streams, its results in flight and what it waits for is the same. -/
structure Strand.Same (t u : Strand) : Prop where
  x : u.x = t.x
  marks : u.marks = t.marks
  ctl : u.ctl = t.ctl
  lanes : u.lanes = t.lanes
  geoRows : u.geoRows = t.geoRows
  geoCols : u.geoCols = t.geoCols
  geoKlim : u.geoKlim = t.geoKlim
  pc : u.pc = t.pc
  issueAt : u.issueAt = t.issueAt
  nest : u.nest = t.nest
  mode : u.mode = t.mode

theorem Strand.Same.refl (t : Strand) : Strand.Same t t := ⟨rfl, rfl, rfl, rfl, rfl, rfl, rfl, rfl, rfl, rfl, rfl⟩

theorem Strand.Same.trans {t u v : Strand} (h : Strand.Same t u) (k : Strand.Same u v) : Strand.Same t v := by
  cases h; cases k; constructor <;> simp_all

/-- The memories and the files of a core are the same. -/
structure Core.Same (k l : Core) : Prop where
  pool : l.pool = k.pool
  tris : l.tris = k.tris
  scale : l.scale = k.scale
  strand : ∀ n, Strand.Same (k.strand n) (l.strand n)

theorem Core.Same.refl (k : Core) : Core.Same k k := ⟨rfl, rfl, rfl, fun _ => .refl _⟩

theorem Core.Same.trans {k l m : Core} (h : Core.Same k l) (j : Core.Same l m) : Core.Same k m :=
  ⟨j.pool.trans h.pool, j.tris.trans h.tris, j.scale.trans h.scale, fun n => (h.strand n).trans (j.strand n)⟩

/-- What a syllable of the issuing strand leaves alone: memories, registers, control registers, lanes, files, places, and
the results in flight of every other strand. -/
structure State.Kept (s t : State) : Prop where
  hbm : t.hbm = s.hbm
  hostMem : t.hostMem = s.hostMem
  core_ : t.issue.core = s.issue.core
  strand_ : t.issue.strand = s.issue.strand
  core : ∀ c, Core.Same (s.core c) (t.core c)
  pend : ∀ c n, (c ≠ s.issue.core ∨ n ≠ s.issue.strand) → (t.strand c n).pend = (s.strand c n).pend

theorem State.Kept.refl (s : State) : State.Kept s s := ⟨rfl, rfl, rfl, rfl, fun _ => .refl _, fun _ _ _ => rfl⟩

theorem State.Kept.trans {s t u : State} (h : State.Kept s t) (k : State.Kept t u) : State.Kept s u :=
  ⟨k.hbm.trans h.hbm, k.hostMem.trans h.hostMem, k.core_.trans h.core_, k.strand_.trans h.strand_,
    fun c => (h.core c).trans (k.core c), fun c n hn =>
      (k.pend c n (by rw [h.core_, h.strand_]; exact hn)).trans (h.pend c n hn)⟩

/-- An update outside the cores and the memories. -/
theorem State.Kept.of_eq {s t : State} (h : t.hbm = s.hbm) (h' : t.hostMem = s.hostMem) (hc : t.cores = s.cores)
    (h1 : t.issue.core = s.issue.core) (h2 : t.issue.strand = s.issue.strand) : State.Kept s t := by
  have hk : ∀ c, t.core c = s.core c := fun c => by unfold State.core; rw [hc]
  exact ⟨h, h', h1, h2, fun c => by rw [hk]; exact .refl _, fun c n _ => by unfold State.strand; rw [hk]⟩

/-- An update of the issuing strand's core that leaves memories, files and strands alone. -/
theorem State.Kept.modMyCore (s : State) (f : Core → Core)
    (hf : ∀ k, (f k).pool = k.pool ∧ (f k).tris = k.tris ∧ (f k).scale = k.scale ∧ (f k).strands = k.strands) :
    State.Kept s (s.modMyCore f) := by
  have hs : ∀ k n, (f k).strand n = k.strand n := fun k n => by unfold Core.strand; rw [(hf k).2.2.2]
  refine ⟨rfl, rfl, rfl, rfl, fun c => ?_, fun c n _ => ?_⟩
  · by_cases h : c = s.issue.core
    · subst h
      unfold State.modMyCore
      rw [State.core_modCore]
      exact ⟨(hf _).1, (hf _).2.1, (hf _).2.2.1, fun n => by rw [hs]; exact .refl _⟩
    · unfold State.modMyCore
      rw [State.core_modCore_ne _ _ h]; exact .refl _
  · unfold State.modMyCore State.strand
    by_cases h : c = s.issue.core
    · subst h; rw [State.core_modCore, hs]
    · rw [State.core_modCore_ne _ _ h]

/-- An update of the issuing strand that leaves its registers and its place alone. -/
theorem State.Kept.modMe (s : State) (f : Strand → Strand) (hf : Strand.Same s.me (f s.me)) : State.Kept s (s.modMe f) := by
  refine ⟨rfl, rfl, rfl, rfl, fun c => ?_, fun c n hn => ?_⟩
  · unfold State.modMe State.modStrand
    by_cases h : c = s.issue.core
    · subst h
      rw [State.core_modCore]
      refine ⟨rfl, rfl, rfl, fun n => ?_⟩
      by_cases hn : n = s.issue.strand
      · subst hn; rw [Core.strand_setStrand]; exact hf
      · rw [Core.strand_setStrand_ne _ _ hn]; exact .refl _
    · rw [State.core_modCore_ne _ _ h]; exact .refl _
  · unfold State.modMe
    rw [State.strand_modStrand_ne _ _ _ _ hn]

theorem State.Kept.modTeam (s : State) (d t : Nat) (f : Team → Team) : State.Kept s (s.modTeam d t f) :=
  .of_eq rfl rfl rfl rfl rfl

theorem State.Kept.result (s : State) (l : Nat) (w : Write) (m : Bool) (rs : List StatRecord) :
    State.Kept s (s.result l w m rs) :=
  .modMe _ _ ⟨rfl, rfl, rfl, rfl, rfl, rfl, rfl, rfl, rfl, rfl, rfl⟩

theorem State.Kept.consumed (s : State) (m : Bool) : State.Kept s (s.consumed m) := by
  unfold State.consumed; split
  · exact .result ..
  · exact .refl _

theorem State.Kept.src (s : State) (r : BitVec 6) : State.Kept s (s.src r).2 := by
  unfold State.src
  split
  · exact .refl _
  · dsimp only
    split
    · exact .refl _
    · exact (State.Kept.modMe s _ ⟨rfl, rfl, rfl, rfl, rfl, rfl, rfl, rfl, rfl, rfl, rfl⟩).trans
        (.of_eq rfl rfl rfl rfl rfl)

theorem State.Kept.src2 (s : State) (a b : BitVec 6) : State.Kept s (s.src2 a b).2 :=
  (State.Kept.src s a).trans (.src _ b)

end Sys2Proof.Machine
end

