-- ==== Sys2Proof/Laws/Memory.lean ====
section
/-!
SUPPORT. The canonical form of a memory: every operation on a memory keeps it, and the memories of State.reset have it.
-/

set_option Elab.async false
namespace Sys2Proof.Machine

/-- The canonical form, by order and by entry. -/
theorem Memory.wf_iff (m : List Host.Cell) :
    Memory.wf m = true ↔ m.Pairwise (fun a b => a.1 < b.1) ∧ ∀ c ∈ m, c.2 ≠ 0 := by
  induction m with
  | nil => simp [Memory.wf]
  | cons c rest ih =>
    obtain ⟨a, v⟩ := c
    cases rest with
    | nil => simp [Memory.wf]
    | cons d rest =>
      obtain ⟨b, w⟩ := d
      rw [Memory.wf, Bool.and_eq_true, Bool.and_eq_true, ih, List.pairwise_cons (l := (b, w) :: rest)]
      constructor
      · rintro ⟨⟨hv, hab⟩, hp, hn⟩
        refine ⟨⟨fun x hx => ?_, hp⟩, fun x hx => ?_⟩
        · have hab : a < b := by simpa using hab
          rcases List.mem_cons.1 hx with rfl | hx
          · exact hab
          · exact Nat.lt_trans hab ((List.pairwise_cons.1 hp).1 x hx)
        · rcases List.mem_cons.1 hx with rfl | hx
          · simpa using hv
          · exact hn x hx
      · rintro ⟨⟨ha, hp⟩, hn⟩
        exact ⟨⟨by simpa using hn (a, v) (by simp), by simpa using ha (b, w) (by simp)⟩, hp,
          fun x hx => hn x (List.mem_cons_of_mem _ hx)⟩

theorem Memory.wf_nil : Memory.wf [] = true := rfl

theorem Memory.wf_filter {m : List Host.Cell} (p : Host.Cell → Bool) (h : Memory.wf m = true) :
    Memory.wf (m.filter p) = true := by
  rw [Memory.wf_iff] at *
  exact ⟨h.1.filter _, fun c hc => h.2 c (List.mem_filter.1 hc).1⟩

/-- The entries of consecutive bytes stand at their addresses, rising, and none is zero. -/
theorem cellsOf_wf (bs : List Byte) :
    ∀ a, Memory.wf (cellsOf a bs) = true ∧ ∀ c ∈ cellsOf a bs, a ≤ c.1 ∧ c.1 < a + bs.length := by
  induction bs with
  | nil => intro a; simp [cellsOf, Memory.wf]
  | cons b rest ih =>
    intro a
    obtain ⟨hw, hr⟩ := ih (a + 1)
    by_cases hb : b = 0
    · rw [cellsOf, if_pos hb]
      refine ⟨hw, fun c hc => ?_⟩
      have := hr c hc
      simp only [List.length_cons]; omega
    · rw [cellsOf, if_neg hb]
      rw [Memory.wf_iff] at hw ⊢
      refine ⟨⟨List.pairwise_cons.2 ⟨fun c hc => by have := hr c hc; simp only; omega, hw.1⟩, fun c hc => ?_⟩, fun c hc => ?_⟩
      · rcases List.mem_cons.1 hc with rfl | hc
        · exact hb
        · exact hw.2 c hc
      · rcases List.mem_cons.1 hc with rfl | hc
        · simp
        · have := hr c hc; simp only [List.length_cons]; omega

/-- Consecutive bytes written keep the form. -/
theorem writeBytes_wf {m : List Host.Cell} (a : Nat) (bs : List Byte) (h : Memory.wf m = true) :
    Memory.wf (writeBytes m a bs) = true := by
  obtain ⟨hc, hr⟩ := cellsOf_wf bs a
  rw [Memory.wf_iff] at *
  unfold writeBytes
  refine ⟨?_, fun c hm => ?_⟩
  · rw [List.pairwise_append, List.pairwise_append]
    refine ⟨⟨h.1.filter _, hc.1, fun x hx y hy => ?_⟩, h.1.filter _, fun x hx y hy => ?_⟩
    · have := (List.mem_filter.1 hx).2; have := (hr y hy).1
      simp only [decide_eq_true_eq] at *; omega
    · have hy := (List.mem_filter.1 hy).2
      rcases List.mem_append.1 hx with hx | hx
      · have := (List.mem_filter.1 hx).2
        simp only [decide_eq_true_eq] at *; omega
      · have := (hr x hx).2
        simp only [decide_eq_true_eq] at *; omega
  · rcases List.mem_append.1 hm with hm | hm
    · rcases List.mem_append.1 hm with hm | hm
      · exact h.2 c (List.mem_filter.1 hm).1
      · exact hc.2 c hm
    · exact h.2 c (List.mem_filter.1 hm).1

/-- A line written keeps the form. -/
theorem writeLine_wf {m : List Host.Cell} (a : Nat) (v : Line) (mask : BitVec 64) (h : Memory.wf m = true) :
    Memory.wf (writeLine m a v mask) = true := writeBytes_wf _ _ h

/-- A range zeroed keeps the form. -/
theorem zeroRange_wf {m : List Host.Cell} (a n : Nat) (h : Memory.wf m = true) : Memory.wf (zeroRange m a n) = true :=
  Memory.wf_filter _ h

/-- An entry put before the first larger key keeps the form, when its key is not listed. -/
theorem insertKey_wf {m : List Host.Cell} (a : Nat) (v : Byte) (hv : v ≠ 0) (h : Memory.wf m = true)
    (hn : ∀ c ∈ m, c.1 ≠ a) : Memory.wf (insertKey a v m) = true := by
  suffices H : ∀ m : List Host.Cell, Memory.wf m = true → (∀ c ∈ m, c.1 ≠ a) →
      Memory.wf (insertKey a v m) = true ∧ ∀ c ∈ insertKey a v m, c = (a, v) ∨ c ∈ m from (H m h hn).1
  intro m
  induction m with
  | nil => intro _ _; simpa [insertKey, Memory.wf] using hv
  | cons d rest ih =>
    intro h hn
    obtain ⟨j, u⟩ := d
    have hj : j ≠ a := hn (j, u) (by simp)
    rw [Memory.wf_iff] at h
    have hp := List.pairwise_cons.1 h.1
    by_cases hlt : a < j
    · rw [insertKey, if_pos hlt, Memory.wf_iff]
      refine ⟨⟨List.pairwise_cons.2 ⟨fun c hc => ?_, h.1⟩, fun c hc => ?_⟩, fun c hc => by simpa using hc⟩
      · rcases List.mem_cons.1 hc with rfl | hc
        · exact hlt
        · exact Nat.lt_trans hlt (hp.1 c hc)
      · rcases List.mem_cons.1 hc with rfl | hc
        · exact hv
        · exact h.2 c hc
    · have hr : Memory.wf rest = true := (Memory.wf_iff rest).2 ⟨hp.2, fun c hc => h.2 c (List.mem_cons_of_mem _ hc)⟩
      obtain ⟨hw, hm⟩ := ih hr (fun c hc => hn c (List.mem_cons_of_mem _ hc))
      rw [insertKey, if_neg hlt, Memory.wf_iff]
      rw [Memory.wf_iff] at hw
      refine ⟨⟨List.pairwise_cons.2 ⟨fun c hc => ?_, hw.1⟩, fun c hc => ?_⟩, fun c hc => ?_⟩
      · rcases hm c hc with rfl | hc
        · show j < a; omega
        · exact hp.1 c hc
      · rcases List.mem_cons.1 hc with rfl | hc
        · exact h.2 _ (by simp)
        · exact hw.2 c hc
      · rcases List.mem_cons.1 hc with rfl | hc
        · simp
        · rcases hm c hc with rfl | hc
          · simp
          · exact Or.inr (List.mem_cons_of_mem _ hc)

/-- One byte written keeps the form. -/
theorem writeByte_wf {m : List Host.Cell} (a : Nat) (v : Byte) (h : Memory.wf m = true) :
    Memory.wf (writeByte m a v) = true := by
  unfold writeByte put
  have hd : Memory.wf (dropKey m a) = true := Memory.wf_filter _ h
  split
  · exact hd
  · next hv => exact insertKey_wf a v hv hd fun c hc => by simpa [dropKey] using (List.mem_filter.1 hc).2

/-- Writes of HBM keep the form. -/
theorem hbmWrite_wf (s : State) (pa : Nat) (bs : List Byte) (mark : Bool) (h : Memory.wf s.hbm = true) :
    Memory.wf (s.hbmWrite pa bs mark).hbm = true := by
  have : (s.hbmWrite pa bs mark).hbm = writeBytes (s.countWrites ((List.range bs.length).map (pa + ·))).hbm pa bs := rfl
  rw [this]
  refine writeBytes_wf _ _ ?_
  unfold State.countWrites
  split <;> exact h

theorem hbmMerge_wf (s : State) (pa : Nat) (v : Line) (mask : BitVec 64) (mark : Bool) (h : Memory.wf s.hbm = true) :
    Memory.wf (s.hbmMerge pa v mask mark).hbm = true := by
  have : (s.hbmMerge pa v mask mark).hbm =
      writeLine (s.countWrites (((List.range 64).filter fun i => mask.getLsbD i).map (pa + ·))).hbm pa v mask := rfl
  rw [this]
  refine writeLine_wf _ _ _ ?_
  unfold State.countWrites
  split <;> exact h

theorem setLine_wf (k : Core) (a : Nat) (v : Line) (mask : BitVec 64) (mark : Bool) (h : Memory.wf k.pool = true) :
    Memory.wf (k.setLine a v mask mark).pool = true := writeLine_wf _ _ _ h

/-- The memories of the machine right after reset list nothing. -/
theorem reset_wf : Memory.wf State.reset.hbm = true ∧ Memory.wf State.reset.hostMem = true := ⟨rfl, rfl⟩

end Sys2Proof.Machine
end

