-- ==== Sys2Proof/Laws/PerInstr.lean ====
section
/-!
SUPPORT. Per instruction: the slot map to which its syllable belongs.
-/

set_option Elab.async false
namespace Sys2Proof.Laws.Homes

/-- A row that is a syllable belongs to one of the maps of R48 to R55, each named by its lowest slot (SA and SB are told
apart); an event belongs to none. -/
def Statement (i : Instr) : Prop := (i.slot?.all fun k => [0, 1, 2, 3, 12, 13, 14, 15].contains k) = true

theorem nop (a0 a1) : Statement (.nop a0 a1) := rfl
theorem add (a0 a1 a2) : Statement (.add a0 a1 a2) := rfl
theorem sub (a0 a1 a2) : Statement (.sub a0 a1 a2) := rfl
theorem mul (a0 a1 a2) : Statement (.mul a0 a1 a2) := rfl
theorem mulh (a0 a1 a2 a3) : Statement (.mulh a0 a1 a2 a3) := rfl
theorem div (a0 a1 a2 a3) : Statement (.div a0 a1 a2 a3) := rfl
theorem rem (a0 a1 a2 a3) : Statement (.rem a0 a1 a2 a3) := rfl
theorem and (a0 a1 a2) : Statement (.and a0 a1 a2) := rfl
theorem or (a0 a1 a2) : Statement (.or a0 a1 a2) := rfl
theorem xor (a0 a1 a2) : Statement (.xor a0 a1 a2) := rfl
theorem shl (a0 a1 a2) : Statement (.shl a0 a1 a2) := rfl
theorem shr (a0 a1 a2) : Statement (.shr a0 a1 a2) := rfl
theorem sar (a0 a1 a2) : Statement (.sar a0 a1 a2) := rfl
theorem slt (a0 a1 a2 a3) : Statement (.slt a0 a1 a2 a3) := rfl
theorem seq (a0 a1 a2) : Statement (.seq a0 a1 a2) := rfl
theorem min (a0 a1 a2 a3) : Statement (.min a0 a1 a2 a3) := rfl
theorem max (a0 a1 a2 a3) : Statement (.max a0 a1 a2 a3) := rfl
theorem sel (a0 a1 a2) : Statement (.sel a0 a1 a2) := rfl
theorem clz (a0 a1) : Statement (.clz a0 a1) := rfl
theorem ctz (a0 a1) : Statement (.ctz a0 a1) := rfl
theorem popc (a0 a1) : Statement (.popc a0 a1) := rfl
theorem brev (a0 a1) : Statement (.brev a0 a1) := rfl
theorem peek (a0 a1) : Statement (.peek a0 a1) := rfl
theorem bfx (a0 a1 a2 a3) : Statement (.bfx a0 a1 a2 a3) := rfl
theorem bfi (a0 a1 a2 a3) : Statement (.bfi a0 a1 a2 a3) := rfl
theorem agen (a0 a1 a2 a3) : Statement (.agen a0 a1 a2 a3) := rfl
theorem addi (a0 a1 a2) : Statement (.addi a0 a1 a2) := rfl
theorem andi (a0 a1 a2) : Statement (.andi a0 a1 a2) := rfl
theorem ori (a0 a1 a2) : Statement (.ori a0 a1 a2) := rfl
theorem xori (a0 a1 a2) : Statement (.xori a0 a1 a2) := rfl
theorem shli (a0 a1 a2) : Statement (.shli a0 a1 a2) := rfl
theorem shri (a0 a1 a2) : Statement (.shri a0 a1 a2) := rfl
theorem sari (a0 a1 a2) : Statement (.sari a0 a1 a2) := rfl
theorem slti (a0 a1 a2) : Statement (.slti a0 a1 a2) := rfl
theorem movi (a0 a1) : Statement (.movi a0 a1) := rfl
theorem movhi (a0 a1) : Statement (.movhi a0 a1) := rfl
theorem movhh (a0 a1) : Statement (.movhh a0 a1) := rfl
theorem fadd (a0 a1 a2 a3 a4) : Statement (.fadd a0 a1 a2 a3 a4) := rfl
theorem fsub (a0 a1 a2 a3 a4) : Statement (.fsub a0 a1 a2 a3 a4) := rfl
theorem fmul (a0 a1 a2 a3 a4) : Statement (.fmul a0 a1 a2 a3 a4) := rfl
theorem fdiv (a0 a1 a2 a3 a4) : Statement (.fdiv a0 a1 a2 a3 a4) := rfl
theorem fmin (a0 a1 a2 a3 a4) : Statement (.fmin a0 a1 a2 a3 a4) := rfl
theorem fmax (a0 a1 a2 a3 a4) : Statement (.fmax a0 a1 a2 a3 a4) := rfl
theorem fsqrt (a0 a1 a2 a3) : Statement (.fsqrt a0 a1 a2 a3) := rfl
theorem ffma (a0 a1 a2 a3 a4) : Statement (.ffma a0 a1 a2 a3 a4) := rfl
theorem fcvt (a0 a1 a2 a3 a4) : Statement (.fcvt a0 a1 a2 a3 a4) := rfl
theorem fcmp (a0 a1 a2 a3 a4) : Statement (.fcmp a0 a1 a2 a3 a4) := rfl
theorem br (a0 a1 a2 a3) : Statement (.br a0 a1 a2 a3) := rfl
theorem bz (a0 a1) : Statement (.bz a0 a1) := rfl
theorem bnz (a0 a1) : Statement (.bnz a0 a1) := rfl
theorem jmp (a0) : Statement (.jmp a0) := rfl
theorem call (a0) : Statement (.call a0) := rfl
theorem jr (a0 a1) : Statement (.jr a0 a1) := rfl
theorem jrl (a0 a1 a2) : Statement (.jrl a0 a1 a2) := rfl
theorem loop (a0 a1) : Statement (.loop a0 a1) := rfl
theorem yield : Statement (.yield) := rfl
theorem endk : Statement (.endk) := rfl
theorem trap (a0) : Statement (.trap a0) := rfl
theorem cmpt (a0 a1 a2) : Statement (.cmpt a0 a1 a2) := rfl
theorem chkerr (a0 a1 a2) : Statement (.chkerr a0 a1 a2) := rfl
theorem spinw (a0 a1 a2) : Statement (.spinw a0 a1 a2) := rfl
theorem spinwReread (a0 a1) : Statement (.spinwReread a0 a1) := rfl
theorem mfc (a0 a1) : Statement (.mfc a0 a1) := rfl
theorem mtc (a0 a1) : Statement (.mtc a0 a1) := rfl
theorem eret : Statement (.eret) := rfl
theorem launch (a0 a1) : Statement (.launch a0 a1) := rfl
theorem nodeStrandStart (a0) : Statement (.nodeStrandStart a0) := rfl
theorem tkwait (a0 a1) : Statement (.tkwait a0 a1) := rfl
theorem tktest (a0 a1) : Statement (.tktest a0 a1) := rfl
theorem phaseBegin (a0 a1) : Statement (.phaseBegin a0 a1) := rfl
theorem phaseCommit : Statement (.phaseCommit) := rfl
theorem qwait (a0 a1) : Statement (.qwait a0 a1) := rfl
theorem ldb (a0 a1 a2) : Statement (.ldb a0 a1 a2) := rfl
theorem ldbu (a0 a1 a2) : Statement (.ldbu a0 a1 a2) := rfl
theorem ldh (a0 a1 a2) : Statement (.ldh a0 a1 a2) := rfl
theorem ldhu (a0 a1 a2) : Statement (.ldhu a0 a1 a2) := rfl
theorem ldw (a0 a1 a2) : Statement (.ldw a0 a1 a2) := rfl
theorem ldwu (a0 a1 a2) : Statement (.ldwu a0 a1 a2) := rfl
theorem ldd (a0 a1 a2) : Statement (.ldd a0 a1 a2) := rfl
theorem stb (a0 a1 a2 a3) : Statement (.stb a0 a1 a2 a3) := rfl
theorem sth (a0 a1 a2 a3) : Statement (.sth a0 a1 a2 a3) := rfl
theorem stw (a0 a1 a2 a3) : Statement (.stw a0 a1 a2 a3) := rfl
theorem std (a0 a1 a2 a3) : Statement (.std a0 a1 a2 a3) := rfl
theorem vld (a0 a1 a2 a3) : Statement (.vld a0 a1 a2 a3) := rfl
theorem vst (a0 a1 a2 a3) : Statement (.vst a0 a1 a2 a3) := rfl
theorem vlds (a0 a1 a2 a3) : Statement (.vlds a0 a1 a2 a3) := rfl
theorem vsts (a0 a1 a2 a3) : Statement (.vsts a0 a1 a2 a3) := rfl
theorem vgather (a0 a1 a2 a3 a4) : Statement (.vgather a0 a1 a2 a3 a4) := rfl
theorem vgatherAll (a0 a1 a2 a3) : Statement (.vgatherAll a0 a1 a2 a3) := rfl
theorem vscatter (a0 a1 a2 a3 a4) : Statement (.vscatter a0 a1 a2 a3 a4) := rfl
theorem vscatterAll (a0 a1 a2 a3) : Statement (.vscatterAll a0 a1 a2 a3) := rfl
theorem vpop (a0 a1 a2) : Statement (.vpop a0 a1 a2) := rfl
theorem drain : Statement (.drain) := rfl
theorem fence (a0) : Statement (.fence a0) := rfl
theorem vadd (a0 a1 a2 a3 a4) : Statement (.vadd a0 a1 a2 a3 a4) := rfl
theorem vsub (a0 a1 a2 a3 a4) : Statement (.vsub a0 a1 a2 a3 a4) := rfl
theorem vmul (a0 a1 a2 a3 a4) : Statement (.vmul a0 a1 a2 a3 a4) := rfl
theorem vfma (a0 a1 a2 a3 a4) : Statement (.vfma a0 a1 a2 a3 a4) := rfl
theorem vfms (a0 a1 a2 a3 a4) : Statement (.vfms a0 a1 a2 a3 a4) := rfl
theorem vmin (a0 a1 a2 a3 a4) : Statement (.vmin a0 a1 a2 a3 a4) := rfl
theorem vmax (a0 a1 a2 a3 a4) : Statement (.vmax a0 a1 a2 a3 a4) := rfl
theorem vabs (a0 a1 a2 a3) : Statement (.vabs a0 a1 a2 a3) := rfl
theorem vneg (a0 a1 a2 a3) : Statement (.vneg a0 a1 a2 a3) := rfl
theorem vdiv (a0 a1 a2 a3 a4) : Statement (.vdiv a0 a1 a2 a3 a4) := rfl
theorem vsqrt (a0 a1 a2 a3) : Statement (.vsqrt a0 a1 a2 a3) := rfl
theorem vand (a0 a1 a2 a3 a4) : Statement (.vand a0 a1 a2 a3 a4) := rfl
theorem vor (a0 a1 a2 a3 a4) : Statement (.vor a0 a1 a2 a3 a4) := rfl
theorem vxor (a0 a1 a2 a3 a4) : Statement (.vxor a0 a1 a2 a3 a4) := rfl
theorem vnot (a0 a1 a2 a3) : Statement (.vnot a0 a1 a2 a3) := rfl
theorem vshl (a0 a1 a2 a3 a4) : Statement (.vshl a0 a1 a2 a3 a4) := rfl
theorem vshr (a0 a1 a2 a3 a4) : Statement (.vshr a0 a1 a2 a3 a4) := rfl
theorem vsar (a0 a1 a2 a3 a4) : Statement (.vsar a0 a1 a2 a3 a4) := rfl
theorem vmov (a0 a1 a2 a3) : Statement (.vmov a0 a1 a2 a3) := rfl
theorem vmovi (a0 a1 a2 a3) : Statement (.vmovi a0 a1 a2 a3) := rfl
theorem vfloor (a0 a1 a2 a3) : Statement (.vfloor a0 a1 a2 a3) := rfl
theorem vclass (a0 a1 a2 a3) : Statement (.vclass a0 a1 a2 a3) := rfl
theorem vadds (a0 a1 a2 a3 a4) : Statement (.vadds a0 a1 a2 a3 a4) := rfl
theorem vceq (a0 a1 a2 a3 a4) : Statement (.vceq a0 a1 a2 a3 a4) := rfl
theorem vclt (a0 a1 a2 a3 a4) : Statement (.vclt a0 a1 a2 a3 a4) := rfl
theorem vcle (a0 a1 a2 a3 a4) : Statement (.vcle a0 a1 a2 a3 a4) := rfl
theorem vsel (a0 a1 a2 a3) : Statement (.vsel a0 a1 a2 a3) := rfl
theorem pand (a0 a1 a2) : Statement (.pand a0 a1 a2) := rfl
theorem por (a0 a1 a2) : Statement (.por a0 a1 a2) := rfl
theorem pnot (a0 a1) : Statement (.pnot a0 a1) := rfl
theorem pmov (a0 a1) : Statement (.pmov a0 a1) := rfl
theorem vcvt (a0 a1 a2 a3) : Statement (.vcvt a0 a1 a2 a3) := rfl
theorem vquant (a0 a1 a2 a3) : Statement (.vquant a0 a1 a2 a3) := rfl
theorem vdeq (a0 a1 a2 a3) : Statement (.vdeq a0 a1 a2 a3) := rfl
theorem vpack (a0 a1 a2 a3) : Statement (.vpack a0 a1 a2 a3) := rfl
theorem vunpk (a0 a1 a2 a3) : Statement (.vunpk a0 a1 a2 a3) := rfl
theorem vrsum (a0 a1 a2 a3) : Statement (.vrsum a0 a1 a2 a3) := rfl
theorem vrmax (a0 a1 a2 a3) : Statement (.vrmax a0 a1 a2 a3) := rfl
theorem vrmin (a0 a1 a2 a3) : Statement (.vrmin a0 a1 a2 a3) := rfl
theorem vscan (a0 a1 a2 a3) : Statement (.vscan a0 a1 a2 a3) := rfl
theorem vperm (a0 a1 a2 a3 a4) : Statement (.vperm a0 a1 a2 a3 a4) := rfl
theorem vxfer (a0 a1 a2) : Statement (.vxfer a0 a1 a2) := rfl
theorem vbcast (a0 a1 a2 a3 a4) : Statement (.vbcast a0 a1 a2 a3 a4) := rfl
theorem vextr (a0 a1 a2 a3) : Statement (.vextr a0 a1 a2 a3) := rfl
theorem viota (a0 a1 a2) : Statement (.viota a0 a1 a2) := rfl
theorem vrcp (a0 a1 a2 a3) : Statement (.vrcp a0 a1 a2 a3) := rfl
theorem vrsqrt (a0 a1 a2 a3) : Statement (.vrsqrt a0 a1 a2 a3) := rfl
theorem vexp2 (a0 a1 a2 a3) : Statement (.vexp2 a0 a1 a2 a3) := rfl
theorem vlog2 (a0 a1 a2 a3) : Statement (.vlog2 a0 a1 a2 a3) := rfl
theorem vexp (a0 a1 a2 a3) : Statement (.vexp a0 a1 a2 a3) := rfl
theorem vlog (a0 a1 a2 a3) : Statement (.vlog a0 a1 a2 a3) := rfl
theorem vsin (a0 a1 a2 a3) : Statement (.vsin a0 a1 a2 a3) := rfl
theorem vcos (a0 a1 a2 a3) : Statement (.vcos a0 a1 a2 a3) := rfl
theorem vtanh (a0 a1 a2 a3) : Statement (.vtanh a0 a1 a2 a3) := rfl
theorem verf (a0 a1 a2 a3) : Statement (.verf a0 a1 a2 a3) := rfl
theorem vsigm (a0 a1 a2 a3) : Statement (.vsigm a0 a1 a2 a3) := rfl
theorem mma (a0 a1 a2 a3 a4 a5 a6) : Statement (.mma a0 a1 a2 a3 a4 a5 a6) := rfl
theorem mmaz (a0 a1 a2 a3 a4 a5 a6) : Statement (.mmaz a0 a1 a2 a3 a4 a5 a6) := rfl
theorem mmas (a0 a1 a2 a3 a4 a5 a6) : Statement (.mmas a0 a1 a2 a3 a4 a5 a6) := rfl
theorem mmasz (a0 a1 a2 a3 a4 a5 a6) : Statement (.mmasz a0 a1 a2 a3 a4 a5 a6) := rfl
theorem matrixSlotWake (a0 a1) : Statement (.matrixSlotWake a0 a1) := rfl
theorem mmaResult (a0) : Statement (.mmaResult a0) := rfl
theorem operandSlotFree (a0 a1) : Statement (.operandSlotFree a0 a1) := rfl
theorem oclaim (a0) : Statement (.oclaim a0) := rfl
theorem orelease (a0) : Statement (.orelease a0) := rfl
theorem old (a0 a1 a2 a3) : Statement (.old a0 a1 a2 a3) := rfl
theorem aclr (a0) : Statement (.aclr a0) := rfl
theorem amov (a0 a1 a2) : Statement (.amov a0 a1 a2) := rfl
theorem aadd (a0 a1) : Statement (.aadd a0 a1) := rfl
theorem mgeo (a0) : Statement (.mgeo a0) := rfl
theorem cyqr (a0 a1 a2 a3) : Statement (.cyqr a0 a1 a2 a3) := rfl
theorem cyapply (a0 a1 a2 a3 a4) : Statement (.cyapply a0 a1 a2 a3 a4) := rfl
theorem cygiv (a0 a1 a2) : Statement (.cygiv a0 a1 a2) := rfl
theorem cyrot (a0 a1 a2) : Statement (.cyrot a0 a1 a2) := rfl
theorem cyrd (a0 a1 a2 a3) : Statement (.cyrd a0 a1 a2 a3) := rfl
theorem cywr (a0 a1 a2) : Statement (.cywr a0 a1 a2) := rfl
theorem cyclr (a0) : Statement (.cyclr a0) := rfl
theorem cymode (a0 a1) : Statement (.cymode a0 a1) := rfl
theorem cysolve (a0 a1 a2) : Statement (.cysolve a0 a1 a2) := rfl
theorem cyang (a0 a1 a2) : Statement (.cyang a0 a1 a2) := rfl
theorem eset (a0 a1 a2 a3) : Statement (.eset a0 a1 a2 a3) := rfl
theorem eget (a0 a1 a2) : Statement (.eget a0 a1 a2) := rfl
theorem cpy (a0 a1 a2) : Statement (.cpy a0 a1 a2) := rfl
theorem cpyst (a0 a1 a2 a3 a4 a5) : Statement (.cpyst a0 a1 a2 a3 a4 a5) := rfl
theorem sacc (a0 a1 a2 a3 a4) : Statement (.sacc a0 a1 a2 a3 a4) := rfl
theorem rcnt (a0 a1 a2) : Statement (.rcnt a0 a1 a2) := rfl
theorem rsnap (a0 a1 a2) : Statement (.rsnap a0 a1 a2) := rfl
theorem send (a0 a1 a2 a3 a4) : Statement (.send a0 a1 a2 a3 a4) := rfl
theorem ttset (a0 a1) : Statement (.ttset a0 a1) := rfl
theorem tready (a0 a1) : Statement (.tready a0 a1) := rfl
theorem trkarm (a0 a1 a2) : Statement (.trkarm a0 a1 a2) := rfl
theorem lease (a0 a1) : Statement (.lease a0 a1) := rfl
theorem unlease (a0 a1) : Statement (.unlease a0 a1) := rfl
theorem zip (a0 a1 a2 a3) : Statement (.zip a0 a1 a2 a3) := rfl
theorem unzip (a0 a1 a2 a3) : Statement (.unzip a0 a1 a2 a3) := rfl
theorem repl (a0 a1 a2 a3 a4) : Statement (.repl a0 a1 a2 a3 a4) := rfl
theorem qdecl (a0 a1 a2) : Statement (.qdecl a0 a1 a2) := rfl
theorem qarrive (a0 a1) : Statement (.qarrive a0 a1) := rfl
theorem qarriveRegister (a0) : Statement (.qarriveRegister a0) := rfl
theorem qread (a0 a1 a2) : Statement (.qread a0 a1 a2) := rfl
theorem qreplay (a0 a1 a2) : Statement (.qreplay a0 a1 a2) := rfl
theorem tsave (a0 a1 a2) : Statement (.tsave a0 a1 a2) := rfl
theorem tload (a0 a1 a2) : Statement (.tload a0 a1 a2) := rfl
theorem ecancel (a0) : Statement (.ecancel a0) := rfl
theorem sld (a0 a1 a2) : Statement (.sld a0 a1 a2) := rfl
theorem vwin (a0 a1 a2 a3) : Statement (.vwin a0 a1 a2 a3) := rfl
theorem vshape (a0 a1 a2 a3) : Statement (.vshape a0 a1 a2 a3) := rfl
theorem vmode (a0 a1 a2) : Statement (.vmode a0 a1 a2) := rfl
theorem stpop (a0) : Statement (.stpop a0) := rfl
theorem tkset (a0 a1) : Statement (.tkset a0 a1) := rfl
theorem lateResult (a0 a1) : Statement (.lateResult a0 a1) := rfl
theorem frostSwitch (a0) : Statement (.frostSwitch a0) := rfl
theorem replicaLockSwitch (a0) : Statement (.replicaLockSwitch a0) := rfl
theorem mirrorMismatch (a0 a1 a2 a3) : Statement (.mirrorMismatch a0 a1 a2 a3) := rfl
theorem strandEnd (a0 a1) : Statement (.strandEnd a0 a1) := rfl
theorem engineCommandStart (a0) : Statement (.engineCommandStart a0) := rfl
theorem engineCommandDone (a0) : Statement (.engineCommandDone a0) := rfl
theorem leaseGrant (a0) : Statement (.leaseGrant a0) := rfl
theorem leaseExpiry (a0 a1 a2) : Statement (.leaseExpiry a0 a1 a2) := rfl
theorem trackerFire (a0 a1 a2) : Statement (.trackerFire a0 a1 a2) := rfl
theorem tileRunEnd (a0 a1 a2) : Statement (.tileRunEnd a0 a1 a2) := rfl
theorem memWrite (a0) : Statement (.memWrite a0) := rfl
theorem poolWrite (a0) : Statement (.poolWrite a0) := rfl
theorem streamWrite (a0) : Statement (.streamWrite a0) := rfl
theorem chunk (a0) : Statement (.chunk a0) := rfl
theorem chunkAbort (a0) : Statement (.chunkAbort a0) := rfl
theorem response (a0) : Statement (.response a0) := rfl
theorem slotRequest (a0) : Statement (.slotRequest a0) := rfl
theorem slotAnswer (a0) : Statement (.slotAnswer a0) := rfl
theorem noResponse (a0) : Statement (.noResponse a0) := rfl
theorem messageRetry (a0) : Statement (.messageRetry a0) := rfl
theorem landedStreamApply (a0 a1) : Statement (.landedStreamApply a0 a1) := rfl
theorem linkFrame (a0 a1) : Statement (.linkFrame a0 a1) := rfl
theorem linkReplay (a0 a1) : Statement (.linkReplay a0 a1) := rfl
theorem linkRetrain (a0 a1) : Statement (.linkRetrain a0 a1) := rfl
theorem portDown (a0) : Statement (.portDown a0) := rfl
theorem epochAutoAdvance (a0) : Statement (.epochAutoAdvance a0) := rfl
theorem replicaUpdate (a0) : Statement (.replicaUpdate a0) := rfl
theorem gustTick (a0) : Statement (.gustTick a0) := rfl
theorem lullStep (a0 a1) : Statement (.lullStep a0 a1) := rfl
theorem windowBoundary (a0) : Statement (.windowBoundary a0) := rfl
theorem roundBegin (a0 a1) : Statement (.roundBegin a0 a1) := rfl
theorem sliceEnd (a0 a1) : Statement (.sliceEnd a0 a1) := rfl
theorem teamSelect (a0 a1) : Statement (.teamSelect a0 a1) := rfl
theorem cooperativeSwap (a0 a1) : Statement (.cooperativeSwap a0 a1) := rfl
theorem swapin (a0 a1) : Statement (.swapin a0 a1) := rfl
theorem shadowDrain (a0 a1) : Statement (.shadowDrain a0 a1) := rfl
theorem imageStage (a0 a1) : Statement (.imageStage a0 a1) := rfl
theorem forcedPreemption (a0 a1) : Statement (.forcedPreemption a0 a1) := rfl
theorem spillDone (a0 a1 a2) : Statement (.spillDone a0 a1 a2) := rfl
theorem preemptWatchdog (a0 a1) : Statement (.preemptWatchdog a0 a1) := rfl
theorem waitWatchdog (a0 a1) : Statement (.waitWatchdog a0 a1) := rfl
theorem yieldOverdue (a0 a1) : Statement (.yieldOverdue a0 a1) := rfl
theorem killPoint (a0 a1) : Statement (.killPoint a0 a1) := rfl
theorem killLimit (a0 a1) : Statement (.killLimit a0 a1) := rfl
theorem eccUncorrectable (a0) : Statement (.eccUncorrectable a0) := rfl
theorem scrub (a0 a1) : Statement (.scrub a0 a1) := rfl
theorem scanTest (a0 a1) : Statement (.scanTest a0 a1) := rfl
theorem scanClaim (a0 a1) : Statement (.scanClaim a0 a1) := rfl
theorem scanComplete (a0 a1 a2) : Statement (.scanComplete a0 a1 a2) := rfl
theorem telemetrySample (a0 a1) : Statement (.telemetrySample a0 a1) := rfl
theorem deviceReset : Statement (.deviceReset) := rfl
theorem partSet (a0) : Statement (.partSet a0) := rfl
theorem partDestroy (a0) : Statement (.partDestroy a0) := rfl
theorem vfBind (a0) : Statement (.vfBind a0) := rfl
theorem slotSet (a0) : Statement (.slotSet a0) := rfl
theorem teamCreate (a0) : Statement (.teamCreate a0) := rfl
theorem teamSet (a0) : Statement (.teamSet a0) := rfl
theorem teamStop (a0) : Statement (.teamStop a0) := rfl
theorem teamResume (a0) : Statement (.teamResume a0) := rfl
theorem teamRestart (a0) : Statement (.teamRestart a0) := rfl
theorem teamDestroy (a0) : Statement (.teamDestroy a0) := rfl
theorem paramSet (a0) : Statement (.paramSet a0) := rfl
theorem s2Map (a0) : Statement (.s2Map a0) := rfl
theorem s2Unmap (a0) : Statement (.s2Unmap a0) := rfl
theorem invalidate (a0) : Statement (.invalidate a0) := rfl
theorem pageAnswer (a0) : Statement (.pageAnswer a0) := rfl
theorem ownerSet (a0) : Statement (.ownerSet a0) := rfl
theorem replicaReserve (a0) : Statement (.replicaReserve a0) := rfl
theorem imageLoad (a0) : Statement (.imageLoad a0) := rfl
theorem attest (a0) : Statement (.attest a0) := rfl
theorem keySession (a0) : Statement (.keySession a0) := rfl
theorem keyInstall (a0) : Statement (.keyInstall a0) := rfl
theorem epochAdvance (a0) : Statement (.epochAdvance a0) := rfl
theorem scanSet (a0) : Statement (.scanSet a0) := rfl
theorem powerSet (a0) : Statement (.powerSet a0) := rfl
theorem teamExport (a0) : Statement (.teamExport a0) := rfl
theorem teamImport (a0) : Statement (.teamImport a0) := rfl
theorem backgroundCommandDone (a0) : Statement (.backgroundCommandDone a0) := rfl
theorem vfMessage (a0 a1) : Statement (.vfMessage a0 a1) := rfl
theorem s1inv (a0 a1) : Statement (.s1inv a0 a1) := rfl
theorem registerWrite (a0 a1 a2) : Statement (.registerWrite a0 a1 a2) := rfl
theorem readbackRead (a0 a1) : Statement (.readbackRead a0 a1) := rfl
theorem cxlMemAccess (a0 a1 a2) : Statement (.cxlMemAccess a0 a1 a2) := rfl
theorem ideKm (a0) : Statement (.ideKm a0) := rfl
theorem illegalEncoding (a0 a1) : Statement (.illegalEncoding a0 a1) := rfl
theorem bundleFetchFault (a0 a1 a2) : Statement (.bundleFetchFault a0 a1 a2) := rfl
theorem operandLoadComplete (a0 a1) : Statement (.operandLoadComplete a0 a1) := rfl
theorem accumulatorPortComplete (a0) : Statement (.accumulatorPortComplete a0) := rfl
theorem eddyWorkComplete (a0) : Statement (.eddyWorkComplete a0) := rfl
theorem storePerformed (a0 a1) : Statement (.storePerformed a0 a1) := rfl

end Sys2Proof.Laws.Homes
end

