-- ==== Sys2Proof/Tests/Slice0.lean ====
section
/-!
SUPPORT. Small tests: words written out from the encoding tables of the spec, ill-formed terms that the checks refuse, single
steps whose results are worked out by hand from the rules, and for each statement states that meet its hypotheses together.
-/

set_option Elab.async false
namespace Sys2Proof.Tests
open Sys2Proof Sys2Proof.Machine Sys2Proof.Claims

/-! ## Words (R31, R41 to R55): the fields in the order of the tables, most significant first -/

-- XX3: op, xd, xa, xb, fn
theorem test_decode_add : decodeSyllable 0 0b000001_000011_000001_000010_00000000 = .ok (.add 3 1 2) := by decide
theorem test_decode_mulh : decodeSyllable 1 0b000100_110111_111111_000001_00000001 = .ok (.mulh 55 63 1 true) := by decide
theorem test_decode_rem : decodeSyllable 1 0b000110_000001_000010_000011_00000000 = .ok (.rem 1 2 3 false) := by decide
theorem test_decode_popc : decodeSyllable 0 0b010010_000100_000101_000000_00000010 = .ok (.popc 4 5) := by decide
-- XXI with position and length - 1
theorem test_decode_bfi : decodeSyllable 0 0b010100_000100_000101_100000_00_011111 = .ok (.bfi 4 5 32 31) := by decide
theorem test_decode_sari : decodeSyllable 0 0b011010_000100_000101_000000_10_111111 = .ok (.sari 4 5 63) := by decide
theorem test_decode_movhh : decodeSyllable 1 0b011110_000111_10000000000000000001 = .ok (.movhh 7 0x80001) := by decide
theorem test_decode_fsub : decodeSyllable 0 0b011111_000001_000010_000011_01_001_111 = .ok (.fsub 1 2 3 1 7) := by decide
theorem test_decode_fcvt : decodeSyllable 0 0b100001_000001_000010_000000_11_00_0_001 = .ok (.fcvt 1 2 3 0 1) := by decide
-- XB, XZ, XJ
theorem test_decode_br : decodeSyllable 1 0b101000_101_000001_000010_11111111111 = .ok (.br 5 1 2 0x7FF) := by decide
theorem test_decode_bnz : decodeSyllable 1 0b101001_1_000011_1000000000000000000 = .ok (.bnz 3 0x40000) := by decide
theorem test_decode_call : decodeSyllable 1 0b101011_00000000000000000000000001 = .ok (.call 1) := by decide
theorem test_decode_jrl : decodeSyllable 1 0b101100_110111_000001_000000_000000_1_1 = .ok (.jrl 55 1 true) := by decide
theorem test_decode_loop : decodeSyllable 1 0b101101_000000_000000_000010_00000_110 = .ok (.loop 2 6) := by decide
theorem test_decode_mtc : decodeSyllable 1 0b110101_000000_000111_00_000000010000 = .ok (.mtc 7 0x010) := by decide
theorem test_decode_tkwait : decodeSyllable 1 0b111000_000011_000000_000000_11111110 = .ok (.tkwait 3 254) := by decide
-- LM, LV, LG, LP, LF
theorem test_decode_ldw : decodeSyllable 2 0b000001_000001_000010_100_0_1000000000 = .ok (.ldw 1 2 0x200) := by decide
theorem test_decode_stw : decodeSyllable 2 0b000010_000001_000010_010_1_0000000001 = .ok (.stw 1 2 true 1) := by decide
theorem test_decode_vlds : decodeSyllable 2 0b000101_1000000_000001_10000001_11111 = .ok (.vlds 64 1 0x81 31) := by decide
theorem test_decode_vgather : decodeSyllable 2 0b000111_0000001_0000010_000011_101_0_10 = .ok (.vgather 1 2 3 5 2) := by decide
theorem test_decode_vpop : decodeSyllable 2 0b001001_0000001_11_00000001_000000000 = .ok (.vpop 1 3 1) := by decide
theorem test_decode_fence : decodeSyllable 2 0b001011_00000000000000000000000_101 = .ok (.fence 5) := by decide
-- vector: op, fmt, m, wd, wa, wb
theorem test_decode_vfma : decodeSyllable 3 0b0000100_001_1_0000011_0000001_1111111 = .ok (.vfma 1 true 3 1 127) := by decide
theorem test_decode_vmovi : decodeSyllable 11 0b0010100_100_0_0000011_10000000000001 = .ok (.vmovi 4 false 3 0x2001) := by decide
theorem test_decode_vquant : decodeSyllable 4 0b0110001_000_0_0000001_0000010_000_1001 = .ok (.vquant 0 1 2 9) := by decide
theorem test_decode_vsigm : decodeSyllable 4 0b1011010_010_0_0000001_0000010_0000000 = .ok (.vsigm 2 false 1 2) := by decide
-- matrix: op, fmtA, fmtB, A, B, T, flags
theorem test_decode_mmasz : decodeSyllable 12 0b00100_1000_1001_000001_111111_00010_10 = .ok (.mmasz 8 9 1 63 2 true false) := by decide
theorem test_decode_old : decodeSyllable 12 0b00111_0001_0000_000001_000010_00000_01 = .ok (.old 1 1 2 true) := by decide
-- Eddy: op, t, u, xa, xb, xd, fn
theorem test_decode_cysolve : decodeSyllable 13 0b01001_11_00_000001_000010_000000_00000 = .ok (.cysolve 3 1 2) := by decide
theorem test_decode_cygiv : decodeSyllable 13 0b00011_00_00_000001_000010_000011_00000 = .ok (.cygiv 1 2 3) := by decide
-- engine: op, xa, xb, d, fn
theorem test_decode_ttset : decodeSyllable 14 0b001001_000001_000010_000000_00000000 = .ok (.ttset 1 2) := by decide
theorem test_decode_ecancel : decodeSyllable 14 0b010111_000000_000000_000000_00000101 = .ok (.ecancel 5) := by decide
-- SC: op, a, xa, imm14
theorem test_decode_vshape : decodeSyllable 15 0b000011_001000_000000_00000_0111_00111 = .ok (.vshape true 0 7 7) := by decide
theorem test_decode_tkset : decodeSyllable 15 0b000110_000000_000000_0000_10_00000111 = .ok (.tkset 2 7) := by decide
-- header: SC at bit 31, SA at 16; Y and K in 7 and 6; mirror bits in 12 to 8
theorem test_decode_header :
    headerOf 0b1000000000000101_000_00000_1_1_000000 = ⟨0x8005, false, false, false, false, false, true, true⟩ := by decide

/-! ## What the checks refuse (R35, R32): one ill-formed term for each check of wellFormed, and the words -/

theorem test_refused_destination : (Instr.add 56 1 2).wellFormed = false := by decide
theorem test_refused_field : (Instr.bfx 1 2 1 63).wellFormed = false ∧ (Instr.bfx 1 2 0 63).wellFormed = true := by decide
theorem test_refused_precision : (Instr.fadd 1 2 3 2 0).wellFormed = false := by decide
theorem test_refused_rounding : (Instr.fadd 1 2 3 0 4).wellFormed = false ∧ (Instr.fadd 1 2 3 0 7).wellFormed = true := by decide
theorem test_refused_kinds : (Instr.fcvt 1 2 1 1 0).wellFormed = false := by decide
theorem test_refused_predicate : (Instr.fcmp 1 2 3 0 4).wellFormed = false := by decide
theorem test_refused_condition : (Instr.br 6 1 2 0).wellFormed = false ∧ (Instr.cmpt 1 2 7).wellFormed = false := by decide
theorem test_refused_depth : (Instr.loop 1 0).wellFormed = false ∧ (Instr.loop 1 7).wellFormed = false := by decide
theorem test_refused_spin : (Instr.spinw 1 2 4).wellFormed = false := by decide
theorem test_refused_control : (Instr.mfc 1 0x00C).wellFormed = false ∧ (Instr.mtc 1 0x061).wellFormed = false := by decide
theorem test_refused_launch : (Instr.launch 1 0).wellFormed = false ∧ (Instr.launch 1 49).wellFormed = false := by decide
theorem test_refused_token : (Instr.tkwait 1 255).wellFormed = false ∧ (Instr.ecancel 255).wellFormed = false := by decide
theorem test_refused_mask : (Instr.vld 1 1 0 0).wellFormed = false ∧ (Instr.vpop 1 0 0).wellFormed = false := by decide
theorem test_refused_scope : (Instr.fence 6).wellFormed = false := by decide
theorem test_refused_format : (Instr.vdiv 4 false 1 2 3).wellFormed = false ∧ (Instr.vabs 7 false 1 2).wellFormed = false ∧
    (Instr.vshl 3 false 1 2 3).wellFormed = false ∧ (Instr.vsar 7 false 1 2 3).wellFormed = false := by decide
theorem test_refused_narrow : (Instr.vcvt 1 1 2 1).wellFormed = false ∧ (Instr.vcvt 1 1 2 8).wellFormed = false ∧
    (Instr.vpack 4 1 2 13).wellFormed = false ∧ (Instr.vquant 0 1 2 7).wellFormed = false ∧
    (Instr.vdeq 3 1 2 9).wellFormed = false := by decide
theorem test_refused_transfer : (Instr.vxfer 1 2 0).wellFormed = false := by decide
theorem test_refused_matrix : (Instr.mma 14 1 0 0 0 false false).wellFormed = false ∧
    (Instr.old 15 0 0 false).wellFormed = false ∧ (Instr.amov 14 0 0).wellFormed = false := by decide
theorem test_refused_same_file : (Instr.cyapply 1 1 2 3 false).wellFormed = false := by decide
theorem test_refused_image : (Instr.cyrd 0 1 true 2).wellFormed = false ∧ (Instr.cywr 0 1 3).wellFormed = false := by decide
theorem test_refused_eset : (Instr.eset 1 2 0 1).wellFormed = false := by decide
theorem test_refused_stream : (Instr.cpyst 1 0 0 0 true 4).wellFormed = false := by decide
theorem test_refused_operation : (Instr.sacc 1 0 0 0 3).wellFormed = false ∧ (Instr.send 1 2 0 0 3).wellFormed = false := by decide
theorem test_refused_selector : (Instr.vwin true 1 0 0).wellFormed = false ∧ (Instr.vmode true 2 0).wellFormed = false := by decide
theorem test_refused_shape : (Instr.vshape false 0 8 7).wellFormed = false ∧ (Instr.vshape false 0 7 7).wellFormed = true := by decide
theorem test_refused_pair : (Instr.stpop 0).wellFormed = false ∧ (Instr.stpop 28).wellFormed = false := by decide
theorem test_refused_tkset : (Instr.tkset 3 0).wellFormed = false := by decide
theorem test_refused_kind : (Instr.memWrite (bareMessage 0 0 2 0 0 [] false)).wellFormed = false ∧
    (Instr.chunk (bareMessage 0 0 4 0 2 [] false)).wellFormed = false := by decide
-- an unused field that is not zero, an opcode that no row names, an all-zero syllable
theorem test_refused_words : (decodeSyllable 0 0b000001_000011_000001_000010_00000001).toOption = none ∧
    (decodeSyllable 2 0b001100_00000000000000000000000000).toOption = none ∧ decodeSyllable 14 0 = .error .zero := by decide
-- a reserved header bit, a mirror without its primary
theorem test_refused_headers : (headerError 0x00012000 []).isSome = true ∧ (headerError 0x00020100 [(1, 0x04304200)]).isSome = true := by decide

/-! ## The states of the tests: a team runs on cluster 0 of die 0 with one core, its tables map the first GiB (log 3) -/

/-- A node strand of that core presents a bundle with a syllable in this slot. -/
def node (slot : Nat) (f : Strand → Strand := id) : State :=
  ({ State.reset.withFetchWord 32 0 with issue := { Issue.reset with slot := slot, len := 2, addr := 0x10000 } } : State).modMe f

/-- The conductor of that core, at G. -/
def conductor (slot : Nat) (f : Strand → Strand := id) : State :=
  ({ State.reset.withFetchWord 32 0xD4000010 with issue := { Issue.reset with strand := 3, slot := slot, len := 2, addr := 0x10000 } } : State).modMe f

/-- Registers with their values. -/
def regs (l : List (Nat × Word)) (t : Strand) : Strand := l.foldl (fun t p => t.setReg (BitVec.ofNat 6 p.1) p.2 false) t

/-- The checks of Clear as a value. -/
def clear (i : Instr) (s : State) : Bool :=
  (s.decodeVerdict i).isNone && !s.starves [] i && (s.guardFault i).isNone && (s.ueScalar i).isNone

theorem goes_of_clear {i : Instr} {s : State} {own : Prop} (h : clear i s = true) (o : own) : Goes i s own := by
  simp only [clear, Bool.and_eq_true, Option.isNone_iff_eq_none, Bool.not_eq_true'] at h
  exact .inr ⟨⟨h.1.1.1, h.1.1.2, h.1.2, h.2⟩, o⟩

/-- What the answer of exec shows, where it is a next state. -/
def shows (o : Out) (p : State → Bool) : Bool :=
  match o with
  | .next t => p t
  | _ => false

/-- The last result that the strand has in flight. -/
def lastOf (s : State) : Option (Write × Nat) := s.me.pend.getLast?.map fun p => (p.write, p.due)

/-! ## Single steps, with results worked out from the rules -/

-- R103: sums wrap modulo 2^64; the result is due one cycle later
theorem test_add_wraps : shows (exec (.add 3 1 2) (node 0 (regs [(1, 0xFFFFFFFFFFFFFFFF), (2, 2)])))
    (fun t => lastOf t == some (.x 3 1, 1)) = true := by decide
-- R103: the upper half of (-1) x 2 is -1 signed, 1 unsigned
theorem test_mulh_signs : shows (exec (.mulh 3 1 2 false) (node 0 (regs [(1, 0xFFFFFFFFFFFFFFFF), (2, 2)])))
    (fun t => lastOf t == some (.x 3 0xFFFFFFFFFFFFFFFF, 3)) = true ∧
    shows (exec (.mulh 3 1 2 true) (node 0 (regs [(1, 0xFFFFFFFFFFFFFFFF), (2, 2)]))) (fun t => lastOf t == some (.x 3 1, 3)) = true := by decide
-- R104: -7 / 2 is -3 and leaves -1; by zero the quotient is all ones
theorem test_div_rounds_to_zero : divide false (-7) 2 = (-3, -1) ∧ divide true 7 0 = (0xFFFFFFFFFFFFFFFF, 7) := by decide
-- R103: a shift takes the low six bits of xb
theorem test_sar_amount : shows (exec (.sar 3 1 2) (node 0 (regs [(1, 0x8000000000000000), (2, 0x41)])))
    (fun t => lastOf t == some (.x 3 0xC000000000000000, 1)) = true := by decide
-- R106: BFI keeps the rest of xd
theorem test_bfi_keeps : insertField 4 8 0xFFFF 0 = 0xF00F := by decide
-- R88: a write of x0 is discarded
theorem test_x0_reads_zero : (Strand.reset.setReg 0 5 false).reg 0 = 0 ∧ (Strand.reset.setReg 55 5 false).reg 55 = 5 := by decide
-- R109: 1.0 + 2.0 = 3.0 in F32, due four cycles later
theorem test_fadd_f32 : shows (exec (.fadd 3 1 2 0 0) (node 0 (regs [(1, 0x3F800000), (2, 0x40000000)])))
    (fun t => lastOf t == some (.x 3 0x40400000, 4)) = true := by decide +kernel
-- R113: a taken BZ goes to the header address + 4 x disp, two cycles later
theorem test_bz_target : shows (exec (.bz 1 0x7FFFF) (node 1)) (fun t => t.me.pc == 0xFFFC && t.me.issueAt == 2) = true := by decide
-- R113: CALL links the next bundle in x55
theorem test_call_links : shows (exec (.call 4) (node 1)) (fun t => t.me.pc == 0x10010 && lastOf t == some (.x 55 0x10008, 1)) = true := by decide
-- R99: a zero count skips the body
theorem test_loop_latches : shows (exec (.loop 3 1) (node 1 fun t => { t with ctl := { t.ctl with lc := #v[5, 0, 0, 0, 0, 0] } }))
    (fun t => (t.me.nest.map fun n => (n.body, n.counts, n.idx)) == some (3, [5], [0])) = true := by decide
-- R345, R342: TRAP enters the handler with the immediate in FINFO
theorem test_trap_enters : shows (exec (.trap 0x12345) (node 1 fun t => { t with ctl := { t.ctl with tvecEn := true, tvecBase := 0x8000 } }))
    (fun t => t.me.pc == 0x20000 && t.me.ctl.exl && t.me.ctl.priv && t.me.ctl.finfo == 0x12345 && t.me.ctl.epc == 0x10000
      && t.me.ctl.cause == 0x0000000200010011 && t.me.ctl.fmask == 2) = true := by decide
-- R344: ERET goes back at the level of PPRIV
theorem test_eret_returns : shows (exec .eret (conductor 1 fun t => { t with ctl := { t.ctl with exl := true, ppriv := false, epc := 0x30000 } }))
    (fun t => t.me.pc == 0x30000 && !t.me.ctl.exl && !t.me.ctl.priv && t.me.issueAt == 4) = true := by decide
-- R143: LDB sign-extends the byte at xa + disp in the own scratchpad
theorem test_ldb_extends : shows (exec (.ldb 1 2 0x3FF) ((node 2 (regs [(2, 0x3F000000001)])).modMyCore fun k => k.poolWrite 0 [0x80] false))
    (fun t => lastOf t == some (.x 1 0xFFFFFFFFFFFFFF80, 4)) = true := by decide
-- R143: a store puts the low bytes on their way, least significant first
theorem test_sth_bytes : shows (exec (.sth 1 2 false 1) (node 2 (regs [(1, 0x1234), (2, 0x10040)])))
    (fun t => t.myCore.stores.map (fun w => (w.target, w.bytes)) == [(.hbm 0x10042, [0x34, 0x12])]) = true := by decide +kernel
-- R115: TKTEST of a pending token answers 3
theorem test_tktest_pending : shows (exec (.tktest 3 9) ((node 1).modMyTeam fun m => m.setToken 9 (plainToken .pending)))
    (fun t => t.me.pend.map (fun p => (p.write, p.due)) == [(.x 3 3, 2), (.progidx 0x0900000000000000, 2)]) = true := by decide
-- R154: VWIN of all lane groups adds the immediate to xa, modulo the register count of the strand
theorem test_vwin_wraps : shows (exec (.vwin true 0 1 3) (node 15 (regs [(1, 510)])))
    (fun t => t.me.pend.map (·.write) == (List.range 8).map fun g => .window g 1) = true := by decide
-- R204: bit 0 of the flags releases slot A, bit 1 slot B
theorem test_mma_releases_a : decodeSyllable 12 0b00001_0001_0001_000000_000001_00000_01 = .ok (.mma 1 1 0 1 0 false true) := by decide
-- R168: VCEQ of equal registers sets a bit for each of the 16 elements
theorem test_vceq_counts : shows (exec (.vceq 0 false 1 2 2) (node 4))
    (fun t => t.me.pend.map (·.write) == [.pred 0 1 0xFFFF (BitVec.allOnes 64)]) = true := by decide +kernel
-- R242: a queued command makes its token pending
theorem test_copy_queues : shows (exec (.cpy 1 0 false) (node 14 (regs [(1, 0xFFFFFF07)])))
    (fun t => (t.myTeam.token 7).st == .pending && t.cmds.map (·.token) == [7]) = true := by decide

/-! ## Words that step runs as the first instruction -/

theorem test_step_runs_movi : shows (step (State.reset.withFetchWord 32 0b011100_000101_00000000000000001001))
    (fun t => (t.strand 0 0).pend.map (·.write) == [.x 5 9]) = true := by decide +kernel
theorem test_step_runs_nop : shows (step (State.reset.withFetchWord 32 0x00000080)) (fun t => (t.strand 0 0).pc == 0x10004) = true := by
  decide +kernel

/-! ## States that meet the hypotheses of the statements -/

theorem witness_DecodeOfEncode : (Instr.vshape false 7 7 7).wellFormed = true ∧ fitsSlot (.vshape false 7 7 7) 15 = true ∧
    (Instr.vmovi 7 true 127 0x3FFF).wellFormed = true ∧ fitsSlot (.vmovi 7 true 127 0x3FFF) 11 = true := by decide
theorem witness_AcceptedWordsAreEncodings : decodeSyllable 0 0x04304200 = .ok (.add 3 1 2) := by decide
-- a reserved bit; VB beside V0; a mirror whose primary is absent, whose words differ, whose syllable writes memory
theorem witness_MalformedHeaders : (headerError 0x00010001 [(0, 0x04304200)]).isSome = true ∧
    (headerError 0x00180000 [(3, 0x0200C082), (4, 0x0200C082)]).isSome = true ∧ (headerError 0x00020100 [(1, 0x04304200)]).isSome = true ∧
    (headerError 0x00030100 [(0, 0x04304200), (1, 0x04304201)]).isSome = true ∧
    (headerError 0x00030100 [(0, 0xB8000000), (1, 0xB8000000)]).isSome = true ∧
    (headerError 0x00030100 [(0, 0x04304200), (1, 0x04304200)]).isSome = false := by decide
theorem witness_InvariantKept : Claims.Inv (State.reset.withFetchWord 32 0x70500009) ∧
    shows (step (State.reset.withFetchWord 32 0x70500009)) (fun _ => true) = true := by
  unfold Claims.Inv; constructor <;> decide +kernel

/-- The integer instructions of IntegerResults. -/
def integerOps : List Instr :=
  [.add 3 1 2, .sub 3 1 2, .mul 3 1 2, .mulh 3 1 2 true, .and 3 1 2, .or 3 1 2, .xor 3 1 2, .shl 3 1 2, .shr 3 1 2, .sar 3 1 2,
   .slt 3 1 2 false, .seq 3 1 2, .min 3 1 2 true, .max 3 1 2 false, .sel 3 1 2, .agen 3 1 2 7, .clz 3 1, .ctz 3 1, .popc 3 1,
   .brev 3 1, .peek 3 0, .bfx 3 1 0 63, .bfi 3 1 63 0, .addi 3 1 0x3FFF, .andi 3 1 1, .ori 3 1 1, .xori 3 1 1, .shli 3 1 63,
   .shri 3 1 0, .sari 3 1 63, .slti 3 1 0x2000, .movi 55 0x80000, .movhi 0 1, .movhh 55 1]
theorem witness_IntegerResults :
    integerOps.all (fun i => clear i (node 0 fun t => { t with streams := [(0, [{ val := 7, mark := false }])] })) = true := by decide
theorem witness_BitFieldsAndCounts : (1 ≤ 1 ∧ 63 + 1 ≤ 64 ∧ 63 < 64) ∧ (1 ≤ 64 ∧ 0 + 64 ≤ 64 ∧ 0 < 64) ∧ (1 : Word) ≠ 0 := by decide
theorem witness_DivisionResults : clear (.div 3 1 2 false) (node 1) = true ∧ clear (.rem 3 1 2 true) (node 1) = true ∧
    ¬ (node 1).myCore.mtime < (node 1).myCore.divB ∧ (2 : Word) ≠ 0 ∧
    ¬ ((7 : Word) = BitVec.intMin 64 ∧ (2 : Word) = BitVec.allOnes 64) ∧
    (let s := (node 1).modMyCore fun k => { k with divB := 1 }
     (node 1).issue.admitted = false ∧ s.myCore.mtime < s.myCore.divB ∧
      [Instr.div 3 1 2 false, .rem 3 1 2 true, .fdiv 3 1 2 1 7, .fsqrt 3 1 0 0].all (fun i => clear i s) = true) ∧
    (node 0).issue.slot = 0 := by decide
/-- The float instructions of FloatResults. -/
def floatOps : List Instr :=
  [.fadd 3 1 2 0 0, .fsub 3 1 2 1 7, .fmul 3 1 2 1 3, .fmin 3 1 2 0 0, .fmax 3 1 2 0 0, .fdiv 3 1 2 0 0, .fsqrt 3 1 1 7,
   .ffma 3 1 2 1 2, .fcvt 3 1 0 3 1, .fcmp 3 1 2 0 3]
theorem witness_FloatResults : floatOps.all (fun i => clear i (node 0)) = true ∧
    ¬ (node 0).myCore.mtime < (node 0).myCore.divA ∧ ¬ (node 1).myCore.mtime < (node 1).myCore.divB ∧
    (node 0).issue.mirrored = false := by decide

/-- The transfers of Transfers: taken and not taken. -/
theorem witness_Transfers : [Instr.br 0 1 2 0x400, .br 1 1 2 0, .bz 1 0, .bnz 1 0, .jmp 0x2000000, .call 0, .jr 1 false, .jrl 55 1 true].all
      (fun i => clear i (node 1)) = true ∧ (node 1).me.nest = none ∧
    condHolds 0 ((node 1).srcPeek 1) ((node 1).srcPeek2 1 2) = true ∧ condHolds 1 ((node 1).srcPeek 1) ((node 1).srcPeek2 1 2) = false ∧
    ((node 1).srcPeek 1).toNat % 4 = 0 := by decide
/-- A nest at the end of a pass. -/
def passEnd : Nest :=
  { depth := 2, body := 1, pos := 0, first := 0x10008, counts := [2, 2], steps := [(2 ^ 53 - 1, true), (2 ^ 48 + 3, false)], idx := [1, 0],
    due := true }
theorem witness_Loops : clear (.loop 0 6) (node 1) = true ∧ clear (.loop 63 1) (node 1) = true ∧ (node 1).me.nest = none ∧
    (passEnd.idx.length = passEnd.counts.length ∧ (∀ p ∈ passEnd.idx.zip passEnd.counts, p.1 < p.2) ∧ 1 < passEnd.idx.length ∧
      (passEnd.idx[0]?).map (· + 1) = passEnd.counts[0]? ∧ (passEnd.idx[1]?).map (· + 1) ≠ passEnd.counts[1]?) ∧
    (node 1 fun t => { t with nest := some passEnd }).me.nest = some passEnd ∧ passEnd.due = true := by decide
/-- A strand with an error bit set. -/
def poisoned (t : Strand) : Strand := { t with ctl := { t.ctl with poison := true } }
theorem witness_ChecksAndEnds : clear (.cmpt 1 2 5) (node 1) = true ∧ condHolds 5 ((node 1).srcPeek 1) ((node 1).srcPeek2 1 2) = true ∧
    clear (.chkerr 3 true true) (node 1) = true ∧ (node 1).me.ctl.poison = false ∧ (node 1).me.ctl.mm = false ∧
    clear (.chkerr 3 false true) (node 1 poisoned) = true ∧ (node 1 poisoned).me.ctl.poison = true ∧ (node 1 poisoned).me.phase = none ∧
    clear .endk (node 1) = true ∧ (node 1).me.condemned = none ∧ clear .yield (node 1) = true := by decide
/-- A phase that began at 0x20000. -/
def openPhase : Phase :=
  { first := 0x20000, nest := none, regs := Vector.replicate 56 1, marks := 0, bad := [], base := 0x10000, len := 64, recorded := [], firstCmd := 0 }
def inPhase (t : Strand) : Strand := { poisoned t with phase := some openPhase }
theorem witness_PhasesAndRollback : (node 1 inPhase).me.phase = some openPhase ∧ (node 1 inPhase).me.ctl.poison = true ∧
    clear (.chkerr 3 true false) (node 1 inPhase) = true ∧ (node 1 inPhase).me.ctl.retry ≠ 3 ∧ (node 1 inPhase).me.ctl.norec = false ∧
    clear (.phaseBegin 1 2) (node 1) = true ∧ ((node 1).srcPeek2 1 2).toNat % 64 = 0 ∧ clear .phaseCommit (node 1) = true ∧
    clear (.phaseBegin 1 2) (node 1 (regs [(2, 63)])) = true ∧ ((node 1 (regs [(2, 63)])).srcPeek2 1 2).toNat % 64 ≠ 0 := by decide
theorem witness_TrapInstruction : clear (.trap 0xFFFFF) (node 1) = true ∧ (node 1).issue.admitted = false := by decide
theorem witness_SpecialRegisters : clear (.mfc 3 0x060) (node 1) = true ∧ (node 1).me.isBad .controlReg 0 0x060 = false ∧
    clear (.mtc 3 0x010) (node 1) = true ∧ clear (.mtc 3 0x002) (conductor 1) = true := by decide

/-- The same state with token 9 in a state. -/
def tokenNine (st : TokenState) (s : State) : State := s.modMyTeam fun m => m.setToken 9 (plainToken st)
/-- A launch record of x4 to x6: entry 0x10000, pool word 0x410, cluster 0, token 254. -/
def launching : State := conductor 1 (regs [(4, 0x10000), (6, 0x00FE000100000410)])
theorem witness_TokensAndLaunch :
    clear (.tkwait 3 9) (tokenNine .ok (node 1)) = true ∧ ((tokenNine .ok (node 1)).myTeam.token 9).st = .ok ∧
    clear (.tktest 3 254) (node 1) = true ∧ clear (.tkset 2 9) (node 15) = true ∧ ((node 15).myTeam.token 9).st ≠ .pending ∧
    clear (.stpop 27) (node 15) = true ∧ clear (.eset 1 2 63 30) (node 14) = true ∧ clear (.eget 3 63 31) (node 14) = true ∧
    (node 14).me.isBad .descriptorReg 31 63 = false ∧ clear (.launch 3 4) launching = true ∧ launching.myCore.loads = [] ∧
    launching.myCore.stores = [] ∧
    launching.launchStatus (launchRecord (launching.me.reg 4) (launching.me.reg 5) (launching.me.reg 6)) = 0 ∧
    launching.launchStatus { entry := 0, arg := 0, pool := 0, mask := 0, ctok := 255 } = 5 ∧
    launching.launchStatus { entry := 0, arg := 0, pool := 0xB, mask := 0, ctok := 0 } = 1 := by decide +kernel

/-! Loads and stores: the first and last byte of the own scratchpad, the hole, the identity line, another core's scratchpad, device
memory, the last word of the identity line. -/

def localAddr : Word := 0x3F000000000
/-- The scratchpad of 0x39C000 bytes ends here. -/
def lastByte : Word := 0x3F00039BFFF
def holeAddr : Word := 0x3F00039C000
def loadOps (d : BitVec 10) : List Instr := [.ldb 1 2 d, .ldbu 1 2 d, .ldh 1 2 d, .ldhu 1 2 d, .ldw 1 2 d, .ldwu 1 2 d, .ldd 1 2 d]
def storeOps (d : BitVec 10) : List Instr := [.stb 1 2 false d, .sth 1 2 false d, .stw 1 2 false d, .std 1 2 true d]
/-- opens as a value. -/
def opensAt (s : State) (ea : Word) (size : Nat) (acc : Acc) (tgt : Target) : Bool :=
  ea.toNat % size == 0 && s.resolve s.issue.core ea acc == .ok tgt none &&
    (if acc = .read then s.lineHold (touchedLine s.issue.core (.ok tgt none)) [] else s.lineHold [] (touchedLine s.issue.core (.ok tgt none))).isNone &&
    (acc != .write || (s.holdFull [(ea, tgt)]).isNone) && (s.accessVerdict ea (.ok tgt none)).isNone
theorem opens_of {s : State} {ea : Word} {size : Nat} {acc : Acc} {tgt : Target} (h : opensAt s ea size acc tgt = true) :
    opens s ea size acc tgt none := by
  simp only [opensAt, Bool.and_eq_true, beq_iff_eq, Option.isNone_iff_eq_none, Bool.or_eq_true, bne_iff_ne, ne_eq] at h
  exact ⟨h.1.1.1.1, h.1.1.1.2, h.1.1.2, fun w => h.1.2.resolve_left (· w), h.2⟩
/-- A state whose x2 holds an address, in the slot of LS. -/
def addr (a : Word) : State := node 2 (regs [(2, a)])
theorem witness_LoadResults :
    (loadOps 0).all (fun i => clear i (addr localAddr)) = true ∧
    opensAt (addr localAddr) localAddr 8 .read (.pool 0 0) = true ∧ ownRegion localAddr = true ∧
    opensAt (addr lastByte) lastByte 1 .read (.pool 0 0x39BFFF) = true ∧
    opensAt (addr holeAddr) holeAddr 8 .read .hole = true ∧ ownRegion holeAddr = true ∧
    opensAt (addr 0x3F000400000) 0x3F000400000 8 .read (.pool 0 0) = true ∧ ownRegion 0x3F000400000 = false ∧
    opensAt (addr 0x10040) 0x10040 8 .read (.hbm 0x10040) = true ∧
    opensAt (addr 0x3F002400000) 0x3F002400038 8 .read (.ident 56) = true ∧ ownRegion 0x3F002400038 = false ∧
    (8 ∈ [1, 2, 4, 8] ∧ 2 ^ 63 < 2 ^ (8 * 8)) ∧ clear (.spinw 3 2 3) (node 1 (regs [(2, 0x10040)])) = true ∧
    opensAt (node 1 (regs [(2, 0x10040)])) 0x10040 8 .read (.hbm 0x10040) = true := by decide +kernel
/-- A join that has been released without its only task, strand 0 of core 0, whose held range is one line. -/
def straggling : Join :=
  { Join.reset with st := .released, tasks := [.localTask { cl := 0, co := 0, n := 0 }], ranges := [(0x10000, 64)], stragglers := [0] }
theorem witness_StoreResults :
    (storeOps 0).all (fun i => clear i (addr localAddr)) = true ∧
    opensAt (addr localAddr) localAddr 8 .write (.pool 0 0) = true ∧ opensAt (addr lastByte) lastByte 1 .write (.pool 0 0x39BFFF) = true ∧
    opensAt (addr holeAddr) holeAddr 8 .write .hole = true ∧ opensAt (addr 0x3F000400000) 0x3F000400000 8 .write (.pool 0 0) = true ∧
    opensAt (addr 0x10040) 0x10040 8 .write (.hbm 0x10040) = true ∧
    (addr 0x10040).discards 0 0 0x10040 = false ∧
    ((node 2 fun t => { t with condemned := some 0 }).modMyTeam fun m => { m with joins := [(3, straggling)] }).discards 0 0 0x1003F = true := by
  decide +kernel
/-- blockOpens on a place where no register word is uncorrectable. -/
def blockReady (s : State) (w : BitVec 7) (a : BitVec 6) (m : BitVec 8) (o : BitVec 5) (strided write : Bool) : Bool :=
  let pool := ((maskGroups m).flatMap (s.blockLines w (s.srcPeek a) o strided)).filterMap fun l => s.poolLine l.off
  (maskGroups m).all (fun lg => !s.me.busy lg) && (if write then s.lineHold [] pool else s.lineHold pool []).isNone &&
    (s.srcPeek a).toNat % 64 == 0 && s.me.bad.isEmpty
theorem witness_BlockAccesses :
    [Instr.vld 127 2 0x81 31, .vlds 0 2 0xFF 0, .vst 127 2 0x01 31, .vsts 0 2 0x80 0].all (fun i => clear i (addr 0x39BFC0)) = true ∧
    blockReady (addr 0x39BFC0) 127 2 0x81 31 false false = true ∧ blockReady (addr 0x39BFC0) 0 2 0xFF 0 true false = true ∧
    blockReady (addr 0x39BFC0) 127 2 0x01 31 false true = true ∧ blockReady (addr 0) 0 2 0x80 0 true true = true ∧
    (0 < ((addr 0).me.lane 7).rows * ((addr 0).me.lane 7).cols) := by decide +kernel
theorem witness_GathersAndPops :
    [Instr.vgather 1 2 2 7 3, .vgatherAll 1 2 2 0, .vscatter 1 2 2 0 1, .vscatterAll 1 2 2 2].all (fun i => clear i (addr localAddr)) = true ∧
    (let c := (addr localAddr).gatherChecks [7] 2 ((addr localAddr).srcPeek 2) 3 false
     c.blocks = none ∧ c.holds = none ∧ c.faults = none) ∧
    (let c := (addr localAddr).gatherChecks (List.range 8) 2 ((addr localAddr).srcPeek 2) 2 true
     c.blocks = none ∧ c.holds = none ∧ c.faults = none) ∧
    (node 2).me.isBad .vectorReg 7 ((node 2).singleReg 7 1) = false ∧
    (0, 15, (addr localAddr).srcPeek 2) ∈ (addr localAddr).gatherAddrs [0] 2 ((addr localAddr).srcPeek 2) 0 ∧
    clear (.vpop 1 3 0x80) (node 2 fun t => { t with vstreams := [(3, [{ val := 1, mark := false }])] }) = true ∧
    (maskGroups 0x80).length ≤ ((node 2 fun t => { t with vstreams := [(3, [{ val := 1, mark := false }])] }).me.vstream 3).length ∧
    (node 2).me.busy 7 = false := by decide +kernel
/-- elementsStand as a value, for elements at one place. -/
def standsAt (s : State) (es : List (Nat × Nat × Word)) (acc : Acc) (tgt : Target) : Bool :=
  es.all fun e => e.2.2.toNat % 4 == 0 && (decide (localBase ≤ e.2.2.toNat % 2 ^ 42) || e.2.2.toNat / 2 ^ 42 == endpointOf s.myDie) &&
    s.resolve s.issue.core e.2.2 acc == .ok tgt none
theorem stands_of {s : State} {es : List (Nat × Nat × Word)} {acc : Acc} {tgt : Target} (h : standsAt s es acc tgt = true) :
    elementsStand s es acc fun _ _ => tgt := by
  intro e m
  have := List.all_eq_true.mp h e m
  simp only [Bool.and_eq_true, Bool.or_eq_true, beq_iff_eq, decide_eq_true_eq] at this
  exact ⟨this.1.1, this.1.2, none, this.2⟩
/-- elementsOpen as a value, for elements at one place. -/
def opensAll (s : State) (lgs : List Nat) (wi : BitVec 7) (base : Word) (sc : BitVec 2) (data : Option (BitVec 7)) (tgt : Target) : Bool :=
  let es := s.gatherAddrs lgs wi base sc
  let lines := es.flatMap fun _ => touchedLine s.issue.core (.ok tgt none)
  standsAt s es (if data.isSome then .write else .read) tgt &&
    es.all (fun e => !s.refusedAt s.myDie s.myTeamIndex s.me.wait.refused e.2.2) && lgs.all (fun lg => !s.me.busy lg) && s.me.bad.isEmpty &&
    (if data.isSome then (s.lineHold [] lines).isNone && (s.holdFull (es.map fun e => (e.2.2, tgt))).isNone
      else (s.lineHold lines []).isNone)
theorem opensAll_of {s : State} {lgs : List Nat} {wi : BitVec 7} {base : Word} {sc : BitVec 2} {data : Option (BitVec 7)} {tgt : Target}
    (h : opensAll s lgs wi base sc data tgt = true) : elementsOpen s lgs wi base sc data fun _ _ => tgt := by
  simp only [opensAll, Bool.and_eq_true, List.isEmpty_iff] at h
  obtain ⟨⟨⟨⟨a, b⟩, c⟩, d⟩, e⟩ := h
  have sound : ∀ k g i, s.me.isBad k g i = false := by intro k g i; unfold Strand.isBad; rw [d]; cases k <;> rfl
  refine ⟨stands_of a, fun x m => ?_, fun g m => ⟨?_, sound _ _ _, fun w _ => sound _ _ _⟩, ?_⟩
  · simpa using List.all_eq_true.mp b x m
  · simpa using List.all_eq_true.mp c g m
  · cases data <;> simpa [Option.isNone_iff_eq_none] using e
theorem witness_GathersAndPops_open :
    opensAll (addr localAddr) [7] 2 localAddr 3 none (.pool 0 0) = true ∧ opensAll (addr localAddr) (List.range 8) 2 localAddr 0 none (.pool 0 0) = true ∧
    opensAll (addr 0x10040) [7] 2 0x10040 3 none (.hbm 0x10040) = true ∧ opensAll (addr holeAddr) [0] 2 holeAddr 0 none .hole = true ∧
    opensAll (addr 0x3F000400000) [0] 2 0x3F000400000 0 none (.pool 0 0) = true ∧
    opensAll (addr localAddr) [0] 2 localAddr 1 (some 1) (.pool 0 0) = true ∧
    opensAll (addr 0x10040) (List.range 8) 2 0x10040 2 (some 1) (.hbm 0x10040) = true ∧
    opensAll (addr 0x3F000400000) [0] 2 0x3F000400000 0 (some 1) (.pool 0 0) = true ∧
    (addr localAddr).me.gather = none ∧ (addr localAddr).me.condemned = none ∧ (addr localAddr).srcPeek 2 = localAddr ∧
    atHome (addr localAddr) localAddr (.pool 0 0) = true ∧ atHome (addr 0x3F000400000) 0x3F000400000 (.pool 0 0) = true ∧
    atHome (addr 0x10040) 0x10040 (.hbm 0x10040) = false := by decide +kernel
theorem witness_OrderAndWindows :
    clear .drain (node 2) = true ∧ (∀ w ∈ (node 2).myCore.stores, w.strand ≠ (node 2).issue.strand) ∧
    clear (.fence 5) (node 2) = true ∧ (node 2).myCore.stores = [] ∧ (node 2).myCore.loads = [] ∧ clear (.fence 1) (node 2) = true ∧
    clear (.vwin true 0 1 0x3FFF) (node 15) = true ∧ clear (.vshape false 7 7 7) (node 15) = true ∧
    clear (.vmode false 0 7) (node 15) = true := by decide

/-- The block operations of VectorBlocks. -/
def blockOps : List Instr :=
  [.vadd 7 true 3 1 2, .vsub 0 false 3 1 2, .vmul 4 false 3 1 2, .vfma 3 false 3 1 2, .vfms 0 false 3 1 2, .vmin 0 false 3 1 2,
   .vmax 0 false 3 1 2, .vabs 6 false 3 1, .vneg 0 false 3 1, .vdiv 3 false 3 1 2, .vsqrt 0 false 3 1, .vand 4 false 3 1 2,
   .vor 4 false 3 1 2, .vxor 4 false 3 1 2, .vnot 4 false 3 1, .vshl 4 false 3 1 2, .vshr 7 false 3 1 2, .vsar 6 false 3 1 2,
   .vmov 0 false 3 1, .vmovi 4 false 3 0x3FFF, .vfloor 3 false 3 1, .vclass 0 false 3 1, .vadds 7 false 3 1 2, .vsel 0 3 1 2,
   .vcvt 0 3 1 7, .vquant 2 3 1 12, .vdeq 0 3 1 6, .vpack 4 3 1 12, .vunpk 4 3 1 8, .vrsum 0 false 3 1, .vrmax 0 false 3 1,
   .vrmin 0 false 3 1, .vscan 0 false 3 1, .vperm 0 false 3 1 2, .vxfer 3 1 7, .vbcast 0 false 3 1 15, .vextr 0 3 1 15,
   .viota 4 false 3, .vrcp 0 false 3 1, .vrsqrt 1 false 3 1, .vexp2 2 false 3 1, .vlog2 3 false 3 1, .vexp 0 false 3 1,
   .vlog 0 false 3 1, .vsin 0 false 3 1, .vcos 0 false 3 1, .vtanh 0 false 3 1, .verf 0 false 3 1, .vsigm 0 false 3 1]
theorem witness_VectorBlocks : blockOps.length = 49 ∧ blockOps.all isBlockOp = true ∧
    blockOps.all (fun i => clear i (node 3) && clear i (node 11)) = true ∧
    ((node 3).vecGroups.all fun lg => !(node 3).me.busy lg) = true ∧ (node 3).me.bad = [] ∧
    ((node 11).vecGroups.all fun lg => !(node 11).me.busy lg) = true ∧ (node 11).me.bad = [] := by decide
/-- A block that has read its two sources. -/
def readBlock : Block :=
  { op := .vand 4 false 3 1 2, slot := 4, lg := 0, seq := 0, poolSeq := 0, addr := 0, wb := 0, rows := 1, cols := 1, target := 0, pred := 0,
    rmode := 0, version := 3, start := 0, interval := 1, busyFor := 1, step := 1, srcs := [[1, 3]], marks := [[false, false]], events := [],
    mark := false, offs := [], idle := false, mirror := false, saved := [] }
theorem witness_VectorElements : nth [] readBlock.srcs 0 = [1, 3] ∧ 15 < 512 / efcWidth (4 : BitVec 3).toNat ∧ 4 ≤ (7 : BitVec 3).toNat ∧
    63 < 512 / efcWidth (6 : BitVec 3).toNat := by decide +kernel
theorem witness_VectorElements_forms :
    (∀ c ∈ [0, 1, 2, 3], c < 4 ∧ (efcFmt c).isSome = true ∧ 0 < 512 / efcWidth c) ∧ (∀ c ∈ [4, 5, 6, 7], 4 ≤ c ∧ 0 < 512 / efcWidth c) ∧
    (let b := { readBlock with rows := 2, cols := 1, srcs := [[1], [3]] }
     0 + 1 < b.rows * b.cols ∧ 1 + 1 = b.rows * b.cols ∧ b.srcs.length = b.rows * b.cols) ∧
    (let e := fun (c : Nat) => 512 / efcWidth c
     e 3 < e 0 ∧ e 0 = e 4 ∧ e 0 < e 1 ∧ (8 : BitVec 4).toNat ≤ 12 ∧ 0 < (completes 2 (e 0) (e 8) 1).length ∧
      (completes 2 (e 0) (e 8) 1)[0]? = some 0 ∧ (completes 2 (e 0) (e 8) 1).contains ((2 * e 0 + e 8 - 1) / e 8 - 1) = true) ∧
    ([Val.nan].any Val.isNan = true ∧ [Val.fin false 1 0].any Val.isNan = false ∧ (1 : Nat) ≠ 0 ∧ ((0 : BitVec 3).toNat < 3) ∧
      (8 : BitVec 4).toNat ∈ [6, 8, 9, 10, 11, 12]) ∧
    elemsTaken true 0 32 [1] = [] ∧ elemsTaken false 0 32 [1] ≠ [] := by decide +kernel
theorem witness_ComparesAndPredicates :
    [Instr.vceq 0 true 1 2 3, .vclt 7 false 7 2 3, .vcle 3 false 0 2 3, .pand 1 2 3, .por 1 2 3, .pnot 1 2, .pmov 7 0].all
      (fun i => clear i (node 3) && clear i (node 11)) = true ∧
    (∀ lg ∈ (node 3).vecGroups, (node 3).me.busy lg = false) ∧ (node 3).me.bad = [] := by decide

/-- StepRunsTheDecodedInstruction: MOVI placed for the next step of core 0. -/
def placed : State := State.reset.withFetchWord 32 0x70500009
def presented : State := presenting (cycleStart placed [] 0) 0 0
def fetched : State := (presented.noteFetch 0 (presented.strand 0 0).pc.toNat).noteFetch 0 ((presented.strand 0 0).pc.toNat + 4)
def stepped : State := ({ fetched with issue := { fetched.issue with len := 2 } } : State).modMe Strand.takeStep
theorem witness_StepRunsTheDecodedInstruction :
    placed.agenda = [.core 0] ∧ (((({ placed with agenda := [] } : State).catchUp 0).settleCore 0).teamOn 0) = some 0 ∧
    (((({ placed with agenda := [] } : State).catchUp 0).settleCore 0).team (coreDie 0) 0).st = 4 ∧
    ((cycleStart placed [] 0).core 0).running = some 0 ∧ ((cycleStart placed [] 0).core 0).switchLeft = 0 ∧
    ((cycleStart placed [] 0).strand 0 0).late = false ∧ (presented.strand 0 0).ending = false ∧
    (presented.strand 0 0).issueAt ≤ (presented.strand 0 0).time ∧ (presented.die (coreDie 0)).throttling = false ∧
    (presented.strand 0 0).condemned = none ∧ (presented.team (coreDie 0) (presented.teamAt 0)).st = 4 ∧
    (presented.strand 0 0).spin = none ∧ presented.fetchWord 0 (presented.strand 0 0).pc.toNat = .ok 0x10000 ∧
    presented.startBit (coreDie 0) (presented.vfAt 0) (presented.strand 0 0).pc.toNat = true ∧
    presented.fetchWords 0 1 ((presented.strand 0 0).pc.toNat + 4) = .ok [0x70500009] ∧
    decodeSyllable 0 0x70500009 = .ok (.movi 5 9) ∧ ((stepped.atSlot 0 false []).run (.movi 5 9)).issue.verdict = none ∧
    (let a := stepped.admitted (headerOf 0x10000)
     shows (exec (.movi 5 9) { a with issue := { a.issue with slot := 0, mirrored := false } }) fun _ => true) = true := by
  decide +kernel

/-! Matrix and Eddy: core 0 has 32 operand slots and one tile; slots 0 and 31 are the strand's own. -/

def held : Slot := { Slot.reset with holder := some 0 }
def slotted (slot : Nat) (f : Strand → Strand := id) : State :=
  (node slot f).modMyCore fun k => { k with slots := [(0, held), (31, held)] }
theorem witness_Multiplies : pairOf (1 : BitVec 4).toNat (1 : BitVec 4).toNat = some (32, 64) ∧
    pairOf (12 : BitVec 4).toNat (8 : BitVec 4).toNat = some (64, 32) ∧ pairOf (12 : BitVec 4).toNat (1 : BitVec 4).toNat = some (32, 16) ∧
    clear (.mma 1 1 0 31 0 true true) (slotted 12) = true ∧ clear (.mmaz 12 1 0 31 0 false true) (slotted 12) = true ∧
    clear (.mmas 8 9 0 31 0 false false) (slotted 12) = true ∧ clear (.mmasz 12 8 0 31 0 true false) (slotted 12) = true := by decide +kernel
theorem witness_Multiplies_ready : multiplies (slotted 12) 64 0 31 0 ∧
    multiplies ((slotted 12).modMyCore fun k => { k with mtime := 48 }) 16 0 31 0 := by
  simp only [multiplies, entryFor, counterAt]
  refine ⟨⟨?_, ?_, ?_, ?_, ?_, ?_, ?_⟩, ?_, ?_, ?_, ?_, ?_, ?_, ?_⟩ <;> decide +kernel
/-- One product with scales, and one whose scale is a NaN code. -/
theorem witness_Multiplies_scaled : (0 < [Val.nan].length ∧ [Val.nan].length ≤ 32) ∧ scaleExp 8 (nth 0 [254] 0) = some 127 ∧
    scaleExp 8 (nth 0 [255] 0) = none ∧ scaleExp 1 (nth 0 [255] 0) = some 0 := by decide
theorem witness_SlotsAndTiles :
    [Instr.oclaim 30, .orelease 31, .old 1 31 2 true, .aclr 0, .aadd 0 0, .amov 0 2 0, .mgeo 2].all (fun i => clear i (slotted 12)) = true ∧
    clear (.sld 31 2 0x3FFF) (slotted 15) = true ∧ 30 < slotCount (slotted 12).myCore.part ∧ (slotted 12).myCore.slot 30 = Slot.reset ∧
    (slotted 12).myCore.slot 31 = held ∧ (slotted 12).myCore.loaderUntil ≤ (slotted 12).myCore.mtime ∧
    ((slotted 12).srcPeek 2).toNat % 64 = 0 ∧ ((slotted 15).srcPeek 2 + (0x3FFF : BitVec 14).setWidth 64 * 256).toNat % 64 = 0 ∧
    (slotted 12).lineHold (((slotted 12).scratchLines 0 64).filterMap id) [] = none ∧
    (slotted 12).lineHold [] (((slotted 12).scratchLines 0 256).filterMap id) = none ∧
    0 < partAcc (slotted 12).myCore.part ∧ (slotted 12).myCore.tileWork = [] ∧ (slotted 12).myCore.mults = [] ∧
    (slotted 12).myCore.portUntil ≤ (slotted 12).myCore.mtime := by decide +kernel
theorem witness_EddyFiles :
    [Instr.cymode true true, .cyqr 3 1 2 true, .cyapply 0 3 1 2 false, .cyrd 3 1 true 1, .cywr 0 1 2, .cyclr 3, .cysolve 3 1 2].all
      (fun i => clear i (node 13)) = true ∧
    (∀ f < 4, (node 13).myCore.triWritten f true = false ∧ (node 13).myCore.triWritten f false = false ∧ (node 13).myCore.triRead f = false) ∧
    (node 13).myCore.triUntil ≤ (node 13).myCore.mtime ∧ (node 13).myCore.filePortUntil ≤ (node 13).myCore.mtime ∧
    ((node 13).srcPeek 1).toNat % 64 = 0 ∧ ((node 13).srcPeek2 1 2).toNat % 64 = 0 ∧
    (node 13).lineHold (((node 13).cyqrLines 0 (cyqrRows 0) true).filterMap id) [] = none ∧
    (node 13).lineHold [] (((node 13).scratchLines 0 (imageLines 1)).filterMap id) = none ∧
    (node 13).lineHold (((node 13).scratchLines 0 (imageLines 2)).filterMap id) [] = none ∧
    (node 13).lineHold [] (((node 13).solveLines 0 31).filterMap id) = none := by decide +kernel
theorem witness_EddyFiles_arithmetic :
    ((∀ u ∈ [(0 : Int)], u = 0) ∧ ∃ u ∈ [(1 : Int)], u ≠ 0) ∧
    max 1 ((Nat.log2 1 : Int) + 128 + 128) = 256 ∧ max 1 ((Nat.log2 1 : Int) + 0 + 128) ≤ 255 ∧ (31 < 32) ∧ TriRow.reset.c = 0 ∧
    nth 0 TriRow.reset.m 31 = 0 ∧ nth 0 ({ TriRow.reset with m := [1] } : TriRow).m 0 ≠ 0 ∧ (0 < 14) := by decide
theorem witness_EddyCell : [Instr.cygiv 1 2 3, .cyrot 1 2 3, .cyang 1 3 false].all (fun i => clear i (node 13)) = true ∧
    (node 13).myCore.cellUntil ≤ (node 13).myCore.mtime ∧
    ((fmtF32.decode 0x7FC00000).isNan = true ∧ (fmtF32.decode 0x7F800000).isInf = true ∧ (fmtF32.decode 0x3F800000).isNan = false) := by
  decide +kernel

/-- The queued commands of QueuedCommands, with the dependence word in x1. -/
def commands : List Instr :=
  [.cpy 1 0 false, .cpyst 1 63 true true true 3, .sacc 1 0 false true 2, .rcnt 2 1 false, .rsnap 2 1 true, .send 2 1 0 false 2,
   .ttset 2 1, .tready 2 1, .trkarm 2 1 0, .unlease 1 3, .zip 1 0 false 0, .unzip 1 0 false 3, .repl 1 0 false true 0, .qdecl 1 0 15,
   .qarrive 1 15, .qread 2 1 0, .qreplay 2 1 0, .tsave 1 0 0, .tload 1 0 3]
/-- The conditions of a queued command but the count of its queue, as a value. -/
def queues (s : State) (i : Instr) : Bool :=
  match commandOf i with
  | some (xa, xb, dn) =>
    let dep := match xa with
      | some a => s.srcPeek2 a xb
      | none => s.srcPeek xb
    (s.myTeam.depFault dep).isNone && (s.commandHold (s.captures i ((xa.map s.srcPeek).getD 0) dep dn)).isNone
  | none => false
def issuing : State := conductor 14 (regs [(1, 0xFFFFFFFE)])
theorem witness_QueuedCommands : commands.length = 19 ∧ commands.all (fun i => clear i issuing && queues issuing i) = true ∧
    issuing.queueLength 0 0 issuing.myName < 32 ∧ issuing.me.condemned = none ∧ issuing.me.bad = [] ∧
    (let s := issuing.modMe fun t => { t with condemned := some 0 }
     commands.all (fun i => clear i s && queues s i) = true ∧ s.me.condemned.isSome = true ∧ s.cmds = [] ∧
      s.queueLength 0 0 s.myName < 32) := by decide +kernel

/-! Events of a core: its state changed by hand. -/

def coreIs (f : Core → Core) : State := (node 0).modCore 0 f
def someLine : PoolLine := { off := 0, data := 1, mask := 1, mark := false }
def oldestMultiply : Multiply := { strand := 0, start := 0, tile := 0, lines := [someLine], recs := [], mark := false }
def tileWriter : TileWork := { strand := 0, tile := 0, start := 0, until_ := 4, reads := false, lines := [someLine], recs := [], mark := false }
def fileWriter : EddyWork :=
  { strand := 0, streams := false, file := 3, value := some Tri.reset, clearFile := none, clearAt := 0, readFile := none,
    readFileUntil := 0, readLines := [], admits := 0, stopped := none, until_ := 2, steps := [], start := 0, every := 0, tail := 0, flags := 9, recs := [], mark := false }
/-- Work of the port that ends at 70. -/
def laterWriter : TileWork := { tileWriter with tile := 1, until_ := 70 }
theorem witness_ArrayEvents :
    (let s := coreIs fun k => { k with mults := [oldestMultiply], mtime := 200 }
     (s.core 0).mults = [oldestMultiply] ∧ oldestMultiply.start + 200 ≤ (s.core 0).mtime) ∧
    (let s := coreIs fun k => { k with slots := [(31, { held with loadUntil := 20, load := [someLine] })], mtime := 20 }
     ((s.core 0).slot 31).load ≠ [] ∧ ((s.core 0).slot 31).loadUntil ≤ (s.core 0).mtime) ∧
    (let s := coreIs fun k => { k with slots := [(31, { Slot.reset with readsUntil := 64 })], mtime := 64 }
     ((s.core 0).slot 31).holder = none ∧ ((s.core 0).slot 31).load = [] ∧ ((s.core 0).slot 31).loadUntil ≤ (s.core 0).mtime ∧
      ((s.core 0).slot 31).readsUntil ≤ (s.core 0).mtime) ∧
    (let s := coreIs fun k => { k with tileWork := [laterWriter, tileWriter], mtime := 4 }
     (s.core 0).tileWork = [laterWriter] ++ tileWriter :: [] ∧ tileWriter.until_ ≤ (s.core 0).mtime ∧
      ∀ v ∈ [laterWriter], (s.core 0).mtime < v.until_) ∧
    (let s := coreIs fun k => { k with eddy := [fileWriter], mtime := 2 }
     (s.core 0).rowsWait = none ∧ (s.core 0).eddy = [fileWriter] ∧ fileWriter.until_ ≤ (s.core 0).mtime ∧ fileWriter.stopped = none) ∧
    (let s := coreIs fun k => { k with rowsWait := some 0 }
     (s.core 0).rowsWait.isSome = true) := by decide +kernel
theorem witness_ArrayEvents_wake :
    let s := (coreIs fun k => { k with mtime := 62 }).modStrand 0 0 fun t => { t with mode := .blocked, wait := { t.wait with reason := 7 } }
    (s.strand 0 0).mode = .blocked ∧ (s.strand 0 0).wait.reason = 7 ∧ counterAt (s.core 0) ((s.core 0).mtime + 2) % 64 = 0 ∧
      entryFor (s.core 0) (counterAt (s.core 0) ((s.core 0).mtime + 2) / 64 % 16) 0 := by
  simp only [entryFor, counterAt]
  decide +kernel

def byteLoad : Load :=
  { id := 5, strand := 0, seq := 0, kind := .scalar 3 1 true, target := .hbm 0x10040, elems := [], page := none }
def byteStore (holders : List Holder) : Store :=
  { id := 6, strand := 0, seq := 0, target := .hbm 0x1FFFF, bytes := [7], mark := false, holders := holders }
def replica (lock : Option Nat) : Replica := { home := 1, copies := [0, 1], locked := lock }
def spinner : SpinWait := { addr := 0x10040, cond := 0, cmp := 0, xd := 3, last := 0 }
/-- The strand's store of bytes 0x1FFFF and beyond, older than its byte 0x1FFFF. -/
def pairStore : Store := { byteStore [] with id := 7, target := .hbm 0x1FFFF, bytes := [1, 2] }
theorem witness_MemoryEvents_ownBytes :
    (0 < 1) ∧
    (let s := coreIs fun k => { k with stores := [pairStore, byteStore []] }
     (s.core 0).stores = [pairStore] ++ byteStore [] :: [] ∧ (byteStore []).target = .hbm 0x1FFFF ∧ (byteStore []).strand = 0 ∧
      (byteStore []).seq < 1 ∧ 0x1FFFF ≤ 0x1FFFF + 0 ∧ 0x1FFFF + 0 < 0x1FFFF + (byteStore []).bytes.length) ∧
    ((node 0).core 0).stores = [] := by decide +kernel
def gatherLoad : Load :=
  { byteLoad with kind := .gather, target := .hole, elems := [⟨7, 15, 0x1FFFC, .hbm 0x1FFFC, 0, false, false⟩, ⟨0, 0, 0, .hole, 5, true, true⟩] }
theorem witness_MemoryEvents_late :
    (let s := coreIs fun k => { k with loads := [byteLoad] }
     (s.core 0).loads.find? (fun l => l.id == 5) = some byteLoad ∧ byteLoad.kind = .scalar 3 1 true ∧ byteLoad.got = none ∧
      s.mayRead 0 0 0 (.hbm 0x10040) 1 = true) ∧
    (let l := { byteLoad with kind := LoadKind.spin 3 }
     let s := (coreIs fun k => { k with loads := [l] }).modStrand 0 0 fun t => { t with spin := some spinner }
     (s.core 0).loads.find? (fun l => l.id == 5) = some l ∧ s.mayRead 0 0 0 (.hbm 0x10040) 8 = true ∧ (s.strand 0 0).spin = some spinner ∧
      spinHolds spinner.cond 0 spinner.cmp = true ∧ spinHolds spinner.cond 1 spinner.cmp = false) ∧
    (let s := coreIs fun k => { k with loads := [gatherLoad] }
     (s.core 0).loads.find? (fun l => l.id == 5) = some gatherLoad ∧
      ∃ e ∈ gatherLoad.elems, e.read = false ∧ s.mayRead 0 gatherLoad.strand gatherLoad.seq e.target 4 = true) := by decide +kernel
theorem witness_MemoryEvents_stores :
    (let s := coreIs fun k => { k with stores := [byteStore []] }
     (s.core 0).store 6 = some (byteStore []) ∧ (s.core 0).storeFirst (byteStore []) = true ∧
      s.commitBefore 0 0 (.hbm 0x1FFFF) 1 = false ∧ s.isReplicated (.hbm 0x1FFFF) = false) ∧
    (let s := { coreIs (fun k => { k with stores := [byteStore []] }) with replicas := [replica none] }
     (s.core 0).store 6 = some (byteStore []) ∧ (s.core 0).storeFirst (byteStore []) = true ∧
      s.commitBefore 0 0 (.hbm 0x1FFFF) 1 = false ∧ s.isReplicated (.hbm 0x1FFFF) = true) ∧
    (let w := byteStore [.phase 0 0 ⟨0, 0, 0⟩]
     let s := coreIs fun k => { k with stores := [w] }
     (s.core 0).store 6 = some w ∧ (s.core 0).storeFirst w = true ∧ w.target = .hbm 0x1FFFF ∧ w.holders ≠ [] ∧ 0 < w.bytes.length ∧
      0x1FFFF % 64 + w.bytes.length ≤ 64) := by decide +kernel
theorem witness_MemoryEvents_updates :
    (∀ lock ∈ [none, some 6, some 5], let s := { coreIs (fun k => { k with stores := [byteStore []] }) with replicas := [replica lock] }
     s.cores.findSome? (fun e => (e.2.store 6).map fun w => (e.1, w)) = some (0, byteStore []) ∧ s.replicaOf 0x1FFFF = some (replica lock) ∧
      (byteStore []).target = .hbm 0x1FFFF ∧ (byteStore []).holders = [] ∧
      ∀ v ∈ (s.core 0).stores, (byteStore []).sameUpdate v = true → s.mayUpdate 0 v = true) ∧
    (let s := (node 0).modStrand 0 0 fun t => { t with spin := some spinner }
     (s.strand 0 0).spin = some spinner ∧ (s.core 0).loads = [] ∧ s.resolve 0 spinner.addr .read = .ok (.hbm 0x10040) none ∧
      s.mayRead 0 0 (s.strand 0 0).nextSeq (.hbm 0x10040) 8 = true) := by decide +kernel

/-! Events of strands, timers and swaps. -/

def strandIs (f : Strand → Strand) : State := (node 0).modStrand 0 0 f
/-- A block store of one register that has begun in this cycle, and one into the hole. -/
def storeBlock (o : Option Nat) : Block :=
  { readBlock with op := .vst 1 2 1 0, rows := 1, cols := 1, step := 0, srcs := [], marks := [], offs := [o] }
theorem witness_BlockAccesses_steps : ∀ o ∈ [none, some 0x39BFC0],
    isBlockStore (storeBlock o).op = true ∧ nth none (storeBlock o).offs (storeBlock o).step = o ∧ (storeBlock o).saved = [] ∧
    (let s := strandIs fun t => { t with blocks := [storeBlock o] }
     (s.strand 0 0).blocks = [storeBlock o] ∧ (storeBlock o).due (s.strand 0 0).time = true) := by decide +kernel
def dieIs (f : Die → Die) : State := (node 0).modDie 0 f
def teamIs (f : Team → Team) : State := (node 0).modTeam 0 0 f
def lateResult : Pending := { due := 0, seq := 0, write := .x 3 0, mark := false, load := some 5, recs := [] }
def nodeLaunch : Launch :=
  { id := 9, d := 0, t := 0, ctok := 1, part := 0x410, entry := 0x10000, arg := 7, argMark := true, mask := 1, tvecEn := false, tvecBase := 0, started := false,
    startedAt := 0, left := [{ cl := 0, co := 7, n := 0 }], poisoned := false }
/-- A running strand at a bundle with K set: a NOP whose header has bit 6 set. -/
def killable : State :=
  (State.reset.withFetchWord 32 0x40).modStrand 0 0 fun t => { t with condemned := some 0 }
/-- A strand of launch 9 has ended but for what it has issued. -/
def endingOf (left : List StrandName) : State :=
  (strandIs fun t => { t with mode := .blocked, ending := true, launch := some 9 }).modTeam 0 0 fun m =>
    { m with launches := [{ nodeLaunch with started := true, left := left }] }
theorem witness_StrandEvents_ends : ∀ left ∈ [[(⟨0, 0, 0⟩ : StrandName)], [⟨0, 0, 0⟩, ⟨0, 7, 0⟩]],
    (let s := endingOf left
     (s.teamOn 0).isSome = true ∧ (s.strand 0 0).ending = true ∧ (s.strand 0 0).storingAny = false ∧
      s.owesCommit (coreDie 0) (s.teamAt 0) (s.nameOf 0 0) (fun _ => true) = false ∧ s.cmds = [] ∧ s.nameOf 0 0 = ⟨0, 0, 0⟩ ∧
      s.coreNamed 0 0 (s.nameOf 0 0) = some 0 ∧ (s.core 0).stores = [] ∧ (s.core 0).poolWrites = [] ∧
      ((s.team 0 0).launches.map (·.id)).Nodup ∧ (∀ m ∈ (s.team 0 0).launches, m.id ≠ 9 → m.left ≠ [] ∨ m.closing ≠ []) ∧
      ((s.team 0 0).launches.find? (fun m => m.id == 9)).map (fun m => (m.left, m.closing)) = some (left, [])) := by decide +kernel
theorem witness_StrandEvents_launch :
    let s := teamIs fun m => { m with launches := [nodeLaunch] }
    s.dies.findSome? (fun e => e.2.teams.findSome? fun m => m.2.launches.find? fun l => l.id == 9 && !l.started) = some nodeLaunch ∧
      s.resident 0 0 = true ∧ nodeLaunch.left.Nodup ∧ nodeLaunch.left[0]? = some ⟨0, 7, 0⟩ ∧ s.coreNamed 0 0 ⟨0, 7, 0⟩ = some 7 ∧
      (s.core 7).ran = false ∧
      (∀ v ∈ nodeLaunch.left, ∀ w ∈ nodeLaunch.left, (s.coreNamed 0 0 v).isSome = true → s.coreNamed 0 0 v = s.coreNamed 0 0 w →
        v.n = w.n → v = w) := by decide +kernel
theorem witness_StrandEvents_kills :
    ((killable.strand 0 0).condemned.isSome = true ∧ (killable.strand 0 0).mode = .running ∧ (killable.teamOn 0).isSome = true ∧
      killable.fetchWord 0 (killable.strand 0 0).pc.toNat = .ok 0x40 ∧ (0x40 : Word32).getLsbD 6 = true ∧
      killable.startBit (coreDie 0) (killable.vfAt 0) (killable.strand 0 0).pc.toNat = true) ∧
    (let s := strandIs fun t => { t with condemned := some 1, time := 4194305 }
     (s.strand 0 0).condemned = some 1 ∧ 1 + 4194304 ≤ (s.strand 0 0).time ∧ (s.teamOn 0).isSome = true) ∧
    (let s := strandIs fun t => { t with ctl := { t.ctl with ydist := 4194305 } }
     4194304 < (s.strand 0 0).ctl.ydist.toNat ∧ (s.strand 0 0).ctl.overdue = false ∧ (s.teamOn 0).isSome = true) := by decide +kernel
theorem witness_StrandEvents_switches :
    (let s := ((strandIs fun t => { t with pend := [lateResult] }).modStrand 0 3 fun t => { t with mode := .ready }).modCore 0
        fun k => { k with frost := 32 }
     (s.core 0).running = some 0 ∧ (s.strand 0 0).ctl.frostsw ≠ 0 ∧ (s.strand 0 0).ctl.frostsw.toNat ≤ (s.core 0).frost ∧
      (s.strand 0 3).mode = .ready ∧ (s.strand 0 3).parked = false) ∧
    (∀ k ∈ [none, some 0],
     let s := { (strandIs fun t => { t with pend := [lateResult], condemned := k }).modCore 0
        (fun k => { k with lockFrost := 256, loads := [byteLoad] }) with replicas := [replica (some 6)] }
     (s.core 0).running = some 0 ∧ byteLoad ∈ (s.core 0).loads ∧ byteLoad.strand = 0 ∧ (∃ p ∈ byteLoad.places, s.readLocked p = true) ∧
      lateResult ∈ (s.strand 0 0).pend ∧ lateResult.load = some byteLoad.id ∧ lateResult.due ≤ (s.strand 0 0).time ∧
      256 ≤ (s.core 0).lockFrost ∧ (s.strand 0 0).condemned = k) := by decide +kernel

def wanted : Lease := { Lease.reset with requested := true, period := 17000, left := 17000 }
def bound (left : Nat) : Lease := { Lease.reset with engine := some 15, period := 17000, left := left }
theorem witness_SchedulerTimers :
    (let s := dieIs fun k => { k with now := 1700 }
     1700 * ((s.die 0).gustTicks + 1) ≤ (s.die 0).now) ∧
    (let s := teamIs fun m => { m with lullTimer := 16384 }
     (s.team 0 0).spinlim ≠ 0 ∧ 256 * (s.team 0 0).spinlim.toNat ≤ (s.team 0 0).lullTimer) ∧
    (let s := dieIs fun k => { k with now := 1360000 }
     (s.die 0).windowStart + (s.die 0).windowLen ≤ (s.die 0).now) ∧
    (let s := teamIs fun m => { m with leases := [(3, wanted)] }
     (s.die 0).leaseRequests.filter (fun r => s.resident 0 r.1) = [] ++ (0, 3) :: [] ∧ seek (s.die 0).engines 0 = none) ∧
    (let s := dieIs fun k => { k with engines := (List.range 15).map fun e => (e, (1, 0)) }
     (∀ f, f < 15 → (seek (s.die 0).engines f).isSome = true) ∧ seek (s.die 0).engines 15 = none) ∧
    (let s := teamIs fun m => { m with leases := [(3, bound 0)] }
     ((s.team 0 0).lease (3 : BitVec 2).toNat).engine = some 15 ∧ ((s.team 0 0).lease (3 : BitVec 2).toNat).left = 0) := by decide +kernel
/-- No deficit and no gust: its round is over, and its slice. -/
def spent (f : Strand → Strand := id) : State := (teamIs fun m => { m with deficit := 0 }).modStrand 0 0 f
theorem witness_SchedulerTimers_slices :
    ((∃ t ∈ (spent).teamsOf 0 0, (spent).runnable 0 t = true) ∧
      ∀ t ∈ (spent).teamsOf 0 0, (spent).runnable 0 t = true → ((spent).team 0 t).deficit ≤ 0 ∧ ¬ boostable ((spent).die 0) ((spent).team 0 t)) ∧
    (((spent).team 0 0).st = 4 ∧ ((spent).team 0 0).deficit ≤ 0 ∧ ¬ boostable ((spent).die 0) ((spent).team 0 0) ∧
      ∀ e ∈ (spent).teamStrands 0 0, e.2.mode = .inactive ∨ e.2.ctl.overdue = false) ∧
    (let s := spent fun t => { t with ctl := { t.ctl with overdue := true } }
     (s.team 0 0).st = 4 ∧ ∃ e ∈ s.teamStrands 0 0, e.2.mode ≠ .inactive ∧ e.2.ctl.overdue = true) := by
  simp only [boostable]
  decide +kernel

/-- The team is out: its cluster is free and its conductor saved. -/
def outTeam (st : Nat) : State :=
  ((node 0).modDie 0 fun k => { k with running := [] }).modTeam 0 0 fun m => { m with st := st, saved := [conductorImage 0 0x10000 0] }
/-- A core that only the scan of the cluster holds back. -/
def oneScan (start : Option Nat) : Scan := { cl := 0, part := none, start := start }
theorem witness_Swaps_leaving :
    ((node 0).badSave 0 0 = false ∧ (some 1 : Option Nat) ≠ some 0) ∧
    (strandIs fun t => { t with bad := [⟨.scalarReg, 0, 0, 0, 55⟩] }).badSave 0 0 = true ∧
    (∀ why ∈ [0, 1, 2, 3, 4], ((teamIs fun m => { m with stopping := why }).team 0 0).stopping = why) := by decide +kernel
theorem witness_Swaps_entering :
    (emptyClusters (outTeam 2) 0 0 ∧ (∀ x ∈ ((outTeam 2).die 0).scans, x.part ≠ some 0) ∧
      (outTeam 2).pick 0 ((outTeam 2).candidates 0 0) = some 0) ∧
    (((outTeam 3).team 0 0).st = 3 ∧ ((outTeam 3).team 0 0).sliceStart ≤ ((outTeam 3).die 0).now ∧
      (outTeam 3).physCore 0 0 0 0 = some 0 ∧ ((outTeam 3).team 0 0).saved.length = 1) ∧
    ((outTeam 6).team 0 0).st = 6 ∧
    (let s := dieIs fun k => { k with shadow := [(0, { Shadow.reset with draining := some 0 })] }
     ((s.die 0).shadowOf 0).draining.isSome = true ∧ ((s.die 0).shadowOf 0).until_ ≤ (s.die 0).now) ∧
    (((outTeam 2).die 0).shadowOf 0).draining = none ∧ (((outTeam 2).die 0).shadowOf 0).staged ≠ some 0 := by
  simp only [emptyClusters]
  decide +kernel
/-- Its strands are parked; it leaves the core for nothing, when it stops, or to itself. -/
def parkedTeams (stopping : Nat) (deficit : Int) : State :=
  (strandIs fun t => { t with parked := true }).modTeam 0 0 fun m => { m with st := 5, stopping := stopping, deficit := deficit }
theorem witness_Swaps_parked : ∀ p ∈ [(0, (1 : Int)), (0, 0), (1, 1)], (let s := parkedTeams p.1 p.2
    (s.team 0 0).st = 5 ∧ teamParked s 0 0 ∧ teamQuiet s 0 0 false ∧ (∀ x ∈ (s.die 0).scans, x.part ≠ some 0) ∧
      (∀ c ∈ s.coresOf (s.team 0 0).part 0, coreQuiet (s.core c) false ∧ (s.core c).loads = [] ∧ (s.core c).stores = []) ∧
      (s.serveTeam 0 0).served 0 0 = true ∧ (s.team 0 0).stopping = p.1 ∧
      (s.serveTeam 0 0).pick 0 ((if (s.serveTeam 0 0).eligible 0 0 then [0] else []) ++ (s.serveTeam 0 0).candidates 0 0) =
        if p.2 = 1 then some 0 else none) := by
  simp only [teamParked, teamQuiet, coreQuiet]
  decide +kernel
/-- A line of a pool write is on its way, or a scan test claims the cluster. -/
theorem witness_Swaps_held :
    (let s := (parkedTeams 0 1).modCore 0 fun k => { k with mults := [oldestMultiply] }
     (s.team 0 0).st = 5 ∧ teamParked s 0 0 ∧ ¬ teamQuiet s 0 0 false) ∧
    (let s := (parkedTeams 4 1).modDie 0 fun k => { k with scans := [{ oneScan none with part := some 0 }] }
     (s.team 0 0).st = 5 ∧ (s.team 0 0).stopping ≠ 0 ∧ teamParked s 0 0 ∧ teamQuiet s 0 0 false ∧ (s.serveTeam 0 0).served 0 0 = true ∧
      ∃ x ∈ ((s.serveTeam 0 0).die 0).scans, x.part = some 0) ∧
    (let s := { parkedTeams 0 1 with replicas := [replica (some 6)] }.modCore 0 fun k => { k with loads := [byteLoad] }
     (s.team 0 0).st = 5 ∧ teamParked s 0 0 ∧ teamQuiet s 0 0 false ∧ (s.serveTeam 0 0).served 0 0 = false) := by
  simp only [teamParked, teamQuiet, coreQuiet]
  decide +kernel
/-- A stream of two rows, the first of which has entered at Eddy time 4. -/
def twoRows : EddyWork :=
  { fileWriter with streams := true, admits := 14, until_ := 50, steps := [Tri.reset, Tri.reset], start := 4, every := 10, tail := 36 }
theorem witness_Swaps_rows : fileWriter.streams = false ∧ twoRows.streams = true ∧ 0 < twoRows.every ∧
    (∀ now ∈ [4, 5], now < twoRows.admits ∧ min twoRows.steps.length (ceilDiv (now - twoRows.start) twoRows.every) = now - 4) ∧ twoRows.admits ≤ 14 := by
  decide +kernel
theorem witness_Swaps_forced :
    (let s := (teamIs fun m => { m with st := 5 }).modDie 0 fun k => { k with now := 85000 }
     (s.team 0 0).st = 5 ∧ (s.team 0 0).graceStart + (s.die 0).grace ≤ (s.die 0).now ∧ ¬ teamParked s 0 0 ∧
      (s.coresOf (s.team 0 0).part 0).Nodup ∧ (s.core 0).rowsWait = none) ∧
    (let s := teamIs fun m => { m with st := 5 }
     (s.team 0 0).st = 5 ∧ (s.die 0).now < (s.team 0 0).graceStart + (s.die 0).grace) ∧
    (let s := teamIs fun m => { m with st := 7, watch := 340000 }
     (s.team 0 0).st = 7 ∧ s.badSave 0 0 = false ∧ teamQuiet s 0 0 true ∧
      (s.serveTeam 0 0).served 0 0 = true ∧
      (if 7 < (s.clustersOn (s.team 0 0).part 0).length then 8 else 4) * (s.die 0).grace ≤ (s.team 0 0).watch) ∧
    (∀ st ∈ [4, 5, 7], let s := (strandIs fun t => { t with waited := 170000000 }).modTeam 0 0 fun m => { m with st := st }
     s.teamOn 0 = some 0 ∧ (s.die (coreDie 0)).wdwait ≠ 0 ∧ (s.team (coreDie 0) 0).st = st ∧
      1700 * (s.die (coreDie 0)).wdwait ≤ (s.strand 0 0).waited) := by
  simp only [teamParked, teamQuiet, coreQuiet]
  decide +kernel
theorem witness_Swaps_scans :
    (15 < 16 ∧ 16 * 7 + 15 ∉ (node 0).withdrawn ∧ ((node 0).die 7).scans = [] ∧ (node 0).clusterPart 7 15 = none) ∧
    (let s := dieIs fun k => { k with now := 24 * 3600 * 1700000000 }
     s.clusterPart 0 0 = some 0 ∧ seek (s.die 0).running 0 = some 0 ∧ s.scanHours = 24 ∧
      look 0 (s.die 0).scanned 0 + s.scanHours * 3600 * 1700000000 ≤ (s.die 0).now ∧ (s.die 0).scans = []) ∧
    (let s := dieIs fun k => { k with now := 340000, scans := [oneScan (some 0)] }
     (s.die 0).scans.find? (fun x => x.cl == 0) = some (oneScan (some 0)) ∧ (oneScan (some 0)).start = some 0 ∧ 0 + 340000 ≤ (s.die 0).now ∧
      s.clusterPart 0 0 = some 0 ∧ spare s 0 1 ∧ ∀ j, j < 1 → ¬ spare s 0 j) := by
  simp only [spare]
  decide +kernel

/-- Every cluster of die 0 but the partition's is withdrawn: a test that fails leaves it without. -/
theorem witness_Swaps_noSpare : ∀ n, ¬ spare { node 0 with withdrawn := List.range 16 } 0 n := by
  rintro n ⟨h, -, w, -⟩
  exact w (by simpa using h)

/-! Messages to team 0 of die 0, gang 0, sealed under the key of its gang. -/

def sealed (m : Message) : Message := { m with tag := tagOf (sharedKey 0 0) m }
theorem authentic_of {s : State} {d t : Nat} {m : Message} (e : m.epoch = (s.gang m.gang).epoch)
    (k : (s.part (s.team d t).part).gangKey m.gang m.epoch = some (sharedKey 0 0)) : s.authentic d t (sealed m) = true := by
  have e' : (sealed m).epoch = (s.gang (sealed m).gang).epoch := e
  have k' : (s.part (s.team d t).part).gangKey (sealed m).gang (sealed m).epoch = some (sharedKey 0 0) := k
  have a : ((sealed m).epoch == (s.gang (sealed m).gang).epoch) = true := by rw [e']; exact beq_self_eq_true _
  have c : s.recent (sealed m) = true := by simp only [State.recent, a, Bool.true_or]
  unfold State.authentic
  rw [c, k']
  exact beq_self_eq_true _
/-- What a message needs to arrive but for its tag. -/
def reaches (s : State) (kind : Nat) (m : Message) : Bool :=
  m.kind.toNat == kind && s.wire.isEmpty && m.dst == 0 && messageOk m && s.messageTeam 0 m == some 0 && m.epoch == (s.gang m.gang).epoch
theorem arrives_of {s : State} {kind : Nat} {m : Message} (r : reaches s kind m = true)
    (k : (s.part (s.team 0 0).part).gangKey m.gang m.epoch = some (sharedKey 0 0)) : arrives s kind (sealed m) 0 0 := by
  simp only [reaches, Bool.and_eq_true, beq_iff_eq, List.isEmpty_iff] at r
  obtain ⟨⟨⟨⟨⟨a, w⟩, d⟩, o⟩, t⟩, e⟩ := r
  have b : s.behind (sealed m) = false := by simp only [State.behind, w]; rfl
  have h : dieOfEndpoint (sealed m).dst.toNat = some 0 := by show dieOfEndpoint m.dst.toNat = some 0; rw [d]; rfl
  exact ⟨a, b, h, o, t, authentic_of e k⟩
/-- 128 bytes to 0x1FF80, the end of the team's page of device memory. -/
def writeTo (a : Word) : Message := bareMessage 0 0 1 a 0 (List.replicate 128 7) false
/-- Eight bytes to the last line of the scratchpad of a core of cluster 0. -/
def poolMessage (cl : Nat) : Message := bareMessage 0 0 2 (BitVec.ofNat 64 (0x39BFF8 + 2 ^ 42 * cl)) 0 (List.replicate 8 7) false
/-- Sixteen words to st7 of a strand of core 0, cluster 0. -/
def streamMessage (n : Nat) : Message := bareMessage 0 0 3 (BitVec.ofNat 64 (7 * 512 + 128 * n)) 0 (List.replicate 128 1) false
def landedAt (l : List Nat) (m : Message) (s : State) : State :=
  s.modTeam 0 0 fun t => { t with landing := l.map fun n => { slot := n, m := m } }
def locking : State := { node 0 with replicas := [replica (some 6)] }
/-- The bar that a write meets at an address. -/
def barAt (s : State) (a : Word) : Option Resolved := (received s (sealed (writeTo a)) 0 0).teamBar 0 0 a 128 .write
def lockAt (s : State) (a : Word) : Bool := (piecesOf a 128).any fun p =>
  match (received s (sealed (writeTo a)) 0 0).teamTarget none 0 0 0 p.1 .write with
  | .ok tgt _ => (received s (sealed (writeTo a)) 0 0).isLocked tgt
  | _ => false
/-- Nothing of the VF is mapped. -/
def unmapped : State := (node 0).modVf 0 fun f => { f with s2 := [] }
theorem witness_MessageEvents_memory : arrives (node 0) 1 (sealed (writeTo 0x1FF80)) 0 0 ∧ arrives locking 1 (sealed (writeTo 0x1FF80)) 0 0 ∧
    arrives unmapped 1 (sealed (writeTo 0x1FF80)) 0 0 ∧ arrives (node 0) 1 (sealed (writeTo 0x3F000000000)) 0 0 ∧
    barAt (node 0) 0x1FF80 = none ∧ lockAt (node 0) 0x1FF80 = false ∧ barAt locking 0x1FF80 = none ∧ lockAt locking 0x1FF80 = true ∧
    (∃ q, barAt unmapped 0x1FF80 = some (.miss q)) ∧ barAt (node 0) 0x3F000000000 = some (.fault 8 3) := by
  refine ⟨arrives_of (by decide +kernel) (by rfl), arrives_of (by decide +kernel) (by rfl), arrives_of (by decide +kernel) (by rfl),
    arrives_of (by decide +kernel) (by rfl), by decide +kernel, by decide +kernel, by decide +kernel, by decide +kernel, ⟨_, by rfl⟩,
    by decide +kernel⟩
theorem witness_MessageEvents_pool : arrives (node 0) 2 (sealed (poolMessage 0)) 0 0 ∧ arrives (node 0) 2 (sealed (poolMessage 1)) 0 0 ∧
    (received (node 0) (sealed (poolMessage 0)) 0 0).coreNamed 0 0 (poolName (poolMessage 0)).1 = some 0 ∧
    (received (node 0) (sealed (poolMessage 1)) 0 0).coreNamed 0 0 (poolName (poolMessage 1)).1 = none ∧
    (received (node 0) (sealed (poolMessage 0)) 0 0).takesMessages 0 0 = true ∧ (outTeam 2).takesMessages 0 0 = false := by
  refine ⟨arrives_of (by decide +kernel) (by rfl), arrives_of (by decide +kernel) (by rfl), by decide +kernel, by decide +kernel,
    by decide +kernel, by decide +kernel⟩
theorem witness_MessageEvents_streams : arrives (node 0) 3 (sealed (streamMessage 0)) 0 0 ∧ arrives (node 0) 3 (sealed (streamMessage 1)) 0 0 ∧
    streamName (streamMessage 0) = (⟨0, 0, 0⟩, 7) ∧
    (let r := received (node 0) (sealed (streamMessage 0)) 0 0
     r.strandRuns 0 0 ⟨0, 0, 0⟩ = true ∧ r.namesConductor 0 0 ⟨0, 0, 0⟩ = false ∧ r.takesMessages 0 0 = true ∧
      r.coreNamed 0 0 ⟨0, 0, 0⟩ = some 0 ∧ (r.team 0 0).landing = [] ∧ (r.strand 0 0).takes 7 (streamMessage 0) = true) ∧
    (received (node 0) (sealed (streamMessage 1)) 0 0).strandRuns 0 0 ⟨0, 0, 1⟩ = false ∧
    (let r := received (strandIs fun t => { t with streams := [(7, List.replicate 17 ⟨1, false, false⟩)] }) (sealed (streamMessage 0)) 0 0
     (r.strand 0 0).takes 7 (streamMessage 0) = false) ∧
    (let r := received (landedAt [0] (streamMessage 0) (node 0)) (sealed (streamMessage 0)) 0 0
     ∃ l ∈ (r.team 0 0).landing, l.m.kind = 3 ∧ streamName l.m = (⟨0, 0, 0⟩, 7)) := by
  refine ⟨arrives_of (by decide +kernel) (by rfl), arrives_of (by decide +kernel) (by rfl), by decide +kernel, by decide +kernel,
    by decide +kernel, by decide +kernel, by decide +kernel⟩
theorem witness_MessageEvents_landing : ((landedAt (List.range 8) (streamMessage 0) (node 0)).team 0 0).nextEntry = none ∧
    ((landedAt (List.range 7) (streamMessage 0) (node 0)).team 0 0).nextEntry = some 7 := by decide +kernel

/-- A write of one line, and one of two; pages of replicas; a pool write that has begun in a team that then takes no messages. -/
theorem witness_MessageEvents_lines :
    (let m := sealed (poolMessage 0)
     ((node 0).linesNow m (payloadLines (BitVec.ofNat 64 (poolName m).2) m.payload.length)).2 = true) ∧
    (payloadLines 0x1FF80 128).length = 2 ∧
    (let s := { node 0 with replicas := [replica none] }
     reaches s 1 (writeTo 0x1FF80) = true ∧ barAt s 0x1FF80 = none ∧ lockAt s 0x1FF80 = false ∧
      s.isReplicated (.hbm 0x1FF80) = true ∧ s.teamTarget none 0 0 0 0x1FF80 .write = .ok (.hbm 0x1FF80) none) ∧
    (node 0).isReplicated (.hbm 0x1FF80) = false ∧
    (let s := (teamIs fun m => { m with st := 7 })
     let r := received { s with partWritten := [(poolMessage 0, [])] } (poolMessage 0) 0 0
     reaches s 2 (poolMessage 0) = true ∧ r.takesMessages 0 0 = false ∧ r.resident 0 0 = true ∧ (∃ e ∈ r.partWritten, e.1 = poolMessage 0) ∧
      (received s (poolMessage 0) 0 0).partWritten = []) := by decide +kernel

/-- Tile entry 1023 of team 0 in a state. -/
def tiled (t : Tile) : State := teamIs fun m => { m with tiles := [(1023, t)] }
def valid : Tile := { Tile.reset with st := tileRunning }
/-- A run of entry 1023 with every chunk done. -/
def runDone : Run :=
  { strand := none, token := 9, alg := 0, started := [], used := [], done := [0], reran := [], restarted := [], scale := none, unanswered := 0,
    exceeded := false, join := none, swept := false, substFault := none, stall := [], refused := [], cancel := false }
/-- Chunk 2^32 - 1 of contributor 65535 for entry 1023, or its abort. -/
def chunkMessage (phase : Word) : Message := bareMessage 0 0 4 0xFFFFFFFF03FFFFFF phase (if phase = 2 then [] else [1]) false
/-- Every slot of the port's staging is taken. -/
def crowd : HeldChunk := { phase := 0, from_ := 0, chunk := 0, repeated := false, payload := [], mark := false, slots := List.range stagingSlots }
theorem witness_MessageEvents_chunks :
    arrives (tiled Tile.reset) 4 (sealed (chunkMessage 0)) 0 0 ∧ arrives (tiled valid) 4 (sealed (chunkMessage 0)) 0 0 ∧
    arrives (tiled valid) 4 (sealed (chunkMessage 2)) 0 0 ∧ (chunkMessage 0).wordB.toNat % 256 ≠ 2 ∧ (chunkMessage 2).wordB.toNat % 256 = 2 ∧
    (chunkMessage 0).wordA.toNat % 1024 = 1023 ∧ (chunkMessage 0).wordA.toNat / 1024 % 65536 = 65535 ∧
    (let h : HeldChunk := { crowd with from_ := 65535, chunk := 4294967295, payload := [1], slots := [] }
     ({ valid with late := [(65535, [4294967295])] } : Tile).outdated h = true ∧ valid.outdated h = false) ∧
    ((received (tiled valid) (sealed (chunkMessage 0)) 0 0).grant 0 0 1023 4294967295 1 = some [0]) ∧
    ((received (tiled { valid with held := [crowd] }) (sealed (chunkMessage 0)) 0 0).grant 0 0 1023 4294967295 1 = none) ∧
    65535 ∉ ((tiled valid).tile 0 0 1023).excluded 1023 := by
  refine ⟨arrives_of (by decide +kernel) (by rfl), arrives_of (by decide +kernel) (by rfl), arrives_of (by decide +kernel) (by rfl),
    by decide, by decide, by decide, by decide, by decide, by decide +kernel, by decide +kernel, by decide +kernel⟩
/-- Room for a chunk: what staging grants, what is kept for a result, none. -/
theorem witness_MessageEvents_room :
    ((tiled valid).roomFor 0 0 1023 0 4294967295 false 1).isSome = true ∧
    ((tiled { valid with held := [crowd] }).roomFor 0 0 1023 0 4294967295 false 1).isSome = false ∧
    (let s := tiled { valid with held := [crowd], run := some { runDone with rooms := [(4294967295, false, 3)] } }
     (s.roomFor 0 0 1023 1 4294967295 false 1).map (·.1) = some [3]) ∧
    (tiled valid).lastWritten 0 0 1023 = false ∧
    (tiled { valid with run := some { runDone with lastAt := some 0 } }).lastWritten 0 0 1023 = true := by decide +kernel

def answered (seq : Nat) (kind : Nat) : Sent :=
  { id := 4, d := 0, m := { bareMessage 3 0 kind 0 0 [1] false with seq := BitVec.ofNat 48 seq }, cmd := none, tile := none, window := some 0,
    refusals := 6, resting := false, sentAt := 0 }
def answerMessage : Message := { bareMessage 0 0 5 77 0 [] false with src := 3 }
/-- A partition that is confidential and has no key. -/
def keyless : State := { node 0 with sent := [answered 77 1], parts := [(0, { Partition.reset with exists_ := true, confidential := true })] }
theorem witness_MessageEvents_answers :
    (answerMessage.kind.toNat = 5 ∧ (node 0).behind answerMessage = false ∧ dieOfEndpoint answerMessage.dst.toNat = some 0 ∧
      messageOk answerMessage = true ∧ (node 0).sent = []) ∧
    (let s := { node 0 with sent := [answered 77 1], wire := [answerMessage] }
     answerMessage ∈ s.wire ∧ s.behind answerMessage = false ∧
      s.sent.find? (fun x => x.d == 0 && !x.resting && x.m.gang == answerMessage.gang && x.m.seq == answerMessage.wordA.setWidth 48) =
        some (answered 77 1)) ∧
    (answerMessage ∉ keyless.wire ∧
      (keyless.part (keyless.senderPart (answered 77 1))).gangKey answerMessage.gang answerMessage.epoch = none) ∧
    (({ answerMessage with epoch := 5 } : Message).epoch ≠ ((node 0).gang 0).epoch ∧
      ({ answerMessage with epoch := 5 } : Message).epoch + 1 ≠ ((node 0).gang 0).epoch ∧ answerMessage.epoch = ((node 0).gang 0).epoch) ∧
    ((node 0).abandoned (answered 77 1) = false ∧ (answered 77 1).tile = none) ∧
    (let s := { dieIs (fun k => { k with now := 1700000 }) with sent := [answered 77 1] }
     s.sent.find? (fun x => x.id == 4) = some (answered 77 1) ∧ (answered 77 1).resting = false ∧
      (answered 77 1).sentAt + 1700000 ≤ (s.die (answered 77 1).d).now) ∧
    (let x := { answered 77 1 with resting := true }
     let s := { dieIs (fun k => { k with now := 54400 }) with sent := [x] }
     s.sent.find? (fun x => x.id == 4) = some x ∧ x.sentAt + 1700 * min 64 (2 ^ (x.refusals - 1)) ≤ (s.die x.d).now) := by decide +kernel
theorem witness_MessageEvents_retry : (∃ r, (node 0).transmit 0 ((node 0).senderPart (answered 77 1)) (answered 77 1).m = .ok r) ∧
    ∃ st, keyless.transmit 0 (keyless.senderPart (answered 77 1)) (answered 77 1).m = .error st := ⟨⟨_, by rfl⟩, ⟨_, by rfl⟩⟩

/-- The answer with its tag. -/
theorem witness_MessageEvents_genuine : tagOf (sharedKey 0 0) (sealed answerMessage) = (sealed answerMessage).tag ∧
    ((node 0).part ((node 0).senderPart (answered 77 1))).gangKey 0 0 = some (sharedKey 0 0) := ⟨by rfl, by rfl⟩

def slotMessage (kind : Nat) : Message := bareMessage 0 0 kind 1023 (if kind = 7 then 1 else 0) [] false
def full : Tracker := { tile := 5, base := 0, len := 64, expected := 64, count := 64, pages := [] }
def tracked (st : Nat) (tokens : Sparse Token) : State :=
  teamIs fun m => { m with trackers := [full], tiles := [(5, { Tile.reset with st := st })], tokens := tokens }
theorem witness_MessageEvents_tiles :
    ((slotMessage 6).kind.toNat = 6 ∧ (node 0).behind (slotMessage 6) = false ∧ dieOfEndpoint (slotMessage 6).dst.toNat = some 0 ∧
      messageOk (slotMessage 6) = true) ∧
    (∀ st ∈ [0, tileSlotWait, tileRunning], reaches (tiled { Tile.reset with st := st }) 7 (slotMessage 7) = true ∧
      ((tiled { Tile.reset with st := st }).tile 0 0 1023).st = st) ∧
    (let e := (tiled { valid with words := [(5, 65536)] }).tile 0 0 1023
     e.entry.idx = 1 ∧ e.st ≠ 0 ∧ e.st ≠ tileSlotWait ∧ reaches (tiled { valid with words := [(5, 65536)] }) 7 (slotMessage 7) = true) ∧
    ((tiled valid).tile 0 0 1023).entry.idx = 0 ∧
    arrives (tiled valid) 7 (sealed (slotMessage 7)) 0 0 ∧
    (((tracked tileArmed []).team 0 0).trackers.find? (fun k => k.tile == 5) = some full ∧ full.expected ≤ full.count ∧
      ((tracked tileArmed []).tile 0 0 5).st = tileArmed ∧ ((tracked tileArmed []).tile 0 0 5).entry.alg ≠ 2 ∧
      ((tracked tileArmed []).tile 0 0 5).entry.jv = false ∧ (((tracked tileArmed []).team 0 0).token 0).st ≠ .pending) ∧
    ((tracked tileRunning []).tile 0 0 5).st ∉ [tileIdle, tileArmed] ∧
    (((tracked tileArmed [(0, plainToken .pending)]).team 0 0).token ((tracked tileArmed []).tile 0 0 5).entry.ctok).st = .pending := by
  refine ⟨by decide +kernel, by decide +kernel, by decide +kernel, by decide +kernel, arrives_of (by decide +kernel) (by rfl), by decide +kernel, by decide +kernel,
    by decide +kernel⟩
def ending : State := tiled { valid with run := some runDone, words := [(2, 256)] }
theorem witness_MessageEvents_run : (ending.tile 0 0 1023).run = some runDone ∧ (ending.tile 0 0 1023).st = tileRunning ∧
    runDone.done.length = (ending.tile 0 0 1023).entry.total ∧ (ending.tileArrivals 0 0 1023).nextServed 0 (1023 % 3) = some (0, 1023) ∧
    ((ending.tileArrivals 0 0 1023).runStep 0 0 1023).isSome = true ∧
    (tiled valid).nextServed 0 (1023 % 3) ≠ some (0, 1023) := by decide +kernel

def portIs (k : Port) : State := dieIs fun d => { d with ports := [(2, k)] }
/-- Frame n without flits, with its CRC, or with another. -/
def frame (n : Nat) (ok : Bool) : Frame :=
  { flits := [], control := BitVec.ofNat 64 (n + 2 ^ 32 * ((crc32 (bytesOf 4 n)).toNat + if ok then 0 else 1)) }
/-- The CRC of a frame matches (R283). -/
def crcHolds (f : Frame) : Bool := crc32 (f.flits.flatMap lineBytes ++ bytesOf 4 f.control.toNat) == f.control.extractLsb' 32 32
theorem witness_LinksAndEngines_links :
    (let s := portIs { Port.reset with next := 0xFFFFFF }
     (s.port 2).up = true ∧ (s.port 2).retraining = false ∧ crcHolds (frame 0xFFFFFF true) = true ∧
      (frame 0xFFFFFF true).control.setWidth 24 = (s.port 2).next ∧ (frame 0 true).control.setWidth 24 ≠ (s.port 2).next ∧
      crcHolds (frame 0 false) = false) ∧
    (let s := portIs { Port.reset with sent := [frame 4 true, frame 5 true] }
     (∃ f ∈ (s.port 2).sent, f.number = 5) ∧ ∀ f ∈ (s.port 2).sent, f.number ≠ 6) ∧
    (let s := portIs { Port.reset with retraining := true }
     (s.port 2).retraining = true ∧ (s.port 2).up = true) ∧
    (let s := portIs { Port.reset with retraining := true, up := false }
     (s.port 2).up = false ∧ (s.port 2).retraining = true) ∧
    (let x := { answered 77 1 with cmd := some 0, window := none }
     x.cmd = some 0 ∧ x.window = none ∧ x.tile = none) ∧
    (let s := { node 0 with gangs := [(0, { epoch := 0, seqs := [(0, 2 ^ 48 - 2 ^ 21)] })] }
     ∃ e ∈ (s.gang 0).seqs, 2 ^ 48 - 2 ^ 21 ≤ e.2) := by decide +kernel

/-- The state after a queued command of the node strand, with its dependence word in x1 and token 9 in a state. -/
def afterQueue (i : Instr) (dep : Word) (st : TokenState) : State :=
  match exec i (tokenNine st (node 14 (regs [(1, dep), (2, 0x10040)]))) with
  | .next t => t
  | _ => node 0
/-- Command 0 of a state has a property. -/
def command (s : State) (p : Cmd → Bool) : Bool := ((s.cmd? 0).map p).getD false
/-- It can start, and these are the states of its tokens. -/
def tokensOf (s : State) : Option (List TokenState) :=
  (s.cmd? 0).bind fun m => if m.done || m.started || !s.resident m.d m.t then none
    else some (m.own :: m.consumed.map fun k => ((s.team m.d m.t).token k).st)
def startable (s : State) : Bool := command s fun m => !m.cancel && !s.startsLater m && !s.sendBehind m
theorem witness_LinksAndEngines_start :
    tokensOf (afterQueue (.cpy 1 0 false) 0xFFFF0907 .pending) = some [.ok, .pending] ∧
    tokensOf (afterQueue (.cpy 1 0 false) 0xFFFF0907 .error) = some [.ok, .error] ∧
    tokensOf (afterQueue (.cpy 1 0 false) 0xFFFF0907 .cancelled) = some [.ok, .cancelled] ∧
    (let s := afterQueue (.cpy 1 0 false) 0xFFFFFF07 .ok
     tokensOf s = some [.ok] ∧ startable s = true ∧
      command s (fun m => ((s.modCmd 0 fun k => { k with started := true }).startCheck m).isSome) = true) ∧
    (let s := afterQueue (.ttset 2 1) 0xFFFFFF07 .ok
     startable s = true ∧ command s (fun m => ((s.modCmd 0 fun k => { k with started := true }).startCheck m).isNone) = true) ∧
    (let s := { afterQueue (.ttset 2 1) 0xFFFFFF07 .ok with cmds := (afterQueue (.ttset 2 1) 0xFFFFFF07 .ok).cmds.map fun m => { m with cancel := true } }
     command s (fun m => m.cancel && !m.done && !m.started) = true) := by decide +kernel
theorem witness_LinksAndEngines_steps :
    (let u := (afterQueue (.ttset 2 1) 0xFFFFFF07 .ok).modCmd 0 fun k => { k with started := true }
     ((afterSteps 0 1 u).map fun v => (v.cmdStep 0).isNone) = some true ∧ 1 ≤ runFuel ∧
      command u (fun m => m.updates.isEmpty && m.adds.isEmpty) = true) ∧
    (let u := (afterQueue (.qarrive 1 15) 0xFFFFFF07 .ok).modCmd 0 fun k => { k with started := true }
     (match u.cmds.find? (fun m => m.id == 0 && m.started && !m.done && !m.cancel) with
      | some m => arriveJoin m.cap.op == some 15 && u.resident m.d m.t && u.arrivalReady m && ((u.team m.d m.t).joinAt 15).taken.isNone
      | none => false) = true) := by decide +kernel
/-- Task 1 of join 15 was taken in this cycle; the command's strand is task 0. -/
def takenLater : Join := { Join.reset with st := .open_, tasks := [.localTask ⟨0, 0, 0⟩, .localTask ⟨0, 1, 0⟩], taken := some (0, 1) }
def released : JoinRecord :=
  { join := 15, flags := 7, n := 4096, q := 1, fill := 3, serial := 0, stamp := 0, wAll := 0, wArr := 0, mask := [0] }
theorem witness_LinksAndEngines_engines :
    (takenLater.taken = some (((node 0).die 0).now, 1) ∧ takenLater.number (.localTask ⟨0, 0, 0⟩) = some 0 ∧ 0 < 1) ∧
    (let t := afterQueue (.cpy 1 0 false) 0xFFFFFF07 .ok
     clear (.ecancel 7) t = true ∧ (t.myTeam.token (7 : BitVec 8).toNat).st = .pending ∧ (t.myTeam.token (7 : BitVec 8).toNat).cmd = some 0 ∧
      clear (.ecancel 8) t = true ∧ (t.myTeam.token (8 : BitVec 8).toNat).st ≠ .pending) ∧
    (let t := tokenNine .pending (node 14)
     clear (.ecancel 9) t = true ∧ (t.myTeam.token (9 : BitVec 8).toNat).st = .pending ∧ (t.myTeam.token (9 : BitVec 8).toNat).cmd = none) ∧
    (let s := (node 14).modMyTeam fun m => { m with leases := [(3, bound 5)] }
     clear (.lease 1 3) s = true ∧ (s.myTeam.lease (3 : BitVec 2).toNat).engine.isSome = true ∧ clear (.lease 1 0) s = true ∧
      (s.myTeam.lease (0 : BitVec 2).toNat).engine = none ∧ (s.die s.myDie).freeEngine = some 0 ∧ (s.die s.myDie).leaseRequests = []) ∧
    (clear (.qwait 3 15) (node 1) = true ∧ ((node 1).myTeam.joinAt (15 : BitVec 4).toNat).st = .free) ∧
    (let j := { takenLater with st := .released, record := some released }
     j.st ≠ .free ∧ j.record = some released ∧ released.mask.length < 2 ^ 13 ∧ released.fill < 4) := by decide +kernel
/-! Host commands in slot 15, for VF 0 and die 0 but where said. -/

def hostCmd (p0 p1 p2 p3 : Word) : HostCmd :=
  { slot := 15, tag := 0xABCD, vf := 0, die := 0, zeros := 0, p0 := p0, p1 := p1, p2 := p2, p3 := p3, p4 := 0, p5 := 0, p6 := 0 }
/-- taken as a value. -/
def isTaken (s : State) (m : HostCmd) (n : Nat) : Bool := (s.pfSlot m.slot.toNat).status != 0 && commandForm n m
theorem taken_of {s : State} {m : HostCmd} {n : Nat} (h : isTaken s m n = true) : taken s m n := by
  simp only [isTaken, Bool.and_eq_true, bne_iff_ne, ne_eq] at h
  exact h
/-- Partition 1 exists and holds nothing. -/
def twoParts : State := { node 0 with parts := (node 0).parts ++ [(1, { Partition.reset with exists_ := true })] }
theorem witness_ManagementCommands_parts :
    (let s := node 0
     let m := hostCmd 63 0x8000 0 0xFFFFFF
     isTaken s m 4 = true ∧ m.p0.toNat < 64 ∧ m.p3.toNat < 2 ^ 24 ∧ s.othersPorts 63 (m.p3.setWidth 24) = false ∧
      (∀ e, e < 8 → ∀ c ∈ maskClusters m e, s.othersHold 63 e c = false ∧ 16 * e + c ∉ s.withdrawn) ∧
      (∀ e, e < 8 → s.teamsOf e 63 ≠ [] → ∀ c ∈ (s.part 63).held e, c ∈ maskClusters m e) ∧ (∀ e, e < 8 → ((s.part 63).held e).Nodup) ∧
      (2 ≤ (s.boundVfs 63).length → ∀ e, e < 8 → (maskClusters m e).length ≤ 7) ∧
      ∀ e, e < 8 → ∀ t ∈ s.teamsOf e 63, saveNeed (maskClusters m e).length ≤ 65536 * (s.team e t).spages) ∧
    (isTaken twoParts (hostCmd 1 0 0 0) 1 = true ∧ (twoParts.part 1).exists_ = true ∧ twoParts.boundVfs 1 = []) ∧
    (let m := { hostCmd 1 0 0 0 with vf := 511 }
     isTaken twoParts m 1 = true ∧ (twoParts.vf 511).part = none) ∧
    (let m := hostCmd (31 + 32 * 56) 0x7F7F7F7F7F7F7F7F 0 0
     isTaken (node 0) m 2 = true ∧ m.p0.toNat < 2 ^ 11 ∧ field m.p0.toNat 5 6 ≤ 56 ∧ ∀ k, k < 8 → m.p1.toNat / 2 ^ (8 * k) % 256 < 128) ∧
    (isTaken (node 0) (hostCmd 7 2 0 0) 2 = true) ∧
    (isTaken (node 0) (hostCmd 0 5 0 0) 2 = true ∧ ((node 0).part 0).exists_ = true) ∧
    (let m := hostCmd 0x00029810_000006A4 0x000006A4 0 0
     isTaken (node 0) m 3 = true ∧ paramsOk m = true) ∧
    (isTaken (node 0) (hostCmd 0xFFFFFF 0 0 0) 1 = true ∧ isTaken (node 0) (hostCmd 1000 0 0 0) 1 = true ∧
      isTaken (node 0) (hostCmd 2600 0 0 0) 1 = true) := by decide +kernel
/-- VF 1 of partition 0 has no team; partition 1 holds eight clusters of die 7, and VF 2 is bound to it. -/
def moving : State :=
  { twoParts with
    parts := (node 0).parts ++ [(1, { Partition.reset with exists_ := true, clusters := (List.range 8).map fun l => (16 * 7 + l, l) })]
    vfs := (node 0).vfs ++ [(1, { Vf.reset with part := some 0 }), (2, { Vf.reset with part := some 1 })] }
theorem witness_ManagementCommands_functions :
    (isTaken moving { hostCmd 0xFFFF 0 0 0 with vf := 511 } 1 = true ∧ (moving.vf 511).part = none) ∧
    (isTaken moving (hostCmd 0xFFFF 0 0 0) 1 = true ∧ (moving.vf 0).part = some 0 ∧ (moving.teamOf 0 0).isSome = true) ∧
    (isTaken moving { hostCmd 0xFFFF 0 0 0 with vf := 1 } 1 = true ∧ (moving.vf 1).part = some 0 ∧ ∀ d, d < 8 → moving.teamOf 1 d = none) ∧
    (isTaken moving (hostCmd 63 0 0 0) 1 = true ∧ (moving.part 63).exists_ = false ∧ (moving.part 0).exists_ = true) ∧
    ((moving.part 1).exists_ = true ∧ moving.boundVfs 1 ≠ [] ∧ 7 < (moving.clustersOn 1 7).length) ∧
    (moving.boundVfs 0 ≠ [] ∧ (∀ d, d < 8 → (moving.clustersOn 0 d).length ≤ 7) ∧ (0 : Nat) ≠ 1) ∧
    (∀ d, d < 8 → moving.teamOf 2 d = none) ∧ (moving.vf 2).part = some 1 ∧
    (∀ k ∈ [0, 1, 2, 3], isTaken moving (hostCmd 0x30000 (BitVec.ofNat 64 k) 0 0) 2 = true ∧ k < 4) := by decide +kernel
/-- A stage-2 leaf of one page of 64 KiB, the team's own page 1. -/
def smallLeaf : S2Leaf := ⟨1, 0x10000, true, true, false, false⟩
def request : PageRequest := { tag := 65535, access := 1, die := 0, team := 0, ipa := 0, va := 0 }
theorem witness_ManagementCommands_pages :
    (let m := hostCmd 0x3FFFFFF0000 0x10000 (1 + 4 + 8) 0
     smallLeaf = ⟨m.p2.toNat % 4, m.p1.toNat, m.p2.getLsbD 2, m.p2.getLsbD 3, m.p2.getLsbD 4, false⟩ ∧ isTaken (node 0) m 3 = true ∧
      m.p2.toNat < 32 ∧ m.p0.toNat < 2 ^ 42 ∧ m.p0.toNat % leafSpan smallLeaf.level = 0 ∧ m.p1.toNat % leafSpan smallLeaf.level = 0 ∧
      (node 0).leafAllowed 0 smallLeaf = true) ∧
    (isTaken (node 0) (hostCmd 0x3FFFFFFF 0 0 0) 1 = true ∧
      ((node 0).vf 0).s2.find? (fun e => decide (65536 * e.1 ≤ 0x3FFFFFFF) && decide (0x3FFFFFFF < 65536 * e.1 + leafSpan e.2.level)) ≠ none) ∧
    (let s := (node 0).modVf 0 fun f => { f with queue := [request] }
     isTaken s (hostCmd 65535 0 0 0) 2 = true ∧ (s.vf 0).queue.find? (fun r => r.tag == 65535) = some request ∧
      isTaken s (hostCmd 7 1 0 0) 2 = true ∧ ∀ r ∈ (s.vf 0).queue, r.tag ≠ 7) ∧
    (let x := { Strand.reset with mode := .blocked, wait := { WaitInfo.reset with tags := [5] } }
     5 ∈ x.wait.tags ∧ 6 ∉ x.wait.tags ∧ x.gather = none ∧ ∀ k ∈ x.wait.tags, k = 5) ∧
    (let m := hostCmd (BitVec.ofNat 64 (412316860416 - 65536)) 1 255 0
     isTaken (node 0) m 3 = true ∧ m.p0.toNat % 65536 = 0 ∧ m.p0.toNat + 65536 * m.p1.toNat ≤ 412316860416 ∧ m.p2.toNat < 256) := by
  decide +kernel

/-- VF 1 of partition 0 has no team yet and one bundle start; 568 pages above the first GiB are the partition's. -/
def beforeCreate : State :=
  { node 0 with
    vfs := (node 0).vfs ++ [(1, { Vf.reset with part := some 0, starts := [(0, [0x10000])] })]
    owner := (List.range 568).map fun k => (16384 + k, 64) }
def creation : HostCmd :=
  { hostCmd 0xFFFFFF (BitVec.ofNat 64 (3 + 2 ^ 40 * 255)) 0x10000 9 with
    vf := 1, p5 := BitVec.ofNat 64 (65536 * 16384 + 2 ^ 42), p6 := BitVec.ofNat 64 (65536 * 16385 + 2 ^ 42 * 567) }
theorem witness_TeamCommands_create :
    isTaken beforeCreate creation 7 = true ∧ createOk creation = true ∧ (beforeCreate.vf 1).part = some 0 ∧
    (beforeCreate.clustersOn 0 0).head? = some 0 ∧ beforeCreate.startBit 0 1 0x10000 = true ∧ beforeCreate.teamOf 1 0 = none ∧
    beforeCreate.areaRefused 0 creation.p5 creation.p6 = false ∧ beforeCreate.areaRefused 0 creation.p6 creation.p5 = false ∧
    field creation.p1.toNat 40 8 ≠ 0 ∧ (List.range 128).find? (fun t => (beforeCreate.team 0 t).st == 0) = some 1 ∧
    landingNeed (creation.p1.toNat % 16) ≤ 65536 * areaPages creation.p5 ∧
    saveNeed (beforeCreate.clustersOn 0 0).length ≤ 65536 * areaPages creation.p6 := by decide +kernel
theorem witness_TeamCommands_away :
    (let s := { node 0 with pfSlots := [(15, { CmdSlot.reset with status := 0 })] }
     (s.pfSlot (hostCmd 0 0 0 0).slot.toNat).status = 0) ∧
    ((node 0).pfSlot (hostCmd 0 0 0 0).slot.toNat).status ≠ 0 ∧ commandForm 0 (hostCmd 1 0 0 0) = false ∧ (5 < 5) = False := by decide +kernel
/-- The creation with other values. -/
def creating (f : HostCmd → HostCmd) : HostCmd := f creation
theorem witness_TeamCommands_refused :
    (let m := creating fun m => { m with vf := 511 }
     isTaken beforeCreate m 7 = true ∧ createOk m = true ∧ (beforeCreate.vf 511).part = none) ∧
    (let m := creating fun m => { m with die := 7 }
     isTaken beforeCreate m 7 = true ∧ createOk m = true ∧ (beforeCreate.clustersOn 0 7).head? = none) ∧
    (let m := creating fun m => { m with p2 := 0x10004 }
     isTaken beforeCreate m 7 = true ∧ createOk m = true ∧ beforeCreate.startBit 0 1 0x10004 = false) ∧
    (let m := creating fun m => { m with p6 := BitVec.ofNat 64 (65536 * 16385 + 2 ^ 42 * 1) }
     isTaken beforeCreate m 7 = true ∧ createOk m = true ∧ beforeCreate.areaRefused 0 m.p5 m.p6 = false ∧
      beforeCreate.areaRefused 0 m.p6 m.p5 = false ∧
      65536 * (m.p6.toNat / 2 ^ 42) < 4509952 * (8 * (beforeCreate.clustersOn 0 0).length) + 1048576) := by decide +kernel
theorem witness_TeamCommands_full :
    let s := beforeCreate.modDie 0 fun k => { k with teams := (List.range 128).map fun t => (t, { Team.reset with st := 1, part := 63, vf := 100 + t }) }
    (∀ t, t < 128 → (s.team 0 t).st ≠ 0) ∧ s.teamOf 1 0 = none := by decide +kernel
theorem witness_TeamCommands_set :
    (let s := teamIs fun m => { m with lpages := 4 }
     isTaken s (hostCmd 4 0x3FFFFFF 0 0) 3 = true ∧ s.teamOf 0 0 = some 0 ∧ ((s.team 0 0).setWord 4 0x3FFFFFF 0).weight ≠ 0 ∧
      3 ≤ ((s.team 0 0).setWord 4 0x3FFFFFF 0).lsize ∧ ((s.team 0 0).setWord 4 0x3FFFFFF 0).lsize ≤ 12 ∧
      4160 * 2 ^ ((s.team 0 0).setWord 4 0x3FFFFFF 0).lsize ≤ 65536 * ((s.team 0 0).setWord 4 0x3FFFFFF 0).lpages) ∧
    ((node 0).teamOf 1 0 = none) ∧ ((hostCmd 0 1 0 0).p0 = 0 ∧ (hostCmd 0 1 0 0).p1.toNat % 2 ^ 15 ≠ 0) ∧
    (let k := ((node 0).team 0 0).setWord 3 0xF 2
     k.lsize < 3 ∧ k.weight ≠ 0) ∧
    (let k := ((node 0).team 0 0).setWord 3 0xF 12
     k.lsize = 12 ∧ 65536 * k.lpages < 4160 * 2 ^ k.lsize) := by decide +kernel
/-- The team is halted with an image of another version, or of a cluster that the partition has not. -/
def haltedTeam (f : SavedCore → SavedCore) : State := (outTeam 8).modTeam 0 0 fun m => { m with saved := m.saved.map f }
theorem witness_TeamCommands_moves :
    isTaken (outTeam 1) (hostCmd 0 0 0 0) 0 = true ∧ (outTeam 1).teamOf 0 0 = some 0 ∧ ((outTeam 1).team 0 0).st = 1 ∧
    ((node 0).teamOf 0 0 = some 0 ∧ 3 ≤ ((node 0).team 0 0).st ∧ ((node 0).team 0 0).st ≤ 7) ∧
    (((outTeam 8).team 0 0).st = 8 ∧ (outTeam 8).clustersThere 0 0 = true ∧ (outTeam 8).resumable 0 0 = true) ∧
    (haltedTeam fun v => { v with lcore := 127 }).clustersThere 0 0 = false ∧
    (((outTeam 9).team 0 0).st = 9 ∧ ((outTeam 9).clustersOn ((outTeam 9).team 0 0).part 0).head? = some 0) ∧
    (let s := (outTeam 9).modTeam 0 0 fun m => { m with part := 63 }
     (s.team 0 0).st = 9 ∧ (s.clustersOn (s.team 0 0).part 0).head? = none) := by decide +kernel
theorem witness_TeamCommands_version : (haltedTeam fun v => { v with strands := v.strands.map fun e =>
    (e.1, { e.2 with blocks := [{ readBlock with op := .vrcp 3 false 3 1, version := 255, step := 0 }] }) }).resumable 0 0 = false := by decide +kernel
theorem witness_TeamCommands_starts :
    (isTaken (node 0) (hostCmd 0 0 0x3FFFFFFFFFF 0) 3 = true ∧ ((node 0).vf 0).part.isSome = true ∧ isTaken (node 0) (hostCmd 0 0 0 0) 2 = true ∧
      (node 0).teamOf 0 0 = some 0 ∧ ((node 0).team 0 0).st ≠ 8 ∧ (outTeam 8).teamOf 0 0 = some 0 ∧ ((node 0).vf 511).part = none) ∧
    (num (bytesOf 65 1) 0 1 = 1 ∧ (bytesOf 65 1).length = 65) ∧ (num (bytesOf 37 2) 0 1 = 2 ∧ (bytesOf 37 2).length = 37) ∧
    (num (bytesOf 33 4) 0 1 = 4 ∧ (bytesOf 33 4).length = 33) ∧ (num (bytesOf 2 5) 0 1 = 5 ∧ (bytesOf 2 5).length = 2) ∧
    num [] 0 1 = 0 ∧ 5 < num [6] 0 1 := by decide +kernel
/-- A command of a code that runs in slot 15, and perhaps has written its sections. -/
def running (code : Nat) (load : Option Loaded) : State :=
  { node 0 with pfSlots := [(15, { CmdSlot.reset with status := 0, cmd := some (code, hostCmd 0 0 0 0), load := load })] }
def loaded : Loaded := { digest := 0, bases := [], contents := [], texts := [(0x10000, 4)], starts := [0x10000], symbols := [], kernels := [] }
theorem witness_TeamCommands_ends :
    (∀ code ∈ [0x07, 0x12, 0x13, 0x14, 0x19, 0x1A], ((running code none).pfSlot (15 : BitVec 4).toNat).cmd = some (code, hostCmd 0 0 0 0)) ∧
    ((node 0).pfSlot (15 : BitVec 4).toNat).cmd = none ∧ (running 0x12 none).loadBefore 15 (hostCmd 0 0 0 0) = false ∧
    ((running 0x12 (some loaded)).pfSlot (15 : BitVec 4).toNat).load = some loaded ∧ ((running 0x12 none).vf 0).part = some 0 ∧
    (running 0x07 none).teamOf 0 0 = some 0 ∧ ((running 0x07 none).team 0 0).stopping = 0 ∧
    (let s : State := { node 0 with pfSlots := [(14, { CmdSlot.reset with cmd := some (0x12, hostCmd 0 0 0 0) }),
        (15, { CmdSlot.reset with cmd := some (0x12, hostCmd 0 0 0 0), order := 1 })] }
     s.loadBefore 15 (hostCmd 0 0 0 0) = true) := by decide +kernel
/-- An image that the package has sealed for the partition of a halted team. -/
def imported (x : Team) : State :=
  { outTeam 8 with
    parts := [(0, { Partition.reset with exists_ := true, memKey := some 7 })]
    exports := [{ key := 7, bytes := [], image := { team := x, cmds := [], staged := [], sent := [] } }] }
theorem witness_TeamCommands_import :
    ((imported Team.reset).team 0 0).st = 8 ∧ (imported Team.reset).openImage ((imported Team.reset).sealKey 0) [] =
      some { team := Team.reset, cmds := [], staged := [], sent := [] } ∧
    Team.reset.saved = [] ∧ Team.reset.landing = [] := by
  decide +kernel
/-- An IMAGE_LOAD of no bytes fails its checks. -/
theorem witness_TeamCommands_gim : (node 0).gimLoad 0 0 [] 0 = .error (gimMagic, 0) := by
  simp only [State.gimLoad, List.length_nil, Nat.not_lt_zero, if_false]
  rfl

/-! KEY_INSTALL: a blob of number 1 and the plain bytes 5 and 3 (a policy), sealed under the session key. -/

def sessionKey : BitVec 256 := 1
def policy : List Byte := [5, 3]
def policyCipher : List Byte := policy.zipIdx.map fun b => b.1 ^^^ Config.gcmStream sessionKey 1 b.2
def policyBlob : List Byte := bytesOf 12 1 ++ policyCipher ++ bytesOf 16 (Config.gcmTag sessionKey 1 [] policyCipher).toNat

theorem tag_bytes (v : Nat) (h : v < 2 ^ 128) : ofBytes (bytesOf 16 v) = v := by
  simp only [bytesOf, ofBytes, BitVec.toNat_ofNat]
  omega
/-- Partition 0 has a key session, and the blob stands at host address 0. -/
def inSession : State :=
  { node 0 with
    parts := [(0, { Partition.reset with exists_ := true, session := some { key := sessionKey, counter := 0 } })]
    hostMem := policyBlob.zipIdx.map fun b => (b.2, b.1) }
theorem witness_TeamCommands_keys :
    isTaken inSession (hostCmd 0 30 0 0) 2 = true ∧ (inSession.vf 0).part = some 0 ∧
    (inSession.part 0).session = some { key := sessionKey, counter := 0 } ∧ (inSession.part 0).confidential = false ∧
    readBytes inSession.hostMem 0 30 = policyBlob ∧ ofBytes (policyBlob.take 12) = 0 + 1 ∧ openBlob sessionKey policyBlob = some policy ∧
    ((inSession.part 0).install policy).isSome = true := by
  refine ⟨by rfl, by rfl, by rfl, by rfl, by rfl, by rfl, ?_, by rfl⟩
  have n : BitVec.ofNat 96 (num policyBlob 0 12) = 1 := by rfl
  have c : (policyBlob.drop 12).take (policyBlob.length - 28) = policyCipher := by rfl
  have l : policyBlob.length = 30 := by rfl
  have t : num policyBlob 14 16 = ofBytes (bytesOf 16 (Config.gcmTag sessionKey 1 [] policyCipher).toNat) := by rfl
  unfold openBlob
  simp only [n, c]
  rw [l]
  simp only [t, tag_bytes _ (Config.gcmTag sessionKey 1 [] policyCipher).isLt]
  simp [policyCipher, policy]

/-- What turns a KEY_INSTALL away: no session, a confidential partition without IDE, a number out of turn, a blob that does not open. -/
theorem witness_TeamCommands_keys_away : ((node 0).part 0).session = none ∧ (node 0).ide = false ∧
    ofBytes (([] : List Byte).take 12) ≠ 0 + 1 ∧ openBlob sessionKey [] = none ∧ ((node 0).part 0).install [] = none := by decide +kernel

theorem witness_HostEvents :
    (let m := bareMessage 9 0 3 0 0 (List.replicate 4096 1) false
     ((node 0).vf 0).window = none ∧ 1 ≤ m.kind.toNat ∧ m.kind.toNat ≤ 3 ∧ m.payload.length ≤ 4096 ∧ ((node 0).vf 0).part = some 0) ∧
    (3 < (bareMessage 9 0 4 0 0 [] false).kind.toNat) ∧ (511 < 512 ∧ 512 ≤ 512 ∧ 512 < 513 ∧ (0x2000 : BitVec 16) ≠ 0x2008) ∧
    (let s := { node 0 with owner := [(6291455, 192)] }
     (BitVec.ofNat 42 412316860415).toNat < 412316860416 ∧ s.hostPage (BitVec.ofNat 42 412316860415).toNat = true) ∧
    412316860416 ≤ (BitVec.ofNat 42 412316860416).toNat ∧ (node 0).hostPage 0x10000 = false := by decide +kernel
/-- Word 7 of slot 15, whose write starts a command; code 0 and code 27 are not listed. -/
theorem witness_HostEvents_slots : 15 < 16 ∧ 7 < 8 ∧ 0 ∉ (List.range 26).map (· + 1) ∧ 27 ∉ (List.range 26).map (· + 1) ∧
    ((node 0).pfSlot 15).status ≠ 0 ∧ (0x7C0 : BitVec 16).toNat % 128 = 64 ∧ (0x7B9 : BitVec 16).toNat % 8 ≠ 0 := by decide +kernel
theorem witness_HostEvents_window : ∃ r u,
    (node 0).draw.2.transmit 0 0 { bareMessage 0 ((node 0).windowGang 0 0) 3 0 0 (List.replicate 8 1) false with
      vf := 0, byGang := false } = .ok (r, u) := ⟨_, _, by rfl⟩
/-- A result of slot 3 that a mirror has computed too. -/
def compared (pending : Bool) : State := strandIs fun t =>
  { t with pend := [{ lateResult with load := none, check := some (0x10000, 3) }], ctl := { t.ctl with mirrorPending := pending } }
theorem witness_SiliconEvents : (∀ pending ∈ [false, true], (let s := compared pending
      (s.core 0).running = some 0 ∧ (s.core 0).switchLeft = 0 ∧ (s.strand 0 0).late = false ∧
      (∃ p ∈ (s.strand 0 0).pend, p.check = some (0x10000, 3) ∧ p.due ≤ (s.strand 0 0).time) ∧
      (s.strand 0 0).ctl.mirrorPending = pending)) ∧
    (∀ k ∈ [PlaceKind.hbmLine, .poolLine, .scaleWord, .fileWord, .latch, .scalarReg, .portStaging, .heldStaging, .shared],
      placeExists ⟨k, 1023, 3, 2, 3⟩ = true) ∧
    placeExists ⟨.hbmLine, 0, 0, 0, 412316860415⟩ = true ∧ placeExists ⟨.hbmLine, 0, 0, 0, 412316860416⟩ = false := by decide +kernel
/-- The save of a team that is out, a line of its image in shadow SRAM, an element of st7. -/
theorem witness_SiliconEvents_places :
    (let s := (outTeam 2).modTeam 0 0 fun m => { m with sbase := 5, saved := [{ conductorImage 0 0x10000 0 with ran := true, size := 0 }] }
     s.inSave 0 0 (65536 * 5) = true) ∧ (∀ d < 8, ∀ t < 128, (node 0).inSave d t 0x10000 = false) ∧
    (let s := (outTeam 2).modDie 0 fun k => { k with shadow := [(0, { Shadow.reset with staged := some 0, held := [(0, 64)] })] }
     s.shadowAt ⟨.shadowLine, 0, 0, 0, 63⟩ = some (0, 0) ∧ s.shadowAt ⟨.shadowLine, 0, 0, 0, 64⟩ = none) ∧
    (let s := strandIs fun t => { t with streams := [(7, [⟨1, false, false⟩, ⟨2, false, false⟩])] }
     ((s.strand 0 0).stream (227 / 32 % 8))[1]? = some ⟨2, false, false⟩ ∧ 227 % 32 / 2 = 1) := by decide +kernel
theorem witness_TrapTaken : (255 < 256 ∧ 31 < 32 ∧ 7 < 8 ∧ 15 < 16) ∧
    (let s := strandIs fun t => { t with ctl := { t.ctl with tvecEn := true } }
     (s.strand 0 0).ctl.exl = false ∧ (s.strand 0 0).ctl.tvecEn = true) ∧
    ((node 1).strand 0 0).ctl.tvecEn = false ∧ ((strandIs fun t => { t with ctl := { t.ctl with exl := true } }).strand 0 0).ctl.exl = true := by
  decide
/-- A block that a trap finds with one register still to read, and one that only occupies its lane group. -/
theorem witness_TrapTaken_operands :
    let b : Block := { readBlock with srcs := [], marks := [], step := 0 }
    let t : Strand := { Strand.reset with blocks := [b, { b with idle := true }] }
    b ∈ t.blocks ∧ b.idle = false ∧ ({ b with idle := true } : Block) ∈ t.blocks ∧ b.unread (vregCount t.ctl.poolpart) ≠ [] ∧ b.saved = [] ∧
      ∀ r ∈ b.unread (vregCount t.ctl.poolpart), t.isBad .vectorReg b.lg r = false := by decide +kernel
/-- A trap has suspended a nest of one bundle at 0x10000. -/
def suspended (epc : VAddr) (nest : Option Nest) : State := conductor 1 fun t =>
  { t with ctl := { t.ctl with epc := epc }, frames := [{ at_ := 0, seq := 0, pend := [], blocks := [], nest := nest }] }
def suspendedNest : Nest := { passEnd with first := 0x10000, due := false }
theorem witness_TrapReturned_nest : clear .eret (suspended 0x10008 (some suspendedNest)) = true ∧
    (suspended 0x10008 (some suspendedNest)).me.nest = none ∧ (suspended 0x10008 (some suspendedNest)).me.ctl.epc = 0x10008 ∧
    (suspended 0x10008 (some suspendedNest)).me.frames.map (·.nest) = [some suspendedNest] ∧ 0 < suspendedNest.body := by decide +kernel
theorem witness_TrapReturned_places :
    (suspended 0 none).skipBundles 0 0 0x10000 = 0x10000 ∧ (suspended 0 none).skipBundles 0 1 0x10000 = 0x10008 := by decide +kernel
theorem witness_TrapReturned : clear .eret (conductor 1) = true ∧ (conductor 1).me.nest = none ∧ (conductor 1).me.ctl.epc.toNat % 4 = 0 ∧
    (conductor 1).me.frames = [] ∧ (node 1).issue.admitted = false ∧ (node 1).me.ctl.priv = false ∧
    (let t := { Strand.reset with pend := [{ lateResult with due := 1 }] }
     t.ctl.exl = false ∧ ∀ p ∈ t.pend, t.time < p.due) := by decide
theorem witness_Privileges : (Instr.mtc 1 0x000).wellFormed = true ∧ (node 1).meConductor = false ∧
    ((conductor 1).meConductor = true ∧ (conductor 1).issue.slot < 3 ∧ (conductor 1).decodeVerdict (.mtc 1 0x000) = none ∧
      (conductor 1).decodeVerdict (.mtc 1 0x001) ≠ none ∧ (conductor 1).issue.admitted = false) ∧ (node 1).issue.slot ≠ 0 ∧
    (node 1).decodeVerdict (.mtc 1 0x000) ≠ none ∧ (node 1).decodeVerdict (.mtc 1 0x001) ≠ none ∧ (node 1).decodeVerdict (.mtc 1 0x010) = none ∧
    (Instr.launch 3 48).wellFormed = true ∧ (Instr.mmaz 1 1 0 0 0 false false).wellFormed = true ∧ (conductor 12).meConductor = true ∧
    (conductor 12).decodeVerdict (.mmaz 1 1 0 0 0 false false) ≠ none := by decide
theorem witness_Guard : Instr.guarded (.stb 1 2 true 0) = true ∧
    (let s := node 2 fun t => { t with ctl := { t.ctl with mirrorPending := true } }
     s.me.ctl.mirrorPending = true ∧ s.decodeVerdict (.stb 1 2 true 0) = none ∧ s.starves [] (.stb 1 2 true 0) = false) ∧
    (node 2).me.ctl.mirrorPending = false := by decide
theorem witness_CheckOrder : (node 0).decodeVerdict (.drain) = none ∧ (node 0).decodeVerdict (.add 56 0 0) ≠ none ∧
    (node 0).starves [] (.add 1 56 0) = true ∧ (node 0).decodeVerdict (.add 1 56 0) = none := by decide
theorem witness_WaitsAndFaults : (node 2).issue.admitted = false ∧ clear (.ldh 1 2 0) (addr 1) = true ∧ (addressOf ((addr 1).srcPeek 2) 0 2).toNat % 2 ≠ 0 ∧
    clear (.std 1 2 false 0) (addr 4) = true ∧ (addressOf ((addr 4).srcPeek2 1 2) 0 8).toNat % 8 ≠ 0 ∧
    clear (.tkwait 3 9) (node 1) = true ∧ ((node 1).myTeam.token 9).st = .idle ∧
    ((tokenNine .pending (node 1)).myTeam.token 9).st = .pending ∧ (tokenNine .pending (node 1)).peerLost 9 = false ∧
    (tokenNine .pending (node 1)).inRetry 9 = false ∧ clear (.cmpt 1 2 1) (node 1) = true ∧
    condHolds 1 ((node 1).srcPeek 1) ((node 1).srcPeek2 1 2) = false ∧
    (let s := (node 1).modMyTeam fun m => { m with joins := [(15, { Join.reset with st := .open_ })] }
     clear (.qwait 3 15) s = true ∧ (s.myTeam.joinAt 15).st = .open_) ∧
    (let s := node 1 (regs [(1, 2)])
     clear (.jr 1 false) s = true ∧ clear (.jrl 55 1 true) s = true ∧ s.me.nest = none ∧ (s.srcPeek 1).toNat % 4 ≠ 0) ∧
    (let s := node 1 fun t => { regs [(1, 1)] t with nest := some passEnd }
     s.me.nest ≠ none ∧ condHolds 1 (s.srcPeek 1) (s.srcPeek2 1 2) = true ∧ s.srcPeek 2 = 0 ∧ s.srcPeek 1 ≠ 0 ∧
      [Instr.br 1 1 2 0, .bz 2 0, .bnz 1 0, .jmp 0, .call 0, .jr 1 true, .jrl 3 1 false].all (fun i => clear i s) = true) := by decide

/-! Operands, memory, frames. -/

def elem (v : Word) : Elem := { val := v, mark := false }
theorem witness_Sources : (let s := node 0 fun t => { t with streams := [(7, [elem 1, elem 2])] }
    s.me.stream ((63 : BitVec 6).toNat - 56) = elem 1 :: elem 2 :: []) ∧ 56 ≤ (63 : BitVec 6).toNat ∧ (55 : BitVec 6).toNat < 56 := by decide
theorem witness_Delivery : (let s := strandIs fun t => { t with pend := [{ lateResult with load := none }] }
    (s.strand 0 0).pend = [{ lateResult with load := none }] ∧ lateResult.write = .x 3 0 ∧ lateResult.due ≤ (s.strand 0 0).time) ∧
    (let p := { lateResult with due := 1 }
     let s := strandIs fun t => { t with pend := [p] }
     (s.strand 0 0).time < p.due) ∧
    (let p := { lateResult with write := .vec 7 511 1 0 }
     let q := { p with seq := 1, write := .vec 7 511 2 1 }
     q ∈ [p, q] ∧ q.due = p.due ∧ p.seq < q.seq ∧ p.write.target ≠ none ∧ q.write.target = p.write.target) ∧ lateResult.recs = [] ∧ lateResult.mark = false := by decide +kernel
theorem witness_MemoryReadsBack : Memory.wf [(3, (1 : Byte))] = true ∧ 3 + 1 ≤ 4 := by decide
/-- The largest register files and accumulator, and the smallest pool partition. -/
theorem witness_LocalRegion : partLegal 0x2A0A = true ∧ partLegal 0 = true ∧ 63 < slotCount 0x2A0A ∧ 31 < partAcc 0x2A0A ∧
    3 < partStrands 0x2A0A ∧ 0 < vregCount 0x2A0A := by decide
theorem witness_LocalRegion_identity : (7 < 8) ∧ 0x3F002400000 ≤ (0x3F002400000 : Word).toNat % 2 ^ 42 ∧
    (0x3F00240003F : Word).toNat % 2 ^ 42 < 0x3F002400040 ∧ 0x3F002400040 ≤ (0x3F002400040 : Word).toNat % 2 ^ 42 ∧
    0x3F002400040 ≤ (0xFFFFFFFFFFFFFFFF : Word).toNat % 2 ^ 42 := by decide
/-- The bundle has been admitted. -/
def admitted (s : State) : State := { s with issue := { s.issue with admitted := true } }
theorem witness_ResultFrame : (admitted (node 0)).issue.admitted = true ∧ registerOnly (.add 3 1 2) = true ∧
    shows (exec (.add 3 1 2) (admitted (node 0))) (fun _ => true) = true ∧ isTransfer (.jrl 3 1 false) = true ∧
    shows (exec (.jrl 3 1 false) (admitted (node 1))) (fun _ => true) = true := by decide
theorem witness_AccessFrame : isLoad (.vgather 1 2 2 0 0) = true ∧ shows (exec (.ldd 1 2 0) (admitted (addr localAddr))) (fun _ => true) = true ∧
    isStore (.vst 1 2 1 0) = true ∧ shows (exec (.std 1 2 false 0) (admitted (addr 0x10040))) (fun _ => true) = true := by decide +kernel
theorem witness_StoreLands : storeOf (.std 1 2 false 0x3FF) = some (1, 2, 0x3FF, 8) ∧
    (let s := admitted (node 2 (regs [(1, 0x1122334455667788), (2, 0x10048)]))
     (s.src2 1 2).2.resolve s.issue.core (addressOf (s.src2 1 2).1.2.1 0x3FF 8) .write = .ok (.hbm 0x10040) none ∧ s.myCore.stores = [] ∧
     shows (exec (.std 1 2 false 0x3FF) s) (fun u => u.myCore.stores.map (fun w => (w.id, w.holders)) == [(s.nextId, [])] &&
       (u.myCore.stores.all fun w => u.myCore.storeFirst w) && !u.isReplicated (.hbm 0x10040) &&
       shows (exec (.storePerformed 0 s.nextId) u) fun v => readBytes v.hbm 0x10040 8 == bytesOf 8 0x1122334455667788) = true) := by decide +kernel
theorem witness_QueueFrame : isArray (.vadd 0 false 3 1 2) = true ∧ shows (exec (.vadd 0 false 3 1 2) (admitted (node 3))) (fun _ => true) = true ∧
    isQueued (.cpy 1 0 false) = true ∧ shows (exec (.cpy 1 0 false) (admitted (node 14))) (fun _ => true) = true := by decide +kernel
theorem witness_Selection : (outTeam 2).eligible 0 0 = true ∧ (outTeam 2).pick 0 [0] = some 0 ∧
    (let k := { Core.reset with strands := [(1, { Strand.reset with mode := .ready }), (3, { Strand.reset with mode := .ready })] }
     k.nextStrand = some 1) ∧ 1 ≠ 0 := by decide +kernel

end Sys2Proof.Tests
end

section
/-!
PROOF. Memory and pool lines read back what was written (R5, R348), and the memory invariant at reset.
-/

set_option Elab.async false
namespace Sys2Proof.Machine

/-! ## What a list of entries reads as -/

theorem look_of_forall_ne {α : Type} (d : α) {m : Sparse α} {k : Nat} (h : ∀ e ∈ m, e.1 ≠ k) : look d m k = d := by
  induction m with
  | nil => rfl
  | cons e rest ih =>
    obtain ⟨hk, hrest⟩ := List.forall_mem_cons.1 h
    rw [look, if_neg hk, ih hrest]

theorem look_append_of_left_ne {α : Type} (d : α) {m l : Sparse α} {k : Nat} (h : ∀ e ∈ m, e.1 ≠ k) :
    look d (m ++ l) k = look d l k := by
  induction m with
  | nil => rfl
  | cons e rest ih =>
    obtain ⟨hk, hrest⟩ := List.forall_mem_cons.1 h
    rw [List.cons_append, look, if_neg hk, ih hrest]

theorem look_append_of_right_ne {α : Type} (d : α) {m l : Sparse α} {k : Nat} (h : ∀ e ∈ l, e.1 ≠ k) :
    look d (m ++ l) k = look d m k := by
  induction m with
  | nil => exact look_of_forall_ne d h
  | cons e rest ih => rw [List.cons_append, look, look, ih]

/-- A filter that keeps every entry of a key leaves what the key reads as. -/
theorem look_filter_of_kept {α : Type} (d : α) {p : Nat × α → Bool} (m : Sparse α) {k : Nat} (h : ∀ v, p (k, v) = true) :
    look d (m.filter p) k = look d m k := by
  induction m with
  | nil => rfl
  | cons e rest ih =>
    obtain ⟨j, v⟩ := e
    by_cases hp : p (j, v) = true
    · rw [List.filter_cons_of_pos hp, look, look, ih]
    · have hj : j ≠ k := fun hj => hp (hj ▸ h v)
      rw [List.filter_cons_of_neg hp, ih, look, if_neg hj]

/-- In the canonical form the listed entries are the bytes that do not read as zero. -/
theorem Memory.mem_iff_readByte {m : List Host.Cell} (h : Memory.wf m = true) (c : Host.Cell) :
    c ∈ m ↔ c.2 ≠ 0 ∧ readByte m c.1 = c.2 := by
  induction m with
  | nil => simpa [readByte, look] using fun h e => h e.symm
  | cons e rest ih =>
    obtain ⟨hrise, hnz⟩ := (Memory.wf_iff _).1 h
    obtain ⟨hlt, hrise'⟩ := List.pairwise_cons.1 hrise
    have hrest : Memory.wf rest = true := (Memory.wf_iff _).2 ⟨hrise', fun x hx => hnz x (List.mem_cons_of_mem _ hx)⟩
    obtain ⟨a, v⟩ := e
    obtain ⟨b, w⟩ := c
    have hread : readByte ((a, v) :: rest) b = if a = b then v else readByte rest b := rfl
    by_cases hab : a = b
    · subst hab
      have hnot : (a, w) ∉ rest := fun hm => Nat.lt_irrefl a (hlt _ hm)
      have hv : v ≠ 0 := hnz (a, v) List.mem_cons_self
      simp only [List.mem_cons, hnot, or_false, Prod.mk.injEq, true_and, hread, if_pos]
      exact ⟨fun e => ⟨e ▸ hv, e.symm⟩, fun e => e.2.symm⟩
    · simp [hread, hab, ih hrest, Ne.symm hab]

/-- Two canonical memories that read the same are the same. -/
theorem Memory.ext_readByte {m l : List Host.Cell} (hm : Memory.wf m = true) (hl : Memory.wf l = true)
    (h : ∀ k, readByte m k = readByte l k) : m = l := by
  have rises := fun {x : List Host.Cell} (hx : Memory.wf x = true) => ((Memory.wf_iff x).1 hx).1
  have distinct := fun {x : List Host.Cell} (hx : Memory.wf x = true) =>
    (rises hx).imp fun {a b} (hab : a.1 < b.1) (e : a = b) => Nat.ne_of_lt hab (congrArg Prod.fst e)
  have perm : m.Perm l := (List.perm_ext_iff_of_nodup (distinct hm) (distinct hl)).2 fun c => by
    rw [Memory.mem_iff_readByte hm, Memory.mem_iff_readByte hl, h]
  exact perm.eq_of_pairwise (fun a b _ _ hab hba => absurd (Nat.lt_trans hab hba) (Nat.lt_irrefl _)) (rises hm) (rises hl)

/-! ## Bytes -/

/-- Consecutive bytes as entries read as themselves. -/
theorem look_cellsOf (bs : List Byte) : ∀ a x : Nat,
    look 0 (cellsOf a bs) x = if a ≤ x then nth 0 bs (x - a) else 0 := by
  induction bs with
  | nil => intro a x; simp [cellsOf, look, nth]
  | cons b rest ih =>
    intro a x
    have hcons : look 0 (cellsOf a (b :: rest)) x = if a = x then b else look 0 (cellsOf (a + 1) rest) x := by
      by_cases hb : b = 0
      · rw [cellsOf, if_pos hb]
        split
        · next hax => rw [ih, if_neg (by omega), hb]
        · rfl
      · rw [cellsOf, if_neg hb, look]
    rw [hcons, ih]
    rcases Nat.lt_trichotomy a x with hlt | rfl | hgt
    · obtain ⟨i, rfl⟩ := Nat.exists_eq_add_of_lt hlt
      have hi : a + i + 1 - a = i + 1 := by omega
      have hi' : a + i + 1 - (a + 1) = i := by omega
      simp [nth, hi, hi', show a ≠ a + i + 1 by omega, show a ≤ a + i + 1 by omega, show a ≤ a + i by omega]
    · simp [nth]
    · simp [show ¬ a = x by omega, show ¬ a + 1 ≤ x by omega, show ¬ a ≤ x by omega]

/-- What is written is read back, and everything else reads as before. -/
theorem readByte_writeBytes (m : List Host.Cell) (a : Nat) (bs : List Byte) (x : Nat) :
    readByte (writeBytes m a bs) x = if a ≤ x ∧ x < a + bs.length then nth 0 bs (x - a) else readByte m x := by
  have hin := (cellsOf_wf bs a).2
  have below : ∀ e ∈ m.filter (fun c => decide (c.1 < a)), e.1 < a := fun e he => by simpa using (List.mem_filter.1 he).2
  have above : ∀ e ∈ m.filter (fun c => decide (a + bs.length ≤ c.1)), a + bs.length ≤ e.1 := fun e he => by
    simpa using (List.mem_filter.1 he).2
  unfold readByte writeBytes
  rcases Nat.lt_or_ge x a with hlow | hge
  · rw [if_neg (by omega), look_append_of_right_ne 0 fun e he => by have := above e he; omega,
      look_append_of_right_ne 0 fun e he => by have := hin e he; omega,
      look_filter_of_kept 0 m fun v => by simpa using hlow]
  · rcases Nat.lt_or_ge x (a + bs.length) with hlt | hhigh
    · rw [if_pos ⟨hge, hlt⟩, look_append_of_right_ne 0 fun e he => by have := above e he; omega,
        look_append_of_left_ne 0 fun e he => by have := below e he; omega, look_cellsOf, if_pos hge]
    · rw [if_neg (by omega), List.append_assoc, look_append_of_left_ne 0 fun e he => by have := below e he; omega,
        look_append_of_left_ne 0 fun e he => by have := hin e he; omega,
        look_filter_of_kept 0 m fun v => by simpa using hhigh]

/-- A range is read byte by byte. -/
theorem readBytes_eq_map_readByte (m : List Host.Cell) (a n : Nat) :
    readBytes m a n = (List.range n).map fun i => readByte m (a + i) := by
  refine List.map_congr_left fun i hi => ?_
  have hi : i < n := List.mem_range.1 hi
  exact look_filter_of_kept 0 m fun v => by simpa using hi

theorem readBytes_writeBytes_self (m : List Host.Cell) (a : Nat) (bs : List Byte) :
    readBytes (writeBytes m a bs) a bs.length = bs := by
  rw [readBytes_eq_map_readByte]
  refine List.ext_getElem (by simp) fun i hi hi' => ?_
  simp [readByte_writeBytes, nth, hi']

theorem readBytes_writeBytes_disjoint (m : List Host.Cell) (a : Nat) (bs : List Byte) {b n : Nat}
    (h : b + n ≤ a ∨ a + bs.length ≤ b) : readBytes (writeBytes m a bs) b n = readBytes m b n := by
  simp only [readBytes_eq_map_readByte]
  refine List.map_congr_left fun i hi => ?_
  have hi : i < n := List.mem_range.1 hi
  rw [readByte_writeBytes, if_neg (by omega)]

/-! ## Numbers as bytes -/

@[simp] theorem length_bytesOf (n v : Nat) : (bytesOf n v).length = n := by
  induction n generalizing v with
  | zero => rfl
  | succ n ih => rw [bytesOf, List.length_cons, ih]

theorem ofBytes_bytesOf (n v : Nat) : ofBytes (bytesOf n v) = v % 256 ^ n := by
  induction n generalizing v with
  | zero => rw [bytesOf, ofBytes, pow_zero, Nat.mod_one]
  | succ n ih =>
    have hbyte : (2 : Nat) ^ 8 = 256 := rfl
    rw [bytesOf, ofBytes, ih, BitVec.toNat_ofNat, hbyte, pow_succ', ← Nat.mod_mul]

theorem nth_bytesOf {n i : Nat} (v : Nat) (h : i < n) : nth 0 (bytesOf n v) i = BitVec.ofNat 8 (v / 256 ^ i) := by
  induction n generalizing v i with
  | zero => omega
  | succ n ih =>
    cases i with
    | zero => simp [bytesOf, nth]
    | succ i =>
      have hstep := ih (v / 256) (Nat.lt_of_succ_lt_succ h)
      rw [Nat.div_div_eq_div_mul, ← pow_succ'] at hstep
      exact hstep

theorem ofNat_ofBytes_div (bs : List Byte) (i : Nat) : BitVec.ofNat 8 (ofBytes bs / 256 ^ i) = nth 0 bs i := by
  induction bs generalizing i with
  | nil => simp [ofBytes, nth]
  | cons b rest ih =>
    cases i with
    | zero =>
      refine BitVec.eq_of_toNat_eq ?_
      simp [ofBytes, nth, Nat.add_mul_mod_self_left, Nat.mod_eq_of_lt b.isLt]
    | succ i =>
      have hdrop : ofBytes (b :: rest) / 256 ^ (i + 1) = ofBytes rest / 256 ^ i := by
        rw [pow_succ', ← Nat.div_div_eq_div_mul, ofBytes]
        have := b.isLt
        congr 1
        omega
      rw [hdrop, ih]
      rfl

/-! ## Lines -/

/-- Byte i of a line. -/
def Line.byte (v : Line) (i : Nat) : Byte := v.extractLsb' (8 * i) 8

theorem Line.byte_eq_ofNat (v : Line) (i : Nat) : Line.byte v i = BitVec.ofNat 8 (v.toNat / 256 ^ i) := by
  refine BitVec.eq_of_toNat_eq ?_
  have hbyte : (2 : Nat) ^ (8 * i) = 256 ^ i := pow_mul 2 8 i
  rw [Line.byte, BitVec.extractLsb'_toNat, Nat.shiftRight_eq_div_pow, hbyte, BitVec.toNat_ofNat]

/-- The bytes of a line stand in it least significant first. -/
theorem nth_lineBytes (v : Line) {i : Nat} (h : i < 64) : nth 0 (lineBytes v) i = Line.byte v i := by
  rw [lineBytes, nth_bytesOf _ h, Line.byte_eq_ofNat]

theorem Line.byte_lineOf (bs : List Byte) {i : Nat} (h : i < 64) : Line.byte (lineOf bs) i = nth 0 bs i := by
  rw [← ofNat_ofBytes_div]
  refine BitVec.eq_of_getLsbD_eq fun j hj => ?_
  have hjj : j + 8 * i < 512 := by omega
  have hbyte : (256 : Nat) ^ i = 2 ^ (8 * i) := (pow_mul 2 8 i).symm
  rw [Line.byte, lineOf, BitVec.getLsbD_extractLsb', BitVec.getLsbD_ofNat, BitVec.getLsbD_ofNat, hbyte,
    Nat.testBit_div_two_pow]
  simpa [hj, Nat.add_comm] using fun _ => hjj

theorem Line.byte_readLine (m : List Host.Cell) (a : Nat) {i : Nat} (h : i < 64) :
    Line.byte (readLine m a) i = readByte m (a + i) := by
  have := Line.byte_lineOf (readBytes m a 64) h
  rw [readBytes_eq_map_readByte] at this
  rw [readLine, readBytes_eq_map_readByte]
  simpa [lineOf, nth, h] using this

theorem Line.byte_maskBits (mask : BitVec 64) {i : Nat} (h : i < 64) :
    Line.byte (maskBits mask) i = if mask.getLsbD i then 0xFF else 0 := by
  have := Line.byte_lineOf ((List.range 64).map fun i => if mask.getLsbD i then (0xFF : Byte) else 0) h
  simpa [lineOf, maskBits, nth, h] using this

/-- Merging takes the masked bytes of the new line and the others of the old. -/
theorem Line.byte_mergeLine (old new : Line) (mask : BitVec 64) {i : Nat} (h : i < 64) :
    Line.byte (mergeLine old new mask) i = if mask.getLsbD i then Line.byte new i else Line.byte old i := by
  have hsplit : Line.byte (mergeLine old new mask) i =
      (Line.byte old i &&& ~~~ Line.byte (maskBits mask) i) ||| (Line.byte new i &&& Line.byte (maskBits mask) i) := by
    refine BitVec.eq_of_getLsbD_eq fun j hj => ?_
    have hjj : 8 * i + j < 512 := by omega
    simp [mergeLine, Line.byte, hj, hjj]
  rw [hsplit, Line.byte_maskBits mask h]
  have hones : (0xFF : Byte) = BitVec.allOnes 8 := rfl
  have hnone : (0 : Byte) = 0#8 := rfl
  by_cases hm : mask.getLsbD i = true
  · rw [if_pos hm, if_pos hm, hones, BitVec.not_allOnes, BitVec.and_zero, BitVec.zero_or, BitVec.and_allOnes]
  · rw [if_neg hm, if_neg hm, hnone, BitVec.not_zero, BitVec.and_allOnes, BitVec.and_zero, BitVec.or_zero]

/-- A masked write of a line changes its masked bytes alone (R348). -/
theorem readByte_writeLine (m : List Host.Cell) (a : Nat) (v : Line) (mask : BitVec 64) (x : Nat) :
    readByte (writeLine m a v mask) x =
      if a ≤ x ∧ x < a + 64 ∧ mask.getLsbD (x - a) = true then Line.byte v (x - a) else readByte m x := by
  rw [writeLine, readByte_writeBytes, lineBytes, length_bytesOf, ← lineBytes]
  by_cases hx : a ≤ x ∧ x < a + 64
  · have hi : x - a < 64 := by omega
    have hxa : a + (x - a) = x := by omega
    rw [if_pos hx, nth_lineBytes _ hi]
    split
    · next hall =>
      have hbit : mask.getLsbD (x - a) = true := by rw [hall, BitVec.getLsbD_allOnes]; simpa using hi
      rw [if_pos ⟨hx.1, hx.2, hbit⟩]
    · rw [Line.byte_mergeLine _ _ _ hi, Line.byte_readLine _ _ hi, hxa]
      simp [hx]
  · rw [if_neg hx, if_neg fun h => hx ⟨h.1, h.2.1⟩]

/-! ## The obligations -/

/-- Settles O6: right after reset device memory lists nothing. -/
theorem invariantAtReset : Obligations.InvariantAtReset := reset_wf.1

theorem bytesReadBack_holds : Claims.bytesReadBack := fun m a bs =>
  ⟨readByte_writeBytes m a bs, readBytes_writeBytes_self m a bs, fun _ _ => readBytes_writeBytes_disjoint m a bs,
    writeBytes_wf a bs, fun n v => ⟨ofBytes_bytesOf n v, length_bytesOf n v⟩, fun _ _ => Memory.ext_readByte⟩

/-- Settles O54: a byte of a memory is read in the part of the list that can hold its address. -/
theorem memoryReadsBack : Obligations.MemoryReadsBack :=
  ⟨bytesReadBack_holds, fun k a v mask _ x => readByte_writeLine k.pool a v mask x⟩

end Sys2Proof.Machine
end

section
/-!
PROOF. DRAIN and FENCE (R150, R272, R273) and the window, shape and mode writes of the SC slot (R154).
-/

set_option Elab.async false
namespace Sys2Proof.Machine

/-! ## What a scalar source leaves alone -/

/-- Reading a source pops at most an element of a stream of the issuing strand (R38). -/
theorem State.me_src_cases (s : State) (r : BitVec 6) :
    (s.src r).2.me = s.me ∨ ∃ streams, (s.src r).2.me = { s.me with streams := streams } := by
  unfold State.src
  split
  · exact .inl rfl
  · dsimp only
    split
    · exact .inl rfl
    · next rest _ =>
      exact .inr ⟨_, State.me_modMe s fun t => { t with streams := put [] t.streams (r.toNat - 56) rest }⟩

theorem State.src_time (s : State) (r : BitVec 6) : (s.src r).2.me.time = s.me.time := by
  rcases s.me_src_cases r with h | ⟨_, h⟩ <;> rw [h]

theorem State.src_regCount (s : State) (r : BitVec 6) : (s.src r).2.regCount = s.regCount := by
  unfold State.regCount
  rcases s.me_src_cases r with h | ⟨_, h⟩ <;> rw [h]

/-! ## One result per lane group -/

/-- Results of latency 1, one after another, stand in order behind what was in flight, all due in the next cycle. -/
theorem State.foldl_result_pend (w : Nat → Write) (mark : Bool) (gs : List Nat) (s : State) :
    ∃ ps, (gs.foldl (fun u g => u.result 1 (w g) mark) s).me.pend = s.me.pend ++ ps ∧ ps.map (·.write) = gs.map w ∧
      ∀ p ∈ ps, p.due = s.me.time + 1 ∧ p.mark = mark := by
  induction gs generalizing s with
  | nil => exact ⟨[], by simp, rfl, by simp⟩
  | cons g gs ih =>
    obtain ⟨ps, hpend, hwrite, hps⟩ := ih (s.result 1 (w g) mark)
    rw [State.me_result] at hpend hps
    refine ⟨_ :: ps, by rw [List.foldl_cons, hpend, List.append_assoc]; rfl, by simp [hwrite], fun p hp => ?_⟩
    rcases List.mem_cons.1 hp with rfl | hp
    · exact ⟨rfl, rfl⟩
    · exact hps p hp

theorem selectedGroups_eq (l : Bool) (k : BitVec 3) :
    selectedGroups l k = if l then [0, 1, 2, 3, 4, 5, 6, 7] else [k.toNat] := rfl

theorem State.laneResults_pend (s : State) (l : Bool) (k : BitVec 3) (w : Nat → Write) (mark : Bool) :
    ∃ ps, (s.laneResults l k w mark).me.pend = s.me.pend ++ ps ∧
      ps.map (·.write) = (if l then [0, 1, 2, 3, 4, 5, 6, 7] else [k.toNat]).map w ∧
      ∀ p ∈ ps, p.due = s.me.time + 1 ∧ p.mark = mark := by
  rw [← selectedGroups_eq]
  exact State.foldl_result_pend w mark _ s

/-! ## DRAIN and FENCE -/

/-- Scopes 0 and 1 hold no place (R272). -/
theorem inScope_of_lt_two {scope : Nat} (h : scope < 2) (d : Nat) (tgt : Target) : inScope scope d tgt = false := by
  cases tgt with
  | pool c off => exact decide_eq_false (by omega)
  | hbm pa =>
    have h3 : ¬ 3 ≤ scope := by omega
    have h4 : ¬ 4 ≤ scope := by omega
    simp [inScope, h3, h4]
  | outside a => exact decide_eq_false (by omega)
  | readback a => exact decide_eq_false (by omega)
  | _ => rfl

/-- No committed line satisfies a test that never holds. -/
theorem State.owesCommit_false (s : State) (d t : Nat) (w : StrandName) : s.owesCommit d t w (fun _ => false) = false := by
  simp [State.owesCommit]

/-- A strand without a block store left on any level has none on its own (R342). -/
theorem Strand.storing_of_storingAny {t : Strand} (h : t.storingAny = false) : t.storing = false := by
  simp only [Strand.storingAny, Strand.levels, List.any_cons, Bool.or_eq_false_iff] at h
  exact h.1

theorem drain_completes (s : State) : Claims.Completes .drain s s ((∀ w ∈ s.myCore.stores, w.strand ≠ s.issue.strand) ∧
    (∀ w ∈ s.myCore.poolWrites, w.window = true → w.strand ≠ s.issue.strand) ∧
    s.owesCommit s.myDie s.myTeamIndex s.myName (fun _ => true) = false) := by
  intro h
  rw [exec_drain, execDrain]
  refine issueWith_goes h fun ⟨hstores, hwindow, hcommits⟩ => ⟨rfl, ?_, rfl⟩
  have hs : s.myCore.stores.any (fun w => w.strand == s.issue.strand) = false := by simpa using hstores
  have hp : s.myCore.poolWrites.any (fun w => w.strand == s.issue.strand && w.window) = false := by
    simpa using fun w hw he hwin => hwindow w hw hwin he
  simp [hs, hp, hcommits]

theorem fence_completes (s : State) (k : BitVec 3) : Claims.Completes (.fence k) s s ((∀ (p : Nat × Target),
    ((∃ w ∈ s.myCore.stores, p = (w.strand, w.target)) ∨
      (∃ l ∈ s.myCore.loads, p = (l.strand, l.target) ∨ ∃ e ∈ l.elems, p = (l.strand, e.target))) →
    p.1 = s.issue.strand → inScope k.toNat s.myDie p.2 = false) ∧
    s.owesCommit s.myDie s.myTeamIndex s.myName (fun l => inScope k.toNat s.myDie (.hbm l.pa)) = false ∧
    (2 ≤ k.toNat → s.me.storingAny = false ∧ ∀ w ∈ s.myCore.poolWrites, w.strand ≠ s.issue.strand)) := by
  intro h
  rw [exec_fence, execFence]
  refine issueWith_goes h fun ⟨hplaces, hcommits, hown⟩ => ⟨rfl, ?_, rfl⟩
  have hs : s.myCore.stores.any (fun w => w.strand == s.issue.strand && inScope k.toNat s.myDie w.target) = false := by
    simpa using fun w hw he => hplaces _ (.inl ⟨w, hw, rfl⟩) he
  have hl : s.myCore.loads.any (fun l => l.strand == s.issue.strand &&
      (inScope k.toNat s.myDie l.target || l.elems.any fun e => inScope k.toNat s.myDie e.target)) = false := by
    simpa using fun l hl he => And.intro (hplaces _ (.inr ⟨l, hl, .inl rfl⟩) he)
      fun e hm => hplaces _ (.inr ⟨l, hl, .inr ⟨e, hm, rfl⟩⟩) he
  by_cases hk : 2 ≤ k.toNat
  · obtain ⟨hstoring, hpool⟩ := hown hk
    have hp : s.myCore.poolWrites.any (fun w => w.strand == s.issue.strand) = false := by simpa using hpool
    simp [hs, hl, hp, hcommits, hstoring, Strand.storing_of_storingAny hstoring]
  · simp [hs, hl, hcommits, hk]

/-- Scopes 0 and 1 wait for nothing: no place lies in them. -/
theorem fence_completes_of_lt_two (s : State) (k : BitVec 3) (hk : k.toNat < 2) : Claims.Completes (.fence k) s s := by
  have hscope : ∀ tgt, inScope k.toNat s.myDie tgt = false := inScope_of_lt_two hk s.myDie
  refine fun h => fence_completes s k (h.imp id fun ⟨hclear, _⟩ => ⟨hclear, fun p _ _ => hscope p.2, ?_, fun hk' => by omega⟩)
  simp only [hscope]
  exact s.owesCommit_false _ _ _

/-! ## VWIN, VSHAPE and VMODE -/

theorem vwin_completes (s : State) (l : Bool) (k : BitVec 3) (a : BitVec 6) (i : BitVec 14) :
    Claims.Completes (.vwin l k a i) s ((s.src a).2.laneResults l k
      (fun g => .window g (((s.src a).1.1.toNat + i.toNat) % s.regCount)) (s.src a).1.2) := by
  intro h
  rw [exec_vwin, execVwin, issuePlain_goes h, ← s.src_regCount a]

theorem vshape_completes (s : State) (l : Bool) (k : BitVec 3) (r : BitVec 4) (c : BitVec 5) :
    Claims.Completes (.vshape l k r c) s (s.laneResults l k fun g => .shape g (r.toNat + 1) (c.toNat + 1)) := by
  intro h
  rw [exec_vshape, execVshape, issuePlain_goes h]

theorem vmode_completes (s : State) (l : Bool) (k p : BitVec 3) :
    Claims.Completes (.vmode l k p) s (s.laneResults l k fun g => .vmode g p.toNat) := by
  intro h
  rw [exec_vmode, execVmode, issuePlain_goes h]

theorem windowsAndShapes_holds : Claims.windowsAndShapes := by
  intro s l k r a i rows cols
  refine ⟨⟨_, vwin_completes s l k a i, ?_⟩, ⟨_, vshape_completes s l k rows cols, ?_⟩, ⟨_, vmode_completes s l k r, ?_⟩⟩
  · obtain ⟨ps, hpend, hwrite, hps⟩ := (s.src a).2.laneResults_pend l k
      (fun g => .window g (((s.src a).1.1.toNat + i.toNat) % s.regCount)) (s.src a).1.2
    refine ⟨⟨ps, hpend, hwrite, fun p hp => by rw [(hps p hp).1, State.src_time]⟩, fun p hp => ?_⟩
    rw [hpend] at hp
    exact (List.mem_append.1 hp).imp id fun hp => (hps p hp).2
  · obtain ⟨ps, hpend, hwrite, hps⟩ := s.laneResults_pend l k (fun g => .shape g (rows.toNat + 1) (cols.toNat + 1)) false
    exact ⟨ps, hpend, hwrite, fun p hp => (hps p hp).1⟩
  · obtain ⟨ps, hpend, hwrite, hps⟩ := s.laneResults_pend l k (fun g => .vmode g r.toNat) false
    exact ⟨ps, hpend, hwrite, fun p hp => (hps p hp).1⟩

/-- Settles O26: an order syllable that nothing holds leaves the state as it is, and an SC syllable puts one result of latency 1
in flight for each lane group that it selects. -/
theorem orderAndWindows : Obligations.OrderAndWindows :=
  ⟨⟨drain_completes, fence_completes, fence_completes_of_lt_two⟩, windowsAndShapes_holds⟩

end Sys2Proof.Machine
end

section
/-!
PROOF. What holds of every state that an answer of the model carries, whatever form the answer takes (O7).
-/

set_option Elab.async false
namespace Sys2Proof.Machine

/-! ## What holds of every state that an answer carries -/

/-- A property of the next state, if there is one. -/
def Answers (P : State → Prop) : Out → Prop
  | .next t => P t
  | _ => True

@[simp] theorem answers_next (P : State → Prop) (t : State) : Answers P (.next t) ↔ P t := Iff.rfl

@[simp] theorem answers_fault (P : State → Prop) (f : Fault) : Answers P (.fault f) := trivial

@[simp] theorem answers_refused (P : State → Prop) (r : Refusal) : Answers P (.refused r) := trivial

/-- A property of the state that an access of a command leaves. -/
def Got.All {α : Type} (P : State → Prop) : Got α → Prop
  | .ok _ t => P t
  | _ => True

@[simp] theorem Got.all_ok {α : Type} (P : State → Prop) (v : α) (t : State) : (Got.ok v t).All P ↔ P t := Iff.rfl

@[simp] theorem Got.all_wait {α : Type} (P : State → Prop) (m : PageRequest) (a : Word) : (Got.wait m a : Got α).All P :=
  trivial

@[simp] theorem Got.all_stuck {α : Type} (P : State → Prop) : (Got.stuck : Got α).All P := trivial

@[simp] theorem Got.all_fail {α : Type} (P : State → Prop) (c : Nat) (a : Word) : (Got.fail c a : Got α).All P := trivial

/-- A property of the state that an attempt at one unit leaves. -/
def Tried.All (P : State → Prop) : Tried → Prop
  | .done t => P t
  | .fail _ _ _ t => P t
  | _ => True

@[simp] theorem Tried.all_done (P : State → Prop) (t : State) : (Tried.done t).All P ↔ P t := Iff.rfl

@[simp] theorem Tried.all_fail (P : State → Prop) (st c : Nat) (a : Word) (t : State) : (Tried.fail st c a t).All P ↔ P t :=
  Iff.rfl

@[simp] theorem Tried.all_wait (P : State → Prop) (ms : List PageRequest) (a : Word) : (Tried.wait ms a).All P := trivial

@[simp] theorem Tried.all_stuck (P : State → Prop) : Tried.stuck.All P := trivial

/-- A property of the state that an action of a run leaves. -/
def Act.All (P : State → Prop) : Act → Prop
  | .did t => P t
  | .wait t => P t
  | .fail _ _ t => P t

@[simp] theorem Act.all_did (P : State → Prop) (t : State) : (Act.did t).All P ↔ P t := Iff.rfl

@[simp] theorem Act.all_wait (P : State → Prop) (t : State) : (Act.wait t).All P ↔ P t := Iff.rfl

@[simp] theorem Act.all_fail (P : State → Prop) (st c : Nat) (t : State) : (Act.fail st c t).All P ↔ P t := Iff.rfl

/-- A property of the state that the fill of a slot leaves. -/
def Filled.All (P : State → Prop) : Filled → Prop
  | .done t => P t
  | _ => True

@[simp] theorem Filled.all_done (P : State → Prop) (t : State) : (Filled.done t).All P ↔ P t := Iff.rfl

@[simp] theorem Filled.all_wait (P : State → Prop) (m : PageRequest) : (Filled.wait m).All P := trivial

@[simp] theorem Filled.all_fault (P : State → Prop) : Filled.fault.All P := trivial

/-- Device memory is as in another state. -/
@[simp] abbrev State.HbmOf (s t : State) : Prop := t.hbm = s.hbm

/-! ## Folds -/

theorem foldl_hbm {α : Type} {f : State → α → State} (h : ∀ s a, (f s a).hbm = s.hbm) (l : List α) (s : State) :
    (l.foldl f s).hbm = s.hbm := by
  induction l generalizing s with
  | nil => rfl
  | cons a l ih => rw [List.foldl_cons, ih, h]

theorem foldl_snd_hbm {α β : Type} {f : β × State → α → β × State} (h : ∀ r a, (f r a).2.hbm = r.2.hbm) (l : List α)
    (r : β × State) :
    (l.foldl f r).2.hbm = r.2.hbm := by
  induction l generalizing r with
  | nil => rfl
  | cons a l ih => rw [List.foldl_cons, ih, h]

theorem State.after_hbm {s : State} {f : State → Out} (h : Answers s.HbmOf (f s)) : (s.after f).hbm = s.hbm := by
  unfold State.after
  split
  · next t e => rw [e] at h; exact h
  · rfl

end Sys2Proof.Machine
end

section
/-!
PROOF. What leaves device memory (R5) as it is: everything but its byte writes, line writes, zeroing and a reset, in the
order of the model.
-/

set_option Elab.async false
namespace Sys2Proof.Machine

/-! ## Parts of the state -/

@[simp] theorem State.draw_hbm (s : State) : (s.draw).2.hbm = s.hbm := rfl

/-! ## HBM and held lines (R130, R138, R139, R328) -/

@[simp] theorem State.commitHeld_hbm (s : State) (h : Holder) (k : Nat) : (s.commitHeld h k).hbm = s.hbm := rfl

@[simp] theorem State.discardHeld_hbm (s : State) (h : Holder) : (s.discardHeld h).hbm = s.hbm := rfl

@[simp] theorem State.commitPhase_hbm (s : State) (c n : Nat) : (s.commitPhase c n).hbm = s.hbm := by
  unfold State.commitPhase
  split <;> simp

@[simp] theorem State.dropPhase_hbm (s : State) (c n : Nat) : (s.dropPhase c n).hbm = s.hbm := rfl

/-! ## Results in flight (R94, R96) -/

@[simp] theorem State.result_hbm (s : State) (latency : Nat) (w : Write) (mark : Bool) (recs : List StatRecord) :
    (s.result latency w mark recs).hbm = s.hbm :=
  rfl

@[simp] theorem State.consumed_hbm (s : State) (mark : Bool) : (s.consumed mark).hbm = s.hbm := by
  unfold State.consumed
  split <;> simp

/-! ## Control registers (R101, R120) -/

@[simp] theorem State.writeCtl_hbm (s : State) (c n : Nat) (i : BitVec 12) (v : Word) :
    (s.writeCtl c n i v).hbm = s.hbm := by
  fun_cases State.writeCtl <;> simp

@[simp] theorem State.applyWrite_hbm (s : State) (c n : Nat) (w : Write) (mark : Bool) :
    (s.applyWrite c n w mark).hbm = s.hbm := by
  unfold State.applyWrite
  dsimp only
  (repeat' split) <;> simp

@[simp] theorem State.deliver_hbm (s : State) (c n : Nat) (p : Pending) : (s.deliver c n p).hbm = s.hbm := by
  simp [State.deliver]

@[simp] theorem State.writeDue_hbm (s : State) (c n : Nat) : (s.writeDue c n).hbm = s.hbm :=
  foldl_hbm (fun _ _ => by simp) _ _

/-! ## Tokens (R115) -/

@[simp] theorem State.setToken_hbm (s : State) (d t k : Nat) (v : Token) : (s.setToken d t k v).hbm = s.hbm := rfl

/-! ## Events of the physical function (R406) -/

@[simp] theorem State.postEvent_hbm (s : State) (kind d t vf cause : Nat) :
    (s.postEvent kind d t vf cause).hbm = s.hbm := by
  unfold State.postEvent
  split <;> simp

@[simp] theorem State.countVf_hbm (s : State) (v i : Nat) : (s.countVf v i).hbm = s.hbm := rfl

@[simp] theorem State.countPf_hbm (s : State) (i : Nat) : (s.countPf i).hbm = s.hbm := rfl

@[simp] theorem State.countDrop_hbm (s : State) (i : Nat) : (s.countDrop i).hbm = s.hbm := rfl

/-! ## The end of a strand (R24, R118, R327) -/

@[simp] theorem State.closeLaunches_hbm (s : State) : s.closeLaunches.hbm = s.hbm :=
  foldl_hbm (fun s _ => foldl_hbm (fun _ _ => by split <;> simp) _ s) _ _

@[simp] theorem State.endStrand_hbm (s : State) (c n : Nat) (poisoned : Bool) : (s.endStrand c n poisoned).hbm = s.hbm :=
  rfl

@[simp] theorem State.killStrand_hbm (s : State) (c n : Nat) (poisoned : Bool) : (s.killStrand c n poisoned).hbm = s.hbm :=
  rfl

/-! ## Traps (R36, R338 to R347) -/

@[simp] theorem State.takeTrap_hbm (s : State) (c n : Nat) (cause : Word) (fmask : BitVec 17) (info : Word) (epc : VAddr) :
    (s.takeTrap c n cause fmask info epc).hbm = s.hbm := by
  unfold State.takeTrap
  dsimp only
  (repeat' split) <;> simp

/-! ## A bundle that does not issue -/

@[simp] theorem State.postRequest_hbm (s : State) (m : PageRequest) : (s.postRequest m).2.hbm = s.hbm := by
  unfold State.postRequest
  dsimp only
  (repeat' split) <;> simp

@[simp] theorem State.postAll_hbm (s : State) (ms : List PageRequest) : (s.postAll ms).2.hbm = s.hbm :=
  foldl_snd_hbm (fun _ _ => by simp) _ _

@[simp] theorem State.block_hbm (s : State) (c n reason : Nat) (posts : List PageRequest) (g : Option GatherWait) :
    (s.block c n reason posts g).hbm = s.hbm := by
  unfold State.block
  split <;> simp

@[simp] theorem State.wake_hbm (s : State) (c n : Nat) : (s.wake c n).hbm = s.hbm := rfl

@[simp] theorem State.holdCycle_hbm (s : State) (c n : Nat) (timeRuns : Bool) : (s.holdCycle c n timeRuns).hbm = s.hbm :=
  rfl

@[simp] theorem State.askLease_hbm (s : State) (c : Nat) (l : Option (Nat × Nat)) : (s.askLease c l).hbm = s.hbm := by
  unfold State.askLease
  split <;> simp

@[simp] theorem State.waitFor_hbm (s : State) (c n reason : Nat) (posts : List PageRequest) (g : Option GatherWait)
    (l : Option (Nat × Nat)) :
    (s.waitFor c n reason posts g l).hbm = s.hbm := by
  unfold State.waitFor
  dsimp only
  (repeat' split) <;> simp

@[simp] theorem State.refuse_hbm (s : State) (v : Verdict) : (s.refuse v).hbm = s.hbm := by
  unfold State.refuse
  split <;> simp

/-! ## Reading scalar sources -/

@[simp] theorem State.src_hbm (s : State) (r : BitVec 6) : (s.src r).2.hbm = s.hbm := by
  unfold State.src
  dsimp only
  (repeat' split) <;> simp

@[simp] theorem State.src2_hbm (s : State) (a b : BitVec 6) : (s.src2 a b).2.hbm = s.hbm := by simp [State.src2]

/-! ## Checks -/

theorem issueWith_hbm {i : Instr} {s : State} {checks : State → Checks} {effect : State → State}
    (h : (effect s).hbm = s.hbm) :
    Answers s.HbmOf (issueWith i s checks effect) := by
  unfold issueWith
  split
  · exact h
  · split
    · exact State.refuse_hbm ..
    · exact h

theorem issuePlain_hbm {i : Instr} {s : State} {effect : State → State} (h : (effect s).hbm = s.hbm) :
    Answers s.HbmOf (issuePlain i s effect) :=
  issueWith_hbm h

/-! ## Addresses -/

@[simp] theorem State.noteTlb_hbm (s : State) (c : Option Nat) (v d t va : Nat) (acc : Acc) :
    (s.noteTlb c v d t va acc).hbm = s.hbm := by
  unfold State.noteTlb
  dsimp only
  (repeat' split) <;> simp

/-! ## Regions (R125 to R128) -/

@[simp] theorem State.noteAccess_hbm (s : State) (c : Nat) (ea : Word) (acc : Acc) :
    (s.noteAccess c ea acc).hbm = s.hbm := by
  fun_cases State.noteAccess <;> simp

/-! ## Dependence words and issue (R241, R242) -/

@[simp] theorem State.newCmd_hbm (s : State) (cap : Captured) (tok : Nat) (consumed : List Nat) (cancel mark : Bool) :
    (s.newCmd cap tok consumed cancel mark).hbm = s.hbm :=
  rfl

@[simp] theorem State.cancelCmds_hbm (s : State) (p : Cmd → Bool) : (s.cancelCmds p).hbm = s.hbm := rfl

@[simp] theorem State.noteSeen_hbm (s : State) (tok : Nat) : (s.noteSeen tok).hbm = s.hbm := by
  unfold State.noteSeen
  split <;> simp

@[simp] theorem State.recordTo_hbm (s : State) (d t : Nat) (w : StrandName) (rs : List StatRecord) (poison : Bool) :
    (s.recordTo d t w rs poison).hbm = s.hbm := by
  fun_cases State.recordTo <;> simp

@[simp] theorem State.finishCmd_hbm (s : State) (id : Nat) (st : TokenState) : (s.finishCmd id st).hbm = s.hbm := by
  unfold State.finishCmd
  split <;> simp

/-! ## Shapes -/

@[simp] theorem aluOne_hbm (i : Instr) (d a : BitVec 6) (latency : Nat) (f : Word → Word) (s : State) :
    Answers s.HbmOf (aluOne i d a latency f s) :=
  issuePlain_hbm (by simp)

@[simp] theorem aluTwo_hbm (i : Instr) (d a b : BitVec 6) (latency : Nat) (f : Word → Word → Word) (s : State) :
    Answers s.HbmOf (aluTwo i d a b latency f s) :=
  issuePlain_hbm (by simp)

@[simp] theorem aluKeep_hbm (i : Instr) (d a : BitVec 6) (f : Word → Word → Word) (s : State) :
    Answers s.HbmOf (aluKeep i d a f s) :=
  issuePlain_hbm (by simp)

@[simp] theorem aluSelf_hbm (i : Instr) (d : BitVec 6) (f : Word → Word) (s : State) : Answers s.HbmOf (aluSelf i d f s) :=
  issuePlain_hbm rfl

/-! ## Operations -/

@[simp] theorem State.useDivider_hbm (s : State) (sb : Bool) (n : Nat) : (s.useDivider sb n).hbm = s.hbm := rfl

@[simp] theorem divRem_hbm (i : Instr) (d a b : BitVec 6) (f : Word → Word → Word) (s : State) :
    Answers s.HbmOf (divRem i d a b f s) :=
  issueWith_hbm (by simp)

/-! ## Meanings -/

@[simp] theorem execNop_hbm (y k : Bool) (s : State) : Answers s.HbmOf (execNop y k s) := by simp [execNop]

@[simp] theorem execAdd_hbm (d a b : BitVec 6) (s : State) : Answers s.HbmOf (execAdd d a b s) := aluTwo_hbm ..

@[simp] theorem execSub_hbm (d a b : BitVec 6) (s : State) : Answers s.HbmOf (execSub d a b s) := aluTwo_hbm ..

@[simp] theorem execMul_hbm (d a b : BitVec 6) (s : State) : Answers s.HbmOf (execMul d a b s) := aluTwo_hbm ..

@[simp] theorem execMulh_hbm (d a b : BitVec 6) (u : Bool) (s : State) : Answers s.HbmOf (execMulh d a b u s) :=
  aluTwo_hbm ..

@[simp] theorem execDiv_hbm (d a b : BitVec 6) (u : Bool) (s : State) : Answers s.HbmOf (execDiv d a b u s) :=
  divRem_hbm ..

@[simp] theorem execRem_hbm (d a b : BitVec 6) (u : Bool) (s : State) : Answers s.HbmOf (execRem d a b u s) :=
  divRem_hbm ..

@[simp] theorem execAnd_hbm (d a b : BitVec 6) (s : State) : Answers s.HbmOf (execAnd d a b s) := aluTwo_hbm ..

@[simp] theorem execOr_hbm (d a b : BitVec 6) (s : State) : Answers s.HbmOf (execOr d a b s) := aluTwo_hbm ..

@[simp] theorem execXor_hbm (d a b : BitVec 6) (s : State) : Answers s.HbmOf (execXor d a b s) := aluTwo_hbm ..

@[simp] theorem execShl_hbm (d a b : BitVec 6) (s : State) : Answers s.HbmOf (execShl d a b s) := aluTwo_hbm ..

@[simp] theorem execShr_hbm (d a b : BitVec 6) (s : State) : Answers s.HbmOf (execShr d a b s) := aluTwo_hbm ..

@[simp] theorem execSar_hbm (d a b : BitVec 6) (s : State) : Answers s.HbmOf (execSar d a b s) := aluTwo_hbm ..

@[simp] theorem execSlt_hbm (d a b : BitVec 6) (u : Bool) (s : State) : Answers s.HbmOf (execSlt d a b u s) :=
  aluTwo_hbm ..

@[simp] theorem execSeq_hbm (d a b : BitVec 6) (s : State) : Answers s.HbmOf (execSeq d a b s) := aluTwo_hbm ..

@[simp] theorem execMin_hbm (d a b : BitVec 6) (u : Bool) (s : State) : Answers s.HbmOf (execMin d a b u s) :=
  aluTwo_hbm ..

@[simp] theorem execMax_hbm (d a b : BitVec 6) (u : Bool) (s : State) : Answers s.HbmOf (execMax d a b u s) :=
  aluTwo_hbm ..

@[simp] theorem execSel_hbm (d a b : BitVec 6) (s : State) : Answers s.HbmOf (execSel d a b s) :=
  issuePlain_hbm (by simp)

@[simp] theorem execClz_hbm (d a : BitVec 6) (s : State) : Answers s.HbmOf (execClz d a s) := aluOne_hbm ..

@[simp] theorem execCtz_hbm (d a : BitVec 6) (s : State) : Answers s.HbmOf (execCtz d a s) := aluOne_hbm ..

@[simp] theorem execPopc_hbm (d a : BitVec 6) (s : State) : Answers s.HbmOf (execPopc d a s) := aluOne_hbm ..

@[simp] theorem execBrev_hbm (d a : BitVec 6) (s : State) : Answers s.HbmOf (execBrev d a s) := aluOne_hbm ..

@[simp] theorem execPeek_hbm (d : BitVec 6) (k : BitVec 3) (s : State) : Answers s.HbmOf (execPeek d k s) :=
  issuePlain_hbm rfl

@[simp] theorem execBfx_hbm (d a p l : BitVec 6) (s : State) : Answers s.HbmOf (execBfx d a p l s) := aluOne_hbm ..

@[simp] theorem execBfi_hbm (d a p l : BitVec 6) (s : State) : Answers s.HbmOf (execBfi d a p l s) := aluKeep_hbm ..

@[simp] theorem execAgen_hbm (d a b : BitVec 6) (sh : BitVec 3) (s : State) : Answers s.HbmOf (execAgen d a b sh s) :=
  aluTwo_hbm ..

@[simp] theorem execAddi_hbm (d a : BitVec 6) (i : BitVec 14) (s : State) : Answers s.HbmOf (execAddi d a i s) :=
  aluOne_hbm ..

@[simp] theorem execAndi_hbm (d a : BitVec 6) (i : BitVec 14) (s : State) : Answers s.HbmOf (execAndi d a i s) :=
  aluOne_hbm ..

@[simp] theorem execOri_hbm (d a : BitVec 6) (i : BitVec 14) (s : State) : Answers s.HbmOf (execOri d a i s) :=
  aluOne_hbm ..

@[simp] theorem execXori_hbm (d a : BitVec 6) (i : BitVec 14) (s : State) : Answers s.HbmOf (execXori d a i s) :=
  aluOne_hbm ..

@[simp] theorem execShli_hbm (d a n : BitVec 6) (s : State) : Answers s.HbmOf (execShli d a n s) := aluOne_hbm ..

@[simp] theorem execShri_hbm (d a n : BitVec 6) (s : State) : Answers s.HbmOf (execShri d a n s) := aluOne_hbm ..

@[simp] theorem execSari_hbm (d a n : BitVec 6) (s : State) : Answers s.HbmOf (execSari d a n s) := aluOne_hbm ..

@[simp] theorem execSlti_hbm (d a : BitVec 6) (i : BitVec 14) (s : State) : Answers s.HbmOf (execSlti d a i s) :=
  aluOne_hbm ..

@[simp] theorem execMovi_hbm (d : BitVec 6) (i : BitVec 20) (s : State) : Answers s.HbmOf (execMovi d i s) :=
  issuePlain_hbm rfl

@[simp] theorem execMovhi_hbm (d : BitVec 6) (i : BitVec 20) (s : State) : Answers s.HbmOf (execMovhi d i s) :=
  aluSelf_hbm ..

@[simp] theorem execMovhh_hbm (d : BitVec 6) (i : BitVec 20) (s : State) : Answers s.HbmOf (execMovhh d i s) :=
  aluSelf_hbm ..

/-! ## Control flow and strand instructions -/

@[simp] theorem State.goTo_hbm (s : State) (target : VAddr) (delay : Nat) : (s.goTo target delay).hbm = s.hbm := rfl

@[simp] theorem branch_hbm {w : Nat} (i : Instr) (taken : State → Bool) (disp : BitVec w) (s : State) :
    Answers s.HbmOf (branch i taken disp s) := by
  refine issueWith_hbm ?_
  have popped : (i.sources.foldl (fun (q : Bool × State) r =>
      let v := q.2.src r
      (q.1 || v.1.2, v.2)) (false, s)).2.hbm = s.hbm :=
    foldl_snd_hbm (fun _ _ => by simp) _ _
  dsimp only
  split <;> simpa using popped

@[simp] theorem execBr_hbm (c : BitVec 3) (a b : BitVec 6) (d : BitVec 11) (s : State) :
    Answers s.HbmOf (execBr c a b d s) :=
  branch_hbm ..

@[simp] theorem execBz_hbm (a : BitVec 6) (d : BitVec 19) (s : State) : Answers s.HbmOf (execBz a d s) :=
  branch_hbm ..

@[simp] theorem execBnz_hbm (a : BitVec 6) (d : BitVec 19) (s : State) : Answers s.HbmOf (execBnz a d s) :=
  branch_hbm ..

@[simp] theorem execJmp_hbm (d : BitVec 26) (s : State) : Answers s.HbmOf (execJmp d s) := issueWith_hbm rfl

@[simp] theorem execCall_hbm (d : BitVec 26) (s : State) : Answers s.HbmOf (execCall d s) := issueWith_hbm rfl

@[simp] theorem execJr_hbm (a : BitVec 6) (g : Bool) (s : State) : Answers s.HbmOf (execJr a g s) :=
  issueWith_hbm (by simp)

@[simp] theorem execJrl_hbm (d a : BitVec 6) (g : Bool) (s : State) : Answers s.HbmOf (execJrl d a g s) :=
  issueWith_hbm (by simp)

/-! ## Loops (R98 to R100) -/

@[simp] theorem execLoop_hbm (n : BitVec 6) (p : BitVec 3) (s : State) : Answers s.HbmOf (execLoop n p s) := by
  unfold execLoop
  refine issueWith_hbm ?_
  dsimp only
  split <;> simp

/-! ## End, traps, checks -/

@[simp] theorem State.leaveCore_hbm (s : State) (c n : Nat) : (s.leaveCore c n).hbm = s.hbm := rfl

@[simp] theorem execEndk_hbm (s : State) : Answers s.HbmOf (execEndk s) := by
  unfold execEndk
  refine issuePlain_hbm ?_
  dsimp only
  (repeat' split) <;> simp

@[simp] theorem execTrap_hbm (c : BitVec 20) (s : State) : Answers s.HbmOf (execTrap c s) := issueWith_hbm rfl

@[simp] theorem execCmpt_hbm (a b : BitVec 6) (c : BitVec 3) (s : State) : Answers s.HbmOf (execCmpt a b c s) :=
  issueWith_hbm (by simp)

@[simp] theorem State.rollback_hbm (s : State) : s.rollback.hbm = s.hbm := by
  unfold State.rollback
  dsimp only
  split
  · rfl
  · exact (foldl_hbm (fun _ _ => State.newCmd_hbm ..) _ _).trans (by simp)

@[simp] theorem execChkerr_hbm (d : BitVec 6) (t c : Bool) (s : State) : Answers s.HbmOf (execChkerr d t c s) := by
  unfold execChkerr
  refine issueWith_hbm ?_
  dsimp only
  split
  · simp
  · split
    · simp
    · split <;> simp

/-! ## Phases (R119) -/

@[simp] theorem execPhaseBegin_hbm (a b : BitVec 6) (s : State) : Answers s.HbmOf (execPhaseBegin a b s) := by
  unfold execPhaseBegin
  exact issueWith_hbm (by dsimp only; simp)

@[simp] theorem execPhaseCommit_hbm (s : State) : Answers s.HbmOf (execPhaseCommit s) := issuePlain_hbm rfl

/-! ## Return from a trap (R344) -/

@[simp] theorem execEret_hbm (s : State) : Answers s.HbmOf (execEret s) := issueWith_hbm (by simp)

/-! ## The certificate (R402) -/

@[simp] theorem State.takeSerial_hbm (s : State) (fn : Nat) : (s.takeSerial fn).2.hbm = s.hbm := by
  unfold State.takeSerial
  split <;> simp

@[simp] theorem State.readbackLine_hbm (s : State) (fn line : Nat) : (s.readbackLine fn line).2.hbm = s.hbm := by
  unfold State.readbackLine
  dsimp only
  (repeat' split) <;> simp

theorem hbm_snd_mk {α : Type} {a : α} {s t : State} (h : t.hbm = s.hbm) : (a, t).2.hbm = s.hbm := h

@[simp] theorem State.viewBytes_hbm (s : State) (fn pa n : Nat) : (s.viewBytes fn pa n).2.hbm = s.hbm := by
  unfold State.viewBytes
  split
  · rfl
  · exact hbm_snd_mk (foldl_snd_hbm (fun r l => hbm_snd_mk (State.readbackLine_hbm r.2 fn (apertureOf l))) _ _)

/-! ## Places -/

@[simp] theorem State.readTarget_hbm (s : State) (d t : Nat) (w : StrandName) (tgt : Target) (n : Nat) :
    (s.readTarget d t w tgt n).2.hbm = s.hbm := by
  unfold State.readTarget
  split <;> simp

@[simp] theorem State.poolPut_hbm (s : State) (c off : Nat) (bytes : List Byte) (mark : Bool) :
    (s.poolPut c off bytes mark).hbm = s.hbm :=
  rfl

@[simp] theorem State.stage_hbm (s : State) (d t : Nat) (w : StrandName) (holders : List Holder) (task : Nat) (va : Word)
    (pa : Nat) (bytes : List Byte) (mark : Bool) :
    (s.stage d t w holders task va pa bytes mark).hbm = s.hbm :=
  foldl_hbm (fun _ _ => by simp) _ _

/-! ## Order of one strand's accesses (R270) -/

@[simp] theorem State.readOwn_hbm (s : State) (c n seq : Nat) (tgt : Target) (size : Nat) :
    (s.readOwn c n seq tgt size).2.hbm = s.hbm := by
  simp [State.readOwn]

/-! ## Control registers -/

@[simp] theorem execMfc_hbm (d : BitVec 6) (i : BitVec 12) (s : State) : Answers s.HbmOf (execMfc d i s) :=
  issueWith_hbm rfl

@[simp] theorem execMtc_hbm (a : BitVec 6) (i : BitVec 12) (s : State) : Answers s.HbmOf (execMtc a i s) :=
  issuePlain_hbm (by simp)

/-! ## Launch (R117, R395) -/

@[simp] theorem execLaunch_hbm (d a : BitVec 6) (s : State) : Answers s.HbmOf (execLaunch d a s) := by
  unfold execLaunch
  refine issueWith_hbm ?_
  dsimp only
  (repeat' split) <;> simp

@[simp] theorem execNodeStrandStart_hbm (id : Nat) (s : State) : Answers s.HbmOf (execNodeStrandStart id s) := by
  unfold execNodeStrandStart
  split
  · rfl
  · split
    · rfl
    · exact foldl_hbm (fun _ _ => by split <;> rfl) _ _

/-! ## Tokens (R115, R245, R246) -/

@[simp] theorem State.tokenResult_hbm (s : State) (d : BitVec 6) (tok : Nat) : (s.tokenResult d tok).hbm = s.hbm := by
  unfold State.tokenResult
  dsimp only
  split <;> simp

@[simp] theorem execTkwait_hbm (d : BitVec 6) (t : BitVec 8) (s : State) : Answers s.HbmOf (execTkwait d t s) :=
  issueWith_hbm (by simp)

@[simp] theorem execTktest_hbm (d : BitVec 6) (t : BitVec 8) (s : State) : Answers s.HbmOf (execTktest d t s) :=
  issuePlain_hbm (by simp)

@[simp] theorem execTkset_hbm (k : BitVec 2) (t : BitVec 8) (s : State) : Answers s.HbmOf (execTkset k t s) :=
  issueWith_hbm (by simp)

/-! ## The statistics queue and descriptors (R248, R360) -/

@[simp] theorem execStpop_hbm (x : BitVec 5) (s : State) : Answers s.HbmOf (execStpop x s) := by
  unfold execStpop
  refine issuePlain_hbm ?_
  dsimp only
  split <;> simp

@[simp] theorem execEset_hbm (a b d : BitVec 6) (f : BitVec 5) (s : State) : Answers s.HbmOf (execEset a b d f s) :=
  issuePlain_hbm (by simp)

@[simp] theorem execEget_hbm (x d : BitVec 6) (f : BitVec 5) (s : State) : Answers s.HbmOf (execEget x d f s) :=
  issueWith_hbm (by simp)

/-! ## Held stores (R138, R139, R326, R328) -/

@[simp] theorem State.postStore_hbm (s : State) (ea : Word) (target : Target) (bytes : List Byte) (mark : Bool) :
    (s.postStore ea target bytes mark).hbm = s.hbm := by
  unfold State.postStore
  dsimp only
  split <;> simp

@[simp] theorem State.poolStore_hbm (s : State) (latency off : Nat) (bytes : List Byte) (mark : Bool) (window : Bool) :
    (s.poolStore latency off bytes mark window).hbm = s.hbm :=
  rfl

/-! ## Scalar loads and stores -/

@[simp] theorem load_hbm (i : Instr) (x a : BitVec 6) (disp : BitVec 10) (size : Nat) (signed : Bool) (s : State) :
    Answers s.HbmOf (load i x a disp size signed s) := by
  unfold load
  refine issueWith_hbm ?_
  dsimp only
  (repeat' split) <;> simp

/-! ## Waits on memory (R116) -/

@[simp] theorem execSpinw_hbm (d a : BitVec 6) (c : BitVec 3) (s : State) : Answers s.HbmOf (execSpinw d a c s) := by
  unfold execSpinw
  refine issueWith_hbm ?_
  dsimp only
  split <;> simp

@[simp] theorem store_hbm (i : Instr) (x a : BitVec 6) (disp : BitVec 10) (size : Nat) (s : State) :
    Answers s.HbmOf (store i x a disp size s) := by
  unfold store
  refine issueWith_hbm ?_
  dsimp only
  (repeat' split) <;> simp

@[simp] theorem execLdb_hbm (x a : BitVec 6) (d : BitVec 10) (s : State) : Answers s.HbmOf (execLdb x a d s) :=
  load_hbm ..

@[simp] theorem execLdbu_hbm (x a : BitVec 6) (d : BitVec 10) (s : State) : Answers s.HbmOf (execLdbu x a d s) :=
  load_hbm ..

@[simp] theorem execLdh_hbm (x a : BitVec 6) (d : BitVec 10) (s : State) : Answers s.HbmOf (execLdh x a d s) :=
  load_hbm ..

@[simp] theorem execLdhu_hbm (x a : BitVec 6) (d : BitVec 10) (s : State) : Answers s.HbmOf (execLdhu x a d s) :=
  load_hbm ..

@[simp] theorem execLdw_hbm (x a : BitVec 6) (d : BitVec 10) (s : State) : Answers s.HbmOf (execLdw x a d s) :=
  load_hbm ..

@[simp] theorem execLdwu_hbm (x a : BitVec 6) (d : BitVec 10) (s : State) : Answers s.HbmOf (execLdwu x a d s) :=
  load_hbm ..

@[simp] theorem execLdd_hbm (x a : BitVec 6) (d : BitVec 10) (s : State) : Answers s.HbmOf (execLdd x a d s) :=
  load_hbm ..

@[simp] theorem execStb_hbm (x a : BitVec 6) (g : Bool) (d : BitVec 10) (s : State) : Answers s.HbmOf (execStb x a g d s) :=
  store_hbm ..

@[simp] theorem execSth_hbm (x a : BitVec 6) (g : Bool) (d : BitVec 10) (s : State) : Answers s.HbmOf (execSth x a g d s) :=
  store_hbm ..

@[simp] theorem execStw_hbm (x a : BitVec 6) (g : Bool) (d : BitVec 10) (s : State) : Answers s.HbmOf (execStw x a g d s) :=
  store_hbm ..

@[simp] theorem execStd_hbm (x a : BitVec 6) (g : Bool) (d : BitVec 10) (s : State) : Answers s.HbmOf (execStd x a g d s) :=
  store_hbm ..

/-! ## Block loads and stores (R146) -/

@[simp] theorem State.addBlock_hbm (s : State) (b : Block) : (s.addBlock b).hbm = s.hbm := rfl

@[simp] theorem vload_hbm (i : Instr) (w : BitVec 7) (a : BitVec 6) (m : BitVec 8) (o : BitVec 5) (strided : Bool)
    (s : State) :
    Answers s.HbmOf (vload i w a m o strided s) := by
  refine issueWith_hbm ((foldl_hbm (fun _ _ => State.addBlock_hbm ..) _ _).trans ?_)
  split
  · exact (foldl_hbm (fun _ _ => State.result_hbm ..) _ _).trans (State.src_hbm ..)
  · exact (State.result_hbm ..).trans ((foldl_hbm (fun _ _ => State.result_hbm ..) _ _).trans (State.src_hbm ..))

@[simp] theorem vstore_hbm (i : Instr) (w : BitVec 7) (a : BitVec 6) (m : BitVec 8) (o : BitVec 5) (strided : Bool)
    (s : State) :
    Answers s.HbmOf (vstore i w a m o strided s) := by
  refine issueWith_hbm ((foldl_hbm (fun _ _ => State.addBlock_hbm ..) _ _).trans ?_)
  split <;> simp

@[simp] theorem execVld_hbm (w : BitVec 7) (a : BitVec 6) (m : BitVec 8) (o : BitVec 5) (s : State) :
    Answers s.HbmOf (execVld w a m o s) :=
  vload_hbm ..

@[simp] theorem execVlds_hbm (w : BitVec 7) (a : BitVec 6) (m : BitVec 8) (o : BitVec 5) (s : State) :
    Answers s.HbmOf (execVlds w a m o s) :=
  vload_hbm ..

@[simp] theorem execVst_hbm (w : BitVec 7) (a : BitVec 6) (m : BitVec 8) (o : BitVec 5) (s : State) :
    Answers s.HbmOf (execVst w a m o s) :=
  vstore_hbm ..

@[simp] theorem execVsts_hbm (w : BitVec 7) (a : BitVec 6) (m : BitVec 8) (o : BitVec 5) (s : State) :
    Answers s.HbmOf (execVsts w a m o s) :=
  vstore_hbm ..

/-! ## Gather and scatter (R147, R148) -/

@[simp] theorem State.readKept_hbm (s : State) (c n : Nat) (e : KeptElem) : (s.readKept c n e).2.hbm = s.hbm := by
  simp [State.readKept]

@[simp] theorem State.readAll_hbm (s : State) (c n : Nat) (p : KeptElem → Bool) (es : List KeptElem) :
    (s.readAll c n p es).2.hbm = s.hbm := by
  induction es generalizing s with
  | nil => rfl
  | cons e es ih =>
    rw [State.readAll, ih]
    split
    · rfl
    · exact State.readKept_hbm ..

@[simp] theorem State.readLeft_hbm (s : State) (c n : Nat) : (s.readLeft c n).hbm = s.hbm := by
  unfold State.readLeft
  split
  · split
    · rfl
    · exact State.readAll_hbm ..
  · rfl

@[simp] theorem gather_hbm (i : Instr) (lgs : List Nat) (w wi : BitVec 7) (a : BitVec 6) (sc : BitVec 2) (latency : Nat)
    (s : State) :
    Answers s.HbmOf (gather i lgs w wi a sc latency s) := by
  refine issueWith_hbm ?_
  extract_lets p imark addrs waited elems noted r es read holes recorded
  have hnoted : noted.hbm = s.hbm := (foldl_hbm (fun _ _ => State.noteAccess_hbm ..) _ _).trans (State.src_hbm ..)
  have hread : read.hbm = s.hbm := (State.readAll_hbm ..).trans hnoted
  have hrecorded : recorded.hbm = s.hbm := by unfold recorded; split <;> simp [hread]
  split
  · exact (foldl_hbm (fun _ _ => State.result_hbm ..) _ _).trans hrecorded
  · dsimp only
    exact (foldl_hbm (fun _ _ => State.modMe_hbm ..) _ _).trans ((State.modMyCore_hbm ..).trans hrecorded)

@[simp] theorem scatter_hbm (i : Instr) (lgs : List Nat) (w wi : BitVec 7) (a : BitVec 6) (sc : BitVec 2) (latency : Nat)
    (s : State) :
    Answers s.HbmOf (scatter i lgs w wi a sc latency s) := by
  refine issueWith_hbm ?_
  extract_lets p addrs es noted cleared holes recorded consumed
  have hnoted : noted.hbm = s.hbm := (foldl_hbm (fun _ _ => State.noteAccess_hbm ..) _ _).trans (State.src_hbm ..)
  have hrecorded : recorded.hbm = s.hbm := by unfold recorded; split <;> simp [cleared, hnoted]
  refine (foldl_hbm (fun s e => ?_) _ _).trans ((State.consumed_hbm ..).trans hrecorded)
  split
  · rfl
  · dsimp only
    split
    · split
      · simp
      · split <;> simp
    · rfl
    · simp

@[simp] theorem execVgather_hbm (w i : BitVec 7) (a : BitVec 6) (k : BitVec 3) (sc : BitVec 2) (s : State) :
    Answers s.HbmOf (execVgather w i a k sc s) :=
  gather_hbm ..

@[simp] theorem execVgatherAll_hbm (w i : BitVec 7) (a : BitVec 6) (sc : BitVec 2) (s : State) :
    Answers s.HbmOf (execVgatherAll w i a sc s) :=
  gather_hbm ..

@[simp] theorem execVscatter_hbm (w i : BitVec 7) (a : BitVec 6) (k : BitVec 3) (sc : BitVec 2) (s : State) :
    Answers s.HbmOf (execVscatter w i a k sc s) :=
  scatter_hbm ..

@[simp] theorem execVscatterAll_hbm (w i : BitVec 7) (a : BitVec 6) (sc : BitVec 2) (s : State) :
    Answers s.HbmOf (execVscatterAll w i a sc s) :=
  scatter_hbm ..

/-! ## Vector stream pops (R149) -/

@[simp] theorem execVpop_hbm (w : BitVec 7) (k : BitVec 2) (m : BitVec 8) (s : State) :
    Answers s.HbmOf (execVpop w k m s) :=
  issueWith_hbm (foldl_hbm (fun _ _ => by split <;> simp) _ _)

/-! ## DRAIN and FENCE (R150, R272, R273) -/

@[simp] theorem execDrain_hbm (s : State) : Answers s.HbmOf (execDrain s) := issueWith_hbm rfl

@[simp] theorem execFence_hbm (sc : BitVec 3) (s : State) : Answers s.HbmOf (execFence sc s) := issueWith_hbm rfl

/-! ## OCLAIM and ORELEASE (R193, R207) -/

@[simp] theorem execOclaim_hbm (a : BitVec 6) (s : State) : Answers s.HbmOf (execOclaim a s) :=
  issueWith_hbm (by simp)

@[simp] theorem execOrelease_hbm (a : BitVec 6) (s : State) : Answers s.HbmOf (execOrelease a s) :=
  issueWith_hbm (by simp)

@[simp] theorem execOperandSlotFree_hbm (c o : Nat) (s : State) : Answers s.HbmOf (execOperandSlotFree c o s) := by
  unfold execOperandSlotFree
  dsimp only
  split <;> simp

/-! ## OLD (R208) and SLD (R195) -/

@[simp] theorem execOld_hbm (f : BitVec 4) (a x : BitVec 6) (t : Bool) (s : State) : Answers s.HbmOf (execOld f a x t s) :=
  issueWith_hbm (by simp)

@[simp] theorem execOperandLoadComplete_hbm (c o : Nat) (s : State) : Answers s.HbmOf (execOperandLoadComplete c o s) := by
  unfold execOperandLoadComplete
  dsimp only
  split <;> simp

@[simp] theorem execSld_hbm (o a : BitVec 6) (i : BitVec 14) (s : State) : Answers s.HbmOf (execSld o a i s) := by
  unfold execSld
  exact issueWith_hbm ((State.result_hbm ..).trans (State.src_hbm ..))

/-! ## The slot table (R199, R200) -/

@[simp] theorem execMatrixSlotWake_hbm (c n : Nat) (s : State) : Answers s.HbmOf (execMatrixSlotWake c n s) := by
  unfold execMatrixSlotWake
  split <;> simp

/-! ## Multiplies (R203 to R206) -/

@[simp] theorem multiply_hbm (i : Instr) (f g : BitVec 4) (a b : BitVec 6) (t : BitVec 5) (ra rb zero scaled : Bool)
    (s : State) :
    Answers s.HbmOf (multiply i f g a b t ra rb zero scaled s) := by
  unfold multiply
  exact issueWith_hbm (State.modMyCore_hbm ..)

@[simp] theorem execMma_hbm (f g : BitVec 4) (a b : BitVec 6) (t : BitVec 5) (rb ra : Bool) (s : State) :
    Answers s.HbmOf (execMma f g a b t rb ra s) :=
  multiply_hbm ..

@[simp] theorem execMmaz_hbm (f g : BitVec 4) (a b : BitVec 6) (t : BitVec 5) (rb ra : Bool) (s : State) :
    Answers s.HbmOf (execMmaz f g a b t rb ra s) :=
  multiply_hbm ..

@[simp] theorem execMmas_hbm (f g : BitVec 4) (a b : BitVec 6) (t : BitVec 5) (rb ra : Bool) (s : State) :
    Answers s.HbmOf (execMmas f g a b t rb ra s) :=
  multiply_hbm ..

@[simp] theorem execMmasz_hbm (f g : BitVec 4) (a b : BitVec 6) (t : BitVec 5) (rb ra : Bool) (s : State) :
    Answers s.HbmOf (execMmasz f g a b t rb ra s) :=
  multiply_hbm ..

@[simp] theorem execMmaResult_hbm (c : Nat) (s : State) : Answers s.HbmOf (execMmaResult c s) := by
  fun_cases execMmaResult <;> simp

/-! ## The accumulator port (R209) -/

@[simp] theorem State.portWork_hbm (s : State) (busy : Nat) (w : TileWork) : (s.portWork busy w).hbm = s.hbm := rfl

@[simp] theorem execAclr_hbm (t : BitVec 5) (s : State) : Answers s.HbmOf (execAclr t s) := issueWith_hbm (by simp)

@[simp] theorem execAadd_hbm (x t : BitVec 5) (s : State) : Answers s.HbmOf (execAadd x t s) :=
  issueWith_hbm (by simp)

@[simp] theorem execAmov_hbm (f : BitVec 4) (x : BitVec 6) (t : BitVec 5) (s : State) :
    Answers s.HbmOf (execAmov f x t s) :=
  issueWith_hbm (by simp)

@[simp] theorem execAccumulatorPortComplete_hbm (c : Nat) (s : State) :
    Answers s.HbmOf (execAccumulatorPortComplete c s) := by
  unfold execAccumulatorPortComplete
  dsimp only
  split <;> simp

/-! ## MGEO (R202) -/

@[simp] theorem execMgeo_hbm (x : BitVec 6) (s : State) : Answers s.HbmOf (execMgeo x s) := issuePlain_hbm (by simp)

/-! ## Files and waits (R213, R226) -/

@[simp] theorem State.addEddy_hbm (s : State) (w : EddyWork) : (s.addEddy w).hbm = s.hbm := rfl

/-! ## CYMODE (R223) -/

@[simp] theorem execCymode_hbm (g p : Bool) (s : State) : Answers s.HbmOf (execCymode g p s) :=
  issuePlain_hbm (by simp)

/-! ## Streams (R229, R230) -/

@[simp] theorem execCyqr_hbm (t : BitVec 2) (a b : BitVec 6) (f : Bool) (s : State) :
    Answers s.HbmOf (execCyqr t a b f s) :=
  issueWith_hbm (by simp)

@[simp] theorem execCyapply_hbm (t u : BitVec 2) (a b : BitVec 6) (keep : Bool) (s : State) :
    Answers s.HbmOf (execCyapply t u a b keep s) :=
  issueWith_hbm (by simp)

/-! ## Images (R228, R231 to R233) -/

@[simp] theorem execCyrd_hbm (t : BitVec 2) (a : BitVec 6) (c : Bool) (f : BitVec 2) (s : State) :
    Answers s.HbmOf (execCyrd t a c f s) :=
  issueWith_hbm (by simp)

@[simp] theorem execCywr_hbm (t : BitVec 2) (a : BitVec 6) (f : BitVec 2) (s : State) :
    Answers s.HbmOf (execCywr t a f s) :=
  issueWith_hbm (by simp)

@[simp] theorem execCyclr_hbm (t : BitVec 2) (s : State) : Answers s.HbmOf (execCyclr t s) := issueWith_hbm (by simp)

/-! ## CYSOLVE (R234) -/

@[simp] theorem execCysolve_hbm (t : BitVec 2) (a b : BitVec 6) (s : State) : Answers s.HbmOf (execCysolve t a b s) :=
  issueWith_hbm (by simp)

/-! ## Single pairs and angles (R235 to R237) -/

@[simp] theorem State.cellResult_hbm (s : State) (d : BitVec 6) (v : Nat) (latency : Nat) (mark nonfin : Bool)
    (es : List Events) :
    (s.cellResult d v latency mark nonfin es).hbm = s.hbm := by
  unfold State.cellResult
  split <;> simp

@[simp] theorem execCygiv_hbm (a b d : BitVec 6) (s : State) : Answers s.HbmOf (execCygiv a b d s) := by
  unfold execCygiv
  refine issueWith_hbm ?_
  dsimp only
  split <;> simp

@[simp] theorem execCyrot_hbm (a b d : BitVec 6) (s : State) : Answers s.HbmOf (execCyrot a b d s) := by
  unfold execCyrot
  refine issueWith_hbm ?_
  dsimp only
  split <;> simp

@[simp] theorem execCyang_hbm (a d : BitVec 6) (c : Bool) (s : State) : Answers s.HbmOf (execCyang a d c s) := by
  unfold execCyang
  refine issueWith_hbm ?_
  dsimp only
  (repeat' split) <;> simp

/-! ## The end of a work -/

@[simp] theorem State.endEddy_hbm (s : State) (c : Nat) (w : EddyWork) : (s.endEddy c w).hbm = s.hbm := by
  unfold State.endEddy
  dsimp only
  split <;> simp

@[simp] theorem execEddyWorkComplete_hbm (c : Nat) (s : State) : Answers s.HbmOf (execEddyWorkComplete c s) := by
  unfold execEddyWorkComplete
  dsimp only
  (repeat' split) <;> simp [foldl_hbm]

/-! ## Late results (R95) -/

@[simp] theorem State.thaw_hbm (s : State) (c n : Nat) : (s.thaw c n).hbm = s.hbm := by fun_cases State.thaw <;> simp

@[simp] theorem State.readElem_hbm (s : State) (c : Nat) (l : Load) (e : KeptElem) : (s.readElem c l e).2.hbm = s.hbm := by
  simp [State.readElem]

@[simp] theorem State.readGather_hbm (s : State) (c : Nat) (l : Load) (n : Nat) (es : List KeptElem) :
    (s.readGather c l n es).2.hbm = s.hbm := by
  induction es generalizing s n with
  | nil => cases n <;> rfl
  | cons e es ih =>
    cases n with
    | zero => rw [State.readGather]; split <;> simp [ih]
    | succ n => rw [State.readGather]; split <;> [skip; split] <;> simp [ih]

@[simp] theorem State.gatherOn_hbm (s : State) (c : Nat) (l : Load) : (s.gatherOn c l).hbm = s.hbm := by
  unfold State.gatherOn
  dsimp only
  generalize (if s.draw.1 % _ = 0 then _ else _ : Nat) = n
  have read := State.readGather_hbm s.draw.2 c l n l.elems
  split
  · exact (State.thaw_hbm ..).trans read
  · exact read

@[simp] theorem execLateResult_hbm (c id : Nat) (s : State) : Answers s.HbmOf (execLateResult c id s) := by
  have answered (l : Load) (n : Nat) :
      (((l.got.map fun b => (b, s)).getD (s.readOwn c l.strand l.seq l.target n)).2).hbm = s.hbm := by
    cases l.got with
    | none => exact State.readOwn_hbm ..
    | some b => rfl
  unfold execLateResult
  split
  · rfl
  · next l _ =>
    dsimp only
    split
    · rfl
    · split
      · exact (State.thaw_hbm ..).trans (answered l _)
      · exact (State.thaw_hbm ..).trans (answered l _)
      · exact State.gatherOn_hbm ..

/-! ## SPINW (R116) -/

theorem State.spinWord_hbm {s : State} {c n : Nat} {w : SpinWait} {r : (List Byte × Bool) × State}
    (h : s.spinWord c n w = some r) :
    r.2.hbm = s.hbm := by
  unfold State.spinWord at h
  split at h
  · split at h
    · cases h; exact State.readOwn_hbm ..
    · cases h
  · cases h

@[simp] theorem execSpinwReread_hbm (c n : Nat) (s : State) : Answers s.HbmOf (execSpinwReread c n s) := by
  unfold execSpinwReread
  split
  · rfl
  · split
    · rfl
    · split
      · dsimp only [Answers]; split <;> rfl
      · next v hv =>
        have read := State.spinWord_hbm hv
        dsimp only
        split
        · exact read
        · dsimp only [Answers]; split <;> exact read

/-! ## Replicated pages (R141) -/

@[simp] theorem State.modReplica_hbm (s : State) (page : Nat) (f : Replica → Replica) : (s.modReplica page f).hbm = s.hbm :=
  rfl

/-! ## The step of a block -/

@[simp] theorem State.blockStep_hbm (s : State) (c n : Nat) (b : Block) : (s.blockStep c n b).2.hbm = s.hbm := by
  unfold State.blockStep
  dsimp only
  (repeat' split) <;> simp

@[simp] theorem State.stepBlocks_hbm (s : State) (c n : Nat) : (s.stepBlocks c n).hbm = s.hbm :=
  foldl_snd_hbm (fun _ _ => by split <;> simp) _ _

/-! ## Issue -/

@[simp] theorem State.mirrorBlock_hbm (s : State) (i : Instr) (busyFor : Nat) : (s.mirrorBlock i busyFor).hbm = s.hbm := by
  unfold State.mirrorBlock
  split <;> simp

@[simp] theorem vector_hbm (i : Instr) (s : State) : Answers s.HbmOf (vector i s) := by
  unfold vector
  exact issueWith_hbm (foldl_hbm (fun _ _ => by simp) _ _)

@[simp] theorem compare_hbm (i : Instr) (s : State) : Answers s.HbmOf (compare i s) := by
  unfold compare
  exact issueWith_hbm (foldl_hbm (fun _ _ => by simp) _ _)

@[simp] theorem predicate_hbm (i : Instr) (f : BitVec 64 → BitVec 64 → BitVec 64) (two : Bool) (s : State) :
    Answers s.HbmOf (predicate i f two s) := by
  unfold predicate
  exact issueWith_hbm (foldl_hbm (fun _ _ => by simp) _ _)

/-! ## Issue (R226, R241, R242) -/

@[simp] theorem State.cancelNew_hbm (s : State) (id : Nat) : (s.cancelNew id).hbm = s.hbm := by simp [State.cancelNew]

@[simp] theorem queued_hbm (i : Instr) (xa : Option (BitVec 6)) (xb : BitVec 6) (dN : Option (BitVec 6)) (s : State) :
    Answers s.HbmOf (queued i xa xb dN s) := by
  unfold queued
  refine issueWith_hbm ?_
  dsimp only
  (repeat' split) <;> simp

@[simp] theorem execCpy_hbm (b d : BitVec 6) (c : Bool) (s : State) : Answers s.HbmOf (execCpy b d c s) :=
  queued_hbm ..

@[simp] theorem execCpyst_hbm (b d : BitVec 6) (c t v : Bool) (k : BitVec 3) (s : State) :
    Answers s.HbmOf (execCpyst b d c t v k s) :=
  queued_hbm ..

@[simp] theorem execSacc_hbm (b d : BitVec 6) (c m : Bool) (p : BitVec 2) (s : State) :
    Answers s.HbmOf (execSacc b d c m p s) :=
  queued_hbm ..

@[simp] theorem execRcnt_hbm (a b : BitVec 6) (c : Bool) (s : State) : Answers s.HbmOf (execRcnt a b c s) :=
  queued_hbm ..

@[simp] theorem execRsnap_hbm (a b : BitVec 6) (c : Bool) (s : State) : Answers s.HbmOf (execRsnap a b c s) :=
  queued_hbm ..

@[simp] theorem execUnlease_hbm (b : BitVec 6) (l : BitVec 2) (s : State) : Answers s.HbmOf (execUnlease b l s) :=
  queued_hbm ..

@[simp] theorem execZip_hbm (b d : BitVec 6) (c : Bool) (l : BitVec 2) (s : State) : Answers s.HbmOf (execZip b d c l s) :=
  queued_hbm ..

@[simp] theorem execUnzip_hbm (b d : BitVec 6) (c : Bool) (l : BitVec 2) (s : State) :
    Answers s.HbmOf (execUnzip b d c l s) :=
  queued_hbm ..

@[simp] theorem execRepl_hbm (b d : BitVec 6) (c w : Bool) (l : BitVec 2) (s : State) :
    Answers s.HbmOf (execRepl b d c w l s) :=
  queued_hbm ..

@[simp] theorem execTsave_hbm (b d : BitVec 6) (l : BitVec 2) (s : State) : Answers s.HbmOf (execTsave b d l s) :=
  queued_hbm ..

@[simp] theorem execTload_hbm (b d : BitVec 6) (l : BitVec 2) (s : State) : Answers s.HbmOf (execTload b d l s) :=
  queued_hbm ..

@[simp] theorem execEcancel_hbm (t : BitVec 8) (s : State) : Answers s.HbmOf (execEcancel t s) := by
  refine issuePlain_hbm ?_
  split
  · rfl
  · split <;> simp

/-! ## Leases (R257, R258) -/

@[simp] theorem State.bindLease_hbm (s : State) (d t l e : Nat) : (s.bindLease d t l e).hbm = s.hbm := rfl

@[simp] theorem State.returnLease_hbm (s : State) (d t l : Nat) : (s.returnLease d t l).hbm = s.hbm := by
  unfold State.returnLease
  split <;> simp

@[simp] theorem execLease_hbm (a : BitVec 6) (l : BitVec 2) (s : State) : Answers s.HbmOf (execLease a l s) := by
  unfold execLease
  refine issueWith_hbm ?_
  dsimp only
  (repeat' split) <;> simp

@[simp] theorem execLeaseGrant_hbm (d : Nat) (s : State) : Answers s.HbmOf (execLeaseGrant d s) := by
  unfold execLeaseGrant
  dsimp only
  split <;> simp

@[simp] theorem execLeaseExpiry_hbm (d t : Nat) (l : BitVec 2) (s : State) : Answers s.HbmOf (execLeaseExpiry d t l s) := by
  unfold execLeaseExpiry
  dsimp only
  split <;> simp

/-! ## The reads and writes of a command -/

@[simp] theorem State.noteCmd_hbm (s : State) (m : Cmd) (ea : Word) (acc : Acc) : (s.noteCmd m ea acc).hbm = s.hbm :=
    by
  fun_cases State.noteCmd <;> simp

theorem State.snapLine_hbm (s : State) (m : Cmd) (c line : Nat) : (s.snapLine m c line).All s.HbmOf := by
  unfold State.snapLine
  split
  · rfl
  · dsimp only; split
    · trivial
    · rfl

@[simp] theorem State.cmdEvents_hbm (s : State) (id : Nat) (codes : List Nat) : (s.cmdEvents id codes).hbm = s.hbm :=
    by
  unfold State.cmdEvents
  split <;> simp

@[simp] theorem State.noteHoles_hbm (s : State) (id : Nat) (keys : List Nat) : (s.noteHoles id keys).hbm = s.hbm :=
  rfl

theorem State.cmdRead_hbm (s : State) (m : Cmd) (ea : Word) (n : Nat) (keys : List Nat) :
    (s.cmdRead m ea n keys).All s.HbmOf := by
  have got : ∀ (v : List Byte × Bool) (t : State), t.hbm = s.hbm →
      (Got.ok v (if v.2 then t.modCmd m.id fun m => { m with mark := true } else t)).All s.HbmOf := fun v t h => by
    show (ite _ _ _ : State).hbm = s.hbm
    split <;> exact h
  have noted : (s.noteCmd m ea .read).hbm = s.hbm := State.noteCmd_hbm ..
  unfold State.cmdRead
  split
  · trivial
  · trivial
  · trivial
  · dsimp only
    split
    · next c off _ =>
      split
      · have := (s.noteCmd m ea .read).snapLine_hbm m c (off / 64 * 64)
        split
        · next h =>
          rw [h] at this
          exact got _ _ (this.trans noted)
        · trivial
      · split
        · trivial
        · exact got _ _ noted
    · simp
    · split
      · trivial
      · exact got _ _ (by simp)

theorem State.cmdReadRange_hbm (s : State) (m : Cmd) (ea : Word) (n : Nat) : (s.cmdReadRange m ea n).All s.HbmOf := by
  refine List.foldlRecOn _ _ (motive := fun g => Got.All s.HbmOf g) rfl fun g hg p _ => ?_
  cases g with
  | ok v t =>
    have := t.cmdRead_hbm ((t.cmd? m.id).getD m) p.1 p.2 [lineKey p.1]
    dsimp only
    split
    · next h => rw [h] at this; exact this.trans hg
    · trivial
    · trivial
    · trivial
  | wait r a => trivial
  | stuck => trivial
  | fail c a => trivial

/-! ## Units and windows (R249) -/

@[simp] theorem State.awaitPage_hbm (s : State) (id : Nat) (r : PageRequest) (addr : Word) :
    (s.awaitPage id r addr).hbm = s.hbm := by
  simp [State.awaitPage]

/-- An attempt at a unit goes on with what its access leaves. -/
theorem Got.all_tried {α : Type} {P : State → Prop} {g : Got α} {s : State} {k : α → State → Tried} (hg : g.All P)
    (hs : P s) (hk : ∀ v t, P t → (k v t).All P) :
    (g.tried s k).All P := by
  cases g with
  | ok v t => exact hk v t hg
  | wait r a => trivial
  | stuck => trivial
  | fail c a => exact hs

/-! ## Copies (R252 to R254) -/

theorem State.copyRaw_hbm (s : State) (m : Cmd) (c : CopyShape) (u : Nat) : (s.copyRaw m c u).All s.HbmOf := by
  unfold State.copyRaw
  have := s.cmdRead_hbm m (c.place c.srcf c.src c.ss u).1 (elemBytes c.srcf) [u]
  dsimp only
  split
  · next h => rw [h] at this; exact this
  · trivial
  · trivial
  · trivial

theorem copyRead_hbm (s : State) (m : Cmd) (u : Nat) : (copyRead s m u).All s.HbmOf := by
  refine List.foldlRecOn _ _ (motive := fun t => Tried.All s.HbmOf t) rfl fun t ht k _ => ?_
  cases t with
  | done t =>
    have raw := t.copyRaw_hbm ((t.cmd? m.id).getD m) (copyShape m.cap) k
    have hof : t.HbmOf = s.HbmOf := funext fun u => congrArg (u.hbm = ·) ht
    rw [hof] at raw
    exact Got.all_tried raw ht fun _ _ h => h
  | wait ms a => trivial
  | stuck => trivial
  | fail st c a t => exact ht

@[simp] theorem State.readUnits_hbm (m : Cmd) (us : List Nat) (s : State) : (State.readUnits m us s).hbm = s.hbm := by
  induction us generalizing s with
  | nil => rfl
  | cons u us ih =>
    have := copyRead_hbm s ((s.cmd? m.id).getD m) u
    rw [State.readUnits]
    split
    · next h => rw [h] at this; exact (ih _).trans this
    · rfl

theorem copyTake_hbm (tee : Bool) (s : State) (m : Cmd) (u : Nat) : (copyTake tee s m u).All s.HbmOf := by
  have := copyRead_hbm s m u
  unfold copyTake
  dsimp only
  split
  · next h => rw [h] at this; exact (State.cmdEvents_hbm ..).trans this
  · exact this

theorem State.deliverNext_hbm {s : State} {m : Cmd} {b : Binding} {t : State} (h : s.deliverNext m b = some t) :
    t.hbm = s.hbm := by
  unfold State.deliverNext at h
  extract_lets at h
  split at h
  · cases h
  · extract_lets at h
    split at h
    · cases h
    · obtain rfl := Option.some.inj h; rfl

/-! ## Scatter-accumulate (R255) -/

@[simp] theorem State.saccPair_hbm (s : State) (m : Cmd) (i : Nat) : (s.saccPair m i).2.hbm = s.hbm := by
  unfold State.saccPair
  dsimp only
  have hu := s.cmdRead_hbm ((s.cmd? m.id).getD m) (m.cap.f 0 + BitVec.ofNat 64 (4 * i)) 4 [i]
  split
  · rfl
  · rfl
  · rfl
  · next u t h =>
    rw [h] at hu
    have hv := t.cmdRead_hbm ((t.cmd? m.id).getD m) (m.cap.f 1 + BitVec.ofNat 64 (elemBytes (saccFormat m.cap) * i))
      (elemBytes (saccFormat m.cap)) [i]
    split
    · exact hu
    · exact hu
    · exact hu
    · next h => rw [h] at hv; exact hv.trans hu

@[simp] theorem State.saccPairs_hbm (s : State) (m : Cmd) (us : List Nat) : (s.saccPairs m us).2.hbm = s.hbm := by
  induction us generalizing s with
  | nil => rfl
  | cons i us ih => exact (ih _).trans (State.saccPair_hbm ..)

@[simp] theorem State.postWaits_hbm (s : State) (ws : List (Nat × List PageRequest × Word)) :
    (s.postWaits ws).2.hbm = s.hbm :=
  foldl_snd_hbm (fun _ _ => by simp) _ _

/-! ## Routing counters (R256) -/

theorem rcntUnit_hbm (s : State) (m : Cmd) (u : Nat) : (rcntUnit s m u).All s.HbmOf :=
  Got.all_tried (State.cmdRead_hbm ..) rfl fun _ _ h => h

@[simp] theorem State.rcntAdd_hbm (s : State) (m : Cmd) (e : Nat × Nat × Bool) : (s.rcntAdd m e).hbm = s.hbm := by
  unfold State.rcntAdd
  dsimp only
  split <;> simp

/-! ## ZIP -/

@[simp] theorem State.modNamed_hbm (s : State) (d t : Nat) (w : StrandName) (f : Strand → Strand) :
    (s.modNamed d t w f).hbm = s.hbm := by
  fun_cases State.modNamed <;> simp

theorem zipUnit_hbm (s : State) (m : Cmd) (u : Nat) : (zipUnit s m u).All s.HbmOf :=
  Got.all_tried (State.cmdRead_hbm ..) rfl fun _ _ h => h

/-! ## REPL (R262) -/

@[simp] theorem State.setReplica_hbm (s : State) (r : Replica) : (s.setReplica r).hbm = s.hbm := rfl

@[simp] theorem replUnit_hbm (withdraw : Bool) (s : State) (m : Cmd) (u : Nat) : (replUnit withdraw s m u).All s.HbmOf := by
  unfold replUnit
  dsimp only
  (repeat' split) <;> simp

theorem State.replLock_hbm (s : State) (m : Cmd) (u : Nat) {t : State} (h : s.replLock m u = some t) : t.hbm = s.hbm := by
  revert h
  fun_cases State.replLock <;> rintro ⟨⟩ <;> simp

@[simp] theorem State.dropLocks_hbm (s : State) (id : Nat) : (s.dropLocks id).hbm = s.hbm := rfl

/-! ## Team images (R263) -/

@[simp] theorem State.formLine_hbm (s : State) (m : Cmd) (u : Nat) : (s.formLine m u).hbm = s.hbm := by
  fun_cases State.formLine <;> simp

theorem loadUnit_hbm (total : Nat) (s : State) (m : Cmd) (u : Nat) : (loadUnit total s m u).All s.HbmOf :=
  Got.all_tried (State.cmdRead_hbm ..) rfl fun _ _ h => h

theorem State.loadLines_hbm {s : State} {m : Cmd} {total : Nat} {t : State} (h : s.loadLines m total = some t) :
    t.hbm = s.hbm := by
  obtain ⟨_, e, _, _, he, _⟩ := List.findSome?_eq_some_iff.1 h
  rw [Option.ite_none_left_eq_some] at he
  obtain ⟨_, he⟩ := he
  dsimp only at he
  split at he
  · obtain rfl := Option.some.inj he; rfl
  · rw [Option.ite_none_left_eq_some] at he
    obtain ⟨_, he⟩ := he
    obtain rfl := Option.some.inj he
    rw [State.modCmd_hbm]
    split
    · split <;> simp
    · rfl

theorem State.checkLine_hbm {s : State} {m : Cmd} {total : Nat} {t : State} (h : s.checkLine m total = some t) :
    t.hbm = s.hbm := by
  unfold State.checkLine at h
  split at h
  · cases h
  · obtain ⟨_, _, rfl⟩ := Option.map_eq_some_iff.1 h; rfl

/-! ## Tasks (R318) -/

@[simp] theorem State.modJoin_hbm (s : State) (d t q : Nat) (f : Join → Join) : (s.modJoin d t q f).hbm = s.hbm := rfl

/-! ## Bytes of team memory that the home moves (R329, R331) -/

@[simp] theorem State.teamRead_hbm (s : State) (d t : Nat) (ea : Word) (n : Nat) : (s.teamRead d t ea n).2.hbm = s.hbm :=
  foldl_snd_hbm (fun _ _ => by split <;> simp) _ _

/-! ## Condemnation (R326, R327) -/

@[simp] theorem State.killSaved_hbm (s : State) (d t : Nat) (w : StrandName) : (s.killSaved d t w).hbm = s.hbm := rfl

@[simp] theorem State.condemn_hbm (s : State) (d t : Nat) (w : StrandName) : (s.condemn d t w).hbm = s.hbm := by
  unfold State.condemn
  dsimp only
  (repeat' split) <;> simp

/-! ## Release (R325) -/

@[simp] theorem State.tellTiles_hbm (s : State) (d t q : Nat) : (s.tellTiles d t q).hbm = s.hbm := rfl

@[simp] theorem State.formRecord_hbm (s : State) (d t q : Nat) : (s.formRecord d t q).hbm = s.hbm := rfl

/-! ## Keys and sealing (R288) -/

@[simp] theorem State.seal_hbm (s : State) (d : Nat) (key : BitVec 256) (m : Message) : (s.seal d key m).2.hbm = s.hbm :=
  rfl

@[simp] theorem State.depart_hbm (s : State) (d : Nat) (key : BitVec 256) (m : Message) :
    (s.depart d key m).hbm = s.hbm := by
  unfold State.depart
  split <;> simp

theorem State.transmit_hbm {s : State} {d p : Nat} {m : Message} {r : Message × State} (h : s.transmit d p m = .ok r) :
    r.2.hbm = s.hbm := by
  unfold State.transmit at h
  split at h
  · cases h
  · dsimp only at h
    split at h
    · cases h; simp
    · cases h

/-! ## Answers (R287) -/

@[simp] theorem State.respond_hbm (s : State) (d : Nat) (p : Option Nat) (m : Message) (answer cause reason : Nat) :
    (s.respond d p m answer cause reason).hbm = s.hbm := by
  unfold State.respond
  dsimp only
  split
  · next h =>
    obtain ⟨_, _, hr⟩ := Option.map_eq_some_iff.1 h
    exact State.transmit_hbm hr
  · rfl
  · split <;> simp

/-! ## Arrival (R284, R286, R289, R290) -/

/-- What the way of a message to its endpoint leaves of device memory. -/
theorem State.reach_hbm (s : State) (kind : Nat) (m : Message) :
    (∀ t, s.reach kind m = .error t → t.hbm = s.hbm) ∧ ∀ r, s.reach kind m = .ok r → r.2.hbm = s.hbm := by
  unfold State.reach
  split
  · simp
  · dsimp only
    split
    · split <;> simp
    · split <;> simp

@[simp] theorem State.raiseGust_hbm (s : State) (d t : Nat) : (s.raiseGust d t).hbm = s.hbm := rfl

theorem State.admitWrite_hbm (s : State) (kind : Nat) (m : Message) :
    (∀ t, s.admitWrite kind m = .error t → t.hbm = s.hbm) ∧ ∀ r, s.admitWrite kind m = .ok r → r.2.2.hbm = s.hbm := by
  obtain ⟨herr, hok⟩ := s.reach_hbm kind m
  unfold State.admitWrite
  split
  · next h => simpa using herr _ h
  · next h =>
    have hs := hok _ h
    split
    · simpa using hs
    · dsimp only
      split <;> simpa using hs

@[simp] theorem State.answer_hbm (s : State) (d t : Nat) (m : Message) (a : Nat) (cause reason : Nat) :
    (s.answer d t m a cause reason).hbm = s.hbm := by
  simp [State.answer]

/-! ## Zeroing of a cluster (R401, R407) -/

@[simp] theorem State.zeroCluster_hbm (s : State) (d ph : Nat) : (s.zeroCluster d ph).hbm = s.hbm := rfl

@[simp] theorem State.abortScans_hbm (s : State) (d p : Nat) : (s.abortScans d p).hbm = s.hbm :=
  foldl_hbm (fun _ _ => by simp) _ _

/-! ## The strands of a team, on its cores or saved -/

@[simp] theorem State.rewaitTeam_hbm (s : State) (d t : Nat) : (s.rewaitTeam d t).hbm = s.hbm := by
  refine foldl_hbm (fun s e => ?_) _ _
  split
  · split <;> simp
  · rfl

@[simp] theorem State.rewait_hbm (s : State) (x : Sent) : (s.rewait x).hbm = s.hbm := by
  unfold State.rewait
  split <;> simp

@[simp] theorem State.rewaitAll_hbm (s : State) : (s.rewaitAll).hbm = s.hbm := foldl_hbm (fun _ _ => by simp) _ _

/-! ## One-sided writes (R291, R292) -/

@[simp] theorem State.applyPool_hbm (s : State) (c off : Nat) (m : Message) (ls : List (Nat × Word × Nat × Nat)) :
    (s.applyPool c off m ls).hbm = s.hbm :=
  foldl_hbm (fun _ _ => by split <;> simp) _ _

@[simp] theorem State.notePart_hbm (s : State) (m : Message) (ls : List (Nat × Word × Nat × Nat)) :
    (s.notePart m ls).hbm = s.hbm :=
  rfl

@[simp] theorem State.dropPart_hbm (s : State) (m : Message) : (s.dropPart m).hbm = s.hbm := rfl

theorem State.applyLanded_hbm {s : State} {d t : Nat} {m : Message} {u : State} (h : s.applyLanded d t m = some u) :
    u.hbm = s.hbm := by
  unfold State.applyLanded at h
  dsimp only at h
  split at h
  · obtain ⟨_, _, rfl⟩ := Option.map_eq_some_iff.1 h; simp
  · split at h
    · split at h
      · cases h; rfl
      · cases h
    · cases h

/-! ## The sender's side (R287, R293, R295) -/

@[simp] theorem State.dropSent_hbm (s : State) (id : Nat) : (s.dropSent id).hbm = s.hbm := rfl

@[simp] theorem State.modSent_hbm (s : State) (id : Nat) (f : Sent → Sent) : (s.modSent id f).hbm = s.hbm := rfl

@[simp] theorem State.modTile_hbm (s : State) (d t i : Nat) (f : Tile → Tile) : (s.modTile d t i f).hbm = s.hbm := rfl

@[simp] theorem State.windowAnswer_hbm (s : State) (x : Sent) (r : Message) : (s.windowAnswer x r).hbm = s.hbm := by
  unfold State.windowAnswer
  split <;> simp

theorem State.stopSender_hbm {s : State} {x : Sent} {st : Nat} {fail : State → Nat → Nat → Nat → Nat → Nat → State}
    (hf : ∀ s d t i st c, (fail s d t i st c).hbm = s.hbm) :
    (s.stopSender x st fail).hbm = s.hbm := by
  unfold State.stopSender
  dsimp only
  split <;> split <;> split <;> simp [hf]

@[simp] theorem State.sendAnswered_hbm (s : State) (id answer cause : Nat) (ea : Word) :
    (s.sendAnswered id answer cause ea).hbm = s.hbm :=
  rfl

theorem State.answered_hbm {s : State} {x : Sent} {r : Message} {answer cause : Nat}
    {fail : State → Nat → Nat → Nat → Nat → Nat → State} (hf : ∀ s d t i st c, (fail s d t i st c).hbm = s.hbm) :
    (s.answered x r answer cause fail).hbm = s.hbm := by
  unfold State.answered
  extract_lets noted told
  have htold : told.hbm = s.hbm := by
    unfold told
    split <;> simp [noted]
  split
  · exact htold
  · dsimp only
    split
    · exact htold
    · exact (hf ..).trans htold

theorem State.retry_hbm {s : State} {id : Nat} {fail : State → Nat → Nat → Nat → Nat → Nat → State}
    (hf : ∀ s d t i st c, (fail s d t i st c).hbm = s.hbm) :
    Answers s.HbmOf (s.retry id fail) := by
  unfold State.retry
  split
  · rfl
  · split
    · rfl
    · split
      · next h => exact (State.rewait_hbm ..).trans ((State.modSent_hbm ..).trans (State.transmit_hbm h))
      · exact State.stopSender_hbm hf

/-! ## SEND (R294, R295) -/

@[simp] theorem State.keepSent_hbm (s : State) (d : Nat) (m : Message) (cmd : Option Nat) (tile : Option (Nat × Nat))
    (window : Option Nat) :
    (s.keepSent d m cmd tile window).hbm = s.hbm :=
  rfl

@[simp] theorem execSend_hbm (a b d : BitVec 6) (c : Bool) (k : BitVec 2) (s : State) :
    Answers s.HbmOf (execSend a b d c k s) :=
  queued_hbm ..

/-! ## The scalar floating-point instructions -/

@[simp] theorem floatTwo_hbm (i : Instr) (d a b : BitVec 6) (p : BitVec 2) (r : BitVec 3) (l32 l64 : Nat)
    (f : Fmt → RMode → Val → Val → Nat × Events) (s : State) :
    Answers s.HbmOf (floatTwo i d a b p r l32 l64 f s) :=
  issuePlain_hbm (by simp)

theorem floatRoot_hbm {i : Instr} {d : BitVec 6} {p : BitVec 2} {r : BitVec 3} {read : State → (Val × Val × Bool) × State}
    {f : Fmt → RMode → Val → Val → Nat × Events} {s : State} (hread : (read s).2.hbm = s.hbm) :
    Answers s.HbmOf (floatRoot i d p r read f s) := by
  refine issueWith_hbm ?_
  extract_lets n mode q v used both
  have hboth : both.hbm = s.hbm := by unfold both; split <;> simp [used, q, hread]
  exact (State.result_hbm ..).trans hboth

@[simp] theorem execFadd_hbm (d a b : BitVec 6) (p : BitVec 2) (r : BitVec 3) (s : State) :
    Answers s.HbmOf (execFadd d a b p r s) :=
  floatTwo_hbm ..

@[simp] theorem execFsub_hbm (d a b : BitVec 6) (p : BitVec 2) (r : BitVec 3) (s : State) :
    Answers s.HbmOf (execFsub d a b p r s) :=
  floatTwo_hbm ..

@[simp] theorem execFmul_hbm (d a b : BitVec 6) (p : BitVec 2) (r : BitVec 3) (s : State) :
    Answers s.HbmOf (execFmul d a b p r s) :=
  floatTwo_hbm ..

@[simp] theorem execFmin_hbm (d a b : BitVec 6) (p : BitVec 2) (r : BitVec 3) (s : State) :
    Answers s.HbmOf (execFmin d a b p r s) :=
  floatTwo_hbm ..

@[simp] theorem execFmax_hbm (d a b : BitVec 6) (p : BitVec 2) (r : BitVec 3) (s : State) :
    Answers s.HbmOf (execFmax d a b p r s) :=
  floatTwo_hbm ..

@[simp] theorem execFdiv_hbm (d a b : BitVec 6) (p : BitVec 2) (r : BitVec 3) (s : State) :
    Answers s.HbmOf (execFdiv d a b p r s) :=
  floatRoot_hbm (State.src2_hbm ..)

@[simp] theorem execFsqrt_hbm (d a : BitVec 6) (p : BitVec 2) (r : BitVec 3) (s : State) :
    Answers s.HbmOf (execFsqrt d a p r s) :=
  floatRoot_hbm (State.src_hbm ..)

@[simp] theorem execFfma_hbm (d a b : BitVec 6) (p : BitVec 2) (r : BitVec 3) (s : State) :
    Answers s.HbmOf (execFfma d a b p r s) :=
  issuePlain_hbm (by simp)

@[simp] theorem execFcvt_hbm (d a : BitVec 6) (k t : BitVec 2) (r : BitVec 3) (s : State) :
    Answers s.HbmOf (execFcvt d a k t r s) :=
  issuePlain_hbm (by simp)

@[simp] theorem execFcmp_hbm (d a b : BitVec 6) (p : BitVec 2) (c : BitVec 3) (s : State) :
    Answers s.HbmOf (execFcmp d a b p c s) :=
  aluTwo_hbm ..

/-! ## Tile-table entries and their runs -/

@[simp] theorem State.modRun_hbm (s : State) (d t i : Nat) (f : Run → Run) : (s.modRun d t i f).hbm = s.hbm := rfl

/-! ## The staging of a port (R307) -/

theorem State.reserve_hbm {s : State} {d t i c : Nat} {repeated : Bool} {u : State}
    (h : s.reserve d t i c repeated = some u) :
    u.hbm = s.hbm := by
  obtain ⟨_, _, rfl⟩ := Option.map_eq_some_iff.1 h
  simp

theorem State.roomFor_hbm {s : State} {d t i phase c : Nat} {repeated : Bool} {bytes : Nat} {r : List Nat × State}
    (h : s.roomFor d t i phase c repeated bytes = some r) :
    r.2.hbm = s.hbm := by
  unfold State.roomFor at h
  dsimp only at h
  split at h
  · cases h; simp
  · obtain ⟨_, _, rfl⟩ := Option.map_eq_some_iff.1 h; rfl

/-! ## Sending (R304, R313) -/

theorem State.sendChunk_hbm {s : State} {d t i dst phase c : Nat} {repeated : Bool} {payload : List Byte} {mark : Bool}
    {u : State} (h : s.sendChunk d t i dst phase c repeated payload mark = .ok u) :
    u.hbm = s.hbm := by
  unfold State.sendChunk at h
  dsimp only at h
  split at h
  · cases h
  · next hr => cases h; simp [State.transmit_hbm hr]

theorem State.sendChunks_hbm {s : State} {d t i : Nat} {dsts : List Nat} {phase c : Nat} {repeated : Bool}
    {payload : List Byte} {mark : Bool} {u : State} (h : s.sendChunks d t i dsts phase c repeated payload mark = .ok u) :
    u.hbm = s.hbm := by
  refine List.foldlRecOn dsts _ (motive := fun a : Except Nat State => ∀ u, a = .ok u → u.hbm = s.hbm) (fun u e => ?_)
    (fun a ha dst _ u hu => ?_) u h
  · cases e
    rfl
  · cases a with
    | error st => cases hu
    | ok v => exact (State.sendChunk_hbm hu).trans (ha v rfl)

@[simp] theorem State.sendAbort_hbm (s : State) (d t i dst : Nat) : (s.sendAbort d t i dst).hbm = s.hbm := by
  unfold State.sendAbort
  dsimp only
  split
  · next h => exact State.transmit_hbm h
  · rfl

/-! ## The end of a run (R299, R314, R315, R359) -/

@[simp] theorem State.endRun_hbm (s : State) (d t i status cause : Nat) (abort : Bool) :
    (s.endRun d t i status cause abort).hbm = s.hbm := by
  unfold State.endRun
  dsimp only
  (repeat' split) <;> simp [foldl_hbm]

@[simp] theorem State.failRun_hbm (s : State) (d t i status cause : Nat) : (s.failRun d t i status cause).hbm = s.hbm := by
  simp [State.failRun]

/-! ## Memory of a run (R303) -/

@[simp] theorem State.readElems_hbm (s : State) (d t : Nat) (base : Word) (efc first n : Nat) :
    (s.readElems d t base efc first n).2.hbm = s.hbm := by
  simp [State.readElems]

/-! ## One action of a run -/

/-- A chunk that waits or meets a fault leaves device memory alone. -/
theorem State.stallRun_all {P : State → Prop} {s : State} {d t i : Nat} {r : Reach} {k : State → Act} (hs : P s)
    (hkeep : ∀ u : State, u.hbm = s.hbm → P u) (hk : (k s).All P) :
    (s.stallRun d t i r k).All P := by
  unfold State.stallRun
  split
  · exact hk
  · exact hs
  · exact hs
  · exact hkeep _ (State.postAll_hbm ..)

@[simp] theorem State.noteScale_hbm (s : State) (d t i : Nat) (c : XChunk) : (s.noteScale d t i c).hbm = s.hbm := rfl

@[simp] theorem State.ownChunk_hbm (s : State) (d t i c : Nat) (scale : Int) (repeated : Bool) :
    (s.ownChunk d t i c scale repeated).2.hbm = s.hbm := by
  unfold State.ownChunk
  dsimp only
  split <;> simp

/-! ## The chunks in staging -/

@[simp] theorem State.useChunk_hbm (s : State) (d t i : Nat) (h : HeldChunk) : (s.useChunk d t i h).hbm = s.hbm := rfl

/-! ## Arrivals at a join (R331) -/

@[simp] theorem State.tellExcluded_hbm (s : State) (d t i : Nat) : (s.tellExcluded d t i).hbm = s.hbm :=
  foldl_hbm (fun _ _ => by simp) _ _

/-! ## The sequencer of a port (R303) -/

/-- The action that is taken leaves what one of the actions leaves. -/
theorem firstAct_all {P : State → Prop} (fs : List (State → Option Act)) (hf : ∀ f ∈ fs, ∀ s, P s → ∀ a ∈ f s, a.All P)
    {s : State} (hs : P s) :
    (firstAct s fs).All P := by
  induction fs generalizing s with
  | nil => exact hs
  | cons f fs ih =>
    have hfs := fun g hg => hf g (List.mem_cons_of_mem _ hg)
    have hact := hf f List.mem_cons_self s hs
    rw [firstAct]
    split
    · next h => exact hact _ h
    · next h => exact hact _ h
    · next h => exact ih hfs (hact _ h)
    · exact ih hfs hs

@[simp] theorem State.noteServed_hbm (s : State) (d t i : Nat) : (s.noteServed d t i).hbm = s.hbm := rfl

/-! ## Firing (R299, R301, R302, R308, R331) -/

@[simp] theorem State.slotAnswered_hbm (s : State) (d t i : Nat) (granted : Bool) :
    (s.slotAnswered d t i granted).hbm = s.hbm := by
  fun_cases State.slotAnswered <;> simp

/-! ## Messages of collectives (R287, R305, R308, R315) -/

@[simp] theorem State.noteStopped_hbm (s : State) (d t i : Nat) (k : Tile) : (s.noteStopped d t i k).hbm = s.hbm := by
  fun_cases State.noteStopped <;> simp

@[simp] theorem State.takeAnswer_hbm (s : State) (x : Sent) (r : Message) (answer cause : Nat) :
    (s.takeAnswer x r answer cause).hbm = s.hbm := by
  unfold State.takeAnswer
  split
  · simp
  · exact State.answered_hbm State.failRun_hbm

@[simp] theorem execMessageRetry_hbm (id : Nat) (s : State) : Answers s.HbmOf (execMessageRetry id s) :=
  State.retry_hbm State.failRun_hbm

@[simp] theorem execResponse_hbm (m : Message) (s : State) : Answers s.HbmOf (execResponse m s) := by
  obtain ⟨herr, hok⟩ := s.reach_hbm 5 m
  unfold execResponse
  split
  · next h => exact herr _ h
  · next h =>
    have hs := hok _ h
    split
    · exact (State.countDrop_hbm ..).trans hs
    · split
      · exact (State.takeAnswer_hbm ..).trans hs
      · exact hs

@[simp] theorem execNoResponse_hbm (id : Nat) (s : State) : Answers s.HbmOf (execNoResponse id s) := by
  fun_cases execNoResponse <;> simp

@[simp] theorem execSlotRequest_hbm (m : Message) (s : State) : Answers s.HbmOf (execSlotRequest m s) := by
  obtain ⟨herr, hok⟩ := s.reach_hbm 6 m
  unfold execSlotRequest
  split
  · next h => exact herr _ h
  · next h => exact hok _ h

@[simp] theorem State.forwardAnswer_hbm (s : State) (d t i : Nat) (m : Message) :
    (s.forwardAnswer d t i m).hbm = s.hbm := by
  refine foldl_hbm (fun s dst => ?_) _ _
  split
  · next h => exact State.transmit_hbm h
  · rfl

@[simp] theorem execSlotAnswer_hbm (m : Message) (s : State) : Answers s.HbmOf (execSlotAnswer m s) := by
  obtain ⟨herr, hok⟩ := s.reach_hbm 7 m
  unfold execSlotAnswer
  split
  · next h => exact herr _ h
  · next h =>
    have hs := hok _ h
    split
    · exact hs
    · split
      · exact hs
      · dsimp only
        split
        · exact hs
        · split
          · refine (State.slotAnswered_hbm ..).trans ?_
            split
            · exact (State.forwardAnswer_hbm ..).trans hs
            · exact hs
          · split
            · exact hs
            · exact (State.modTile_hbm ..).trans hs

/-! ## A lost peer (R315, R331) -/

@[simp] theorem State.peersLost_hbm (s : State) (lost u : Nat) : (s.peersLost lost u).hbm = s.hbm := by
  refine foldl_hbm (fun r e => ?_) _ _
  split
  · rfl
  · refine foldl_hbm (fun r x => ?_) _ _
    split
    · rfl
    · refine foldl_hbm (fun r k => ?_) _ _
      dsimp only
      generalize (_ && _ : Bool) = b
      split <;> simp

/-! ## TTSET, TREADY, TRKARM (R300, R301) -/

@[simp] theorem execTtset_hbm (a b : BitVec 6) (s : State) : Answers s.HbmOf (execTtset a b s) := queued_hbm ..

@[simp] theorem execTready_hbm (a b : BitVec 6) (s : State) : Answers s.HbmOf (execTready a b s) := queued_hbm ..

@[simp] theorem execTrkarm_hbm (a b d : BitVec 6) (s : State) : Answers s.HbmOf (execTrkarm a b d s) := queued_hbm ..

/-! ## The Wealet link layer -/

@[simp] theorem State.modPort_hbm (s : State) (p : Nat) (f : Port → Port) : (s.modPort p f).hbm = s.hbm := rfl

@[simp] theorem execLinkFrame_hbm (p : Nat) (f : Frame) (s : State) : Answers s.HbmOf (execLinkFrame p f s) := by
  fun_cases execLinkFrame <;> simp

@[simp] theorem execLinkReplay_hbm (p : Nat) (number : BitVec 24) (s : State) :
    Answers s.HbmOf (execLinkReplay p number s) := by
  unfold execLinkReplay
  split <;> simp

@[simp] theorem execLinkRetrain_hbm (p : Nat) (ok : Bool) (s : State) : Answers s.HbmOf (execLinkRetrain p ok s) := by
  fun_cases execLinkRetrain <;> simp

@[simp] theorem State.loseSent_hbm (s : State) (x : Sent) : (s.loseSent x).hbm = s.hbm :=
  State.stopSender_hbm State.failRun_hbm

@[simp] theorem State.loseRuns_hbm (s : State) (d q : Nat) : (s.loseRuns d q).hbm = s.hbm :=
  foldl_hbm (fun _ _ => by simp) _ _

@[simp] theorem execPortDown_hbm (p : Nat) (s : State) : Answers s.HbmOf (execPortDown p s) := by
  unfold execPortDown
  dsimp only
  (repeat' split) <;> simp [foldl_hbm]

@[simp] theorem State.nextEpoch_hbm (s : State) (g : BitVec 24) : (s.nextEpoch g).hbm = s.hbm := rfl

@[simp] theorem execEpochAutoAdvance_hbm (g : BitVec 24) (s : State) : Answers s.HbmOf (execEpochAutoAdvance g s) :=
    by
  unfold execEpochAutoAdvance
  split <;> simp

/-! ## The instructions of quorum joins -/

@[simp] theorem execQdecl_hbm (b d : BitVec 6) (q : BitVec 4) (s : State) : Answers s.HbmOf (execQdecl b d q s) :=
  queued_hbm ..

@[simp] theorem execQarrive_hbm (b : BitVec 6) (q : BitVec 4) (s : State) : Answers s.HbmOf (execQarrive b q s) :=
  queued_hbm ..

@[simp] theorem execQread_hbm (a b : BitVec 6) (q : BitVec 4) (s : State) : Answers s.HbmOf (execQread a b q s) :=
  queued_hbm ..

@[simp] theorem execQreplay_hbm (a b : BitVec 6) (q : BitVec 4) (s : State) : Answers s.HbmOf (execQreplay a b q s) :=
  queued_hbm ..

/-! ## QWAIT (R335) -/

@[simp] theorem execQwait_hbm (d : BitVec 6) (q : BitVec 4) (s : State) : Answers s.HbmOf (execQwait d q s) :=
  issueWith_hbm rfl

/-! ## What holds a command back -/

theorem State.waitPool_hbm (s : State) (m : Cmd) {t : State} (h : s.waitPool m = some t) : t.hbm = s.hbm := by
  revert h
  fun_cases State.waitPool <;> rintro ⟨⟩ <;> simp

/-! ## What a blocked strand waits for (R92, R369) -/

@[simp] theorem State.wakeTeams_hbm (s : State) : s.wakeTeams.hbm = s.hbm :=
  (foldl_hbm (fun s _ => foldl_hbm (fun _ _ => by split <;> simp) _ s) _ _).trans (State.closeLaunches_hbm s)

/-! ## Slices (R374, R380, R381) -/

@[simp] theorem State.force_hbm (s : State) (d t : Nat) : (s.force d t).hbm = s.hbm :=
  foldl_hbm (fun _ _ => by simp) _ _

@[simp] theorem execSliceEnd_hbm (d t : Nat) (s : State) : Answers s.HbmOf (execSliceEnd d t s) := by
  unfold execSliceEnd
  split
  · dsimp only [Answers]; split <;> simp
  · rfl

@[simp] theorem execYield_hbm (s : State) : Answers s.HbmOf (execYield s) := by
  unfold execYield
  refine issuePlain_hbm ?_
  dsimp only
  (repeat' split) <;> simp

/-! ## Rounds (R370) -/

@[simp] theorem execRoundBegin_hbm (d p : Nat) (s : State) : Answers s.HbmOf (execRoundBegin d p s) := by
  unfold execRoundBegin
  split
  · exact foldl_hbm (fun _ _ => by split <;> rfl) _ _
  · rfl

/-! ## Gust, lull, windows (R366, R371, R372) -/

@[simp] theorem execGustTick_hbm (d : Nat) (s : State) : Answers s.HbmOf (execGustTick d s) := by
  unfold execGustTick
  split <;> simp

@[simp] theorem execLullStep_hbm (d t : Nat) (s : State) : Answers s.HbmOf (execLullStep d t s) := by
  unfold execLullStep
  dsimp only
  split <;> simp

@[simp] theorem execWindowBoundary_hbm (d : Nat) (s : State) : Answers s.HbmOf (execWindowBoundary d s) := by
  unfold execWindowBoundary
  dsimp only
  split <;> simp

/-! ## Time passes -/

@[simp] theorem State.teamTime_hbm (s : State) (d t n : Nat) : (s.teamTime d t n).hbm = s.hbm := by
  unfold State.teamTime
  dsimp only
  split
  · rfl
  · exact (foldl_hbm (fun s _ => foldl_hbm (fun s _ => by split <;> rfl) _ s) _ _).trans rfl

@[simp] theorem State.pass_hbm (s : State) (d n : Nat) : (s.pass d n).hbm = s.hbm := by
  unfold State.pass
  split
  · rfl
  · exact (foldl_hbm (fun s _ => by split <;> simp) _ _).trans rfl

/-! ## Switches (R93, R97, R142) -/

@[simp] theorem execFrostSwitch_hbm (c : Nat) (s : State) : Answers s.HbmOf (execFrostSwitch c s) := by
  fun_cases execFrostSwitch <;> simp

@[simp] theorem execReplicaLockSwitch_hbm (c : Nat) (s : State) : Answers s.HbmOf (execReplicaLockSwitch c s) := by
  fun_cases execReplicaLockSwitch <;> simp

/-! ## The end of strands (R118, R326, R327) -/

@[simp] theorem execStrandEnd_hbm (c n : Nat) (s : State) : Answers s.HbmOf (execStrandEnd c n s) := by
  unfold execStrandEnd
  dsimp only
  split <;> simp

@[simp] theorem execKillPoint_hbm (c n : Nat) (s : State) : Answers s.HbmOf (execKillPoint c n s) := by
  unfold execKillPoint
  dsimp only
  split <;> simp

@[simp] theorem execKillLimit_hbm (c n : Nat) (s : State) : Answers s.HbmOf (execKillLimit c n s) := by
  fun_cases execKillLimit <;> simp

@[simp] theorem execYieldOverdue_hbm (c n : Nat) (s : State) : Answers s.HbmOf (execYieldOverdue c n s) := by
  unfold execYieldOverdue
  dsimp only
  split <;> simp

/-! ## Saving (R382, R384) -/

@[simp] theorem State.suspendLeases_hbm (s : State) (d t : Nat) : (s.suspendLeases d t).hbm = s.hbm :=
  foldl_hbm (fun _ _ => by split <;> simp) _ _

@[simp] theorem State.releaseLocks_hbm (s : State) (d t : Nat) : (s.releaseLocks d t).hbm = s.hbm :=
  foldl_hbm (fun _ _ => by simp) _ _

@[simp] theorem State.swapOut_hbm (s : State) (d t : Nat) (forced : Bool) : (s.swapOut d t forced).hbm = s.hbm := by
  have zeroed : ∀ (s : State) (c : Nat), (s.modCore c Core.zeroed).hbm = s.hbm := fun _ _ => rfl
  exact (foldl_hbm zeroed _ _).trans (by simp)

@[simp] theorem State.saveComplete_hbm (s : State) (d t : Nat) : (s.saveComplete d t).hbm = s.hbm := by
  unfold State.saveComplete
  dsimp only
  split <;> simp

/-! ## The loss of a team (R388) -/

@[simp] theorem State.dropHeld_hbm (s : State) (d t : Nat) : (s.dropHeld d t).hbm = s.hbm := by
  unfold State.dropHeld
  dsimp only
  split
  · exact foldl_hbm (fun _ _ => State.modCore_hbm ..) _ _
  · rfl

@[simp] theorem State.dropCmds_hbm (s : State) (d t : Nat) : (s.dropCmds d t).hbm = s.hbm :=
  foldl_hbm (fun _ _ => by simp) _ _

@[simp] theorem State.clearTeam_hbm (s : State) (d t : Nat) : (s.clearTeam d t).hbm = s.hbm := by
  unfold State.clearTeam
  extract_lets p held zeroed stopped freed
  have hheld : held.hbm = s.hbm := State.dropHeld_hbm ..
  have hzeroed : zeroed.hbm = s.hbm := by
    unfold zeroed
    split
    · exact (foldl_hbm (fun _ _ => State.modCore_hbm ..) _ _).trans hheld
    · exact hheld
  have hstopped : stopped.hbm = s.hbm := by
    unfold stopped
    split
    · exact (State.modDie_hbm ..).trans hzeroed
    · exact hzeroed
  have hfreed : freed.hbm = s.hbm := by
    unfold freed
    split
    · exact (State.modDie_hbm ..).trans hstopped
    · exact hstopped
  exact (State.modTeam_hbm ..).trans hfreed

@[simp] theorem State.loseTeam_hbm (s : State) (d t cause : Nat) : (s.loseTeam d t cause).hbm = s.hbm := by
  simp [State.loseTeam]

/-! ## Selection and swaps -/

@[simp] theorem State.setShadow_hbm (s : State) (d p : Nat) (sh : Shadow) : (s.setShadow d p sh).hbm = s.hbm := rfl

@[simp] theorem State.beginSwapin_hbm (s : State) (d t after : Nat) : (s.beginSwapin d t after).hbm = s.hbm := rfl

@[simp] theorem execTeamSelect_hbm (d p : Nat) (s : State) : Answers s.HbmOf (execTeamSelect d p s) := by
  unfold execTeamSelect
  dsimp only
  (repeat' split) <;> simp

@[simp] theorem State.unpark_hbm (s : State) (d t : Nat) : (s.unpark d t).hbm = s.hbm :=
  foldl_hbm (fun _ _ => by simp) _ _

@[simp] theorem State.exchange_hbm (s : State) (d t : Nat) (next : Option Nat) : (s.exchange d t next).hbm = s.hbm :=
    by
  unfold State.exchange
  dsimp only
  (repeat' split) <;> simp

@[simp] theorem State.startRows_hbm (s : State) (d t : Nat) : (s.startRows d t).hbm = s.hbm :=
  foldl_hbm (fun _ _ => by split <;> rfl) _ _

@[simp] theorem State.rereadSpins_hbm (s : State) (cs : List Nat) : (s.rereadSpins cs).hbm = s.hbm := by
  refine foldl_hbm (fun s c => foldl_hbm (fun s e => ?_) _ s) _ _
  have := execSpinwReread_hbm c e.1 s
  split
  · next h => rw [h] at this; exact this
  · rfl

@[simp] theorem execShadowDrain_hbm (d p : Nat) (s : State) : Answers s.HbmOf (execShadowDrain d p s) := by
  unfold execShadowDrain
  dsimp only
  split <;> simp

@[simp] theorem execImageStage_hbm (d p : Nat) (s : State) : Answers s.HbmOf (execImageStage d p s) := by
  fun_cases execImageStage <;> simp

/-! ## Forced pre-emption (R384, R385) -/

@[simp] theorem execForcedPreemption_hbm (d t : Nat) (s : State) : Answers s.HbmOf (execForcedPreemption d t s) := by
  unfold execForcedPreemption
  dsimp only
  split <;> simp

@[simp] theorem execPreemptWatchdog_hbm (d t : Nat) (s : State) : Answers s.HbmOf (execPreemptWatchdog d t s) := by
  fun_cases execPreemptWatchdog <;> simp

@[simp] theorem execWaitWatchdog_hbm (c n : Nat) (s : State) : Answers s.HbmOf (execWaitWatchdog c n s) := by
  fun_cases execWaitWatchdog <;> simp

/-! ## Scan tests (R407) -/

@[simp] theorem execScanTest_hbm (d cl : Nat) (s : State) : Answers s.HbmOf (execScanTest d cl s) := by
  unfold execScanTest
  dsimp only
  split <;> simp

@[simp] theorem execScanClaim_hbm (d cl : Nat) (s : State) : Answers s.HbmOf (execScanClaim d cl s) := by
  unfold execScanClaim
  dsimp only
  (repeat' split) <;> simp

@[simp] theorem State.stopTeam_hbm (s : State) (d t why : Nat) : (s.stopTeam d t why).hbm = s.hbm := by
  fun_cases State.stopTeam <;> simp

@[simp] theorem State.replaceCluster_hbm (s : State) (d cl : Nat) (with_ : Option Nat) :
    (s.replaceCluster d cl with_).hbm = s.hbm := by
  unfold State.replaceCluster
  split <;> simp

@[simp] theorem execScanComplete_hbm (d cl : Nat) (ok : Bool) (s : State) :
    Answers s.HbmOf (execScanComplete d cl ok s) := by
  unfold execScanComplete
  dsimp only
  (repeat' split) <;> simp [foldl_hbm]

/-! ## The frame (R396) -/

@[simp] theorem State.modSlot_hbm (s : State) (i : Nat) (f : CmdSlot → CmdSlot) : (s.modSlot i f).hbm = s.hbm := rfl

@[simp] theorem done_hbm (status : Nat) (s : State) : (done status s).2.hbm = s.hbm := rfl

@[simp] theorem State.answerSlot_hbm (s : State) (i : Nat) (a : Nat × List Word) : (s.answerSlot i a).hbm = s.hbm :=
  rfl

/-- A host command leaves of device memory what its run leaves. -/
theorem command_all {Q : List Host.Cell → Prop} {code n : Nat} {m : HostCmd} {ok : Bool} {s : State}
    {run : State → Answer × State} (hs : Q s.hbm) (hrun : ∀ t, t.hbm = s.hbm → Q (run t).2.hbm) :
    Answers (fun t => Q t.hbm) (command code n m ok s run) := by
  have ran (f : CmdSlot → CmdSlot) : Q (run (s.modSlot m.slot.toNat f)).2.hbm := hrun _ (State.modSlot_hbm ..)
  unfold command
  dsimp only
  split
  · simpa using hs
  · split
    · simpa using hs
    · split
      · next e => simpa using (congrArg (fun r => Q r.2.hbm) e).mp (ran _)
      · next e => simpa using (congrArg (fun r => Q r.2.hbm) e).mp (ran _)

theorem command_hbm {code n : Nat} {m : HostCmd} {ok : Bool} {s : State} {run : State → Answer × State}
    (hrun : ∀ t, (run t).2.hbm = t.hbm) :
    Answers s.HbmOf (command code n m ok s run) :=
  command_all (Q := (· = s.hbm)) rfl fun t ht => (hrun t).trans ht

@[simp] theorem State.fold_hbm (s : State) (ps : List Nat) (code : Nat) (m : HostCmd) : (s.fold ps code m).hbm = s.hbm :=
  foldl_hbm (fun _ _ => by simp) _ _

/-! ## Shared parts -/

@[simp] theorem State.dropTlb_hbm (s : State) (p : TlbEntry → Bool) : (s.dropTlb p).hbm = s.hbm := rfl

/-! ## PART_SET, PART_DESTROY (R22, R397) -/

@[simp] theorem execPartSet_hbm (m : HostCmd) (s : State) : Answers s.HbmOf (execPartSet m s) := by
  refine command_hbm fun s => ?_
  extract_lets p q ports dies refused small changed zeroed marked
  have hzeroed : zeroed.hbm = s.hbm := foldl_hbm (fun _ _ => State.zeroCluster_hbm ..) _ _
  have hmarked : marked.hbm = s.hbm := (foldl_hbm (fun _ _ => State.modDie_hbm ..) _ _).trans hzeroed
  split
  · rfl
  · split
    · rfl
    · exact (State.fold_hbm ..).trans hmarked

@[simp] theorem execPartDestroy_hbm (m : HostCmd) (s : State) : Answers s.HbmOf (execPartDestroy m s) := by
  refine command_hbm fun s => ?_
  dsimp only
  split
  · rfl
  · split
    · rfl
    · exact foldl_hbm (fun _ _ => State.zeroCluster_hbm ..) _ _

/-! ## VF_BIND, SLOT_SET -/

@[simp] theorem State.unbindVf_hbm (s : State) (v : Nat) : (s.unbindVf v).hbm = s.hbm := rfl

@[simp] theorem execVfBind_hbm (m : HostCmd) (s : State) : Answers s.HbmOf (execVfBind m s) :=
  command_hbm fun s => by
    dsimp only
    (repeat' split) <;> simp

@[simp] theorem execSlotSet_hbm (m : HostCmd) (s : State) : Answers s.HbmOf (execSlotSet m s) := by
  unfold execSlotSet
  exact command_hbm fun s => State.fold_hbm ..

/-! ## Translations (R130 to R133, R404) -/

@[simp] theorem execS2Map_hbm (m : HostCmd) (s : State) : Answers s.HbmOf (execS2Map m s) := by
  unfold execS2Map
  exact command_hbm fun s => by dsimp only; split <;> rfl

@[simp] theorem execS2Unmap_hbm (m : HostCmd) (s : State) : Answers s.HbmOf (execS2Unmap m s) :=
  command_hbm fun s => by
    dsimp only
    split <;> simp

@[simp] theorem execInvalidate_hbm (m : HostCmd) (s : State) : Answers s.HbmOf (execInvalidate m s) :=
  command_hbm fun s => by
    simp

/-! ## PAGE_ANSWER (R136, R398) -/

@[simp] theorem State.answerStrand_hbm (s : State) (d t : Nat) (x : Strand) (read : KeptElem → KeptElem)
    (cycle tag ipa : Nat) (refused : Bool) :
    (s.answerStrand d t x read cycle tag ipa refused).2.hbm = s.hbm := by
  unfold State.answerStrand
  split <;> simp

@[simp] theorem State.answerTeam_hbm (s : State) (d t tag ipa : Nat) (refused : Bool) :
    (s.answerTeam d t tag ipa refused).hbm = s.hbm := by
  unfold State.answerTeam
  split <;> simp [foldl_hbm]

/-! ## OWNER_SET, REPLICA_RESERVE, PARAM_SET, EPOCH_ADVANCE, SCAN_SET, POWER_SET -/

@[simp] theorem execReplicaReserve_hbm (m : HostCmd) (s : State) : Answers s.HbmOf (execReplicaReserve m s) :=
  command_hbm fun s => by
    dsimp only
    split <;> simp

@[simp] theorem execParamSet_hbm (m : HostCmd) (s : State) : Answers s.HbmOf (execParamSet m s) :=
  command_hbm fun s => by
    simp

@[simp] theorem execEpochAdvance_hbm (m : HostCmd) (s : State) : Answers s.HbmOf (execEpochAdvance m s) :=
  command_hbm fun s => by
    simp

@[simp] theorem execScanSet_hbm (m : HostCmd) (s : State) : Answers s.HbmOf (execScanSet m s) :=
  command_hbm fun s => by
    simp

@[simp] theorem execPowerSet_hbm (m : HostCmd) (s : State) : Answers s.HbmOf (execPowerSet m s) :=
  command_hbm fun s => by
    simp

/-! ## TEAM_SET (R365) -/

theorem State.onTeam_hbm {s : State} {m : HostCmd} {f : Nat → Nat → Answer × State} (hf : ∀ d t, (f d t).2.hbm = s.hbm) :
    (s.onTeam m f).2.hbm = s.hbm := by
  unfold State.onTeam
  split
  · simp
  · exact hf _ _

@[simp] theorem execTeamSet_hbm (m : HostCmd) (s : State) : Answers s.HbmOf (execTeamSet m s) :=
  command_hbm fun s => State.onTeam_hbm fun d t => by
    dsimp only
    (repeat' split) <;> simp

/-! ## TEAM_STOP, TEAM_RESUME (R368, R389, R398) -/

@[simp] theorem execTeamStop_hbm (m : HostCmd) (s : State) : Answers s.HbmOf (execTeamStop m s) :=
  command_hbm fun s => State.onTeam_hbm fun d t => by
    dsimp only
    split <;> simp

@[simp] theorem execTeamResume_hbm (m : HostCmd) (s : State) : Answers s.HbmOf (execTeamResume m s) :=
  command_hbm fun s => State.onTeam_hbm fun d t => by
    dsimp only
    (repeat' split) <;> simp

/-! ## TEAM_RESTART, TEAM_DESTROY (R399) -/

@[simp] theorem State.endWork_hbm (s : State) (d t : Nat) : (s.endWork d t).hbm = s.hbm := by simp [State.endWork]

@[simp] theorem execTeamRestart_hbm (m : HostCmd) (s : State) : Answers s.HbmOf (execTeamRestart m s) :=
  command_hbm fun s => State.onTeam_hbm fun d t => by
    dsimp only
    (repeat' split) <;> simp

/-! ## The load (R64, R66) -/

@[simp] theorem State.gimPublish_hbm (s : State) (v d : Nat) (l : Loaded) : (s.gimPublish v d l).hbm = s.hbm := rfl

@[simp] theorem execImageLoad_hbm (m : HostCmd) (s : State) : Answers s.HbmOf (execImageLoad m s) :=
  command_hbm fun s => by split <;> rfl

@[simp] theorem State.endImageLoad_hbm (s : State) (i : Nat) (m : HostCmd) (l : Loaded) :
    (s.endImageLoad i m l).hbm = s.hbm := by
  unfold State.endImageLoad
  split <;> simp

/-! ## Attestation (R402) -/

@[simp] theorem State.hostWrite_hbm (s : State) (a : Word) (bs : List Byte) : (s.hostWrite a bs).hbm = s.hbm := rfl

@[simp] theorem inBackground_hbm (code n : Nat) (m : HostCmd) (s : State) : Answers s.HbmOf (inBackground code n m s) :=
  command_hbm fun s => by split <;> rfl

@[simp] theorem execAttest_hbm (m : HostCmd) (s : State) : Answers s.HbmOf (execAttest m s) := inBackground_hbm ..

@[simp] theorem State.endAttest_hbm (s : State) (m : HostCmd) : (s.endAttest m).2.hbm = s.hbm := rfl

/-! ## Key sessions (R403) -/

@[simp] theorem execKeySession_hbm (m : HostCmd) (s : State) : Answers s.HbmOf (execKeySession m s) :=
  inBackground_hbm ..

@[simp] theorem State.endKeySession_hbm (s : State) (m : HostCmd) : (s.endKeySession m).2.hbm = s.hbm := rfl

@[simp] theorem execKeyInstall_hbm (m : HostCmd) (s : State) : Answers s.HbmOf (execKeyInstall m s) :=
  command_hbm fun s => by
    dsimp only
    (repeat' split) <;> simp

/-! ## Exports (R3, R185, R397) -/

@[simp] theorem execTeamExport_hbm (m : HostCmd) (s : State) : Answers s.HbmOf (execTeamExport m s) :=
  command_hbm fun s => State.onTeam_hbm fun d t => by split <;> rfl

@[simp] theorem State.endExport_hbm (s : State) (m : HostCmd) : (s.endExport m).2.hbm = s.hbm := by
  unfold State.endExport
  dsimp only
  (repeat' split) <;> simp

@[simp] theorem execTeamImport_hbm (m : HostCmd) (s : State) : Answers s.HbmOf (execTeamImport m s) :=
  command_hbm fun s => State.onTeam_hbm fun d t => by split <;> rfl

@[simp] theorem State.stageAgain_hbm (s : State) (d t : Nat) (l : HeldLine) : (s.stageAgain d t l).hbm = s.hbm := by
  unfold State.stageAgain
  split <;> simp

@[simp] theorem State.askAgain_hbm (s : State) (d t : Nat) (w : StrandName) (x : Strand) :
    (s.askAgain d t w x).2.hbm = s.hbm := by
  unfold State.askAgain
  dsimp only
  (repeat' split) <;> simp

@[simp] theorem State.watchAgain_hbm (s : State) (d t : Nat) : (s.watchAgain d t).hbm = s.hbm := rfl

@[simp] theorem State.dropStaged_hbm (s : State) (d t : Nat) : (s.dropStaged d t).hbm = s.hbm := rfl

/-! ## Message windows and registers (R393, R394) -/

@[simp] theorem execVfMessage_hbm (vf : BitVec 9) (m : Message) (s : State) : Answers s.HbmOf (execVfMessage vf m s) := by
  unfold execVfMessage
  dsimp only
  split
  · rfl
  · split
    · rfl
    · split
      · rfl
      · next h =>
        have sent := State.transmit_hbm h
        exact (State.modVf_hbm ..).trans ((State.keepSent_hbm ..).trans sent)

@[simp] theorem State.s1inv_hbm (s : State) (vf : Nat) (v : Word) : (s.s1inv vf v).hbm = s.hbm := rfl

@[simp] theorem execS1inv_hbm (vf : BitVec 9) (v : Word) (s : State) : Answers s.HbmOf (execS1inv vf v s) := by
  simp [execS1inv]

/-! ## Readback (R404, R405) -/

@[simp] theorem execReadbackRead_hbm (fn : Nat) (offset : BitVec 48) (s : State) :
    Answers s.HbmOf (execReadbackRead fn offset s) := by
  unfold execReadbackRead
  dsimp only
  (repeat' split) <;> simp

/-! ## CXL.mem and IDE (R392) -/

@[simp] theorem execIdeKm_hbm (ok : Bool) (s : State) : Answers s.HbmOf (execIdeKm ok s) := by simp [execIdeKm]

/-! ## Telemetry (R29, R409) -/

@[simp] theorem execTelemetrySample_hbm (d : Nat) (v : Sample) (s : State) :
    Answers s.HbmOf (execTelemetrySample d v s) := by
  unfold execTelemetrySample
  dsimp only
  (repeat' split) <;> simp [foldl_hbm]

/-! ## Reset (R396) -/

/-- A reset leaves device memory as State.reset has it. -/
theorem execDeviceReset_hbm (s : State) : Answers State.reset.HbmOf (execDeviceReset s) := rfl

/-! ## Mirrors -/

@[simp] theorem execMirrorMismatch_hbm (c n : Nat) (slot : BitVec 5) (addr : VAddr) (s : State) :
    Answers s.HbmOf (execMirrorMismatch c n slot addr s) := by
  unfold execMirrorMismatch
  split <;> simp

/-! ## Errors and their counters (R356, R357, R362, R363) -/

@[simp] theorem State.countError_hbm (s : State) (p : Place) (i : Nat) : (s.countError p i).hbm = s.hbm := by
  unfold State.countError
  split
  · simp
  · exact foldl_hbm (fun _ _ => by simp) _ _

@[simp] theorem State.poisonShadow_hbm (s : State) (p : Place) : (s.poisonShadow p).hbm = s.hbm := by
  unfold State.poisonShadow
  split <;> simp

@[simp] theorem State.poisonHbm_hbm (s : State) (pa : Nat) : (s.poisonHbm pa).hbm = s.hbm :=
  foldl_hbm (fun _ _ => by simp) _ _

@[simp] theorem State.poisonChunk_hbm (s : State) (p : Place) : (s.poisonChunk p).hbm = s.hbm :=
  foldl_hbm (fun _ _ => by simp) _ _

@[simp] theorem State.poisonHeld_hbm (s : State) (p : Place) : (s.poisonHeld p).hbm = s.hbm := rfl

@[simp] theorem State.strike_hbm (s : State) (p : Place) : (s.strike p).hbm = s.hbm := by
  unfold State.strike
  split <;> simp

@[simp] theorem execEccUncorrectable_hbm (p : Place) (s : State) : Answers s.HbmOf (execEccUncorrectable p s) := by
  unfold execEccUncorrectable
  split <;> simp

@[simp] theorem State.replay_hbm (s : State) (p : Place) : (s.replay p).hbm = s.hbm := by
  fun_cases State.replay <;> simp

@[simp] theorem execScrub_hbm (p : Place) (correctable : Bool) (s : State) :
    Answers s.HbmOf (execScrub p correctable s) := by
  fun_cases execScrub <;> simp

/-! ## A bundle that cannot be taken (R32, R34, R35, R424) -/

@[simp] theorem execIllegalEncoding_hbm (slot : BitVec 5) (w : Word32) (s : State) :
    Answers s.HbmOf (execIllegalEncoding slot w s) := by
  simp [execIllegalEncoding]

@[simp] theorem execBundleFetchFault_hbm (cause reason : BitVec 8) (addr : Word) (s : State) :
    Answers s.HbmOf (execBundleFetchFault cause reason addr s) := by
  simp [execBundleFetchFault]

/-! ## The vector syllables -/

@[simp] theorem execVadd_hbm (f : BitVec 3) (m : Bool) (d : BitVec 7) (a : BitVec 7) (b : BitVec 7) (s : State) :
    Answers s.HbmOf (execVadd f m d a b s) :=
  vector_hbm ..

@[simp] theorem execVsub_hbm (f : BitVec 3) (m : Bool) (d : BitVec 7) (a : BitVec 7) (b : BitVec 7) (s : State) :
    Answers s.HbmOf (execVsub f m d a b s) :=
  vector_hbm ..

@[simp] theorem execVmul_hbm (f : BitVec 3) (m : Bool) (d : BitVec 7) (a : BitVec 7) (b : BitVec 7) (s : State) :
    Answers s.HbmOf (execVmul f m d a b s) :=
  vector_hbm ..

@[simp] theorem execVfma_hbm (f : BitVec 3) (m : Bool) (d : BitVec 7) (a : BitVec 7) (b : BitVec 7) (s : State) :
    Answers s.HbmOf (execVfma f m d a b s) :=
  vector_hbm ..

@[simp] theorem execVfms_hbm (f : BitVec 3) (m : Bool) (d : BitVec 7) (a : BitVec 7) (b : BitVec 7) (s : State) :
    Answers s.HbmOf (execVfms f m d a b s) :=
  vector_hbm ..

@[simp] theorem execVmin_hbm (f : BitVec 3) (m : Bool) (d : BitVec 7) (a : BitVec 7) (b : BitVec 7) (s : State) :
    Answers s.HbmOf (execVmin f m d a b s) :=
  vector_hbm ..

@[simp] theorem execVmax_hbm (f : BitVec 3) (m : Bool) (d : BitVec 7) (a : BitVec 7) (b : BitVec 7) (s : State) :
    Answers s.HbmOf (execVmax f m d a b s) :=
  vector_hbm ..

@[simp] theorem execVabs_hbm (f : BitVec 3) (m : Bool) (d : BitVec 7) (a : BitVec 7) (s : State) :
    Answers s.HbmOf (execVabs f m d a s) :=
  vector_hbm ..

@[simp] theorem execVneg_hbm (f : BitVec 3) (m : Bool) (d : BitVec 7) (a : BitVec 7) (s : State) :
    Answers s.HbmOf (execVneg f m d a s) :=
  vector_hbm ..

@[simp] theorem execVdiv_hbm (f : BitVec 3) (m : Bool) (d : BitVec 7) (a : BitVec 7) (b : BitVec 7) (s : State) :
    Answers s.HbmOf (execVdiv f m d a b s) :=
  vector_hbm ..

@[simp] theorem execVsqrt_hbm (f : BitVec 3) (m : Bool) (d : BitVec 7) (a : BitVec 7) (s : State) :
    Answers s.HbmOf (execVsqrt f m d a s) :=
  vector_hbm ..

@[simp] theorem execVand_hbm (f : BitVec 3) (m : Bool) (d : BitVec 7) (a : BitVec 7) (b : BitVec 7) (s : State) :
    Answers s.HbmOf (execVand f m d a b s) :=
  vector_hbm ..

@[simp] theorem execVor_hbm (f : BitVec 3) (m : Bool) (d : BitVec 7) (a : BitVec 7) (b : BitVec 7) (s : State) :
    Answers s.HbmOf (execVor f m d a b s) :=
  vector_hbm ..

@[simp] theorem execVxor_hbm (f : BitVec 3) (m : Bool) (d : BitVec 7) (a : BitVec 7) (b : BitVec 7) (s : State) :
    Answers s.HbmOf (execVxor f m d a b s) :=
  vector_hbm ..

@[simp] theorem execVnot_hbm (f : BitVec 3) (m : Bool) (d : BitVec 7) (a : BitVec 7) (s : State) :
    Answers s.HbmOf (execVnot f m d a s) :=
  vector_hbm ..

@[simp] theorem execVshl_hbm (f : BitVec 3) (m : Bool) (d : BitVec 7) (a : BitVec 7) (b : BitVec 7) (s : State) :
    Answers s.HbmOf (execVshl f m d a b s) :=
  vector_hbm ..

@[simp] theorem execVshr_hbm (f : BitVec 3) (m : Bool) (d : BitVec 7) (a : BitVec 7) (b : BitVec 7) (s : State) :
    Answers s.HbmOf (execVshr f m d a b s) :=
  vector_hbm ..

@[simp] theorem execVsar_hbm (f : BitVec 3) (m : Bool) (d : BitVec 7) (a : BitVec 7) (b : BitVec 7) (s : State) :
    Answers s.HbmOf (execVsar f m d a b s) :=
  vector_hbm ..

@[simp] theorem execVmov_hbm (f : BitVec 3) (m : Bool) (d : BitVec 7) (a : BitVec 7) (s : State) :
    Answers s.HbmOf (execVmov f m d a s) :=
  vector_hbm ..

@[simp] theorem execVmovi_hbm (f : BitVec 3) (m : Bool) (d : BitVec 7) (i : BitVec 14) (s : State) :
    Answers s.HbmOf (execVmovi f m d i s) :=
  vector_hbm ..

@[simp] theorem execVfloor_hbm (f : BitVec 3) (m : Bool) (d : BitVec 7) (a : BitVec 7) (s : State) :
    Answers s.HbmOf (execVfloor f m d a s) :=
  vector_hbm ..

@[simp] theorem execVclass_hbm (f : BitVec 3) (m : Bool) (d : BitVec 7) (a : BitVec 7) (s : State) :
    Answers s.HbmOf (execVclass f m d a s) :=
  vector_hbm ..

@[simp] theorem execVadds_hbm (f : BitVec 3) (m : Bool) (d : BitVec 7) (a : BitVec 7) (b : BitVec 7) (s : State) :
    Answers s.HbmOf (execVadds f m d a b s) :=
  vector_hbm ..

@[simp] theorem execVceq_hbm (f : BitVec 3) (m : Bool) (p : BitVec 3) (a : BitVec 7) (b : BitVec 7) (s : State) :
    Answers s.HbmOf (execVceq f m p a b s) :=
  compare_hbm ..

@[simp] theorem execVclt_hbm (f : BitVec 3) (m : Bool) (p : BitVec 3) (a : BitVec 7) (b : BitVec 7) (s : State) :
    Answers s.HbmOf (execVclt f m p a b s) :=
  compare_hbm ..

@[simp] theorem execVcle_hbm (f : BitVec 3) (m : Bool) (p : BitVec 3) (a : BitVec 7) (b : BitVec 7) (s : State) :
    Answers s.HbmOf (execVcle f m p a b s) :=
  compare_hbm ..

@[simp] theorem execVsel_hbm (f : BitVec 3) (d : BitVec 7) (a : BitVec 7) (b : BitVec 7) (s : State) :
    Answers s.HbmOf (execVsel f d a b s) :=
  vector_hbm ..

@[simp] theorem execPand_hbm (d : BitVec 3) (a : BitVec 3) (b : BitVec 3) (s : State) :
    Answers s.HbmOf (execPand d a b s) :=
  predicate_hbm ..

@[simp] theorem execPor_hbm (d : BitVec 3) (a : BitVec 3) (b : BitVec 3) (s : State) : Answers s.HbmOf (execPor d a b s) :=
  predicate_hbm ..

@[simp] theorem execPnot_hbm (d : BitVec 3) (a : BitVec 3) (s : State) : Answers s.HbmOf (execPnot d a s) :=
  predicate_hbm ..

@[simp] theorem execPmov_hbm (d : BitVec 3) (a : BitVec 3) (s : State) : Answers s.HbmOf (execPmov d a s) :=
  predicate_hbm ..

@[simp] theorem execVcvt_hbm (f : BitVec 3) (d : BitVec 7) (a : BitVec 7) (n : BitVec 4) (s : State) :
    Answers s.HbmOf (execVcvt f d a n s) :=
  vector_hbm ..

@[simp] theorem execVquant_hbm (f : BitVec 3) (d : BitVec 7) (a : BitVec 7) (n : BitVec 4) (s : State) :
    Answers s.HbmOf (execVquant f d a n s) :=
  vector_hbm ..

@[simp] theorem execVdeq_hbm (f : BitVec 3) (d : BitVec 7) (a : BitVec 7) (n : BitVec 4) (s : State) :
    Answers s.HbmOf (execVdeq f d a n s) :=
  vector_hbm ..

@[simp] theorem execVpack_hbm (f : BitVec 3) (d : BitVec 7) (a : BitVec 7) (n : BitVec 4) (s : State) :
    Answers s.HbmOf (execVpack f d a n s) :=
  vector_hbm ..

@[simp] theorem execVunpk_hbm (f : BitVec 3) (d : BitVec 7) (a : BitVec 7) (n : BitVec 4) (s : State) :
    Answers s.HbmOf (execVunpk f d a n s) :=
  vector_hbm ..

@[simp] theorem execVrsum_hbm (f : BitVec 3) (m : Bool) (d : BitVec 7) (a : BitVec 7) (s : State) :
    Answers s.HbmOf (execVrsum f m d a s) :=
  vector_hbm ..

@[simp] theorem execVrmax_hbm (f : BitVec 3) (m : Bool) (d : BitVec 7) (a : BitVec 7) (s : State) :
    Answers s.HbmOf (execVrmax f m d a s) :=
  vector_hbm ..

@[simp] theorem execVrmin_hbm (f : BitVec 3) (m : Bool) (d : BitVec 7) (a : BitVec 7) (s : State) :
    Answers s.HbmOf (execVrmin f m d a s) :=
  vector_hbm ..

@[simp] theorem execVscan_hbm (f : BitVec 3) (m : Bool) (d : BitVec 7) (a : BitVec 7) (s : State) :
    Answers s.HbmOf (execVscan f m d a s) :=
  vector_hbm ..

@[simp] theorem execVperm_hbm (f : BitVec 3) (m : Bool) (d : BitVec 7) (a : BitVec 7) (b : BitVec 7) (s : State) :
    Answers s.HbmOf (execVperm f m d a b s) :=
  vector_hbm ..

@[simp] theorem execVxfer_hbm (d : BitVec 7) (a : BitVec 7) (k : BitVec 3) (s : State) :
    Answers s.HbmOf (execVxfer d a k s) :=
  vector_hbm ..

@[simp] theorem execVbcast_hbm (f : BitVec 3) (m : Bool) (d : BitVec 7) (a : BitVec 7) (k : BitVec 6) (s : State) :
    Answers s.HbmOf (execVbcast f m d a k s) :=
  vector_hbm ..

@[simp] theorem execVextr_hbm (f : BitVec 3) (d : BitVec 7) (a : BitVec 7) (k : BitVec 6) (s : State) :
    Answers s.HbmOf (execVextr f d a k s) :=
  vector_hbm ..

@[simp] theorem execViota_hbm (f : BitVec 3) (m : Bool) (d : BitVec 7) (s : State) : Answers s.HbmOf (execViota f m d s) :=
  vector_hbm ..

@[simp] theorem execVrcp_hbm (f : BitVec 3) (m : Bool) (d : BitVec 7) (a : BitVec 7) (s : State) :
    Answers s.HbmOf (execVrcp f m d a s) :=
  vector_hbm ..

@[simp] theorem execVrsqrt_hbm (f : BitVec 3) (m : Bool) (d : BitVec 7) (a : BitVec 7) (s : State) :
    Answers s.HbmOf (execVrsqrt f m d a s) :=
  vector_hbm ..

@[simp] theorem execVexp2_hbm (f : BitVec 3) (m : Bool) (d : BitVec 7) (a : BitVec 7) (s : State) :
    Answers s.HbmOf (execVexp2 f m d a s) :=
  vector_hbm ..

@[simp] theorem execVlog2_hbm (f : BitVec 3) (m : Bool) (d : BitVec 7) (a : BitVec 7) (s : State) :
    Answers s.HbmOf (execVlog2 f m d a s) :=
  vector_hbm ..

@[simp] theorem execVexp_hbm (f : BitVec 3) (m : Bool) (d : BitVec 7) (a : BitVec 7) (s : State) :
    Answers s.HbmOf (execVexp f m d a s) :=
  vector_hbm ..

@[simp] theorem execVlog_hbm (f : BitVec 3) (m : Bool) (d : BitVec 7) (a : BitVec 7) (s : State) :
    Answers s.HbmOf (execVlog f m d a s) :=
  vector_hbm ..

@[simp] theorem execVsin_hbm (f : BitVec 3) (m : Bool) (d : BitVec 7) (a : BitVec 7) (s : State) :
    Answers s.HbmOf (execVsin f m d a s) :=
  vector_hbm ..

@[simp] theorem execVcos_hbm (f : BitVec 3) (m : Bool) (d : BitVec 7) (a : BitVec 7) (s : State) :
    Answers s.HbmOf (execVcos f m d a s) :=
  vector_hbm ..

@[simp] theorem execVtanh_hbm (f : BitVec 3) (m : Bool) (d : BitVec 7) (a : BitVec 7) (s : State) :
    Answers s.HbmOf (execVtanh f m d a s) :=
  vector_hbm ..

@[simp] theorem execVerf_hbm (f : BitVec 3) (m : Bool) (d : BitVec 7) (a : BitVec 7) (s : State) :
    Answers s.HbmOf (execVerf f m d a s) :=
  vector_hbm ..

@[simp] theorem execVsigm_hbm (f : BitVec 3) (m : Bool) (d : BitVec 7) (a : BitVec 7) (s : State) :
    Answers s.HbmOf (execVsigm f m d a s) :=
  vector_hbm ..

/-! ## VWIN -/

@[simp] theorem State.laneResults_hbm (s : State) (l : Bool) (k : BitVec 3) (w : Nat → Write) (mark : Bool) :
    (s.laneResults l k w mark).hbm = s.hbm :=
  foldl_hbm (fun _ _ => by simp) _ _

@[simp] theorem execVwin_hbm (l : Bool) (k : BitVec 3) (a : BitVec 6) (i : BitVec 14) (s : State) :
    Answers s.HbmOf (execVwin l k a i s) :=
  issuePlain_hbm (by simp)

@[simp] theorem execVshape_hbm (l : Bool) (k : BitVec 3) (r : BitVec 4) (c : BitVec 5) (s : State) :
    Answers s.HbmOf (execVshape l k r c s) :=
  issuePlain_hbm (by simp)

@[simp] theorem execVmode_hbm (l : Bool) (k : BitVec 3) (p : BitVec 3) (s : State) : Answers s.HbmOf (execVmode l k p s) :=
  issuePlain_hbm (by simp)

/-! ## Work of a core that is due (R193, R200, R205, R208, R209, R231, R274) -/

@[simp] theorem State.landWrite_hbm (s : State) (c : Nat) (w : PoolWrite) : (s.landWrite c w).hbm = s.hbm := by
  unfold State.landWrite
  refine foldl_hbm (fun s m => ?_) _ _
  split
  · rfl
  · dsimp only; split
    · rfl
    · split <;> rfl

@[simp] theorem State.landWrites_hbm (s : State) (c : Nat) : (s.landWrites c).hbm = s.hbm := by
  fun_cases State.landWrites <;> simp [foldl_hbm]

@[simp] theorem State.settleCore_hbm (s : State) (c : Nat) : (s.settleCore c).hbm = s.hbm := by
  unfold State.settleCore
  refine (foldl_hbm (fun s e => ?_) _ _).trans ((State.landWrites_hbm ..).trans
    ((foldl_hbm (fun s e => ?_) _ _).trans ((foldl_hbm (fun s _ => ?_) _ _).trans
    ((foldl_hbm (fun s _ => ?_) _ _).trans (foldl_hbm (fun s _ => ?_) _ _)))))
  · exact (State.after_hbm (execStrandEnd_hbm ..)).trans (State.after_hbm (execMatrixSlotWake_hbm ..))
  · exact (State.after_hbm (execOperandSlotFree_hbm ..)).trans (State.after_hbm (execOperandLoadComplete_hbm ..))
  · exact State.after_hbm (execEddyWorkComplete_hbm ..)
  · exact State.after_hbm (execAccumulatorPortComplete_hbm ..)
  · exact State.after_hbm (execMmaResult_hbm ..)

/-! ## Clocks (R94, R191, R370; log 7) -/

@[simp] theorem State.catchUp_hbm (s : State) (c : Nat) : (s.catchUp c).hbm = s.hbm := rfl

@[simp] theorem State.endCycle_hbm (s : State) (c : Nat) (matrix : Bool) : (s.endCycle c matrix).hbm = s.hbm := by
  simp [State.endCycle]

@[simp] theorem State.advance_hbm (s : State) (c n : Nat) : (s.advance c n).hbm = s.hbm := by simp [State.advance]

@[simp] theorem State.frosty_hbm (s old : State) (c : Nat) : (s.frosty old c).hbm = s.hbm := rfl

@[simp] theorem State.holdBundle_hbm (s : State) (c n : Nat) (timeRuns : Bool) :
    (s.holdBundle c n timeRuns).hbm = s.hbm := by
  unfold State.holdBundle
  dsimp only
  (repeat' split) <;> simp

/-! ## The choice of a strand (R93) -/

@[simp] theorem State.pickNext_hbm (s : State) (c : Nat) : (s.pickNext c).hbm = s.hbm := by
  fun_cases State.pickNext <;> simp

@[simp] theorem State.wakeStrands_hbm (s : State) (c : Nat) : (s.wakeStrands c).hbm = s.hbm := by
  refine foldl_hbm (fun s e => ?_) _ _
  split
  · simp
  · split
    · split <;> simp
    · rfl

@[simp] theorem State.park_hbm (s : State) (c n : Nat) : (s.park c n).hbm = s.hbm := rfl

/-! ## What a bundle that fails its checks does (R36, R91, R92) -/

@[simp] theorem State.trapSlots_hbm (s : State) (c n : Nat) (cs : List SlotCheck) : (s.trapSlots c n cs).hbm = s.hbm := by
  fun_cases State.trapSlots <;> simp

@[simp] theorem State.blockSlots_hbm (s : State) (c n : Nat) (vs : List Verdict) : (s.blockSlots c n vs).hbm = s.hbm := by
  unfold State.blockSlots
  split <;> simp

/-! ## The second pass: issue (R36, R94, R98, R99) -/

@[simp] theorem State.admitted_hbm (s : State) (h : Header) : (s.admitted h).hbm = s.hbm := rfl

@[simp] theorem State.closeIssue_hbm (s : State) (c n : Nat) : (s.closeIssue c n).hbm = s.hbm := rfl

/-! ## Presentation (R34, R326, R380, R424) -/

@[simp] theorem State.fetchFailed_hbm (s : State) (c n : Nat) (f : Fetched) (yBundle : Bool) :
    (s.fetchFailed c n f yBundle).hbm = s.hbm := by
  unfold State.fetchFailed
  split
  · simp [State.after_hbm (execBundleFetchFault_hbm ..)]
  · simp
  · rfl

@[simp] theorem State.noteFetch_hbm (s : State) (c va : Nat) : (s.noteFetch c va).hbm = s.hbm := by
  simp [State.noteFetch]

/-! ## The cycle of a core -/

@[simp] theorem State.departs_hbm (s : State) (c : Nat) : (s.departs c).hbm = s.hbm := by
  unfold State.departs
  split
  · rfl
  · rw [State.after_hbm (execFrostSwitch_hbm ..), State.after_hbm (execReplicaLockSwitch_hbm ..)]

/-! ## Events that the machine itself brings about -/

theorem State.changed_all {P : State → Prop} {s t : State} {f : State → Out} (hs : P s) (hf : Answers P (f s))
    (h : s.changed f = some t) :
    P t := by
  unfold State.changed at h
  dsimp only at h
  split at h
  · cases h
  · obtain rfl := Option.some.inj h
    unfold State.after
    split
    · next e => rw [e] at hf; exact hf
    · exact hs

/-! ## Cores that can go on -/

@[simp] theorem State.level_hbm (s : State) (beyond : Nat) : (s.level beyond).hbm = s.hbm :=
  foldl_hbm (fun _ _ => by split <;> simp) _ _

end Sys2Proof.Machine
end

section
/-!
PROOF. The canonical form of device memory, carried through answers and folds.
-/

set_option Elab.async false
namespace Sys2Proof.Machine

/-! ## The canonical form of device memory, through answers and folds -/

/-- Device memory is in its canonical form. -/
@[simp] abbrev State.Canonical (s : State) : Prop := Memory.wf s.hbm = true

/-- A property of the next state, where there is one. -/
def Steps (P : State → Prop) : Option State → Prop
  | some t => P t
  | none => True

@[simp] theorem steps_some (P : State → Prop) (t : State) : Steps P (some t) ↔ P t := Iff.rfl

@[simp] theorem steps_none (P : State → Prop) : Steps P none := trivial

theorem State.Canonical.of_hbm {s t : State} (h : s.Canonical) (e : t.hbm = s.hbm) : t.Canonical := by
  rw [State.Canonical, e]
  exact h

theorem Answers.canonical {s : State} {o : Out} (h : Answers s.HbmOf o) (hs : s.Canonical) : Answers State.Canonical o :=
  match o with
  | .next _ => hs.of_hbm h
  | .fault _ | .refused _ => trivial

theorem Got.All.canonical {α : Type} {s : State} {g : Got α} (h : g.All s.HbmOf) (hs : s.Canonical) :
    g.All State.Canonical :=
  match g with
  | .ok _ _ => hs.of_hbm h
  | .wait _ _ | .stuck | .fail _ _ => trivial

theorem Tried.All.canonical {s : State} {r : Tried} (h : r.All s.HbmOf) (hs : s.Canonical) : r.All State.Canonical :=
  match r with
  | .done _ | .fail _ _ _ _ => hs.of_hbm h
  | .wait _ _ | .stuck => trivial

theorem Got.All.of_ok {α : Type} {P : State → Prop} {g : Got α} {v : α} {t : State} (h : g.All P) (e : g = .ok v t) :
    P t := by
  rw [e] at h
  exact h

theorem Tried.All.of_done {P : State → Prop} {r : Tried} {t : State} (h : r.All P) (e : r = .done t) : P t := by
  rw [e] at h
  exact h

theorem Tried.All.of_fail {P : State → Prop} {r : Tried} {st c : Nat} {a : Word} {t : State} (h : r.All P)
    (e : r = .fail st c a t) :
    P t := by
  rw [e] at h
  exact h

theorem Steps.of_some {P : State → Prop} {o : Option State} {t : State} (h : Steps P o) (e : o = some t) : P t := by
  rw [e] at h
  exact h

theorem Steps.or {P : State → Prop} {o p : Option State} (ho : Steps P o) (hp : Steps P p) : Steps P (o.or p) := by
  cases o with
  | none => exact hp
  | some t => exact ho

theorem Steps.bind {α : Type} {P : State → Prop} {o : Option α} {f : α → Option State} (h : ∀ a, Steps P (f a)) :
    Steps P (o.bind f) := by
  cases o with
  | none => trivial
  | some a => exact h a

theorem Steps.map {α : Type} {P : State → Prop} {o : Option α} {f : α → State} (h : ∀ a, o = some a → P (f a)) :
    Steps P (o.map f) := by
  cases o with
  | none => trivial
  | some a => exact h a rfl

theorem foldl_canonical {α : Type} {f : State → α → State} (h : ∀ s a, s.Canonical → (f s a).Canonical) (l : List α)
    {s : State} (hs : s.Canonical) :
    (l.foldl f s).Canonical := by
  induction l generalizing s with
  | nil => exact hs
  | cons a l ih => exact ih (h s a hs)

theorem State.after_canonical {s : State} {f : State → Out} (hs : s.Canonical) (h : Answers State.Canonical (f s)) :
    (s.after f).Canonical := by
  unfold State.after
  split
  · next t e => rw [e] at h; exact h
  · exact hs

theorem Steps.getD {s : State} {o : Option State} (h : Steps State.Canonical o) (hs : s.Canonical) :
    (o.getD s).Canonical := by
  cases o with
  | none => exact hs
  | some t => exact h

theorem Steps.of_hbm {s : State} {o : Option State} (h : s.Canonical) (ho : ∀ t, o = some t → t.hbm = s.hbm) :
    Steps State.Canonical o := by
  cases o with
  | none => trivial
  | some t => exact h.of_hbm (ho t rfl)

theorem Steps.findSome {α : Type} {P : State → Prop} {l : List α} {f : α → Option State} (h : ∀ a ∈ l, Steps P (f a)) :
    Steps P (l.findSome? f) := by
  cases e : l.findSome? f with
  | none => trivial
  | some t =>
    obtain ⟨_, a, _, rfl, ha, _⟩ := List.findSome?_eq_some_iff.1 e
    exact (h a (by simp)).of_some ha

/-! ## Events -/

/-- An event leaves device memory in its canonical form. -/
def Keeps (f : State → Out) : Prop := ∀ s : State, s.Canonical → Answers State.Canonical (f s)

/-- Every event of a list leaves device memory in its canonical form. -/
def AllKeep (fs : List (State → Out)) : Prop := ∀ f ∈ fs, Keeps f

theorem Keeps.of_hbm {f : State → Out} (h : ∀ s : State, Answers s.HbmOf (f s)) : Keeps f := fun s hs => (h s).canonical hs

theorem AllKeep.nil : AllKeep [] := fun _ h => by cases h

theorem AllKeep.cons {f : State → Out} {fs : List (State → Out)} (hf : Keeps f) (hfs : AllKeep fs) : AllKeep (f :: fs) :=
  List.forall_mem_cons.2 ⟨hf, hfs⟩

theorem AllKeep.append {fs gs : List (State → Out)} (hf : AllKeep fs) (hg : AllKeep gs) : AllKeep (fs ++ gs) :=
  List.forall_mem_append.2 ⟨hf, hg⟩

theorem AllKeep.map {α : Type} {l : List α} {g : α → State → Out} (h : ∀ a, Keeps (g a)) : AllKeep (l.map g) :=
  List.forall_mem_map.2 fun a _ => h a

theorem AllKeep.flatMap {α : Type} {l : List α} {g : α → List (State → Out)} (h : ∀ a, AllKeep (g a)) :
    AllKeep (l.flatMap g) := by
  intro f hf
  obtain ⟨a, _, ha⟩ := List.mem_flatMap.1 hf
  exact h a f ha

end Sys2Proof.Machine
end

section
/-!
PROOF. What writes device memory keeps its canonical form (R5), in the order of the model; and so does every step (O7).
-/

set_option Elab.async false
namespace Sys2Proof.Machine

/-! ## HBM and held lines (R130, R138, R139, R328) -/

@[simp] theorem State.hbmWrite_canonical {s : State} {pa : Nat} {bs : List Byte} {mark : Bool} (h : s.Canonical) :
    (s.hbmWrite pa bs mark).Canonical :=
  hbmWrite_wf s pa bs mark h

@[simp] theorem State.hbmMerge_canonical {s : State} {pa : Nat} {v : Line} {mask : BitVec 64} {mark : Bool}
    (h : s.Canonical) :
    (s.hbmMerge pa v mask mark).Canonical :=
  hbmMerge_wf s pa v mask mark h

/-! ## Places -/

@[simp] theorem State.writeTarget_canonical {s : State} {tgt : Target} {bytes : List Byte} {mark : Bool} (h : s.Canonical) :
    (s.writeTarget tgt bytes mark).Canonical := by
  unfold State.writeTarget
  split <;> simp [h]

@[simp] theorem State.performCommit_canonical {s : State} {d k : Nat} (h : s.Canonical) :
    (s.performCommit d k).Canonical := by
  unfold State.performCommit
  dsimp only
  split
  · exact h
  · exact foldl_canonical (fun _ _ h => State.hbmMerge_canonical h) _ (h.of_hbm (State.modDie_hbm ..))

/-! ## Posted stores (R139, R144, R265) -/

@[simp] theorem execStorePerformed_canonical {c id : Nat} {s : State} (h : s.Canonical) :
    Answers State.Canonical (execStorePerformed c id s) := by
  unfold execStorePerformed
  dsimp only
  (repeat' split) <;> simp [h]

/-! ## Replicated pages (R141) -/

@[simp] theorem execReplicaUpdate_canonical {id : Nat} {s : State} (h : s.Canonical) :
    Answers State.Canonical (execReplicaUpdate id s) := by
  have written (ws : List Store) : (ws.foldl (fun s v => s.writeTarget v.target v.bytes v.mark) s).Canonical :=
    foldl_canonical (fun _ _ h => State.writeTarget_canonical h) ws h
  unfold execReplicaUpdate
  dsimp only
  (repeat' split) <;> simp [h, written]

/-! ## A core without its strands -/

@[simp] theorem State.serveCore_canonical {s : State} {c : Nat} (h : s.Canonical) : (s.serveCore c).Canonical := by
  refine foldl_canonical (fun s l h => ?_) _ (foldl_canonical (fun s w h => ?_) _ h)
  · exact State.after_canonical h ((execLateResult_hbm ..).canonical h)
  · have performed := State.after_canonical h (execStorePerformed_canonical (c := c) (id := w.id) h)
    have locked := State.after_canonical performed (execReplicaUpdate_canonical (id := w.id) performed)
    exact State.after_canonical locked (execReplicaUpdate_canonical locked)

/-! ## The reads and writes of a command -/

@[simp] theorem State.cmdWrite_canonical {s : State} {m : Cmd} {ea : Word} {bytes : List Byte} {mark neverHeld : Bool}
    {keys : List Nat} (h : s.Canonical) :
    (s.cmdWrite m ea bytes mark neverHeld keys).All State.Canonical := by
  unfold State.cmdWrite
  dsimp only
  (repeat' split) <;> simp [h]

theorem State.cmdReadRange_canonical {s : State} {m : Cmd} {ea : Word} {n : Nat} (h : s.Canonical) :
    (s.cmdReadRange m ea n).All State.Canonical :=
  (State.cmdReadRange_hbm ..).canonical h

@[simp] theorem State.cmdWriteRange_canonical {s : State} {m : Cmd} {ea : Word} {bytes : List Byte} {mark neverHeld : Bool}
    (h : s.Canonical) :
    (s.cmdWriteRange m ea bytes mark neverHeld).All State.Canonical := by
  unfold State.cmdWriteRange
  split
  · trivial
  · trivial
  · trivial
  · refine List.foldlRecOn _ _ (motive := fun a : Got Unit × Nat => a.1.All State.Canonical) h fun a ha p _ => ?_
    split
    · next e => exact State.cmdWrite_canonical (ha.of_ok e)
    · exact ha

/-! ## The end of a command (R243 to R245, R251) -/

@[simp] theorem State.saccApply_canonical {s : State} {m : Cmd} {tgt : Target} {vs : List Nat} {mark : Bool}
    (h : s.Canonical) :
    (s.saccApply m tgt vs mark).Canonical := by
  simp [State.saccApply, h]

@[simp] theorem State.flushUpdates_canonical {s : State} {m : Cmd} (h : s.Canonical) :
    Steps State.Canonical (s.flushUpdates m) := by
  unfold State.flushUpdates
  split
  · trivial
  · exact State.Canonical.of_hbm (foldl_canonical (fun _ _ h => State.saccApply_canonical h) _
      (foldl_canonical (fun _ _ h => State.writeTarget_canonical h) _ h)) (State.modCmd_hbm ..)

@[simp] theorem State.endCmd_canonical {s : State} {id status cause : Nat} {addr : Word} (h : s.Canonical) :
    Steps State.Canonical (s.endCmd id status cause addr) := by
  unfold State.endCmd
  split
  · trivial
  · split
    · trivial
    · next t e => exact State.Canonical.of_hbm ((State.flushUpdates_canonical h).of_some e) (by simp)

/-! ## Units and windows (R249) -/

@[simp] theorem State.tried_canonical {s : State} {m : Cmd} {u : Nat} {r : Tried} (h : s.Canonical)
    (hr : r.All State.Canonical) :
    Steps State.Canonical (s.tried m u r) :=
  match r with
  | .done _ => State.Canonical.of_hbm hr (State.modCmd_hbm ..)
  | .wait ms _ => h.of_hbm ((State.modCmd_hbm ..).trans (State.postAll_hbm s ms))
  | .stuck => trivial
  | .fail .. => State.endCmd_canonical hr

@[simp] theorem State.tryUnit_canonical {s : State} {m : Cmd} {u : Nat} {f : State → Cmd → Nat → Tried} (h : s.Canonical)
    (hf : (f s m u).All State.Canonical) :
    Steps State.Canonical (s.tryUnit m u f) :=
  State.tried_canonical h hf

/-! ## Copies (R252 to R254) -/

@[simp] theorem copyWrite_canonical {s : State} {m : Cmd} {u : Nat} (h : s.Canonical) :
    (copyWrite s m u).All State.Canonical :=
  Got.all_tried (State.cmdWrite_canonical h) h fun _ _ h => h.of_hbm (by simp)

@[simp] theorem State.stepCpy_canonical {s : State} {m : Cmd} (h : s.Canonical) : Steps State.Canonical (s.stepCpy m) := by
  unfold State.stepCpy
  dsimp only
  split
  · exact State.endCmd_canonical h
  · split
    · exact State.tryUnit_canonical h (copyWrite_canonical h)
    · split
      · trivial
      · split
        · exact State.tryUnit_canonical h h
        · split
          · next t e => exact State.Canonical.of_hbm (((copyRead_hbm ..).canonical h).of_done e) (by simp)
          · exact State.tried_canonical h ((copyRead_hbm ..).canonical h)

@[simp] theorem copyTee_canonical {s : State} {m : Cmd} {u : Nat} (h : s.Canonical) : (copyTee s m u).All State.Canonical :=
  Got.all_tried (State.cmdWrite_canonical h) h fun _ _ h => h.of_hbm (State.modCmd_hbm ..)

@[simp] theorem copyUnit_canonical {tee : Bool} {s : State} {m : Cmd} {u : Nat} (h : s.Canonical) :
    (copyUnit tee s m u).All State.Canonical := by
  unfold copyUnit
  dsimp only
  split
  · exact copyTee_canonical h
  · split
    · exact h
    · exact (copyTake_hbm ..).canonical h

@[simp] theorem State.stepCopy_canonical {s : State} {m : Cmd} {tee : Bool} {b : Binding} (h : s.Canonical) :
    Steps State.Canonical (s.stepCopy m tee b) := by
  unfold State.stepCopy
  extract_lets c blocked
  split
  · next t e => exact h.of_hbm (State.deliverNext_hbm e)
  · split
    · exact State.flushUpdates_canonical h
    · split
      · exact State.endCmd_canonical h
      · split
        · trivial
        · refine Steps.bind fun u => ?_
          dsimp only
          split
          · next q e =>
            split
            · exact (copyUnit_canonical h).of_done e
            · exact State.tried_canonical h (copyUnit_canonical h)
          · exact State.tried_canonical h (copyUnit_canonical h)

/-! ## Scatter-accumulate (R255) -/

@[simp] theorem State.saccUpdate_canonical {s : State} {m : Cmd} {mem : Bool} {u : Nat} {pairs : List Nat}
    {vs : List (Nat × Bool)} (h : s.Canonical) :
    (s.saccUpdate m mem u pairs vs).All State.Canonical := by
  unfold State.saccUpdate
  extract_lets n p
  split
  · exact h
  · trivial
  · trivial
  · exact h.of_hbm (State.noteHoles_hbm ..)
  · next noted values mark _ _ _ _ _ =>
    extract_lets ready held
    have hnoted : noted.Canonical := h.of_hbm (by unfold noted; split <;> simp)
    split
    · trivial
    · split
      · next old r marked combined _ _ =>
        have hread : combined.Canonical := hnoted.of_hbm ((State.modCmd_hbm ..).trans (State.readTarget_hbm ..))
        exact Got.all_tried (State.cmdWrite_canonical hread) hread fun _ _ h => h
      · split
        · split
          · exact hnoted.of_hbm (State.modCmd_hbm ..)
          · exact State.saccApply_canonical hnoted
        · exact State.saccApply_canonical hnoted

theorem State.saccGroup_canonical {m : Cmd} {mem : Bool} {ps : List (Nat × Pair)} {a : SaccPass} {u : Nat}
    (h : a.s.Canonical) :
    (State.saccGroup m mem ps a u).s.Canonical := by
  unfold State.saccGroup
  extract_lets mine hold waiting
  clear_value waiting
  split
  · exact h
  · split
    · exact h
    · split
      · next t e => exact State.Canonical.of_hbm ((State.saccUpdate_canonical h).of_done e) (State.modCmd_hbm ..)
      · exact h
      · exact h
      · next e => exact (State.saccUpdate_canonical h).of_fail e

@[simp] theorem State.stepSacc_canonical {s : State} {m : Cmd} {mem : Bool} (h : s.Canonical) :
    Steps State.Canonical (s.stepSacc m mem) := by
  unfold State.stepSacc
  extract_lets total lo hi left todo
  split
  · exact State.endCmd_canonical h
  · split
    · trivial
    · next r us unread a p old mask _ _ =>
      have paired : r.2.Canonical := h.of_hbm (State.saccPairs_hbm ..)
      have grouped : a.s.Canonical :=
        List.foldlRecOn us _ (motive := fun a : SaccPass => a.s.Canonical) paired fun _ ha _ _ => State.saccGroup_canonical ha
      split
      · exact State.endCmd_canonical paired
      · split
        · exact State.endCmd_canonical grouped
        · split
          · trivial
          · exact grouped.of_hbm ((State.modCmd_hbm ..).trans (State.postWaits_hbm ..))

/-! ## Routing counters (R256) -/

@[simp] theorem State.stepRcnt_canonical {s : State} {m : Cmd} (h : s.Canonical) :
    Steps State.Canonical (s.stepRcnt m) := by
  have drawn : s.draw.2.Canonical := h.of_hbm (State.draw_hbm s)
  unfold State.stepRcnt
  extract_lets total
  split
  · exact State.endCmd_canonical h
  · next pick read add _ =>
    have hread : Steps State.Canonical read :=
      Steps.bind fun u => State.tryUnit_canonical drawn ((rcntUnit_hbm ..).canonical drawn)
    have hadd : Steps State.Canonical add := Steps.map fun e _ => drawn.of_hbm (State.rcntAdd_hbm ..)
    split
    · exact hread.or hadd
    · exact hadd.or hread

@[simp] theorem State.stepRsnap_canonical {s : State} {m : Cmd} (h : s.Canonical) :
    Steps State.Canonical (s.stepRsnap m) := by
  unfold State.stepRsnap
  split
  · trivial
  · split
    · split <;> simp [h]
    · split
      · exact State.endCmd_canonical (h.of_hbm (State.modCmd_hbm ..))
      · split
        · next t e =>
          have written := (State.cmdWrite_canonical (h.of_hbm (State.draw_hbm s))).of_ok e
          exact State.Canonical.of_hbm written (State.modCmd_hbm ..)
        · exact h.of_hbm (State.awaitPage_hbm ..)
        · trivial
        · exact State.endCmd_canonical h

/-! ## ZIP -/

@[simp] theorem State.endWithField_canonical {s : State} {m : Cmd} {v : Nat} (h : s.Canonical) :
    Steps State.Canonical (s.endWithField m v) :=
  Steps.map fun _ e => State.Canonical.of_hbm ((State.endCmd_canonical h).of_some e) (State.modNamed_hbm ..)

@[simp] theorem State.stepZip_canonical {s : State} {m : Cmd} (h : s.Canonical) : Steps State.Canonical (s.stepZip m) := by
  unfold State.stepZip
  dsimp only
  split
  · split
    · trivial
    · split
      · exact State.endCmd_canonical h
      · split
        · next e => exact State.Canonical.of_hbm ((State.cmdWriteRange_canonical h).of_ok e) (State.modCmd_hbm ..)
        · exact h.of_hbm (State.awaitPage_hbm ..)
        · trivial
        · exact State.endCmd_canonical h
  · split
    · split
      · trivial
      · split
        · exact State.endCmd_canonical h
        · split
          · next e => exact State.endWithField_canonical ((State.cmdWriteRange_canonical h).of_ok e)
          · exact h.of_hbm (State.awaitPage_hbm ..)
          · trivial
          · exact State.endCmd_canonical h
    · split
      · exact State.tryUnit_canonical h ((zipUnit_hbm ..).canonical h)
      · trivial

/-! ## UNZIP -/

@[simp] theorem State.unzipHeader_canonical {s : State} {m : Cmd} (h : s.Canonical) :
    Steps State.Canonical (s.unzipHeader m) := by
  unfold State.unzipHeader
  dsimp only
  split
  · trivial
  · split
    · exact State.endCmd_canonical h
    · split
      · exact h.of_hbm (State.awaitPage_hbm ..)
      · trivial
      · exact State.endCmd_canonical h
      · next v t e =>
        have read : t.Canonical := (State.cmdReadRange_canonical h).of_ok e
        (repeat' split) <;> simp [read]

@[simp] theorem State.unzipBlock_canonical {s : State} {m : Cmd} (h : s.Canonical) :
    Steps State.Canonical (s.unzipBlock m) := by
  unfold State.unzipBlock
  dsimp only
  split
  · trivial
  · split
    · exact State.endCmd_canonical h
    · split
      · exact h.of_hbm (State.awaitPage_hbm ..)
      · trivial
      · exact State.endCmd_canonical h
      · next v t e =>
        have counted : t.Canonical := (State.cmdReadRange_canonical h).of_ok e
        split
        · exact State.endCmd_canonical h
        · split
          · exact State.endCmd_canonical h
          · split
            · exact counted.of_hbm (State.awaitPage_hbm ..)
            · trivial
            · exact State.endCmd_canonical counted
            · next w u e =>
              have read : u.Canonical := (State.cmdReadRange_canonical counted).of_ok e
              split
              · exact State.endCmd_canonical h
              · exact read.of_hbm (State.modCmd_hbm ..)

@[simp] theorem unzipUnit_canonical {s : State} {m : Cmd} {u : Nat} (h : s.Canonical) :
    (unzipUnit s m u).All State.Canonical :=
  Got.all_tried (State.cmdWrite_canonical h) h fun _ _ h => h.of_hbm (State.modCmd_hbm ..)

@[simp] theorem State.stepUnzip_canonical {s : State} {m : Cmd} (h : s.Canonical) :
    Steps State.Canonical (s.stepUnzip m) := by
  unfold State.stepUnzip
  dsimp only
  split
  · exact State.unzipHeader_canonical h
  · split
    · (repeat' split) <;> simp [h]
    · split
      · exact State.tryUnit_canonical h (unzipUnit_canonical h)
      · trivial

/-! ## REPL (R262) -/

@[simp] theorem State.stepRepl_canonical {s : State} {m : Cmd} {withdraw : Bool} (h : s.Canonical) :
    Steps State.Canonical (s.stepRepl m withdraw) := by
  unfold State.stepRepl
  dsimp only
  split
  · exact State.endCmd_canonical h
  · split
    · trivial
    · split
      · next e => exact h.of_hbm (State.replLock_hbm _ _ _ e)
      · exact State.tryUnit_canonical h ((replUnit_hbm ..).canonical h)

/-! ## Team images (R263) -/

@[simp] theorem saveUnit_canonical {s : State} {m : Cmd} {u : Nat} (h : s.Canonical) :
    (saveUnit s m u).All State.Canonical :=
  Got.all_tried (State.cmdWrite_canonical h) h fun _ _ h => h.of_hbm (State.modCmd_hbm ..)

@[simp] theorem State.stepTsave_canonical {s : State} {m : Cmd} (h : s.Canonical) :
    Steps State.Canonical (s.stepTsave m) := by
  unfold State.stepTsave
  dsimp only
  split
  · exact State.endCmd_canonical h
  · split
    · trivial
    · split
      · split <;> simp [h]
      · exact State.tryUnit_canonical h (saveUnit_canonical h)

@[simp] theorem State.stepTload_canonical {s : State} {m : Cmd} (h : s.Canonical) :
    Steps State.Canonical (s.stepTload m) := by
  -- opened as a function and with the image's length as a variable: the kernel would evaluate the length
  obtain ⟨f, hf⟩ : ∃ f, f = State.stepTload := ⟨_, rfl⟩
  rw [← hf]
  delta State.stepTload at hf
  rw [hf]
  beta_reduce
  generalize imageLines_ m.cap = total
  simp only
  split
  · next e => exact h.of_hbm (State.checkLine_hbm e)
  · split
    · split <;> simp [h]
    · split
      · next e => exact h.of_hbm (State.loadLines_hbm e)
      · split
        · split <;> simp [h]
        · split
          · exact State.tryUnit_canonical h ((loadUnit_hbm ..).canonical h)
          · trivial

/-! ## UNLEASE (R258) -/

@[simp] theorem State.stepUnlease_canonical {s : State} {m : Cmd} {l : Nat} (h : s.Canonical) :
    Steps State.Canonical (s.stepUnlease m l) := by
  unfold State.stepUnlease
  dsimp only
  (repeat' split) <;> simp [h]

/-! ## Bytes of team memory that the home moves (R329, R331) -/

@[simp] theorem State.teamWrite_canonical {s : State} {d t : Nat} {ea : Word} {bytes : List Byte} {mark : Bool}
    (h : s.Canonical) :
    (s.teamWrite d t ea bytes mark).Canonical := by
  refine List.foldlRecOn _ _ (motive := fun a : State × Nat => a.1.Canonical) h fun a ha p _ => ?_
  split
  · exact State.writeTarget_canonical ha
  · exact ha

/-! ## Release (R325) -/

@[simp] theorem State.fillSlot_canonical {s : State} {d t : Nat} {j : Join} {k : Nat} (h : s.Canonical) :
    (s.fillSlot d t j k).All State.Canonical := by
  unfold State.fillSlot
  dsimp only
  (repeat' split) <;> simp [h]

@[simp] theorem State.fillSlots_canonical {d t q : Nat} {todo : List Nat} {s : State} (h : s.Canonical) :
    (s.fillSlots d t q todo).Canonical := by
  induction todo generalizing s with
  | nil => exact h.of_hbm (by simp [State.fillSlots])
  | cons k rest ih =>
    have filled := State.fillSlot_canonical (d := d) (t := t) (j := (s.team d t).joinAt q) (k := k) h
    rw [State.fillSlots]
    split
    · next e => rw [e] at filled; exact ih filled
    · exact ih (h.of_hbm (State.modJoin_hbm ..))
    · exact h.of_hbm ((State.modJoin_hbm ..).trans (State.postAll_hbm ..))

@[simp] theorem State.releaseJoin_canonical {s : State} {d t q : Nat} (h : s.Canonical) :
    (s.releaseJoin d t q).Canonical := by
  unfold State.releaseJoin
  extract_lets j locals out opened condemned k committed todo
  have hbm : committed.hbm = s.hbm :=
    (foldl_hbm (fun s i => State.commitHeld_hbm s _ k) _ _).trans
      ((foldl_hbm (fun s i => by split <;> simp) _ _).trans (State.modJoin_hbm ..))
  split
  · exact State.fillSlots_canonical (h.of_hbm hbm)
  · exact h.of_hbm ((State.modJoin_hbm ..).trans hbm)

@[simp] theorem State.slotsOn_canonical {s : State} {d t q : Nat} (h : s.Canonical) : (s.slotsOn d t q).Canonical :=
  State.fillSlots_canonical (h.of_hbm (State.modJoin_hbm ..))

@[simp] theorem State.resumeRelease_canonical {s : State} {d t q : Nat} {refused : Bool} (h : s.Canonical) :
    (s.resumeRelease d t q refused).Canonical :=
  State.fillSlots_canonical (h.of_hbm (State.modJoin_hbm ..))

@[simp] theorem State.arrive_canonical {s : State} {d t q : Nat} {k : Task} (h : s.Canonical) :
    (s.arrive d t q k).Canonical := by
  unfold State.arrive
  dsimp only
  (repeat' split) <;> simp [h]

/-! ## One-sided writes (R291, R292) -/

@[simp] theorem execMemWrite_canonical {m : Message} {s : State} (h : s.Canonical) :
    Answers State.Canonical (execMemWrite m s) := by
  obtain ⟨herr, hok⟩ := s.admitWrite_hbm 1 m
  unfold execMemWrite
  split
  · next e => exact h.of_hbm (herr _ e)
  · next d t r e =>
    have admitted : r.Canonical := h.of_hbm (hok _ e)
    extract_lets ea
    split
    · exact admitted.of_hbm ((State.answer_hbm ..).trans ((State.dropPart_hbm ..).trans (State.postAll_hbm ..)))
    · exact admitted.of_hbm ((State.answer_hbm ..).trans (State.dropPart_hbm ..))
    · next targets ls now write _ _ _ =>
      have hwrite {u : State} (hu : u.Canonical) : (write u).Canonical :=
        foldl_canonical (fun _ _ h => State.teamWrite_canonical h) _ hu
      split
      · exact h
      · split
        · exact State.Canonical.of_hbm (hwrite admitted) ((State.answer_hbm ..).trans (State.dropPart_hbm ..))
        · exact State.Canonical.of_hbm (hwrite h) (State.notePart_hbm ..)

@[simp] theorem State.land_canonical {s : State} {d t : Nat} {m : Message} (h : s.Canonical) :
    (s.land d t m).Canonical := by
  unfold State.land
  split <;> simp [h]

@[simp] theorem State.freeEntry_canonical {s : State} {d t e : Nat} (h : s.Canonical) : (s.freeEntry d t e).Canonical :=
  State.hbmWrite_canonical h

@[simp] theorem execPoolWrite_canonical {m : Message} {s : State} (h : s.Canonical) :
    Answers State.Canonical (execPoolWrite m s) := by
  obtain ⟨herr, hok⟩ := s.admitWrite_hbm 2 m
  unfold execPoolWrite
  split
  · next e => exact h.of_hbm (herr _ e)
  · next d t r e =>
    have admitted : r.Canonical := h.of_hbm (hok _ e)
    dsimp only
    split
    · exact admitted.of_hbm (State.answer_hbm ..)
    · split
      · split
        · split
          · exact admitted.of_hbm ((State.answer_hbm ..).trans ((State.dropPart_hbm ..).trans (State.applyPool_hbm ..)))
          · exact h.of_hbm ((State.notePart_hbm ..).trans (State.applyPool_hbm ..))
        · exact admitted
      · exact State.land_canonical (admitted.of_hbm (State.dropPart_hbm ..))

@[simp] theorem execStreamWrite_canonical {m : Message} {s : State} (h : s.Canonical) :
    Answers State.Canonical (execStreamWrite m s) := by
  obtain ⟨herr, hok⟩ := s.admitWrite_hbm 3 m
  unfold execStreamWrite
  split
  · next e => exact h.of_hbm (herr _ e)
  · next d t r e =>
    have admitted : r.Canonical := h.of_hbm (hok _ e)
    extract_lets w
    split
    · exact admitted.of_hbm (State.answer_hbm ..)
    · next scanned pending _ =>
      have hscanned : scanned.Canonical := by
        unfold scanned
        split
        · exact admitted.of_hbm (State.abortScans_hbm ..)
        · exact admitted
      split
      · split
        · split
          · exact hscanned.of_hbm (State.answer_hbm ..)
          · exact hscanned.of_hbm ((State.answer_hbm ..).trans (State.modStrand_hbm ..))
        · exact hscanned
      · exact State.land_canonical hscanned

@[simp] theorem State.applyAll_canonical {d t : Nat} {todo kept : List Landed} {s : State} (h : s.Canonical) :
    (s.applyAll d t todo kept).Canonical := by
  induction todo generalizing s kept with
  | nil => exact h.of_hbm (State.modTeam_hbm ..)
  | cons l rest ih =>
    rw [State.applyAll]
    split
    · exact ih h
    · split
      · next e => exact ih (State.freeEntry_canonical (h.of_hbm (State.applyLanded_hbm e)))
      · exact ih h

@[simp] theorem execLandedStreamApply_canonical {d t : Nat} {s : State} (h : s.Canonical) :
    Answers State.Canonical (execLandedStreamApply d t s) := by
  unfold execLandedStreamApply
  split
  · exact State.applyAll_canonical h
  · exact h

/-! ## SEND (R294, R295) -/

@[simp] theorem State.stepSend_canonical {s : State} {m : Cmd} (h : s.Canonical) :
    Steps State.Canonical (s.stepSend m) := by
  unfold State.stepSend
  dsimp only
  split
  · split <;> simp [h]
  · split
    · trivial
    · split
      · exact h.of_hbm (State.awaitPage_hbm ..)
      · trivial
      · exact h.of_hbm (State.modCmd_hbm ..)
      · next v t e =>
        have read : t.Canonical := (State.cmdReadRange_canonical h).of_ok e
        split
        · exact read.of_hbm (State.modCmd_hbm ..)
        · next e => exact read.of_hbm ((State.modCmd_hbm ..).trans ((State.keepSent_hbm ..).trans (State.transmit_hbm e)))

@[simp] theorem State.cancelSend_canonical {s : State} {m : Cmd} (h : s.Canonical) :
    Steps State.Canonical (s.cancelSend m) := by
  unfold State.cancelSend
  (repeat' split) <;> simp [h]

/-! ## Memory of a run (R303) -/

@[simp] theorem State.writeElems_canonical {s : State} {d t : Nat} {base : Word} {efc first : Nat} {cs : List Nat}
    {mark : Bool} (h : s.Canonical) :
    (s.writeElems d t base efc first cs mark).Canonical := by
  unfold State.writeElems
  dsimp only
  (repeat' split) <;> simp [h]

/-! ## One action of a run -/

theorem State.stallRun_canonical {s : State} {d t i : Nat} {r : Reach} {k : State → Act} (h : s.Canonical)
    (hk : (k s).All State.Canonical) :
    (s.stallRun d t i r k).All State.Canonical :=
  State.stallRun_all h (fun _ e => h.of_hbm e) hk

@[simp] theorem State.writeResult_canonical {s : State} {d t i c : Nat} {codes : List Nat} {mark : Bool} (h : s.Canonical) :
    (s.writeResult d t i c codes mark).Canonical := by
  simp [State.writeResult, h]

@[simp] theorem State.acceptSlots_canonical {s : State} {d t i : Nat} {ws : List (Word × Nat × Nat × List Nat × Bool)}
    (h : s.Canonical) :
    (s.acceptSlots d t i ws).Canonical := by
  refine foldl_canonical (fun s w h => ?_) ws h
  dsimp only
  split
  · exact h.of_hbm (State.modRun_hbm ..)
  · exact State.writeElems_canonical h

theorem State.sweepNow_canonical {s : State} {d t i c : Nat} {repeated : Bool} {parts : List Part} (h : s.Canonical) :
    (s.sweepNow d t i c repeated parts).All State.Canonical := by
  unfold State.sweepNow
  extract_lets k e
  split
  · exact h
  · next n subs read mark spread mine sorted plain swept _ r _ =>
    extract_lets scale ratio result parts whole noted again fixed settled gs ws ms new marked moment param updated codes wrote
      units unscaled
    have hread : read.Canonical := h.of_hbm (foldl_snd_hbm (fun _ _ => by simp) _ _)
    have hnoted : noted.Canonical := hread.of_hbm (State.noteScale_hbm ..)
    have hsettled : settled.Canonical := State.acceptSlots_canonical hnoted
    have hspread {u : State} (hu : u.Canonical) (payload : List Byte) : (spread u payload).All State.Canonical := by
      unfold spread
      split
      · next e => exact hu.of_hbm (State.sendChunks_hbm e)
      · exact hu
    have hupdated : updated.Canonical := by
      have hms : ms.2.Canonical := by
        unfold ms
        split
        · exact hsettled.of_hbm ((State.readElems_hbm ..).trans (State.readElems_hbm ..))
        · exact hsettled.of_hbm (State.readElems_hbm ..)
      have hmoment : moment.Canonical := by
        unfold moment
        split
        · exact State.writeElems_canonical hms
        · exact hms
      exact State.writeResult_canonical (State.writeElems_canonical hmoment)
    have hunscaled : unscaled.Canonical := State.writeResult_canonical (State.acceptSlots_canonical hread)
    split
    · split
      · refine hspread (hnoted.of_hbm ?_) _
        unfold again
        split <;> exact State.modRun_hbm ..
      · split
        · split
          · next e => exact hupdated.of_hbm (State.sendChunks_hbm e)
          · exact hupdated
        · exact hspread (State.writeResult_canonical hsettled) _
    · split
      · next e => exact hunscaled.of_hbm (State.sendChunks_hbm e)
      · exact hunscaled

theorem State.sweep_canonical {s : State} {d t i c : Nat} {repeated : Bool} {parts : List Part} {use : State → State}
    (h : s.Canonical) (huse : (use s).hbm = s.hbm) :
    (s.sweep d t i c repeated parts use).All State.Canonical := by
  unfold State.sweep
  exact State.stallRun_canonical h (State.stallRun_canonical h (State.sweepNow_canonical (h.of_hbm huse)))

/-! ## The chunks in staging -/

theorem State.takeResult_canonical {s : State} {d t i : Nat} {h : HeldChunk} (hs : s.Canonical) :
    (s.takeResult d t i h).All State.Canonical := by
  unfold State.takeResult
  extract_lets k e c forward x xs
  have hforward {u : State} (hu : u.Canonical) : (forward u).All State.Canonical := by
    unfold forward
    split
    · next e => exact hu.of_hbm (State.sendChunks_hbm e)
    · exact hu
  split
  · next noted _ _ =>
    have hnoted : noted.Canonical := hs.of_hbm ((State.noteScale_hbm ..).trans (State.useChunk_hbm ..))
    refine hforward ?_
    split <;> exact hnoted.of_hbm (State.modRun_hbm ..)
  · refine State.stallRun_canonical hs (hforward (State.writeResult_canonical ?_))
    split
    · exact hs.of_hbm ((State.noteScale_hbm ..).trans (State.useChunk_hbm ..))
    · exact hs.of_hbm (State.useChunk_hbm ..)

theorem State.takePartial_canonical {s : State} {d t i : Nat} {h : HeldChunk} (hs : s.Canonical) :
    (s.takePartial d t i h).All State.Canonical := by
  unfold State.takePartial
  extract_lets k e c scale go
  have hgo (u : State) : (go u).1.hbm = u.hbm := by
    unfold go
    dsimp only
    split <;> simp
  have hused (u : State) : (go (u.useChunk d t i h)).1.hbm = u.hbm := (hgo _).trans (State.useChunk_hbm ..)
  refine State.stallRun_canonical hs ?_
  split
  · refine State.stallRun_canonical hs ?_
    dsimp only
    split
    · exact State.sweepNow_canonical (hs.of_hbm ((State.modRun_hbm ..).trans (hused s)))
    · exact State.sweepNow_canonical (hs.of_hbm (hused s))
  · dsimp only
    split
    · exact hs
    · next e =>
      have reserved := hs.of_hbm ((State.reserve_hbm e).trans (hused s))
      split
      · next e => exact reserved.of_hbm (State.sendChunk_hbm e)
      · exact reserved

theorem State.takeHeld_canonical {s : State} {d t i : Nat} {h : HeldChunk} (hs : s.Canonical) {a : Act}
    (ha : s.takeHeld d t i h = some a) :
    a.All State.Canonical := by
  unfold State.takeHeld at ha
  dsimp only at ha
  split at ha
  · cases ha
  · split at ha
    · cases ha
    · split at ha
      · cases ha
        exact hs.of_hbm (State.modTile_hbm ..)
      · split at ha
        · cases ha
          exact hs
        · split at ha
          · cases ha
            exact State.takeResult_canonical hs
          · split at ha
            · cases ha
              exact State.takePartial_canonical hs
            · split at ha
              · obtain ⟨l, _, rfl⟩ := Option.map_eq_some_iff.1 ha
                exact State.sweep_canonical hs (foldl_hbm (fun s h => State.useChunk_hbm ..) l s)
              · cases ha

/-! ## Own contributions -/

theorem State.startChunk_canonical {s : State} {d t i c : Nat} {scale : Int} {repeated : Bool} (h : s.Canonical) :
    (s.startChunk d t i c scale repeated).All State.Canonical := by
  unfold State.startChunk
  extract_lets k e
  split
  · exact h
  · next note send _ r _ =>
    have hnote {u : State} (hu : u.Canonical) : (note u).Canonical := hu.of_hbm (State.modRun_hbm ..)
    have hsend {u : State} (hu : u.Canonical) (dsts : List Nat) (phase : Nat) (v : List Byte × Bool) :
        (send u dsts phase v).All State.Canonical := by
      unfold send
      split
      · next e => exact hnote (hu.of_hbm (State.sendChunks_hbm e))
      · exact hu
    split
    · exact State.stallRun_canonical h (hsend (State.writeResult_canonical (h.of_hbm (State.ownChunk_hbm ..))) _ _ _)
    · refine State.stallRun_canonical h ?_
      extract_lets v ask
      have own : v.2.Canonical := h.of_hbm (State.ownChunk_hbm ..)
      have hask (dst : Nat) : (ask dst).All State.Canonical := by
        unfold ask
        split
        · exact h
        · next e => exact hsend (own.of_hbm (State.reserve_hbm e)) _ _ _
      split
      · exact hask _
      · split
        · split
          · exact h
          · exact hnote (own.of_hbm (State.modTile_hbm ..))
        · exact hask _

/-! ## Arrivals at a join (R331) -/

@[simp] theorem State.tileArrivals_canonical {s : State} {d t i : Nat} (h : s.Canonical) :
    (s.tileArrivals d t i).Canonical := by
  unfold State.tileArrivals
  dsimp only
  split
  · exact h
  · refine foldl_canonical (fun s p h => ?_) _ h
    split
    · exact h
    · exact State.arrive_canonical h

theorem State.emptySweeps_canonical {s u : State} {d t i : Nat} (hu : u.Canonical) {f : State → Option Act}
    (hf : f ∈ s.emptySweeps d t i) {a : Act} (ha : f u = some a) :
    a.All State.Canonical := by
  unfold State.emptySweeps at hf
  dsimp only at hf
  split at hf
  · cases hf
  · split at hf
    · obtain ⟨c, _, rfl⟩ := List.mem_map.1 hf
      cases ha
      exact State.sweep_canonical hu rfl
    · cases hf

theorem State.runActs_canonical {s u : State} {d t i : Nat} (hu : u.Canonical) :
    (firstAct u (s.runActs d t i)).All State.Canonical := by
  refine firstAct_all _ (fun f hf v hv a ha => ?_) hu
  simp only [State.runActs, List.mem_append, List.mem_map] at hf
  obtain (⟨h, _, rfl⟩ | ⟨c, _, rfl⟩) | hf := hf
  · exact State.takeHeld_canonical hv ha
  · cases ha
    exact State.startChunk_canonical hv
  · exact State.emptySweeps_canonical hv hf ha

/-! ## The sequencer of a port (R303) -/

@[simp] theorem State.runStep_canonical {s : State} {d t i : Nat} (h : s.Canonical) :
    Steps State.Canonical (s.runStep d t i) := by
  have acted := State.runActs_canonical (s := s) (d := d) (t := t) (i := i) h
  unfold State.runStep
  dsimp only
  split
  · trivial
  · split
    · exact h.of_hbm (State.failRun_hbm ..)
    · split
      · trivial
      · split
        · exact h.of_hbm (State.failRun_hbm ..)
        · split
          · exact h.of_hbm (State.tellExcluded_hbm ..)
          · split
            · split <;> simp [h]
            · split
              · refine h.of_hbm ?_
                split <;> simp
              · split
                · next e => rw [e] at acted; exact acted
                · next e => rw [e] at acted; exact State.Canonical.of_hbm acted (State.failRun_hbm ..)
                · trivial

@[simp] theorem State.runWaits_canonical {s : State} {d t i : Nat} (h : s.Canonical) : (s.runWaits d t i).Canonical := by
  have acted := State.runActs_canonical (s := s) (d := d) (t := t) (i := i) h
  unfold State.runWaits
  split
  · exact h
  · split
    · next e => rw [e] at acted; exact acted
    · exact h

@[simp] theorem State.serve_canonical {s : State} {d t i : Nat} (h : s.Canonical) : (s.serve d t i).Canonical := by
  have arrived := State.tileArrivals_canonical (d := d) (t := t) (i := i) h
  unfold State.serve
  dsimp only
  split
  · exact State.Canonical.of_hbm (Steps.getD (State.runStep_canonical arrived) arrived) (State.noteServed_hbm ..)
  · exact State.runWaits_canonical arrived

/-! ## Firing (R299, R301, R302, R308, R331) -/

@[simp] theorem State.fire_canonical {s : State} {d t i : Nat} {strand : Option (StrandName × VAddr)} (h : s.Canonical) :
    Steps State.Canonical (s.fire d t i strand) := by
  unfold State.fire
  extract_lets k e
  split
  · trivial
  · next untracked r running pending waiting asked _ =>
    have hpending : pending.Canonical :=
      h.of_hbm ((State.setToken_hbm ..).trans ((State.modTile_hbm ..).trans (State.modTeam_hbm ..)))
    have hwaiting : waiting.Canonical := hpending.of_hbm (State.modTile_hbm ..)
    have hasked : asked.Canonical := by
      unfold asked
      split
      · split
        · next e => exact hwaiting.of_hbm (State.transmit_hbm e)
        · exact hwaiting.of_hbm (State.failRun_hbm ..)
      · exact hwaiting
    rw [steps_some]
    split
    · exact hpending.of_hbm (State.failRun_hbm ..)
    · split
      · split
        · exact hpending.of_hbm (State.slotAnswered_hbm ..)
        · split
          · exact hasked.of_hbm ((State.slotAnswered_hbm ..).trans (State.modTile_hbm ..))
          · exact hasked
      · exact State.tileArrivals_canonical hpending

@[simp] theorem execTrackerFire_canonical {d t i : Nat} {s : State} (h : s.Canonical) :
    Answers State.Canonical (execTrackerFire d t i s) := by
  unfold execTrackerFire
  split
  · exact h
  · split
    · exact h
    · refine Steps.getD (Steps.map fun _ e => ?_) h
      exact State.Canonical.of_hbm ((State.fire_canonical h).of_some e) (State.modTile_hbm ..)

@[simp] theorem execTileRunEnd_canonical {d t i : Nat} {s : State} (h : s.Canonical) :
    Answers State.Canonical (execTileRunEnd d t i s) := by
  simp [execTileRunEnd, h]

/-! ## Messages of collectives (R287, R305, R308, R315) -/

@[simp] theorem execChunk_canonical {m : Message} {s : State} (h : s.Canonical) :
    Answers State.Canonical (execChunk m s) := by
  obtain ⟨herr, hok⟩ := s.admitWrite_hbm 4 m
  unfold execChunk
  dsimp only
  split
  · exact h
  · split
    · next e => exact h.of_hbm (herr _ e)
    · next d t r e =>
      have admitted : r.Canonical := h.of_hbm (hok _ e)
      split
      · exact admitted.of_hbm (State.answer_hbm ..)
      · split
        · exact admitted.of_hbm ((State.answer_hbm ..).trans (State.modTile_hbm ..))
        · split
          · exact h
          · next e =>
            exact State.tileArrivals_canonical
              (admitted.of_hbm ((State.answer_hbm ..).trans ((State.modTile_hbm ..).trans (State.roomFor_hbm e))))

@[simp] theorem execChunkAbort_canonical {m : Message} {s : State} (h : s.Canonical) :
    Answers State.Canonical (execChunkAbort m s) := by
  obtain ⟨herr, hok⟩ := s.reach_hbm 4 m
  unfold execChunkAbort
  split
  · exact h
  · split
    · next e => exact h.of_hbm (herr _ e)
    · next d r e =>
      have reached : r.Canonical := h.of_hbm (hok _ e)
      split
      · exact reached
      · dsimp only
        (repeat' split) <;> simp [reached]

/-! ## TTSET, TREADY, TRKARM (R300, R301) -/

@[simp] theorem State.stepTtset_canonical {s : State} {m : Cmd} (h : s.Canonical) :
    Steps State.Canonical (s.stepTtset m) := by
  unfold State.stepTtset
  dsimp only
  split
  · exact State.endCmd_canonical h
  · split
    · trivial
    · split
      · exact h.of_hbm (State.awaitPage_hbm ..)
      · trivial
      · exact State.endCmd_canonical h
      · next v t e =>
        have read : t.Canonical := (State.cmdReadRange_canonical h).of_ok e
        (repeat' split) <;> simp [read]

@[simp] theorem State.stepTready_canonical {s : State} {m : Cmd} (h : s.Canonical) :
    Steps State.Canonical (s.stepTready m) := by
  unfold State.stepTready
  split
  · exact State.endCmd_canonical h
  · split
    · exact State.endCmd_canonical (h.of_hbm (State.modCmd_hbm ..))
    · split
      · trivial
      · split
        · trivial
        · next e =>
          have fired := (State.fire_canonical h).of_some e
          exact State.endCmd_canonical (State.Canonical.of_hbm fired (State.modCmd_hbm ..))

@[simp] theorem State.stepTrkarm_canonical {s : State} {m : Cmd} (h : s.Canonical) :
    Steps State.Canonical (s.stepTrkarm m) := by
  unfold State.stepTrkarm
  dsimp only
  (repeat' split) <;> simp [h]

/-! ## QDECL (R321, R322) -/

@[simp] theorem State.openJoin_canonical {s : State} {m : Cmd} {q : Nat} {x : Declared} {tasks : List Task}
    {weights : List Nat} (h : s.Canonical) :
    Steps State.Canonical (s.openJoin m q x tasks weights) :=
  State.endCmd_canonical (h.of_hbm ((State.modCmd_hbm ..).trans (State.modJoin_hbm ..)))

@[simp] theorem State.checkJoin_canonical {s : State} {m : Cmd} {q : Nat} {x : Declared} {table weights : List Nat}
    (h : s.Canonical) :
    Steps State.Canonical (s.checkJoin m q x table weights) := by
  fun_cases State.checkJoin <;> simp [h]

@[simp] theorem State.stepQdecl_canonical {s : State} {m : Cmd} {q : Nat} (h : s.Canonical) :
    Steps State.Canonical (s.stepQdecl m q) := by
  unfold State.stepQdecl
  dsimp only
  split
  · exact State.endCmd_canonical h
  · split
    · trivial
    · split
      · split
        · exact h.of_hbm (State.awaitPage_hbm ..)
        · trivial
        · exact State.endCmd_canonical h
        · next e => exact State.Canonical.of_hbm ((State.cmdReadRange_canonical h).of_ok e) (State.modCmd_hbm ..)
      · split
        · exact State.checkJoin_canonical h
        · split
          · exact h.of_hbm (State.awaitPage_hbm ..)
          · trivial
          · exact State.endCmd_canonical h
          · next e => exact State.checkJoin_canonical ((State.cmdReadRange_canonical h).of_ok e)

/-! ## QARRIVE (R323) -/

@[simp] theorem execQarriveRegister_canonical {id : Nat} {s : State} (h : s.Canonical) :
    Answers State.Canonical (execQarriveRegister id s) := by
  unfold execQarriveRegister
  split
  · exact h
  · split
    · exact h
    · dsimp only
      split
      · exact h
      · refine State.arrive_canonical (Steps.getD (State.endCmd_canonical ?_) ?_) <;> exact h.of_hbm (State.modCmd_hbm ..)

/-! ## QREAD and QREPLAY (R333, R334) -/

@[simp] theorem State.stepQread_canonical {s : State} {m : Cmd} {q : Nat} (h : s.Canonical) :
    Steps State.Canonical (s.stepQread m q) := by
  unfold State.stepQread
  dsimp only
  split
  · exact State.endCmd_canonical h
  · split
    · exact State.endCmd_canonical h
    · split
      · trivial
      · split
        · exact State.endCmd_canonical h
        · split
          · exact h.of_hbm (State.awaitPage_hbm ..)
          · trivial
          · exact State.endCmd_canonical h
          · next e =>
            have written := (State.cmdWriteRange_canonical h).of_ok e
            exact State.endCmd_canonical (State.Canonical.of_hbm written (State.modCmd_hbm ..))

@[simp] theorem State.stepQreplay_canonical {s : State} {m : Cmd} {q : Nat} (h : s.Canonical) :
    Steps State.Canonical (s.stepQreplay m q) := by
  unfold State.stepQreplay
  dsimp only
  split
  · exact State.endCmd_canonical h
  · split
    · exact State.endCmd_canonical h
    · split
      · trivial
      · split
        · exact h.of_hbm (State.awaitPage_hbm ..)
        · trivial
        · exact State.endCmd_canonical h
        · next e =>
          have read := (State.cmdReadRange_canonical h).of_ok e
          split
          · exact State.endCmd_canonical read
          · exact State.endCmd_canonical (State.Canonical.of_hbm read ((State.modCmd_hbm ..).trans (State.modJoin_hbm ..)))

/-! ## What holds a command back -/

@[simp] theorem State.waitPool_canonical {s : State} {m : Cmd} (h : s.Canonical) : Steps State.Canonical (s.waitPool m) :=
  Steps.of_hbm h fun _ => State.waitPool_hbm s m

/-! ## Start (R241, R243, R251, R257) -/

@[simp] theorem State.startNow_canonical {s : State} {m : Cmd} (h : s.Canonical) :
    Steps State.Canonical (s.startNow m) := by
  unfold State.startNow
  dsimp only
  (repeat' split) <;> simp [h]

@[simp] theorem State.startCmd_canonical {s : State} {m : Cmd} (h : s.Canonical) :
    Steps State.Canonical (s.startCmd m) := by
  unfold State.startCmd
  split
  · trivial
  · next t e =>
    split
    · exact State.waitPool_canonical h
    · exact (State.startNow_canonical h).of_some e

@[simp] theorem execEngineCommandStart_canonical {id : Nat} {s : State} (h : s.Canonical) :
    Answers State.Canonical (execEngineCommandStart id s) :=
  Steps.getD (Steps.bind fun _ => State.startCmd_canonical h) h

/-! ## One step (R249 to R251) -/

@[simp] theorem State.unitStep_canonical {s : State} {m : Cmd} (h : s.Canonical) :
    Steps State.Canonical (s.unitStep m) := by
  unfold State.unitStep
  split
  case h_2 => exact Steps.bind fun _ => State.stepCopy_canonical h
  all_goals simp [h]

@[simp] theorem State.anyStep_canonical {s : State} {m : Cmd} (h : s.Canonical) : Steps State.Canonical (s.anyStep m) := by
  unfold State.anyStep
  extract_lets send snap
  (repeat' split) <;> simp [h]

@[simp] theorem State.cmdStep_canonical {s : State} {id : Nat} (h : s.Canonical) :
    Steps State.Canonical (s.cmdStep id) := by
  unfold State.cmdStep
  split
  · trivial
  · split
    · trivial
    · split
      · split
        · exact State.waitPool_canonical h
        · trivial
      · next e =>
        have stepped := (State.anyStep_canonical h).of_some e
        split
        · exact stepped
        · split
          · exact State.waitPool_canonical h
          · exact State.Canonical.of_hbm stepped (State.dropLocks_hbm ..)

@[simp] theorem State.runCmd_canonical {fuel id : Nat} {s : State} (h : s.Canonical) :
    (State.runCmd fuel id s).Canonical := by
  induction fuel generalizing s with
  | zero => exact h
  | succ n ih =>
    rw [State.runCmd]
    split
    · next e => exact ih ((State.cmdStep_canonical h).of_some e)
    · exact h

@[simp] theorem execEngineCommandDone_canonical {id : Nat} {s : State} (h : s.Canonical) :
    Answers State.Canonical (execEngineCommandDone id s) :=
  State.runCmd_canonical h

/-! ## Selection and swaps -/

@[simp] theorem State.serveTeam_canonical {s : State} {d t : Nat} (h : s.Canonical) : (s.serveTeam d t).Canonical :=
  foldl_canonical (fun _ _ h => State.serveCore_canonical h) _ h

@[simp] theorem execCooperativeSwap_canonical {d t : Nat} {s : State} (h : s.Canonical) :
    Answers State.Canonical (execCooperativeSwap d t s) := by
  unfold execCooperativeSwap
  dsimp only
  (repeat' split) <;> simp [h]

@[simp] theorem execSwapin_canonical {d t : Nat} {s : State} (h : s.Canonical) :
    Answers State.Canonical (execSwapin d t s) := by
  unfold execSwapin
  extract_lets m
  split
  · exact h
  · refine State.Canonical.of_hbm (State.applyAll_canonical (h.of_hbm ?_)) (State.rereadSpins_hbm ..)
    refine (State.modTeam_hbm ..).trans ((State.modDie_hbm ..).trans ((foldl_hbm (fun s v => ?_) _ _).trans
      (foldl_hbm (fun s u => State.saveComplete_hbm ..) _ _)))
    split
    · exact State.modCore_hbm ..
    · rfl

/-! ## Forced pre-emption (R384, R385) -/

@[simp] theorem execSpillDone_canonical {d t : Nat} {ok : Bool} {s : State} (h : s.Canonical) :
    Answers State.Canonical (execSpillDone d t ok s) := by
  unfold execSpillDone
  dsimp only
  (repeat' split) <;> simp [h]

/-! ## The frame (R396) -/

theorem command_canonical {code n : Nat} {m : HostCmd} {ok : Bool} {s : State} {run : State → Answer × State}
    (h : s.Canonical) (hrun : ∀ t, t.Canonical → (run t).2.Canonical) :
    Answers State.Canonical (command code n m ok s run) :=
  command_all (Q := fun c => Memory.wf c = true) h fun t e => hrun t (h.of_hbm e)

/-! ## Shared parts -/

@[simp] theorem State.zeroHbm_canonical {s : State} {pa n : Nat} (h : s.Canonical) : (s.zeroHbm pa n).Canonical :=
  zeroRange_wf pa n h

@[simp] theorem State.giveOwner_canonical {s : State} {pa count : Nat} {entry : BitVec 16} (h : s.Canonical) :
    (s.giveOwner pa count entry).Canonical := by
  simp [State.giveOwner, h]

/-! ## PAGE_ANSWER (R136, R398) -/

@[simp] theorem State.answerUnits_canonical {s : State} {d t tag page : Nat} {refused : Bool} (h : s.Canonical) :
    (s.answerUnits d t tag page refused).Canonical :=
  foldl_canonical (fun _ _ h => State.resumeRelease_canonical h) _
    (foldl_canonical (fun _ _ h => h.of_hbm (State.modRun_hbm ..)) _ h)

@[simp] theorem State.answerPage_canonical {s : State} {v : Nat} {r : PageRequest} {refused : Bool} (h : s.Canonical) :
    (s.answerPage v r refused).Canonical := by
  unfold State.answerPage
  refine foldl_canonical (fun _ _ h => State.answerUnits_canonical (h.of_hbm (State.answerTeam_hbm ..))) _ (h.of_hbm ?_)
  dsimp only
  (repeat' split) <;> simp

@[simp] theorem execPageAnswer_canonical {m : HostCmd} {s : State} (h : s.Canonical) :
    Answers State.Canonical (execPageAnswer m s) := by
  refine command_canonical h fun u hu => ?_
  dsimp only
  split
  · exact hu
  · exact State.answerPage_canonical hu

/-! ## OWNER_SET, REPLICA_RESERVE, PARAM_SET, EPOCH_ADVANCE, SCAN_SET, POWER_SET -/

@[simp] theorem execOwnerSet_canonical {m : HostCmd} {s : State} (h : s.Canonical) :
    Answers State.Canonical (execOwnerSet m s) :=
  command_canonical h fun _ hu => State.giveOwner_canonical hu

/-! ## Creation (R365, R397, R399) -/

@[simp] theorem execTeamCreate_canonical {m : HostCmd} {s : State} (h : s.Canonical) :
    Answers State.Canonical (execTeamCreate m s) := by
  refine command_canonical h fun u hu => ?_
  dsimp only
  (repeat' split) <;> simp [hu, done]

/-! ## TEAM_RESTART, TEAM_DESTROY (R399) -/

@[simp] theorem execTeamDestroy_canonical {m : HostCmd} {s : State} (h : s.Canonical) :
    Answers State.Canonical (execTeamDestroy m s) := by
  refine command_canonical h fun u hu => ?_
  unfold State.onTeam
  split
  · exact hu
  · beta_reduce
    extract_lets k cleared uncommanded unsent own freed
    have hcleared : cleared.Canonical := hu.of_hbm ((State.clearTeam_hbm ..).trans (State.endWork_hbm ..))
    clear_value cleared
    have hunsent : unsent.Canonical := hcleared
    have hfreed : freed.Canonical := State.giveOwner_canonical (State.giveOwner_canonical hunsent)
    clear_value freed
    exact hfreed.of_hbm (State.modDie_hbm ..)

/-! ## The load (R64, R66) -/

@[simp] theorem State.writeVf_canonical {s : State} {v d va : Nat} {bs : List Byte} (h : s.Canonical) :
    (s.writeVf v d va bs).Canonical := by
  unfold State.writeVf
  split
  · exact h
  · refine foldl_canonical (fun s k h => ?_) _ h
    dsimp only
    split
    · exact State.hbmWrite_canonical h
    · exact h

@[simp] theorem State.gimWrite_canonical {s : State} {v d : Nat} {l : Loaded} (h : s.Canonical) :
    (s.gimWrite v d l).Canonical :=
  foldl_canonical (fun _ _ h => State.writeVf_canonical h) _ (h.of_hbm (State.modVf_hbm ..))

@[simp] theorem State.beginImageLoad_canonical {s : State} {i : Nat} {m : HostCmd} (h : s.Canonical) :
    (s.beginImageLoad i m).Canonical := by
  fun_cases State.beginImageLoad <;> simp [h]

/-! ## Exports (R3, R185, R397) -/

@[simp] theorem State.askAllAgain_canonical {s : State} {d t : Nat} (h : s.Canonical) : (s.askAllAgain d t).Canonical := by
  refine foldl_canonical (fun _ _ h => State.resumeRelease_canonical h) _ (foldl_canonical (fun _ v h => ?_) _ h)
  exact foldl_canonical (fun _ _ h => h.of_hbm ((State.modTeam_hbm ..).trans (State.askAgain_hbm ..))) _ h

@[simp] theorem State.takeImage_canonical {s : State} {d t : Nat} {e : TeamImage} (h : s.Canonical) :
    (s.takeImage d t e).Canonical := by
  unfold State.takeImage
  extract_lets n old freed imported cmds sent numbered staged landed resumed
  have hfreed : freed.Canonical := foldl_canonical (fun _ _ h => State.freeEntry_canonical h) _ h
  have himported : imported.Canonical := hfreed.of_hbm ((State.modTeam_hbm ..).trans (State.dropStaged_hbm ..))
  have hnumbered : numbered.Canonical := himported
  have hstaged : staged.Canonical := foldl_canonical (fun _ _ h => h.of_hbm (State.stageAgain_hbm ..)) _ hnumbered
  have hlanded : landed.Canonical := by
    refine foldl_canonical (fun s l h => ?_) _ hstaged
    split
    · exact State.Canonical.of_hbm (State.hbmWrite_canonical h) (State.modTeam_hbm ..)
    · exact h
  have hresumed : resumed.Canonical := foldl_canonical (fun _ _ h => State.slotsOn_canonical h) _ hlanded
  exact State.askAllAgain_canonical (hresumed.of_hbm (State.watchAgain_hbm ..))

@[simp] theorem State.endImport_canonical {s : State} {m : HostCmd} (h : s.Canonical) : (s.endImport m).2.Canonical := by
  fun_cases State.endImport <;> simp [h]

/-! ## The end of background commands (R398) -/

theorem State.endBackground_canonical {s : State} {code : Nat} {m : HostCmd} {r : (Nat × List Word) × State}
    (h : s.Canonical) (e : s.endBackground code m = some r) :
    r.2.Canonical := by
  unfold State.endBackground at e
  split at e
  · split at e
    · cases e
      exact h
    · split at e
      · cases e
        exact h
      · cases e
  · split at e
    · cases e
      exact h.of_hbm (State.endAttest_hbm ..)
    · split at e
      · cases e
        exact h.of_hbm (State.endKeySession_hbm ..)
      · split at e
        · cases e
          exact h.of_hbm (State.endExport_hbm ..)
        · cases e
          exact State.endImport_canonical h

@[simp] theorem execBackgroundCommandDone_canonical {slot : BitVec 4} {s : State} (h : s.Canonical) :
    Answers State.Canonical (execBackgroundCommandDone slot s) := by
  unfold execBackgroundCommandDone
  dsimp only
  split
  · exact h
  · split
    · split
      · exact h
      · split
        · exact State.beginImageLoad_canonical h
        · exact h.of_hbm (State.endImageLoad_hbm ..)
    · split
      · exact h
      · next e => exact State.Canonical.of_hbm (State.endBackground_canonical h e) (State.answerSlot_hbm ..)

/-! ## Message windows and registers (R393, R394) -/

@[simp] theorem runCommand_canonical {code : Nat} {m : HostCmd} {s : State} (h : s.Canonical) :
    Answers State.Canonical (runCommand code m s) := by
  have keep (o : Out) (ho : Answers s.HbmOf o) : Answers State.Canonical o := ho.canonical h
  unfold runCommand
  split
  case h_27 => exact command_canonical h fun _ hu => hu
  all_goals simp [h, keep]

@[simp] theorem writeSlot_canonical {i o : Nat} {v : Word} {s : State} (h : s.Canonical) :
    Answers State.Canonical (writeSlot i o v s) := by
  have written {f : CmdSlot → CmdSlot} : (s.modSlot i f).Canonical := h.of_hbm (State.modSlot_hbm ..)
  unfold writeSlot
  dsimp only
  split
  · exact runCommand_canonical written
  · exact written

@[simp] theorem execRegisterWrite_canonical {fn : Nat} {offset : BitVec 16} {v : Word} {s : State} (h : s.Canonical) :
    Answers State.Canonical (execRegisterWrite fn offset v s) := by
  unfold execRegisterWrite
  dsimp only
  (repeat' split) <;> simp [h]

/-! ## CXL.mem and IDE (R392) -/

@[simp] theorem execCxlMemAccess_canonical {write : Bool} {addr : BitVec 42} {v : Byte} {s : State} (h : s.Canonical) :
    Answers State.Canonical (execCxlMemAccess write addr v s) := by
  fun_cases execCxlMemAccess <;> simp [h]

/-! ## The opcode table -/

@[simp] theorem exec_canonical {i : Instr} {s : State} (h : s.Canonical) : Answers State.Canonical (exec i s) := by
  have keep (o : Out) (ho : Answers s.HbmOf o) : Answers State.Canonical o := ho.canonical h
  cases i
  case deviceReset => exact Answers.canonical (execDeviceReset_hbm s) reset_wf.1
  all_goals simp [exec, h, keep]

/-! ## A cycle of a core -/

@[simp] theorem State.run_canonical {s : State} {i : Instr} (h : s.Canonical) : (s.run i).Canonical :=
  State.after_canonical h (exec_canonical h)

/-! ## The second pass: issue (R36, R94, R98, R99) -/

@[simp] theorem State.effect_canonical {s : State} {mirrors : List Nat} {p : Nat × Instr} (h : s.Canonical) :
    (s.effect mirrors p).Canonical := by
  unfold State.effect
  exact State.run_canonical h

@[simp] theorem State.commit_canonical {s : State} {c n : Nat} {h : Header} {cs : List SlotCheck} (hs : s.Canonical) :
    (s.commit c n h cs).Canonical := by
  unfold State.commit
  extract_lets a done closed
  have hdone : done.Canonical := foldl_canonical (fun _ _ h => State.effect_canonical h) _ (hs.of_hbm (State.admitted_hbm ..))
  have hclosed : closed.Canonical := hdone.of_hbm (State.closeIssue_hbm ..)
  split
  · exact hclosed.of_hbm (State.advance_hbm ..)
  · exact hclosed

@[simp] theorem State.issueBundle_canonical {s : State} {c n : Nat} {w : Word32} {syllables : List (Nat × Word32)}
    (h : s.Canonical) :
    (s.issueBundle c n w syllables).Canonical := by
  unfold State.issueBundle
  extract_lets hdr issue issued stepped cs decode blocks holds faults mx begun waits
  have hbegun : begun.hbm = s.hbm := by
    unfold begun
    split
    · exact State.modCore_hbm ..
    · rfl
  have hwaits : waits.hbm = s.hbm := (State.modStrand_hbm ..).trans hbegun
  split
  · exact h.of_hbm ((State.pickNext_hbm ..).trans ((State.advance_hbm ..).trans (State.after_hbm (execIllegalEncoding_hbm ..))))
  · split
    · exact h.of_hbm (by simp [hbegun])
    · split
      · exact h.of_hbm (by simp [hwaits])
      · split
        · exact h.of_hbm (by simp [hwaits])
        · split
          · exact h.of_hbm (by simp [hbegun])
          · split
            · exact h.of_hbm (by simp [hbegun])
            · exact State.commit_canonical (h.of_hbm (State.modMe_hbm ..))

/-! ## Presentation (R34, R326, R380, R424) -/

@[simp] theorem State.present_canonical {s : State} {c n : Nat} (h : s.Canonical) : (s.present c n).Canonical := by
  unfold State.present
  extract_lets t issue presented va
  have hpresented : presented.Canonical := h
  split
  · exact hpresented.of_hbm (State.fetchFailed_hbm ..)
  · dsimp only
    split
    · exact hpresented.of_hbm
        ((State.pickNext_hbm ..).trans ((State.advance_hbm ..).trans (State.after_hbm (execIllegalEncoding_hbm ..))))
    · split
      · exact hpresented.of_hbm ((State.pickNext_hbm ..).trans (State.after_hbm (execKillPoint_hbm ..)))
      · split
        · exact hpresented.of_hbm ((State.pickNext_hbm ..).trans (State.park_hbm ..))
        · split
          · exact hpresented.of_hbm (State.fetchFailed_hbm ..)
          · exact State.issueBundle_canonical (hpresented.of_hbm ((State.noteFetch_hbm ..).trans (State.noteFetch_hbm ..)))

/-! ## The cycle of a core -/

@[simp] theorem State.openCycle_canonical {s : State} {c n : Nat} (h : s.Canonical) : (s.openCycle c n).Canonical := by
  unfold State.openCycle
  dsimp only
  (repeat' split) <;> simp [h]

@[simp] theorem State.frostCycle_canonical {s : State} {c : Nat} (h : s.Canonical) : (s.frostCycle c).Canonical := by
  simp [State.frostCycle, h]

@[simp] theorem State.issueCycle_canonical {s : State} {c : Nat} (h : s.Canonical) : (s.issueCycle c).Canonical := by
  unfold State.issueCycle
  dsimp only
  (repeat' split) <;> simp [h]

@[simp] theorem State.coreTurn_canonical {s : State} {c : Nat} (h : s.Canonical) : (s.coreTurn c).Canonical := by
  unfold State.coreTurn
  dsimp only
  (repeat' split) <;> simp [h]

/-! ## Events that the machine itself brings about -/

theorem messageEvent_keeps (m : Message) : Keeps (messageEvent m) := by
  unfold messageEvent
  split
  · exact fun _ h => execMemWrite_canonical h
  · exact fun _ h => execPoolWrite_canonical h
  · exact fun _ h => execStreamWrite_canonical h
  · split
    · exact fun _ h => execChunkAbort_canonical h
    · exact fun _ h => execChunk_canonical h
  · exact .of_hbm fun _ => execResponse_hbm ..
  · exact .of_hbm fun _ => execSlotRequest_hbm ..
  · exact .of_hbm fun _ => execSlotAnswer_hbm ..

theorem teamEvents_keep (d t : Nat) :
    AllKeep ([execLullStep d t, execSliceEnd d t, execForcedPreemption d t, execCooperativeSwap d t, execSpillDone d t
      true, execPreemptWatchdog d t, execSwapin d t, execLandedStreamApply d t]) :=
  .cons (.of_hbm fun _ => execLullStep_hbm ..) <| .cons (.of_hbm fun _ => execSliceEnd_hbm ..) <|
  .cons (.of_hbm fun _ => execForcedPreemption_hbm ..) <| .cons (fun _ h => execCooperativeSwap_canonical h) <|
  .cons (fun _ h => execSpillDone_canonical h) <| .cons (.of_hbm fun _ => execPreemptWatchdog_hbm ..) <|
  .cons (fun _ h => execSwapin_canonical h) <| .cons (fun _ h => execLandedStreamApply_canonical h) .nil

theorem State.dieEvents_keep (s : State) (d : Nat) : AllKeep (s.dieEvents d) := by
  have start : AllKeep [execGustTick d, execWindowBoundary d, execLeaseGrant d] :=
    .cons (.of_hbm fun _ => execGustTick_hbm ..) <| .cons (.of_hbm fun _ => execWindowBoundary_hbm ..) <|
    .cons (.of_hbm fun _ => execLeaseGrant_hbm ..) .nil
  have selection (p : Nat) : AllKeep [execTeamSelect d p, execShadowDrain d p, execImageStage d p] :=
    .cons (.of_hbm fun _ => execTeamSelect_hbm ..) <| .cons (.of_hbm fun _ => execShadowDrain_hbm ..) <|
    .cons (.of_hbm fun _ => execImageStage_hbm ..) .nil
  have scans (cl : Nat) : AllKeep [execScanTest d cl, execScanClaim d cl] :=
    .cons (.of_hbm fun _ => execScanTest_hbm ..) <| .cons (.of_hbm fun _ => execScanClaim_hbm ..) .nil
  unfold State.dieEvents
  refine .append (.append (.append (.append (.append (.append start (.map fun p => ?_)) (.flatMap fun t => ?_))
    (.flatMap selection)) (.map fun x => ?_)) (.map fun x => ?_)) (.flatMap scans)
  · exact .of_hbm fun _ => execRoundBegin_hbm ..
  · refine .append (.append (.append (.append (teamEvents_keep d t) (.map fun l => ?_)) (.map fun x => ?_)) (.map fun x => ?_))
      (.map fun l => ?_)
    · exact .of_hbm fun _ => execLeaseExpiry_hbm ..
    · exact fun _ h => execTrackerFire_canonical h
    · exact fun _ h => execTileRunEnd_canonical h
    · exact .of_hbm fun _ => execNodeStrandStart_hbm ..
  · exact .of_hbm fun _ => execScanComplete_hbm ..
  · exact .of_hbm fun _ => execScanTest_hbm ..

theorem State.firmwareAnswers_keep (s : State) : AllKeep s.firmwareAnswers :=
  .flatMap fun _ => .map fun _ _ h => State.answerPage_canonical h

theorem State.coreEvents_keep (s : State) (c : Nat) : AllKeep (s.coreEvents c) := by
  refine .append (.append (.flatMap fun e => .append ?_ ?_) (.flatMap fun w => ?_)) (.map fun l => ?_)
  · exact .cons (.of_hbm fun _ => execKillLimit_hbm ..) <| .cons (.of_hbm fun _ => execYieldOverdue_hbm ..) <|
      .cons (.of_hbm fun _ => execWaitWatchdog_hbm ..) <| .cons (.of_hbm fun _ => execStrandEnd_hbm ..) .nil
  · split
    · exact .cons (.of_hbm fun _ => execSpinwReread_hbm ..) .nil
    · exact .nil
  · exact .cons (fun _ h => execStorePerformed_canonical h) <| .cons (fun _ h => execReplicaUpdate_canonical h) .nil
  · exact .of_hbm fun _ => execLateResult_hbm ..

@[simp] theorem State.commitStep_canonical {s : State} {d k : Nat} (h : s.Canonical) : (s.commitStep d k).Canonical :=
  foldl_canonical (fun _ _ h => State.slotsOn_canonical h) _ (State.performCommit_canonical h)

theorem State.dueEvents_keep (s : State) : AllKeep s.dueEvents := by
  refine .append (.append (.append (.append (.append (.append (.append (.append (.append (.flatMap fun e => s.dieEvents_keep e.1)
    (.flatMap fun e => .map fun k _ h => State.commitStep_canonical h)) s.firmwareAnswers_keep)
    (.map fun e _ h => execBackgroundCommandDone_canonical h)) (.map messageEvent_keeps))
    (.map fun e => messageEvent_keeps e.1)) (.flatMap fun e => s.coreEvents_keep e.1)) (.flatMap fun x => ?_))
    (.map fun m _ h => execEngineCommandStart_canonical h)) (.map fun m _ h => execQarriveRegister_canonical h)
  exact .cons (.of_hbm fun _ => execMessageRetry_hbm ..) <| .cons (.of_hbm fun _ => execNoResponse_hbm ..) .nil

theorem State.changed_canonical {s : State} {f : State → Out} (h : s.Canonical) (hf : Keeps f) :
    Steps State.Canonical (s.changed f) := by
  cases e : s.changed f with
  | none => trivial
  | some t => exact State.changed_all h (hf s h) e

@[simp] theorem State.background_canonical {s : State} (h : s.Canonical) : Steps State.Canonical s.background :=
  (Steps.findSome fun f hf => State.changed_canonical h (s.dueEvents_keep f hf)).or
    (Steps.findSome fun _ _ => State.cmdStep_canonical h)

/-! ## Cores that can go on -/

@[simp] theorem State.goOn_canonical {s : State} (h : s.Canonical) : s.goOn.Canonical := by
  unfold State.goOn
  split
  · exact State.Canonical.of_hbm (State.coreTurn_canonical h) rfl
  · extract_lets u
    have hu : u.Canonical := h
    split
    · next e =>
      have changed := (State.background_canonical hu).of_some e
      exact State.Canonical.of_hbm changed ((State.wakeTeams_hbm ..).trans (State.level_hbm ..))
    · exact hu.of_hbm ((State.wakeTeams_hbm ..).trans (State.level_hbm ..))

theorem State.takeTurn_canonical {s : State} {t : Turn} (h : s.Canonical) : Answers State.Canonical (s.takeTurn t) := by
  cases t with
  | event i =>
    have answered := exec_canonical (i := i) h
    simp only [State.takeTurn]
    split
    · trivial
    · split
      · next e => rw [e] at answered; exact State.Canonical.of_hbm answered (State.wakeTeams_hbm ..)
      · exact answered
  | core c =>
    simp only [State.takeTurn]
    split
    · exact State.coreTurn_canonical h
    · trivial
  | work id => exact State.Canonical.of_hbm (Steps.getD (State.cmdStep_canonical h) h) (State.wakeTeams_hbm ..)
  | commit d k => exact State.Canonical.of_hbm (State.commitStep_canonical h) (State.wakeTeams_hbm ..)

theorem State.move_canonical {s : State} (h : s.Canonical) : Answers State.Canonical s.move := by
  unfold State.move
  split
  · exact State.goOn_canonical h
  · exact State.takeTurn_canonical h

/-! ## One step of the package -/

/-- Settles O7: whatever a step does, device memory is changed by byte writes, line writes and zeroing alone, and each keeps the
form; a reset makes the memory empty. -/
theorem invariantKept : Obligations.InvariantKept := by
  intro s t h e
  have stepped : Answers State.Canonical (step s) := State.move_canonical h
  rw [e] at stepped
  exact stepped

end Sys2Proof.Machine
end

section
/-!
PROOF. Tokens, records, descriptors (R115, R245, R246, R248, R360) and LAUNCH with its status (R117, R395, R424).
-/

set_option Elab.async false
namespace Sys2Proof.Machine

/-! ## What an update of a team or of a strand leaves alone -/

@[simp] theorem State.me_setToken (s : State) (d t k : Nat) (v : Token) : (s.setToken d t k v).me = s.me := rfl
@[simp] theorem State.me_modTeam (s : State) (d t : Nat) (f : Team → Team) : (s.modTeam d t f).me = s.me := rfl
@[simp] theorem State.result_dies (s : State) (l : Nat) (w : Write) (m : Bool) (rs : List StatRecord) :
    (s.result l w m rs).dies = s.dies := rfl
@[simp] theorem State.team_setToken (s : State) (d t k : Nat) (v : Token) :
    (s.setToken d t k v).team d t = (s.team d t).setToken k v := State.team_modTeam ..
@[simp] theorem Team.token_setToken (t : Team) (k : Nat) (v : Token) : (t.setToken k v).token k = v := look_put_self ..
@[simp] theorem Team.setToken_launches (t : Team) (k : Nat) (v : Token) : (t.setToken k v).launches = t.launches := rfl

/-- A field of a die that an update of a team leaves alone. -/
theorem State.die_modTeam_field {α : Type} (s : State) (d t : Nat) (f : Team → Team) (e : Nat) (g : Die → α)
    (h : ∀ (k : Die) ts, g { k with teams := ts } = g k) : g ((s.modTeam d t f).die e) = g (s.die e) := by
  unfold State.modTeam
  by_cases he : e = d
  · subst he
    rw [State.die_modDie, h]
  · rw [State.die_modDie_ne _ _ he]

@[simp] theorem State.running_modTeam (s : State) (d t : Nat) (f : Team → Team) (e : Nat) :
    ((s.modTeam d t f).die e).running = (s.die e).running := s.die_modTeam_field d t f e (·.running) fun _ _ => rfl

@[simp] theorem State.teamAt_modTeam (s : State) (d t : Nat) (f : Team → Team) (c : Nat) :
    (s.modTeam d t f).teamAt c = s.teamAt c := by
  unfold State.teamAt State.teamOn
  rw [State.running_modTeam]
  rfl

@[simp] theorem State.myTeamIndex_setToken (s : State) (d t k : Nat) (v : Token) :
    (s.setToken d t k v).myTeamIndex = s.myTeamIndex := State.teamAt_modTeam ..

/-! ## TKWAIT, TKTEST and TKSET (R115, R246) -/

/-- What a check of the seen copies does to its strand: no result in flight changes (R351). -/
@[simp] theorem State.noteSeen_pend (s : State) (k : Nat) : (s.noteSeen k).me.pend = s.me.pend := by
  unfold State.noteSeen
  split
  · rfl
  · rw [State.me_modMe]
    split
    · rfl
    · split
      · rfl
      · split <;> rfl

theorem State.tokenResult_pend (s : State) (d : BitVec 6) (k : Nat) :
    ∃ p q, (s.tokenResult d k).me.pend = s.me.pend ++ [p, q] ∧ p.write = .x d (s.myTeam.token k).st.result ∧
      q.write = .progidx (s.progress k) ∧ ∀ r ∈ [p, q], r.due = s.me.time + 2 ∧ r.mark = false := by
  have results (u : State) (hu : u = (s.result 2 (.x d (s.myTeam.token k).st.result)).result 2 (.progidx (s.progress k))) :
      ∃ p q, u.me.pend = s.me.pend ++ [p, q] ∧ p.write = .x d (s.myTeam.token k).st.result ∧
        q.write = .progidx (s.progress k) ∧ ∀ r ∈ [p, q], r.due = s.me.time + 2 ∧ r.mark = false := by
    refine ⟨_, _, by rw [hu, State.me_result_pend, State.me_result_pend, List.append_assoc]; rfl, rfl, rfl, ?_⟩
    simp [State.me_result]
  unfold State.tokenResult
  dsimp only
  split
  · simpa using results _ rfl
  · exact results _ rfl

theorem TokenState.result_eq (st : TokenState) : st.result = (match st with
    | .ok => 0
    | .cancelled => 1
    | .error => 2
    | .pending => 3
    | .idle => 4) := by
  cases st <;> rfl

/-- What a wait on a token meets, by the token's state (R115). -/
theorem tkwait_completes (s : State) (d : BitVec 6) (t : BitVec 8) :
    Claims.Completes (.tkwait d t) s (s.tokenResult d t.toNat) ((s.myTeam.token t.toNat).st = .ok ∨
      (s.myTeam.token t.toNat).st = .cancelled ∨ (s.myTeam.token t.toNat).st = .error) := by
  intro h
  rw [exec_tkwait, execTkwait]
  refine issueWith_goes h fun produced => ?_
  rcases produced with e | e | e <;> simp [e]

theorem tkwait_pending {s : State} {d : BitVec 6} {t : BitVec 8} (ha : s.issue.admitted = false) (hc : Clear (.tkwait d t) s)
    (hst : (s.myTeam.token t.toNat).st = .pending) :
    exec (.tkwait d t) s = .next (s.refuse (blockFor (s.tokenReason s.myDie s.myTeamIndex t.toNat))) := by
  obtain ⟨legal, fed, -, -⟩ := hc
  rw [exec_tkwait, execTkwait]
  exact issueWith_refused ha (by simp [State.verdictOf, legal, fed, hst])

theorem tkwait_idle {s : State} {d : BitVec 6} {t : BitVec 8} (ha : s.issue.admitted = false) (hc : Clear (.tkwait d t) s)
    (hst : (s.myTeam.token t.toNat).st = .idle) :
    exec (.tkwait d t) s = .next (s.refuse (faultWith 0x0E 0 (zext64 t))) := by
  obtain ⟨legal, fed, unguarded, sound⟩ := hc
  rw [exec_tkwait, execTkwait]
  exact issueWith_refused ha (by simp [State.verdictOf, legal, fed, unguarded, sound, hst])

/-- The state that a code names (R246). -/
theorem tksetState_eq : ∀ k : BitVec 2, (if k = 0 then TokenState.ok else if k = 1 then .cancelled else .error) =
    (match k.toNat with
      | 0 => .ok
      | 1 => .cancelled
      | _ => .error) := by decide

theorem tkset_completes (s : State) (k : BitVec 2) (t : BitVec 8) :
    Claims.Completes (.tkset k t) s (s.setToken s.myDie s.myTeamIndex t.toNat (plainToken
      (if k = 0 then .ok else if k = 1 then .cancelled else .error))) ((s.myTeam.token t.toNat).st ≠ .pending) := by
  intro h
  rw [exec_tkset, execTkset, tksetState_eq]
  exact issueWith_goes h fun notPending => ⟨rfl, rfl, if_neg notPending⟩

theorem tkset_pending {s : State} {k : BitVec 2} {t : BitVec 8} (ha : s.issue.admitted = false) (hc : Clear (.tkset k t) s)
    (hst : (s.myTeam.token t.toNat).st = .pending) :
    exec (.tkset k t) s = .next (s.refuse (faultWith 0x0E 0 (zext64 t))) := by
  obtain ⟨legal, fed, unguarded, sound⟩ := hc
  rw [exec_tkset, execTkset]
  exact issueWith_refused ha (by simp [State.verdictOf, legal, fed, unguarded, sound, hst])

/-! ## LAUNCH (R117) -/

/-- The conditions under which LAUNCH issues (R277). -/
def State.launchClear (s : State) : Prop :=
  s.me.storingAny = false ∧ (∀ l ∈ s.myCore.loads, ¬ l.strand = s.issue.strand) ∧
    (∀ w ∈ s.myCore.stores, ¬ w.strand = s.issue.strand) ∧ (∀ w ∈ s.myCore.poolWrites, ¬ w.strand = s.issue.strand) ∧
    s.owesCommit s.myDie s.myTeamIndex s.myName (fun _ => true) = false

/-- The record that the registers of a LAUNCH hold. -/
def State.launchRec (s : State) (a : BitVec 6) : LaunchRecord :=
  launchRecord (s.me.reg a) (s.me.reg (a + 1)) (s.me.reg (a + 2))

/-- The poison mark of what a LAUNCH reads. -/
def State.launchMark (s : State) (a : BitVec 6) : Bool :=
  ((List.range 8).any fun i => s.me.regMark (a + BitVec.ofNat 6 i)) || s.me.ctlMarks.contains 0x005

/-- The state with the status of a LAUNCH on its way. -/
def State.launchAnswer (s : State) (d a : BitVec 6) : State :=
  s.result 2 (.x d (BitVec.ofNat 64 (s.launchStatus (s.launchRec a)))) (s.launchMark a)

/-- The launch that an accepted LAUNCH leaves. -/
def State.launchOf (s : State) (a : BitVec 6) : Launch :=
  let r := s.launchRec a
  { id := s.nextId, d := s.myDie, t := s.myTeamIndex, ctok := r.ctok, part := r.pool, entry := r.entry.setWidth 42,
    arg := r.arg, argMark := s.me.regMark (a + 1), mask := r.mask, tvecEn := s.me.ctl.tvecEn, tvecBase := s.me.ctl.tvecBase,
    tvecMark := s.me.ctlMarks.contains 0x005, started := false, startedAt := (s.die s.myDie).now,
    left := launchStrands (maskBitsOf r.mask) (s.clustersOn s.myTeam.part s.myDie).head? r.pool, poisoned := false }

/-- The state that LAUNCH leaves, by its status. -/
def State.launched (s : State) (d a : BitVec 6) : State :=
  let u := s.launchAnswer d a
  let k := (s.launchRec a).ctok
  if s.launchStatus (s.launchRec a) = 5 then u
  else if s.launchStatus (s.launchRec a) ≠ 0 then u.setToken s.myDie s.myTeamIndex k (plainToken .error)
  else (({ u with nextId := s.nextId + 1 } : State).setToken s.myDie s.myTeamIndex k (plainToken .pending)).modTeam s.myDie
    s.myTeamIndex fun m => { m with launches := m.launches ++ [s.launchOf a] }

theorem State.ctlMark_singleton (s : State) (k : Nat) : s.ctlMark [k] = s.me.ctlMarks.contains k := by
  simp [State.ctlMark]

theorem launch_goes {s : State} {d a : BitVec 6} (h : Goes (.launch d a) s s.launchClear) :
    exec (.launch d a) s = .next (s.launched d a) := by
  rw [exec_launch, execLaunch, issueWith_goes h fun ⟨storing, loads, stores, writes, commits⟩ => ⟨rfl, ?_, rfl⟩]
  · have marks : (((List.range 8).any fun i => s.me.regMark (a + BitVec.ofNat 6 i)) ||
        s.ctlMark (Instr.launch d a).controls) = s.launchMark a := by
      rw [show (Instr.launch d a).controls = [0x005] from rfl, State.ctlMark_singleton]; rfl
    have tvec (l : Nat) (w : Write) (m : Bool) :
        (s.result l w m).ctlMark (Instr.launch d a).controls = s.me.ctlMarks.contains 0x005 := by
      rw [show (Instr.launch d a).controls = [0x005] from rfl, State.ctlMark_singleton, State.me_result]
    dsimp only [State.modMyTeam]
    rw [marks, tvec, State.myTeamIndex_setToken]
    rfl
  · have hl : s.myCore.loads.any (fun l => l.strand == s.issue.strand) = false := by simpa using loads
    have hs : s.myCore.stores.any (fun w => w.strand == s.issue.strand) = false := by simpa using stores
    have hw : s.myCore.poolWrites.any (fun w => w.strand == s.issue.strand) = false := by simpa using writes
    simp [storing, Strand.storing_of_storingAny storing, hl, hs, hw, commits]

/-- The one result of a LAUNCH: its status. -/
def State.launchPending (s : State) (d a : BitVec 6) : Pending :=
  { due := s.me.time + 2, seq := s.me.nextSeq, write := .x d (BitVec.ofNat 64 (s.launchStatus (s.launchRec a))),
    mark := s.launchMark a, load := none, recs := [],
    check := s.issue.compares (.x d (BitVec.ofNat 64 (s.launchStatus (s.launchRec a)))) }

theorem State.launched_me (s : State) (d a : BitVec 6) : (s.launched d a).me = (s.launchAnswer d a).me := by
  unfold State.launched
  dsimp only
  split
  · rfl
  · split <;> rfl

theorem State.launched_pend (s : State) (d a : BitVec 6) :
    (s.launched d a).me.pend = s.me.pend ++ [s.launchPending d a] := by
  rw [State.launched_me, State.launchAnswer, State.me_result_pend]
  rfl

theorem State.launched_hbm (s : State) (d a : BitVec 6) : (s.launched d a).hbm = s.hbm := by
  unfold State.launched
  dsimp only
  split
  · rfl
  · split <;> rfl

theorem State.launched_of_noToken {s : State} {d a : BitVec 6} (h : s.launchStatus (s.launchRec a) = 5) :
    (s.launched d a).dies = s.dies := by
  rw [State.launched, if_pos h]
  rfl

theorem State.launched_of_refused {s : State} {d a : BitVec 6} (h : s.launchStatus (s.launchRec a) ∈ [1, 2, 3, 4]) :
    (s.launched d a).team s.myDie s.myTeamIndex = s.myTeam.setToken (s.launchRec a).ctok (plainToken .error) := by
  have h5 : s.launchStatus (s.launchRec a) ≠ 5 := by rintro e; simp [e] at h
  have h0 : s.launchStatus (s.launchRec a) ≠ 0 := by rintro e; simp [e] at h
  rw [State.launched, if_neg h5, if_pos h0, State.team_setToken]
  rfl

theorem State.launched_of_accepted {s : State} {d a : BitVec 6} (h : s.launchStatus (s.launchRec a) = 0) :
    (s.launched d a).team s.myDie s.myTeamIndex = { s.myTeam.setToken (s.launchRec a).ctok (plainToken .pending) with
      launches := s.myTeam.launches ++ [s.launchOf a] } := by
  rw [State.launched, if_neg (by simp [h]), if_neg (by simp [h]), State.team_modTeam, State.team_setToken]
  rfl

/-! ## The status of LAUNCH (R117, R395, R424) -/

theorem mem_maskBitsOf (m : BitVec 16) (k : Nat) : k ∈ maskBitsOf m ↔ k < 16 ∧ m.getLsbD k = true := by
  simp [maskBitsOf]

theorem mem_launchStrands (cls : List Nat) (first : Option Nat) (part : Word32) (w : StrandName) :
    w ∈ launchStrands cls first part ↔
      w.cl ∈ cls ∧ w.co < 8 ∧ w.n < partStrands part ∧ ¬ (first = some w.cl ∧ w.co = 0 ∧ partStrands part = 4 ∧ w.n = 3) := by
  obtain ⟨cl, co, n⟩ := w
  have bound (t : Nat) : n < (if first = some cl ∧ co = 0 ∧ t = 4 then 3 else t) ↔
      n < t ∧ ¬ (first = some cl ∧ co = 0 ∧ t = 4 ∧ n = 3) := by
    split
    · next h => obtain ⟨hf, hc, ht⟩ := h; simp [hf, hc, ht]; omega
    · next h => simp only [iff_self_and]; rintro - ⟨hf, hc, ht, -⟩; exact h ⟨hf, hc, ht⟩
  rw [← bound]
  simp only [launchStrands, List.mem_flatMap, List.mem_map, List.mem_range, StrandName.mk.injEq]
  constructor
  · rintro ⟨_, hcl, _, hco, _, hn, rfl, rfl, rfl⟩
    exact ⟨hcl, hco, hn⟩
  · rintro ⟨hcl, hco, hn⟩
    exact ⟨_, hcl, _, hco, _, hn, rfl, rfl, rfl⟩

theorem launchRecord_ctok (e0 e1 e2 : Word) : (launchRecord e0 e1 e2).ctok = (e2.extractLsb' 48 8).toNat := by
  rw [BitVec.extractLsb'_toNat, Nat.shiftRight_eq_div_pow]
  rfl

theorem launchRecord_pool (e0 e1 e2 : Word) : (launchRecord e0 e1 e2).pool = e2.extractLsb' 0 32 := by
  refine BitVec.eq_of_toNat_eq ?_
  simp [launchRecord]

theorem launchStatus_holds : Claims.launchStatus := by
  refine ⟨fun e0 e1 e2 => ⟨rfl, rfl, launchRecord_pool .., rfl, launchRecord_ctok ..⟩, fun s r => ?_, mem_launchStrands⟩
  have masks : (r.mask = 0 ∨ (!(maskBitsOf r.mask).all (s.clustersOn s.myTeam.part s.myDie).contains) = true) ↔
      (r.mask = 0 ∨ ∃ c, c < 16 ∧ r.mask.getLsbD c = true ∧ c ∉ s.clustersOn s.myTeam.part s.myDie) := by
    simp [mem_maskBitsOf, and_assoc]
  have runs : ((s.myTeam.launches.any fun l => l.left.any fun w => (maskBitsOf r.mask).contains w.cl) ||
        s.cmds.any (·.imageOf s.myDie s.myTeamIndex r.mask)) = true ↔
      ((∃ l ∈ s.myTeam.launches, ∃ w ∈ l.left, w.cl < 16 ∧ r.mask.getLsbD w.cl = true) ∨
        ∃ m ∈ s.cmds, m.imageOf s.myDie s.myTeamIndex r.mask = true) := by
    simp [mem_maskBitsOf]
  unfold State.launchStatus
  dsimp only
  refine ⟨fun h => if_pos h, fun h1 h2 => ?_, fun h1 h2 h3 => ?_, fun h1 h2 h3 h4 => ?_, fun h1 h2 h3 h4 h5 => ?_,
    fun h1 h2 h3 h4 h5 => ?_⟩ <;> rw [if_neg h1]
  · rw [if_pos (by simpa using h2)]
  all_goals rw [if_neg (by simpa using h2)]
  · rw [if_pos (masks.2 h3)]
  all_goals rw [if_neg (mt masks.1 h3)]
  · rw [if_pos (runs.2 h4)]
  all_goals rw [if_neg (mt runs.1 h4)]
  · rw [if_pos (by simpa using h5)]
  · rw [if_neg (by simpa using h5)]

/-! ## The other syllables -/

theorem stpop_completes (s : State) (e : BitVec 5) :
    Claims.Completes (.stpop e) s (match s.me.stats.take (s.me.stats.length - s.me.newStats) with
      | [] => (s.result 2 (.x (BitVec.ofNat 6 (2 * e.toNat)) 0)).result 2 (.x (BitVec.ofNat 6 (2 * e.toNat) + 1) 0)
      | r :: _ => ((s.modMe fun u => { u with stats := u.stats.drop 1 }).result 2 (.x (BitVec.ofNat 6 (2 * e.toNat)) r.low)).result 2
          (.x (BitVec.ofNat 6 (2 * e.toNat) + 1) r.high)) := by
  intro h
  rw [exec_stpop, execStpop]
  exact issuePlain_goes h

theorem eset_completes (s : State) (a b d : BitVec 6) (f : BitVec 5) :
    Claims.Completes (.eset a b d f) s (let p := s.src a
      let q := p.2.src b
      let u := q.2.modMe fun w => (w.setDesc d.toNat f.toNat p.1.1 p.1.2).setDesc d.toNat (f.toNat + 1) q.1.1 q.1.2
      if p.1.2 || q.1.2 then u.result 1 .none true else u) := by
  intro h
  rw [exec_eset, execEset, issuePlain_goes h]
  rfl

theorem eget_completes (s : State) (x d : BitVec 6) (f : BitVec 5) :
    Claims.Completes (.eget x d f) s (Claims.valueNext s x 2 (look 0 s.me.desc (32 * d.toNat + f.toNat))
      (s.me.descMarks.contains (32 * d.toNat + f.toNat))) (s.me.isBad .descriptorReg f.toNat d.toNat = false) := by
  intro h
  rw [exec_eget, execEget]
  exact issueWith_goes h fun sound => ⟨rfl, rfl, by simp [sound]⟩

theorem tktest_completes (s : State) (d : BitVec 6) (t : BitVec 8) : Claims.Completes (.tktest d t) s (s.tokenResult d t.toNat) := by
  intro h
  rw [exec_tktest, execTktest, issuePlain_goes h]

theorem tokensAndDescriptors_holds : Claims.tokensAndDescriptors := by
  intro s a b d x k t e f st even
  obtain ⟨p, q, hpend, hp, hq, hpq⟩ := s.tokenResult_pend d t.toNat
  refine ⟨tkwait_completes s d t, fun ha hc => ⟨fun hst => tkwait_pending ha hc hst, fun hst => tkwait_idle ha hc hst⟩,
    tktest_completes s d t, ⟨[p, q], hpend, ?_, hpq⟩, tkset_completes s k t, fun ha hc hst => tkset_pending ha hc hst,
    stpop_completes s e, eset_completes s a b d f, eget_completes s x d f, fun h => ?_⟩
  · have writes : [p, q].map (·.write) = [.x d st.result, .progidx (s.progress t.toNat)] := by
      rw [List.map_cons, List.map_cons, List.map_nil, hp, hq]
    exact writes.trans (congrArg (fun v => [Write.x d v, .progidx (s.progress t.toNat)]) (TokenState.result_eq st))
  · refine ⟨s.launched d a, s.launchPending d a, launch_goes h, s.launched_pend d a, rfl, rfl, rfl, s.launched_hbm d a,
      fun h5 => State.launched_of_noToken h5, fun hr => ?_, fun h0 => ?_⟩
    · rw [State.launched_of_refused hr]
      exact ⟨congrArg Token.st (Team.token_setToken ..), rfl⟩
    · rw [State.launched_of_accepted h0]
      exact ⟨congrArg Token.st (Team.token_setToken s.myTeam (s.launchRec a).ctok (plainToken .pending)), s.launchOf a,
        rfl, rfl, rfl, rfl, rfl, rfl, rfl, rfl, rfl, rfl, rfl, rfl, rfl, rfl, rfl, rfl⟩

/-- Settles O21: each syllable passes its checks in the order of R91 and answers the state that its effect names; LAUNCH has one result,
its status, and by it leaves the token alone, an error, or pending with one launch more. -/
theorem tokensAndLaunch : Obligations.TokensAndLaunch := ⟨tokensAndDescriptors_holds, launchStatus_holds⟩

end Sys2Proof.Machine
end

section
/-!
PROOF. The events of strands: their end (R24, R118, R277), the start of node strands (R117, R200), kills (R326, R327), YIELD_OVERDUE
(R378) and the switches (R93, R142).
-/

set_option Elab.async false
namespace Sys2Proof.Machine

/-! ## Sparse maps under a change of every entry -/

theorem look_map {α : Type} {d : α} {f : α → α} (hd : f d = d) (m : Sparse α) (k : Nat) :
    look d (m.map fun e => (e.1, f e.2)) k = f (look d m k) := by
  induction m with
  | nil => exact hd.symm
  | cons e rest ih =>
    rw [List.map_cons, look, look, ih]
    split <;> rfl

/-- What a key reads as is listed under it, unless it is the default. -/
theorem mem_of_look_ne {α : Type} {d : α} {m : Sparse α} {k : Nat} (h : look d m k ≠ d) : (k, look d m k) ∈ m := by
  induction m with
  | nil => exact absurd rfl h
  | cons e rest ih =>
    obtain ⟨j, v⟩ := e
    rw [look] at h ⊢
    split
    · next hj => rw [hj]; exact List.mem_cons_self
    · next hj => rw [if_neg hj] at h; exact List.mem_cons_of_mem _ (ih h)

/-! ## Operand slots (R193) -/

theorem Core.releaseSlot_slot_self (k : Core) (o : Nat) : ((k.releaseSlot o).slot o).holder = none := by
  unfold Core.releaseSlot Core.slot
  rw [look_put_self]
  dsimp only
  split <;> split <;> rfl

theorem Core.releaseSlot_slot_ne (k : Core) {o p : Nat} (h : p ≠ o) : (k.releaseSlot o).slot p = k.slot p :=
  look_put_ne _ _ _ _ h

/-- Releasing slots changes nothing of a core but its slots. -/
theorem Core.foldl_releaseSlot_eq (l : List (Nat × Slot)) (k : Core) :
    ∃ ss, l.foldl (fun k e => k.releaseSlot e.1) k = { k with slots := ss } := by
  induction l generalizing k with
  | nil => exact ⟨k.slots, rfl⟩
  | cons e l ih =>
    obtain ⟨ss, hss⟩ := ih (k.releaseSlot e.1)
    exact ⟨ss, by rw [List.foldl_cons, hss]; rfl⟩

/-- A slot is free of its holder once it is released, and otherwise as it was. -/
theorem Core.foldl_releaseSlot_slot (l : List (Nat × Slot)) (k : Core) (o : Nat) :
    ((l.foldl (fun k e => k.releaseSlot e.1) k).slot o).holder = none ∨
      ((∀ e ∈ l, e.1 ≠ o) ∧ (l.foldl (fun k e => k.releaseSlot e.1) k).slot o = k.slot o) := by
  induction l generalizing k with
  | nil => exact .inr ⟨by simp, rfl⟩
  | cons e l ih =>
    rw [List.foldl_cons]
    rcases ih (k.releaseSlot e.1) with h | ⟨hl, h⟩
    · exact .inl h
    · by_cases he : e.1 = o
      · exact .inl (by rw [h, ← he, Core.releaseSlot_slot_self])
      · exact .inr ⟨List.forall_mem_cons.2 ⟨he, hl⟩, by rw [h, Core.releaseSlot_slot_ne _ (Ne.symm he)]⟩

theorem Core.releaseAll_eq (k : Core) (n : Nat) : ∃ ss, k.releaseAll n = { k with slots := ss } :=
  Core.foldl_releaseSlot_eq _ k

theorem Core.releaseAll_holder (k : Core) (n o : Nat) : ((k.releaseAll n).slot o).holder ≠ some n := by
  intro hn
  rcases Core.foldl_releaseSlot_slot (k.slots.filter fun e => e.2.holder == some n) k o with h | ⟨hl, h⟩
  · exact absurd (h.symm.trans hn) (by simp)
  · have held : (k.slot o).holder = some n := h ▸ hn
    have listed : (o, k.slot o) ∈ k.slots := mem_of_look_ne fun e => by rw [Core.slot, e] at held; cases held
    exact hl _ (List.mem_filter.2 ⟨listed, by simp [held]⟩) rfl

/-! ## The end of a strand (R118, R277, R327) -/

/-- The core that a strand's end leaves. -/
def Core.withoutStrand (k : Core) (n : Nat) : Core :=
  { (k.releaseAll n).setStrand n (k.strand n).ended with
    poolWrites := k.poolWrites ++ sortBy PoolWrite.seq ((k.strand n).levels.flatMap fun l => l.owed k n)
    loads := k.loads.filter fun l => l.strand != n
    running := if k.running == some n then none else k.running }

theorem State.endStrand_core (s : State) (c n : Nat) (p : Bool) : (s.endStrand c n p).core c = (s.core c).withoutStrand n := by
  obtain ⟨ss, hss⟩ := (s.core c).releaseAll_eq n
  have eq : (s.endStrand c n p).core c = (s.modCore c fun k =>
      { (k.releaseAll n).setStrand n (k.strand n).ended with
        poolWrites := (k.releaseAll n).poolWrites ++ sortBy PoolWrite.seq ((k.strand n).levels.flatMap fun l => l.owed k n)
        loads := (k.releaseAll n).loads.filter fun l => l.strand != n
        running := if (k.releaseAll n).running == some n then none else (k.releaseAll n).running }).core c := rfl
  rw [eq, State.core_modCore, Core.withoutStrand, hss]

theorem State.endStrand_strand (s : State) (c n : Nat) (p : Bool) : (s.endStrand c n p).strand c n = (s.strand c n).ended := by
  rw [State.strand, State.endStrand_core]
  exact Core.strand_setStrand _ _ _

theorem State.endStrand_gone (s : State) (c n : Nat) (p : Bool) : Claims.goneFrom s (s.endStrand c n p) c n := by
  have hc := s.endStrand_core c n p
  rw [Claims.goneFrom, State.endStrand_strand]
  refine ⟨rfl, rfl, rfl, rfl, rfl, rfl, rfl, ?_, fun o => ?_, s.endStrand_hbm c n p⟩
  · rw [hc, Core.withoutStrand]
    dsimp only
    split
    · simp
    · next h => simpa using h
  · rw [hc]
    exact (s.core c).releaseAll_holder n o

theorem State.endStrand_staging (s : State) (c n : Nat) (p : Bool) (d : Nat) :
    ((s.endStrand c n p).die d).staging = (s.die d).staging :=
  State.die_modTeam_field _ _ _ _ d (·.staging) fun _ _ => rfl

/-! ## Kills (R326, R327) -/

theorem State.discardHeld_core (s : State) (h : Holder) (c : Nat) :
    (s.discardHeld h).core c = { s.core c with stores := (s.core c).stores.filter fun w => !w.holders.contains h } :=
  look_map (f := fun k : Core => { k with stores := k.stores.filter fun w => !w.holders.contains h }) rfl s.cores c

theorem State.discardHeld_die (s : State) (h : Holder) (d : Nat) :
    (s.discardHeld h).die d = { s.die d with staging := (s.die d).staging.filter fun l => !l.holders.contains h } :=
  look_map (f := fun k : Die => { k with staging := k.staging.filter fun l => !l.holders.contains h }) rfl s.dies d

theorem State.killStrand_killed (s : State) (c n : Nat) (p : Bool) : Claims.killed s (s.killStrand c n p) c n := by
  obtain ⟨hmode, hpend, hblocks, hframes, hnest, hphase, hx, hrun, hslot, hhbm⟩ :=
    (s.discardHeld (s.phaseHolder c n)).endStrand_gone c n p
  refine ⟨⟨hmode, hpend, hblocks, hframes, hnest, hphase, hx.trans ?_, hrun, hslot, hhbm⟩, fun d => ?_⟩
  · rw [State.strand, State.discardHeld_core]
    rfl
  · rw [State.killStrand, State.endStrand_staging, State.discardHeld_die]

theorem killPoint_kills {s : State} {c n : Nat} {w : Word32} (hc : (s.strand c n).condemned.isSome = true)
    (hm : (s.strand c n).mode = .running ∨ (s.strand c n).mode = .ready) (ht : (s.teamOn c).isSome = true)
    (hw : s.fetchWord c (s.strand c n).pc.toNat = .ok w)
    (hb : s.startBit (coreDie c) (s.vfAt c) (s.strand c n).pc.toNat = true) (hk : w.getLsbD 6 = true) :
    exec (.killPoint c n) s = .next (s.killStrand c n false) := by
  have header : s.headerAt c n = some (headerOf w) := by simp [State.headerAt, hw, hb]
  have kill : (headerOf w).k = true := by
    simpa [headerOf, flag, BitVec.getLsbD, Nat.testBit_eq_decide_div_mod_eq] using hk
  have mode : ((s.strand c n).mode == .running || (s.strand c n).mode == .ready) = true := by
    rcases hm with h | h <;> simp [h]
  rw [exec_killPoint, execKillPoint]
  exact if_pos (by simp [hc, mode, ht, header, kill])

theorem killLimit_kills {s : State} {c n k : Nat} (hc : (s.strand c n).condemned = some k)
    (hk : k + 4194304 ≤ (s.strand c n).time) (ht : (s.teamOn c).isSome = true) :
    exec (.killLimit c n) s = .next (s.killStrand c n false) := by
  rw [exec_killLimit, execKillLimit]
  simp [hc, hk, ht]

/-! ## STRAND_END and the launch it belongs to (R24, R118, R277) -/

/-- The launches of a team all of whose strands count as ended. -/
def Launch.isOver (l : Launch) : Bool := l.left.isEmpty && l.closing.isEmpty

theorem Team.launchesDone_of_none {t : Team} (h : t.launches.filter Launch.isOver = []) : t.launchesDone = t := by
  have : t.launchesDone = (t.launches.filter Launch.isOver).foldl (fun t l =>
      { t.setToken l.ctok (plainToken (if l.poisoned then .error else .ok)) with
        launches := t.launches.filter fun m => m.id != l.id }) t := rfl
  rw [this, h]
  rfl

theorem Team.launchesDone_of_one {t : Team} {l : Launch} (h : t.launches.filter Launch.isOver = [l]) :
    t.launchesDone = { t.setToken l.ctok (plainToken (if l.poisoned then .error else .ok)) with
      launches := t.launches.filter fun m => m.id != l.id } := by
  have : t.launchesDone = (t.launches.filter Launch.isOver).foldl (fun t l =>
      { t.setToken l.ctok (plainToken (if l.poisoned then .error else .ok)) with
        launches := t.launches.filter fun m => m.id != l.id }) t := rfl
  rw [this, h]
  rfl

/-- A launch of which a strand has ended, when it leaves nothing to close. -/
def Launch.without (l : Launch) (w : StrandName) (poisoned : Bool) : Launch :=
  { l with left := l.left.filter (· != w), poisoned := l.poisoned || poisoned }

theorem Launch.isOver_iff (l : Launch) : l.isOver = true ↔ l.left = [] ∧ l.closing = [] := by simp [Launch.isOver]

section
variable {L : List Launch} {l : Launch} {w : StrandName} {b : Bool}

/-- The launch with an identifier, among the others. -/
theorem exists_split_of_find (hf : L.find? (fun m => m.id == l.id) = some l) (hn : (L.map (·.id)).Nodup) :
    ∃ xs ys, L = xs ++ l :: ys ∧ ∀ m ∈ xs ++ ys, m.id ≠ l.id := by
  obtain ⟨xs, ys, rfl⟩ := List.append_of_mem (List.mem_of_find?_eq_some hf)
  refine ⟨xs, ys, rfl, fun m hm e => ?_⟩
  have perm : ((l :: (xs ++ ys)).map (·.id)).Nodup := ((List.perm_middle.map _).nodup_iff).1 hn
  exact (List.nodup_cons.1 perm).1 (List.mem_map.2 ⟨m, hm, e⟩)

/-- The end of a strand changes its own launch alone. -/
theorem map_ended_eq {xs ys : List Launch} (h : ∀ m ∈ xs ++ ys, m.id ≠ l.id) :
    (xs ++ l :: ys).map (fun m => if some m.id = some l.id then m.close w b none else m) = xs ++ l.without w b :: ys := by
  have same : ∀ zs : List Launch, (∀ m ∈ zs, m.id ≠ l.id) →
      zs.map (fun m => if some m.id = some l.id then m.close w b none else m) = zs := fun zs hz =>
    (List.map_congr_left fun m hm => if_neg fun e => hz m hm (Option.some.inj e)).trans (List.map_id _)
  rw [List.map_append, List.map_cons, same xs fun m hm => h m (List.mem_append_left _ hm),
    same ys fun m hm => h m (List.mem_append_right _ hm), if_pos rfl]
  rfl

theorem filter_isOver_eq {xs ys : List Launch} {k : Launch} (h : ∀ m ∈ xs ++ ys, m.left ≠ [] ∨ m.closing ≠ []) :
    (xs ++ k :: ys).filter Launch.isOver = if k.isOver then [k] else [] := by
  have none : ∀ zs : List Launch, (∀ m ∈ zs, m.left ≠ [] ∨ m.closing ≠ []) → zs.filter Launch.isOver = [] := fun zs hz =>
    List.filter_eq_nil_iff.2 fun m hm e => by
      obtain ⟨hl, hc⟩ := m.isOver_iff.1 e
      exact (hz m hm).elim (· hl) (· hc)
  rw [List.filter_append, List.filter_cons, none xs fun m hm => h m (List.mem_append_left _ hm),
    none ys fun m hm => h m (List.mem_append_right _ hm)]
  split <;> rfl

end

/-- What the end of a strand leaves of its team, when nothing is left to close and no other launch is over: with other strands left the
launch stays; with none its token is produced. -/
theorem Team.launchEnd_cases {t : Team} {l : Launch} {w : StrandName} {b : Bool}
    (hf : t.launches.find? (fun m => m.id == l.id) = some l) (hn : (t.launches.map (·.id)).Nodup) (hc : l.closing = [])
    (ho : ∀ m ∈ t.launches, m.id ≠ l.id → m.left ≠ [] ∨ m.closing ≠ []) :
    ((∀ v ∈ l.left, v = w) →
      ((t.launchEnd (some l.id) w b none).token l.ctok).st = (if (l.poisoned || b) = true then .error else .ok) ∧
        ∀ m ∈ (t.launchEnd (some l.id) w b none).launches, m.id ≠ l.id) ∧
    ((∃ v ∈ l.left, v ≠ w) → (t.launchEnd (some l.id) w b none).tokens = t.tokens ∧
      l.without w b ∈ (t.launchEnd (some l.id) w b none).launches) := by
  obtain ⟨xs, ys, hL, hids⟩ := exists_split_of_find hf hn
  have others : ∀ m ∈ xs ++ ys, m.left ≠ [] ∨ m.closing ≠ [] := fun m hm =>
    ho m (by rw [hL]; simp only [List.mem_append, List.mem_cons] at hm ⊢; tauto) (hids m hm)
  have eq : t.launchEnd (some l.id) w b none = ({ t with launches := xs ++ l.without w b :: ys } : Team).launchesDone := by
    rw [← map_ended_eq hids, ← hL]; rfl
  have filtered := filter_isOver_eq (k := l.without w b) others
  rw [eq]
  refine ⟨fun hall => ?_, fun ⟨v, hv, hne⟩ => ?_⟩
  · have done : (l.without w b).isOver = true :=
      (Launch.isOver_iff _).2 ⟨List.filter_eq_nil_iff.2 fun v hv => by simp [hall v hv], hc⟩
    rw [if_pos done] at filtered
    rw [Team.launchesDone_of_one filtered]
    exact ⟨congrArg Token.st (Team.token_setToken t l.ctok (plainToken (if (l.poisoned || b) = true then .error else .ok))),
      fun m hm => by simpa [Launch.without] using (List.mem_filter.1 hm).2⟩
  · have left : (l.without w b).isOver ≠ true := fun e =>
      absurd (List.filter_eq_nil_iff.1 ((Launch.isOver_iff _).1 e).1 v hv) (by simpa using hne)
    rw [if_neg left] at filtered
    rw [Team.launchesDone_of_none filtered]
    exact ⟨rfl, by simp⟩

/-- Nothing is left to close of a strand that owes nothing (R277). -/
theorem State.closingOf_eq_none {s : State} {c n : Nat} (b : Bool)
    (hcmds : ∀ m ∈ s.cmds, m.d = coreDie c → m.t = s.teamAt c → m.who = s.nameOf c n → m.done = true)
    (hstores : ∀ q ∈ (s.core c).stores, q.strand ≠ n) (hwrites : ∀ q ∈ (s.core c).poolWrites, q.strand ≠ n)
    (hblocks : (s.strand c n).storingAny = false)
    (howes : s.owesCommit (coreDie c) (s.teamAt c) (s.nameOf c n) (fun _ => true) = false) : s.closingOf c n b = none := by
  have h1 : (s.cmds.any fun m => m.d == coreDie c && m.t == s.teamAt c && m.who == s.nameOf c n && !m.done) = false := by
    simpa using hcmds
  have h2 : ((s.core c).stores.any fun q => q.strand == n) = false := by simpa using hstores
  have h3 : ((s.core c).poolWrites.any fun q => q.strand == n) = false := by simpa using hwrites
  have h4 : ((s.core c).strand n).storingAny = false := hblocks
  unfold State.closingOf
  dsimp only
  rw [h1, h2, h3, h4, howes]
  rfl

theorem State.mayEnd_eq_true {s : State} {d t : Nat} {w : StrandName} {x : Strand} (he : x.ending = true) (hb : x.storingAny = false)
    (ho : s.owesCommit d t w (fun _ => true) = false) (hm : ∀ m ∈ s.cmds, m.d = d → m.t = t → m.who = w → m.done = true)
    (hs : ∀ e, s.coreNamed d t w = some e →
      (∀ q ∈ (s.core e).stores, q.strand ≠ w.n) ∧ ∀ q ∈ (s.core e).poolWrites, q.strand ≠ w.n) : s.mayEnd d t w x = true := by
  have cmds : (s.cmds.any fun m => m.of_ d t w && !m.done) = false := by simpa [Cmd.of_] using hm
  unfold State.mayEnd
  rw [he, hb, ho, cmds]
  cases e : s.coreNamed d t w with
  | none => rfl
  | some c =>
    obtain ⟨stores, writes⟩ := hs c e
    have h1 : ((s.core c).stores.any fun q => q.strand == w.n) = false := by simpa using stores
    have h2 : ((s.core c).poolWrites.any fun q => q.strand == w.n) = false := by simpa using writes
    simp [h1, h2]

theorem State.endStrand_team (s : State) (c n : Nat) (b : Bool) :
    (s.endStrand c n b).team (coreDie c) (s.teamAt c) =
      ((s.team (coreDie c) (s.teamAt c)).launchEnd (s.strand c n).launch (s.nameOf c n) b (s.closingOf c n b)).settle (s.nameOf c n) :=
  State.team_modTeam ..

theorem strandEnds_holds : Claims.strandEnds := by
  intro s c n d t w x hteam hend hblocks howes hcmds hnamed hstores hwrites hids
  have may : s.mayEnd d t w x = true := State.mayEnd_eq_true hend hblocks howes hcmds hnamed
  refine ⟨s.endStrand c n x.ctl.errorBits, ?_, s.endStrand_gone c n _, fun i l hi hl hc hothers => ?_⟩
  · rw [exec_strandEnd, execStrandEnd]
    exact if_pos (by rw [hteam]; exact may)
  · obtain rfl : l.id = i := by simpa using List.find?_some hl
    have team := s.endStrand_team c n x.ctl.errorBits
    rw [State.closingOf_eq_none _ hcmds hstores hwrites hblocks howes, show (s.strand c n).launch = some l.id from hi] at team
    obtain ⟨last, more⟩ := Team.launchEnd_cases (w := w) (b := x.ctl.errorBits) hl hids hc hothers
    rw [team]
    refine ⟨fun h => ?_, fun h => ?_⟩
    · obtain ⟨token, gone⟩ := last h
      refine ⟨token.trans ?_, gone⟩
      simp [Ctl.errorBits]
    · obtain ⟨tokens, stays⟩ := more h
      exact ⟨tokens, _, stays, rfl, rfl⟩

/-! ## NODE_STRAND_START (R117, R121, R200) -/

/-- A core as the start of a node strand of a launch leaves it: the strand with its index, the partition of the launch, C at 0 where
none ran. -/
def Core.startNode (l : Launch) (now : Nat) (k : Core) (p : StrandName × Nat) : Core :=
  { (k.catchUp now).setStrand p.1.n (launchedStrand l p.2 l.left.length p.1.n) with
    part := l.part, ran := true, cBase := if k.ran then k.cBase else (k.catchUp now).mtime, resumed := if k.ran then k.resumed else none }

/-- The start of one node strand. -/
def State.startNode (l : Launch) (s : State) (p : StrandName × Nat) : State :=
  match s.coreNamed l.d l.t p.1 with
  | none => s
  | some c => s.modCore c fun k => k.startNode l (s.die l.d).now p

theorem nodeStrandStart_starts {s : State} {id : Nat} {l : Launch}
    (hl : s.dies.findSome? (fun e => e.2.teams.findSome? fun m => m.2.launches.find? fun l => l.id == id && !l.started) = some l)
    (hr : s.resident l.d l.t = true) :
    exec (.nodeStrandStart id) s = .next ((l.left.zipIdx.foldl (State.startNode l) s).modTeam l.d l.t fun m =>
      { m with launches := m.launches.map fun k => if k.id = id then { k with started := true } else k }) := by
  rw [exec_nodeStrandStart, execNodeStrandStart, hl]
  simp only [hr]
  rfl

/-- What a start of node strands does to the core that it names, seen from that core. -/
theorem State.foldl_startNode_core (l : Launch) (ps : List (StrandName × Nat)) (s : State) (c : Nat) :
    (ps.foldl (State.startNode l) s).core c =
      (ps.filter fun p => s.coreNamed l.d l.t p.1 == some c).foldl (Core.startNode l (s.die l.d).now) (s.core c) := by
  induction ps generalizing s with
  | nil => rfl
  | cons p ps ih =>
    have named (k : Nat) (f : Core → Core) (w : StrandName) : (s.modCore k f).coreNamed l.d l.t w = s.coreNamed l.d l.t w := rfl
    have now (k : Nat) (f : Core → Core) : (s.modCore k f).die l.d = s.die l.d := rfl
    rw [List.foldl_cons, ih]
    cases hp : s.coreNamed l.d l.t p.1 with
    | none => simp [State.startNode, hp]
    | some e =>
      have step : State.startNode l s p = s.modCore e fun k => k.startNode l (s.die l.d).now p := by rw [State.startNode, hp]
      by_cases he : e = c
      · subst he
        rw [step, List.filter_cons_of_pos (by simp [hp]), List.foldl_cons, State.core_modCore]
        simp only [named, now]
      · rw [step, List.filter_cons_of_neg (by simp [hp, he]), State.core_modCore_ne _ _ (Ne.symm he)]
        simp only [named, now]

theorem State.foldl_startNode_dies (l : Launch) (ps : List (StrandName × Nat)) (s : State) :
    (ps.foldl (State.startNode l) s).dies = s.dies := by
  induction ps generalizing s with
  | nil => rfl
  | cons p ps ih =>
    rw [List.foldl_cons, ih, State.startNode]
    split <;> rfl

theorem State.foldl_startNode_hbm (l : Launch) (ps : List (StrandName × Nat)) (s : State) :
    (ps.foldl (State.startNode l) s).hbm = s.hbm :=
  foldl_hbm (fun s p => by rw [State.startNode]; split <;> rfl) ps s

/-- A strand that none of the starts is of stays. -/
theorem Core.foldl_startNode_strand_ne (l : Launch) (now : Nat) {n : Nat} (ps : List (StrandName × Nat)) (k : Core)
    (h : ∀ p ∈ ps, p.1.n ≠ n) : (ps.foldl (Core.startNode l now) k).strand n = k.strand n := by
  induction ps generalizing k with
  | nil => rfl
  | cons p ps ih =>
    obtain ⟨hp, hps⟩ := List.forall_mem_cons.1 h
    rw [List.foldl_cons, ih _ hps]
    exact (k.catchUp now).strand_setStrand_ne _ (Ne.symm hp)

/-- A strand that one start alone is of is as that start leaves it. -/
theorem Core.foldl_startNode_strand (l : Launch) (now : Nat) {p : StrandName × Nat} (ps : List (StrandName × Nat)) (k : Core)
    (hp : p ∈ ps) (h : ∀ q ∈ ps, q.1.n = p.1.n → q = p) :
    (ps.foldl (Core.startNode l now) k).strand p.1.n = launchedStrand l p.2 l.left.length p.1.n := by
  induction ps generalizing k with
  | nil => cases hp
  | cons q ps ih =>
    obtain ⟨hq, hps⟩ := List.forall_mem_cons.1 h
    rw [List.foldl_cons]
    by_cases again : ∃ r ∈ ps, r.1.n = p.1.n
    · obtain ⟨r, hr, hrn⟩ := again
      exact ih _ (hps r hr hrn ▸ hr) hps
    · have last : ∀ r ∈ ps, r.1.n ≠ p.1.n := fun r hr e => again ⟨r, hr, e⟩
      obtain rfl | hp := List.mem_cons.1 hp
      · rw [Core.foldl_startNode_strand_ne l now ps _ last]
        exact (k.catchUp now).strand_setStrand _ _
      · exact absurd rfl (last p hp)

/-- A core on which a launch has started node strands; `before` says whether a node strand of the team ran there before. -/
structure Core.Started (l : Launch) (now : Nat) (before : Bool) (k : Core) : Prop where
  part : k.part = l.part
  ran : k.ran = true
  base : before = false → k.cBase = k.mtime ∧ now ≤ k.cycle + 1

theorem Core.started_startNode (l : Launch) (now : Nat) (k : Core) (p : StrandName × Nat) :
    (k.startNode l now p).Started l now k.ran := by
  refine ⟨rfl, rfl, fun h => ⟨?_, ?_⟩⟩
  · show (if k.ran = true then k.cBase else (k.catchUp now).mtime) = (k.catchUp now).mtime
    rw [h]
    rfl
  · show now ≤ k.cycle + (now - 1 - k.cycle) + 1
    omega

theorem Core.Started.startNode {l : Launch} {now : Nat} {b : Bool} {k : Core} (h : k.Started l now b) (p : StrandName × Nat) :
    (k.startNode l now p).Started l now b := by
  refine ⟨rfl, rfl, fun hb => ?_⟩
  obtain ⟨base, late⟩ := h.base hb
  have lag : now - 1 - k.cycle = 0 := by omega
  refine ⟨?_, ?_⟩
  · show (if k.ran = true then k.cBase else (k.catchUp now).mtime) = k.mtime + (now - 1 - k.cycle)
    rw [h.ran, if_pos rfl, base, lag, Nat.add_zero]
  · show now ≤ k.cycle + (now - 1 - k.cycle) + 1
    omega

theorem Core.started_foldl_startNode (l : Launch) (now : Nat) {ps : List (StrandName × Nat)} (hps : ps ≠ []) (k : Core) :
    (ps.foldl (Core.startNode l now) k).Started l now k.ran := by
  obtain ⟨p, ps, rfl⟩ := List.exists_cons_of_ne_nil hps
  rw [List.foldl_cons]
  have stays : ∀ (qs : List (StrandName × Nat)) (j : Core), j.Started l now k.ran →
      (qs.foldl (Core.startNode l now) j).Started l now k.ran := by
    intro qs
    induction qs with
    | nil => exact fun j h => h
    | cons q qs ih => exact fun j h => ih _ (h.startNode q)
  exact stays ps _ (k.started_startNode l now p)

/-! ## A node strand as it starts -/

theorem getLsbD_foldl_bits (P : Nat → Prop) [DecidablePred P] (ks : List Nat) (hks : ∀ k ∈ ks, k < 16) (m : BitVec 16) (e : Nat) :
    (ks.foldl (fun (m : BitVec 16) k => if P k then m ||| ((1 : BitVec 16) <<< k) else m) m).getLsbD e = true ↔
      m.getLsbD e = true ∨ (e ∈ ks ∧ P e) := by
  induction ks generalizing m with
  | nil => simp
  | cons k ks ih =>
    obtain ⟨hk, hks⟩ := List.forall_mem_cons.1 hks
    have bit : ((1 : BitVec 16) <<< k).getLsbD e = true ↔ e = k := by
      rw [BitVec.getLsbD_shiftLeft]
      simp
      omega
    rw [List.foldl_cons, ih hks]
    split
    · next hP =>
      rw [BitVec.getLsbD_or, Bool.or_eq_true, bit, List.mem_cons]
      constructor
      · rintro ((h | rfl) | ⟨h, hPe⟩) <;> tauto
      · tauto
    · next hP =>
      rw [List.mem_cons]
      constructor
      · tauto
      · rintro (h | ⟨rfl | h, hPe⟩) <;> tauto

theorem launchedStrand_mslot (l : Launch) (index total n : Nat) {e : Nat} (he : e < 16) :
    (launchedStrand l index total n).ctl.mslot.getLsbD e = true ↔ e % partStrands l.part = n := by
  have := getLsbD_foldl_bits (fun k => k % partStrands l.part = n) (List.range 16) (fun k hk => List.mem_range.1 hk) 0 e
  refine (this.trans ?_)
  simp [he]

theorem launchedStrand_reg_arg (l : Launch) (index total n : Nat) :
    (launchedStrand l index total n).reg 1 = l.arg ∧ (launchedStrand l index total n).regMark 1 = l.argMark ∧
      (launchedStrand l index total n).reg 2 = BitVec.ofNat 64 index ∧
      (launchedStrand l index total n).reg 3 = BitVec.ofNat 64 total := by
  refine ⟨?_, ?_, ?_, ?_⟩
  · simp [launchedStrand, Strand.reg, Strand.setReg]
  · cases h : l.argMark <;> simp [launchedStrand, Strand.regMark, Strand.setReg, Strand.reset, h]
  · simp [launchedStrand, Strand.reg, Strand.setReg]
  · simp [launchedStrand, Strand.reg, Strand.setReg]

theorem launchedStrand_reg_zero (l : Launch) (index total n : Nat) {r : BitVec 6} (h1 : r ≠ 1) (h2 : r ≠ 2) (h3 : r ≠ 3) :
    (launchedStrand l index total n).reg r = 0 := by
  have n1 : ¬ 1 = r.toNat := fun e => h1 (BitVec.eq_of_toNat_eq e.symm)
  have n2 : ¬ 2 = r.toNat := fun e => h2 (BitVec.eq_of_toNat_eq e.symm)
  have n3 : ¬ 3 = r.toNat := fun e => h3 (BitVec.eq_of_toNat_eq e.symm)
  unfold Strand.reg
  split
  · rfl
  · split
    · simp [launchedStrand, Strand.setReg, Strand.reset, n1, n2, n3]
    · rfl

theorem launchStarts_holds : Claims.launchStarts := by
  intro s id l hl hr hnodup hinj
  refine ⟨_, nodeStrandStart_starts hl hr, State.foldl_startNode_hbm .., ?_, fun i c w hi hc => ?_⟩
  · rw [State.team_modTeam]
    show List.map _ (((l.left.zipIdx.foldl (State.startNode l) s).die l.d).team l.t).launches = _
    rw [State.die, State.foldl_startNode_dies]
    rfl
  · have core := State.foldl_startNode_core l l.left.zipIdx s c
    have listed : (w, i) ∈ l.left.zipIdx.filter fun p => s.coreNamed l.d l.t p.1 == some c :=
      List.mem_filter.2 ⟨List.mk_mem_zipIdx_iff_getElem?.2 hi, by simp [hc]⟩
    have alone : ∀ q ∈ l.left.zipIdx.filter fun p => s.coreNamed l.d l.t p.1 == some c, q.1.n = w.n → q = (w, i) := by
      rintro ⟨v, j⟩ hq hn
      obtain ⟨hj, hvc⟩ := List.mem_filter.1 hq
      have hj : l.left[j]? = some v := List.mk_mem_zipIdx_iff_getElem?.1 hj
      have hvc : s.coreNamed l.d l.t v = some c := by simpa using hvc
      obtain rfl : v = w := hinj v w (List.mem_of_getElem? hj) (List.mem_of_getElem? hi) (by simp [hvc]) (hvc.trans hc.symm) hn
      obtain ⟨hlt, -⟩ := List.getElem?_eq_some_iff.1 hj
      rw [(List.getElem?_inj hlt hnodup).1 (hj.trans hi.symm)]
    have strand : (l.left.zipIdx.foldl (State.startNode l) s).strand c w.n = launchedStrand l i l.left.length w.n := by
      rw [State.strand, core]
      exact Core.foldl_startNode_strand l _ _ _ listed alone
    have started := Core.started_foldl_startNode l (s.die l.d).now (List.ne_nil_of_mem listed) (s.core c)
    rw [← core] at started
    obtain ⟨arg, mark, index, total⟩ := launchedStrand_reg_arg l i l.left.length w.n
    intro x
    have hx : x = launchedStrand l i l.left.length w.n := strand
    clear_value x
    subst hx
    exact ⟨rfl, rfl, arg, mark, index, total, fun r h1 h2 h3 => launchedStrand_reg_zero l i _ _ h1 h2 h3, rfl, rfl, rfl, rfl, rfl, rfl,
      rfl, fun e he => launchedStrand_mslot l i _ _ he, rfl, rfl, rfl, started.part, started.ran,
      fun hran => (started.base hran).1⟩

/-! ## YIELD_OVERDUE and the switches (R93, R142, R378) -/

/-- A strand that is overdue, and its team once it has noted that. -/
def Strand.markOverdue (x : Strand) : Strand := { x with ctl := { x.ctl with overdue := true } }
def Team.noteOverdue (m : Team) : Team := { m with fcause := 0x14, overdue := min 65535 (m.overdue + 1) }

@[simp] theorem State.strand_modTeam (s : State) (d t : Nat) (f : Team → Team) (c n : Nat) :
    (s.modTeam d t f).strand c n = s.strand c n := rfl

theorem yieldOverdue_marks {s : State} {c n : Nat} (hy : 4194304 < (s.strand c n).ctl.ydist.toNat)
    (ho : (s.strand c n).ctl.overdue = false) (ht : (s.teamOn c).isSome = true) :
    exec (.yieldOverdue c n) s = .next ((s.modStrand c n Strand.markOverdue).modTeam (coreDie c) (s.teamAt c) Team.noteOverdue) := by
  rw [exec_yieldOverdue, execYieldOverdue]
  exact if_neg (by simp [ho, Option.isNone_eq_false_iff.2 ht]; omega)

/-- A READY strand that is not parked is found wherever the turn begins. -/
theorem Core.nextStrand_isSome {k : Core} {m : Nat} (hm : m < 4) (hr : (k.strand m).mode = .ready) (hp : (k.strand m).parked = false) :
    k.nextStrand.isSome = true := by
  have turn : ∃ i ∈ [1, 2, 3, 4], (k.last + i) % 4 = m := by
    rcases (by omega : (k.last + 1) % 4 = m ∨ (k.last + 2) % 4 = m ∨ (k.last + 3) % 4 = m ∨ (k.last + 4) % 4 = m) with h | h | h | h
    · exact ⟨1, by simp, h⟩
    · exact ⟨2, by simp, h⟩
    · exact ⟨3, by simp, h⟩
    · exact ⟨4, by simp, h⟩
  obtain ⟨i, hi, rfl⟩ := turn
  exact List.find?_isSome.2 ⟨_, List.mem_map.2 ⟨i, hi, rfl⟩, by simp [hr, hp]⟩

theorem Core.leave_strand (k : Core) (n : Nat) (m : RunState) : (k.leave n m).strand n = { k.strand n with mode := m } :=
  k.strand_setStrand n _

theorem Core.leave_strand_ne (k : Core) (m : RunState) {n j : Nat} (h : j ≠ n) : (k.leave n m).strand j = k.strand j :=
  k.strand_setStrand_ne _ h

theorem frostSwitch_leaves {s : State} {c n m : Nat} (hr : (s.core c).running = some n) (h0 : (s.strand c n).ctl.frostsw ≠ 0)
    (hf : (s.strand c n).ctl.frostsw.toNat ≤ (s.core c).frost) (hm : m < 4) (hready : (s.strand c m).mode = .ready)
    (hparked : (s.strand c m).parked = false) :
    exec (.frostSwitch c) s = .next (s.setCore c ((s.core c).leave n .frozenOut)) := by
  have other : (s.core c).nextStrand.isSome = true := Core.nextStrand_isSome hm hready hparked
  have limit : ((s.core c).strand n).ctl.frostsw.toNat ≠ 0 := fun e => h0 (BitVec.eq_of_toNat_eq e)
  have reached : ((s.core c).strand n).ctl.frostsw.toNat ≤ (s.core c).frost := hf
  rw [exec_frostSwitch, execFrostSwitch]
  simp [hr, limit, reached, other]

/-- The core that a strand leaves on a locked replica. -/
def Core.leaveLocked (k : Core) (n : Nat) : Core :=
  (k.leave n .blocked).setStrand n { (k.leave n .blocked).strand n with
    wait := { WaitInfo.reset with reason := waitReplica, since := (k.leave n .blocked).cycle }
    ctl := { ((k.leave n .blocked).strand n).ctl with waitLast := 11, waitCyc := 0 } }

theorem replicaLockSwitch_switches {s : State} {c n : Nat} {l : Load} {p : Target} {q : Pending} (hr : (s.core c).running = some n)
    (hl : l ∈ (s.core c).loads) (hn : l.strand = n) (hp : p ∈ l.places) (hlock : s.readLocked p = true)
    (hq : q ∈ (s.strand c n).pend) (hload : q.load = some l.id) (hdue : q.due ≤ (s.strand c n).time)
    (hfrost : 256 ≤ (s.core c).lockFrost) :
    exec (.replicaLockSwitch c) s = .next (if (s.strand c n).condemned.isSome then s.killStrand c n false
      else s.setCore c ((s.core c).leaveLocked n)) := by
  have places : l.places.any s.readLocked = true := List.any_eq_true.2 ⟨p, hp, hlock⟩
  have late : ((s.strand c n).pend.any fun p => p.load == some l.id && p.due ≤ (s.strand c n).time) = true :=
    List.any_eq_true.2 ⟨q, hq, by simp [hload, hdue]⟩
  have held : s.lockHeld c n = true := List.any_eq_true.2 ⟨l, hl, by simp only [hn, places, late]; simp⟩
  rw [exec_replicaLockSwitch, execReplicaLockSwitch, hr]
  dsimp only
  rw [if_neg (by simp [held, hfrost])]
  split
  · next h => rw [if_pos (show (s.strand c n).condemned.isSome = true from h)]
  · next h =>
    rw [if_neg (show ¬ (s.strand c n).condemned.isSome = true from h)]
    rfl

/-- Settles O37: an end and a kill take the strand off its core by one operation, which produces the token of a launch that nothing is
left of; a start writes each node strand once; a switch leaves the core for two cycles. -/
theorem strandEvents : Obligations.StrandEvents := by
  refine ⟨strandEnds_holds, launchStarts_holds, fun s c n w hc hm ht hw hb hk => ⟨_, killPoint_kills hc hm ht hw hb hk, s.killStrand_killed c n _⟩,
    fun s c n k hc hk ht => ⟨_, killLimit_kills hc hk ht, s.killStrand_killed c n _⟩, fun s c n hy ho ht => ?_,
    fun s c n m hr h0 hf hm hready hparked => ?_, fun s c n l p q hr hl hn hp hlock hq hload hdue hfrost => ⟨fun hc => ?_, fun hc => ?_⟩⟩
  · refine ⟨_, yieldOverdue_marks hy ho ht, ?_⟩
    rw [State.strand_modTeam, State.strand_modStrand, State.team_modTeam]
    exact ⟨rfl, rfl, rfl, rfl⟩
  · refine ⟨_, frostSwitch_leaves hr h0 hf hm hready hparked, ?_⟩
    simp only [State.strand, State.core_setCore, Core.leave_strand]
    exact ⟨rfl, rfl, rfl, rfl, trivial, trivial, trivial, fun k hk => (s.core c).leave_strand_ne _ hk⟩
  · have step := replicaLockSwitch_switches hr hl hn hp hlock hq hload hdue hfrost
    rw [if_neg (by simp [hc])] at step
    refine ⟨_, step, ?_⟩
    simp only [State.strand, State.core_setCore, Core.leaveLocked, Core.strand_setStrand, Core.leave_strand]
    exact ⟨rfl, rfl, trivial, rfl, trivial, trivial⟩
  · have step := replicaLockSwitch_switches hr hl hn hp hlock hq hload hdue hfrost
    rw [if_pos hc] at step
    exact ⟨_, step, s.killStrand_killed c n false⟩

end Sys2Proof.Machine
end

section
/-!
PROOF. Scan tests (R407): a cluster that its partition does not lose, in a state whose map of partitions is out of order.
-/

set_option Elab.async false
namespace Sys2Proof.Machine

/-- A partition that holds the physical cluster 0 of die 0 as its logical cluster 0. -/
def holdsClusterZero : Partition := { Partition.reset with exists_ := true, clusters := [(0, 0)] }

/-- Partitions 5 and 3, listed in that order, hold one and the same cluster, whose test is due to end; no cluster of the die is
there to replace it. -/
def unsortedParts : State :=
  { State.reset with
    parts := [(5, holdsClusterZero), (3, holdsClusterZero)]
    dies := [(0, { Die.reset with now := 340000, scans := [{ cl := 0, part := some 5, start := some 0 }] })]
    withdrawn := List.range 16 }

theorem unsortedParts_not_spare (n : Nat) : ¬ Claims.spare unsortedParts 0 n := fun ⟨lt, _, free, _⟩ =>
  free (by simpa [unsortedParts] using lt)

theorem scanComplete_unsortedParts {u : State} (h : exec (.scanComplete 0 0 false) unsortedParts = .next u) :
    (u.part 5).clusters = [(0, 0)] := by
  obtain rfl := Host.Outcome.next.inj h
  rfl

/-- Refutes O39: the partition of a cluster that fails its test is asked for a second time after the loss is noted in it, and noting it
puts the map of partitions in order: where the map lists partition 5 before partition 3 and both list the cluster, the cluster is
taken out of partition 3 and partition 5 keeps it. -/
theorem not_swaps : ¬ Obligations.Swaps := by
  rintro ⟨-, -, -, -, -, completes⟩
  obtain ⟨-, u, next, -, -, -, loses⟩ := completes unsortedParts 0 0 0 { cl := 0, part := some 5, start := some 0 } rfl rfl le_rfl
  have lost := ((loses 5 rfl).2 unsortedParts_not_spare).1
  rw [scanComplete_unsortedParts next] at lost
  exact absurd lost (by decide)

end Sys2Proof.Machine
end

section
/-!
PROOF. Sparse maps by their entries, and the clusters of a partition (R22): PART_SET.
-/

set_option Elab.async false
namespace Sys2Proof.Machine

/-! ## What is listed under a key -/

theorem seek_cons {α : Type} (j : Nat) (v : α) (m : Sparse α) (k : Nat) :
    seek ((j, v) :: m) k = if j = k then some v else seek m k := by
  unfold seek
  by_cases h : j = k <;> simp [h]

theorem seek_eq_none_iff {α : Type} {m : Sparse α} {k : Nat} : seek m k = none ↔ ∀ e ∈ m, e.1 ≠ k := by
  simp [seek]

theorem mem_of_seek {α : Type} {m : Sparse α} {k : Nat} {v : α} (h : seek m k = some v) : (k, v) ∈ m := by
  obtain ⟨e, he, rfl⟩ := Option.map_eq_some_iff.1 h
  obtain rfl : e.1 = k := by simpa using List.find?_some he
  exact List.mem_of_find?_eq_some he

/-- A filter that keeps what a key finds leaves it found. -/
theorem seek_filter_of_some {α : Type} {p : Nat × α → Bool} {m : Sparse α} {k : Nat} {v : α} (h : seek m k = some v)
    (hp : p (k, v) = true) : seek (m.filter p) k = some v := by
  induction m with
  | nil => cases h
  | cons e rest ih =>
    obtain ⟨j, w⟩ := e
    rw [seek_cons] at h
    by_cases hj : j = k
    · subst hj
      obtain rfl : w = v := by simpa using h
      rw [List.filter_cons_of_pos hp, seek_cons, if_pos rfl]
    · rw [if_neg hj] at h
      by_cases hk : p (j, w) = true
      · rw [List.filter_cons_of_pos hk, seek_cons, if_neg hj, ih h]
      · rw [List.filter_cons_of_neg hk, ih h]

theorem dropKey_of_seek_none {α : Type} {m : Sparse α} {k : Nat} (h : seek m k = none) : dropKey m k = m :=
  List.filter_eq_self.2 fun e he => by simpa using seek_eq_none_iff.1 h e he

@[simp] theorem seek_dropKey_self {α : Type} (m : Sparse α) (k : Nat) : seek (dropKey m k) k = none :=
  seek_eq_none_iff.2 fun e he => by simpa [dropKey] using (List.mem_filter.1 he).2

theorem insertKey_perm {α : Type} (k : Nat) (v : α) (m : Sparse α) : (insertKey k v m).Perm ((k, v) :: m) := by
  induction m with
  | nil => exact .refl _
  | cons e rest ih =>
    obtain ⟨j, u⟩ := e
    rw [insertKey]
    split
    · exact .refl _
    · exact (ih.cons _).trans (.swap _ _ _)

theorem seek_insertKey_ne {α : Type} {j k : Nat} (v : α) (m : Sparse α) (h : j ≠ k) : seek (insertKey j v m) k = seek m k := by
  induction m with
  | nil => rw [insertKey, seek_cons, if_neg h]
  | cons e rest ih =>
    obtain ⟨i, u⟩ := e
    rw [insertKey]
    split
    · rw [seek_cons, if_neg h]
    · rw [seek_cons, seek_cons, ih]

theorem seek_insertKey_self {α : Type} {k : Nat} (v : α) {m : Sparse α} (h : seek m k = none) :
    seek (insertKey k v m) k = some v := by
  induction m with
  | nil => rw [insertKey, seek_cons, if_pos rfl]
  | cons e rest ih =>
    obtain ⟨i, u⟩ := e
    rw [seek_cons] at h
    rw [insertKey]
    split
    · rw [seek_cons, if_pos rfl]
    · by_cases hi : i = k
      · rw [if_pos hi] at h; cases h
      · rw [if_neg hi] at h
        rw [seek_cons, if_neg hi, ih h]

@[simp] theorem seek_ins_self {α : Type} (m : Sparse α) (k : Nat) (v : α) : seek (ins m k v) k = some v :=
  seek_insertKey_self v (seek_dropKey_self m k)

/-! ## The clusters of a partition on a die -/

/-- The physical clusters that a map of clusters lists for a die. -/
def heldIn (m : Sparse Nat) (d : Nat) : List Nat := m.filterMap fun e => if e.1 / 16 = d then some e.2 else none

theorem Partition.held_eq (q : Partition) (d : Nat) : q.held d = heldIn q.clusters d := rfl

theorem mem_heldIn {m : Sparse Nat} {d c : Nat} : c ∈ heldIn m d ↔ ∃ e ∈ m, e.1 / 16 = d ∧ e.2 = c := by
  simp [heldIn]

theorem heldIn_eq_map (m : Sparse Nat) (d : Nat) : heldIn m d = (m.filter fun e => e.1 / 16 == d).map (·.2) := by
  unfold heldIn
  induction m with
  | nil => rfl
  | cons e rest ih =>
    by_cases h : e.1 / 16 = d
    · rw [List.filterMap_cons, List.filter_cons_of_pos (by simp [h]), if_pos h, List.map_cons, ih]
    · rw [List.filterMap_cons, List.filter_cons_of_neg (by simp [h]), if_neg h, ih]

/-- Sixteen logical numbers of a die are all taken only by sixteen clusters. -/
theorem exists_free_number {m : Sparse Nat} {d : Nat} (h : (heldIn m d).length < 16) : ∃ l < 16, seek m (16 * d + l) = none := by
  by_contra taken
  have taken : ∀ l < 16, seek m (16 * d + l) ≠ none := fun l hl e => taken ⟨l, hl, e⟩
  have numbers : ((List.range 16).map (16 * d + ·)).Nodup := List.nodup_range.map fun a b e => Nat.add_left_cancel e
  have listed : (List.range 16).map (16 * d + ·) ⊆ (m.filter fun e => e.1 / 16 == d).map (·.1) := by
    intro k hk
    obtain ⟨l, hl, rfl⟩ := List.mem_map.1 hk
    have hl : l < 16 := List.mem_range.1 hl
    obtain ⟨v, hv⟩ := Option.ne_none_iff_exists'.1 (taken l hl)
    exact List.mem_map.2 ⟨_, List.mem_filter.2 ⟨mem_of_seek hv, by simp; omega⟩, rfl⟩
  have := (List.subperm_of_subset numbers listed).length_le
  rw [heldIn_eq_map] at h
  simp only [List.length_map, List.length_range] at this h
  omega

/-- A cluster takes the lowest logical number that is not in use (R22). -/
def addCluster (d : Nat) (m : Sparse Nat) (c : Nat) : Sparse Nat :=
  match (List.range 16).find? fun l => (seek m (16 * d + l)).isNone with
  | some l => ins m (16 * d + l) c
  | none => m

/-- A cluster that is added, when a number is free, is one more entry under that number. -/
theorem addCluster_of_free {d : Nat} {m : Sparse Nat} (c : Nat) (h : (heldIn m d).length < 16) :
    ∃ k, k / 16 = d ∧ seek m k = none ∧ addCluster d m c = insertKey k c m := by
  obtain ⟨l, hl, hfree⟩ := exists_free_number h
  have found : ((List.range 16).find? fun l => (seek m (16 * d + l)).isNone).isSome = true :=
    List.find?_isSome.2 ⟨l, List.mem_range.2 hl, by simp [hfree]⟩
  obtain ⟨j, hj⟩ := Option.isSome_iff_exists.1 found
  have none : seek m (16 * d + j) = none := by simpa using List.find?_some hj
  have lt : j < 16 := List.mem_range.1 (List.mem_of_find?_eq_some hj)
  refine ⟨16 * d + j, by omega, none, ?_⟩
  rw [addCluster, hj]
  exact congrArg _ (dropKey_of_seek_none none)

theorem heldIn_insertKey_self {d k c : Nat} (m : Sparse Nat) (h : k / 16 = d) :
    (heldIn (insertKey k c m) d).Perm (c :: heldIn m d) := by
  refine ((insertKey_perm k c m).filterMap _).trans ?_
  rw [List.filterMap_cons, if_pos h]
  exact .refl _

theorem heldIn_insertKey_ne {d e k c : Nat} (m : Sparse Nat) (h : k / 16 = d) (he : e ≠ d) :
    (heldIn (insertKey k c m) e).Perm (heldIn m e) := by
  refine ((insertKey_perm k c m).filterMap _).trans ?_
  rw [List.filterMap_cons_none (by simp; omega)]
  exact .refl _

/-- Clusters added one after another stand beside those that were there; every number in use stays. -/
theorem foldl_addCluster (d : Nat) (cs : List Nat) (m : Sparse Nat) (h : cs.length + (heldIn m d).length ≤ 16) :
    (heldIn (cs.foldl (addCluster d) m) d).Perm (cs ++ heldIn m d) ∧
      (∀ k v, seek m k = some v → seek (cs.foldl (addCluster d) m) k = some v) ∧
      ∀ e, e ≠ d → (heldIn (cs.foldl (addCluster d) m) e).Perm (heldIn m e) := by
  induction cs generalizing m with
  | nil => exact ⟨.refl _, fun _ _ h => h, fun _ _ => .refl _⟩
  | cons c cs ih =>
    rw [List.length_cons] at h
    obtain ⟨k, hk, hfree, heq⟩ := addCluster_of_free (d := d) (m := m) c (by omega)
    have here := heldIn_insertKey_self (c := c) m hk
    obtain ⟨perm, stays, others⟩ := ih (addCluster d m c) (by rw [heq, here.length_eq, List.length_cons]; omega)
    rw [heq] at perm stays others
    rw [List.foldl_cons, heq]
    refine ⟨perm.trans ((here.append_left cs).trans ?_), fun j v hj => stays j v ?_,
      fun e he => (others e he).trans (heldIn_insertKey_ne m hk he)⟩
    · exact List.perm_middle
    · have ne : k ≠ j := by rintro rfl; rw [hfree] at hj; cases hj
      rw [seek_insertKey_ne c m ne, hj]

/-- The logical map of a die after PART_SET: it holds the clusters that are wanted, those that stay under their numbers, and the
other dies as before (R22). -/
theorem renumber_spec {d : Nat} {old : Sparse Nat} {want : List Nat} (hold : (heldIn old d).Nodup) (hwant : want.Nodup)
    (hlt : ∀ c ∈ want, c < 16) :
    (∀ c, c ∈ heldIn (renumber d old want) d ↔ c ∈ want) ∧
      (∀ k c, seek old k = some c → (k / 16 = d → c ∈ want) → seek (renumber d old want) k = some c) ∧
      ∀ e, e ≠ d → (heldIn (renumber d old want) e).Perm (heldIn old e) := by
  have eq : renumber d old want = (want.filter fun c => !(old.any fun e => e.1 / 16 == d && e.2 == c)).foldl (addCluster d)
      (old.filter fun e => e.1 / 16 != d || want.contains e.2) := rfl
  have held (c : Nat) : (old.any fun e => e.1 / 16 == d && e.2 == c) = true ↔ c ∈ heldIn old d := by
    simp [mem_heldIn]
  generalize hadded : (want.filter fun c => !(old.any fun e => e.1 / 16 == d && e.2 == c)) = added at eq
  generalize hstay : (old.filter fun e => e.1 / 16 != d || want.contains e.2) = stay at eq
  have added_iff (c : Nat) : c ∈ added ↔ c ∈ want ∧ c ∉ heldIn old d := by
    rw [← hadded, List.mem_filter, ← held, Bool.not_eq_true', Bool.not_eq_true]
  have stay_iff (c : Nat) : c ∈ heldIn stay d ↔ c ∈ heldIn old d ∧ c ∈ want := by
    simp only [mem_heldIn, ← hstay, List.mem_filter]
    constructor
    · rintro ⟨e, ⟨he, hp⟩, hd, rfl⟩
      exact ⟨⟨e, he, hd, rfl⟩, by simpa [hd] using hp⟩
    · rintro ⟨⟨e, he, hd, rfl⟩, hw⟩
      exact ⟨e, ⟨he, by simp [hw]⟩, hd, rfl⟩
  have stay_nodup : (heldIn stay d).Nodup := by
    rw [← hstay]
    exact hold.sublist (List.filter_sublist.filterMap _)
  have nodup : (added ++ heldIn stay d).Nodup :=
    List.nodup_append'.2 ⟨hadded ▸ hwant.filter _, stay_nodup, fun c hc hs => ((added_iff c).1 hc).2 ((stay_iff c).1 hs).1⟩
  have bound : added.length + (heldIn stay d).length ≤ 16 := by
    have sub : added ++ heldIn stay d ⊆ List.range 16 := fun c hc => List.mem_range.2 <| hlt c <|
      (List.mem_append.1 hc).elim (fun h => ((added_iff c).1 h).1) fun h => ((stay_iff c).1 h).2
    simpa using (List.subperm_of_subset nodup sub).length_le
  obtain ⟨perm, stays, others⟩ := foldl_addCluster d added stay bound
  rw [eq]
  refine ⟨fun c => ?_, fun k c hk hc => stays k c ?_, fun e he => (others e he).trans ?_⟩
  · rw [perm.mem_iff, List.mem_append, added_iff, stay_iff]
    tauto
  · rw [← hstay]
    refine seek_filter_of_some hk ?_
    by_cases hd : k / 16 = d
    · simp [hc hd]
    · simp [hd]
  · have same : heldIn stay e = heldIn old e := by
      rw [heldIn_eq_map, heldIn_eq_map, ← hstay, List.filter_filter]
      congr 1
      refine List.filter_congr fun x _ => ?_
      by_cases hx : x.1 / 16 = e
      · have : ¬ x.1 / 16 = d := by omega
        simp [hx, he]
      · simp [hx]
    rw [same]

/-- The maps of several dies, one after another. -/
def renumberAll (want : Nat → List Nat) (ds : List Nat) (old : Sparse Nat) : Sparse Nat :=
  ds.foldl (fun o d => renumber d o (want d)) old

section RenumberAll
variable {want : Nat → List Nat} (hwant : ∀ d, (want d).Nodup ∧ ∀ c ∈ want d, c < 16)
include hwant

/-- After the map of one die the other dies still hold each cluster once. -/
theorem renumber_nodup {e : Nat} {es : List Nat} {old : Sparse Nat} (hold : ∀ x ∈ e :: es, (heldIn old x).Nodup) (hne : e ∉ es) :
    ∀ x ∈ es, (heldIn (renumber e old (want e)) x).Nodup := by
  obtain ⟨hoe, hoes⟩ := List.forall_mem_cons.1 hold
  obtain ⟨-, -, others⟩ := renumber_spec hoe (hwant e).1 (hwant e).2
  exact fun x hx => (others x fun h => hne (h ▸ hx)).nodup_iff.2 (hoes x hx)

/-- A die whose map is not among them is left alone. -/
theorem renumberAll_apart {d : Nat} {ds : List Nat} (hds : ds.Nodup) {old : Sparse Nat} (hold : ∀ e ∈ ds, (heldIn old e).Nodup)
    (hd : d ∉ ds) :
    (heldIn (renumberAll want ds old) d).Perm (heldIn old d) ∧
      ∀ k c, k / 16 = d → seek old k = some c → seek (renumberAll want ds old) k = some c := by
  induction ds generalizing old with
  | nil => exact ⟨.refl _, fun _ _ _ h => h⟩
  | cons e es ih =>
    obtain ⟨hne, hes⟩ := List.nodup_cons.1 hds
    obtain ⟨hde, hdes⟩ := not_or.1 (mt List.mem_cons.2 hd)
    obtain ⟨-, stays, others⟩ := renumber_spec (hold e List.mem_cons_self) (hwant e).1 (hwant e).2
    obtain ⟨perm, kept⟩ := ih hes (renumber_nodup hwant hold hne) hdes
    exact ⟨perm.trans (others d hde), fun k c hk hc => kept k c hk (stays k c hc fun h => absurd (hk.symm.trans h) hde)⟩

/-- A die whose map is among them holds the clusters that are wanted, those that stay under their numbers. -/
theorem renumberAll_spec {d : Nat} {ds : List Nat} (hds : ds.Nodup) {old : Sparse Nat} (hold : ∀ e ∈ ds, (heldIn old e).Nodup)
    (hd : d ∈ ds) :
    (∀ c, c ∈ heldIn (renumberAll want ds old) d ↔ c ∈ want d) ∧
      ∀ k c, k / 16 = d → seek old k = some c → c ∈ want d → seek (renumberAll want ds old) k = some c := by
  induction ds generalizing old with
  | nil => cases hd
  | cons e es ih =>
    obtain ⟨hne, hes⟩ := List.nodup_cons.1 hds
    obtain ⟨holds, stays, -⟩ := renumber_spec (hold e List.mem_cons_self) (hwant e).1 (hwant e).2
    have next := renumber_nodup hwant hold hne
    obtain rfl | hd := List.mem_cons.1 hd
    · obtain ⟨perm, kept⟩ := renumberAll_apart hwant hes next hne
      exact ⟨fun c => perm.mem_iff.trans (holds c), fun k c hk hc hw => kept k c hk (stays k c hc fun _ => hw)⟩
    · have ne : d ≠ e := fun h => hne (h ▸ hd)
      obtain ⟨members, kept⟩ := ih hes next hd
      exact ⟨members, fun k c hk hc hw => kept k c hk (stays k c hc fun h => absurd (hk.symm.trans h) ne) hw⟩

end RenumberAll

end Sys2Proof.Machine
end

section
/-!
PROOF. The frame of a management command (R396), what the shared parts of the commands change (R132, R401, R402), and PART_SET (R22, R397).
-/

set_option Elab.async false
namespace Sys2Proof.Machine

/-! ## The frame -/

@[simp] theorem begun_part (s : State) (code : Nat) (m : HostCmd) (p : Nat) : (Claims.begun s code m).part p = s.part p := rfl
@[simp] theorem begun_vf (s : State) (code : Nat) (m : HostCmd) (v : Nat) : (Claims.begun s code m).vf v = s.vf v := rfl
@[simp] theorem begun_die (s : State) (code : Nat) (m : HostCmd) (d : Nat) : (Claims.begun s code m).die d = s.die d := rfl
@[simp] theorem begun_core (s : State) (code : Nat) (m : HostCmd) (c : Nat) : (Claims.begun s code m).core c = s.core c := rfl
@[simp] theorem begun_teamOf (s : State) (code : Nat) (m : HostCmd) (v d : Nat) :
    (Claims.begun s code m).teamOf v d = s.teamOf v d := rfl
@[simp] theorem begun_teamsOf (s : State) (code : Nat) (m : HostCmd) (d p : Nat) :
    (Claims.begun s code m).teamsOf d p = s.teamsOf d p := rfl
@[simp] theorem begun_boundVfs (s : State) (code : Nat) (m : HostCmd) (p : Nat) :
    (Claims.begun s code m).boundVfs p = s.boundVfs p := rfl
@[simp] theorem begun_clustersOn (s : State) (code : Nat) (m : HostCmd) (p d : Nat) :
    (Claims.begun s code m).clustersOn p d = s.clustersOn p d := rfl

section Frame
variable {i : Instr} {s u : State} {m : HostCmd} {code n status : Nat} {ok : Bool} {run : State → Answer × State}

/-- A command that is taken and legal answers in its slot what it ends with. -/
theorem command_runs {a : Nat × List Word} (taken : Claims.taken s m n) (legal : ok = true)
    (ends : run (Claims.begun s code m) = (some a, u)) :
    command code n m ok s run = .next (u.answerSlot m.slot.toNat a) := by
  obtain ⟨free, form⟩ := taken
  have formed : ¬ (!commandForm n m || !ok) = true := by simp [form, legal]
  have ran : run (s.modSlot m.slot.toNat fun k =>
      { bytes := k.bytes, code := BitVec.ofNat 16 code, tag := m.tag, status := 0, a := [], cmd := none, load := none, order := 0 }) =
        (some a, u) := ends
  unfold command
  simp only [if_neg free, if_neg formed, ran]

theorem answersOnly_of_run (exec_eq : exec i s = command code n m ok s run) (taken : Claims.taken s m n) (legal : ok = true)
    (ends : run (Claims.begun s code m) = done status (Claims.begun s code m)) : Claims.answersOnly i s code m status :=
  exec_eq.trans (command_runs taken legal ends)

/-- A command that ends with OK and has left the slots alone. -/
theorem endsWith_of_run {after : State → Prop} (exec_eq : exec i s = command code n m ok s run) (taken : Claims.taken s m n)
    (legal : ok = true) (ends : run (Claims.begun s code m) = done stOk u) (slots : u.pfSlots = (Claims.begun s code m).pfSlots)
    (holds : after (u.answerSlot m.slot.toNat (stOk, []))) : Claims.endsWith i s m 1 after := by
  have slot : (u.answerSlot m.slot.toNat (stOk, [])).pfSlot m.slot.toNat =
      { u.pfSlot m.slot.toNat with status := 1, a := [], cmd := none, load := none } := look_ins_self ..
  have mine : (u.pfSlot m.slot.toNat).tag = m.tag := by
    unfold State.pfSlot
    rw [slots]
    exact congrArg CmdSlot.tag (look_ins_self ..)
  exact ⟨_, exec_eq.trans (command_runs taken legal ends), by rw [slot], by rw [slot]; exact mine, holds⟩

end Frame

/-! ## What the shared parts change -/

/-- What every step of a fold leaves alone, the fold does. -/
theorem foldl_keeps {α β γ : Type} (g : α → γ) {step : α → β → α} (h : ∀ a b, g (step a b) = g a) (l : List β) (a : α) :
    g (l.foldl step a) = g a := by
  induction l generalizing a with
  | nil => rfl
  | cons b l ih => rw [List.foldl_cons, ih, h]

theorem State.part_modPart_ne (s : State) (f : Partition → Partition) {p q : Nat} (h : q ≠ p) : (s.modPart p f).part q = s.part q :=
  look_ins_ne _ _ _ h

/-- A measurement changes nothing but the maps of partitions. -/
theorem State.fold_eq (s : State) (ps : List Nat) (code : Nat) (m : HostCmd) :
    s.fold ps code m = { s with parts := (s.fold ps code m).parts } := by
  unfold State.fold
  induction ps generalizing s with
  | nil => rfl
  | cons p ps ih => rw [List.foldl_cons, ih]; rfl

/-- Of a partition it changes nothing but the measure. -/
theorem State.fold_part (s : State) (ps : List Nat) (code : Nat) (m : HostCmd) (q : Nat) :
    ∃ w, (s.fold ps code m).part q = { s.part q with measure := w } := by
  unfold State.fold
  induction ps generalizing s with
  | nil => exact ⟨_, rfl⟩
  | cons p ps ih =>
    rw [List.foldl_cons]
    obtain ⟨w, hw⟩ := ih (s.modPart p fun k =>
      { k with measure := Config.sha256 (bytesOf 32 k.measure.toNat ++ commandBytes code m) })
    by_cases h : q = p
    · subst h
      exact ⟨w, by rw [hw, State.part_modPart]⟩
    · exact ⟨w, by rw [hw, State.part_modPart_ne _ _ h]⟩

@[simp] theorem State.fold_pfSlots (s : State) (ps : List Nat) (code : Nat) (m : HostCmd) : (s.fold ps code m).pfSlots = s.pfSlots := by
  rw [State.fold_eq]
@[simp] theorem State.fold_core (s : State) (ps : List Nat) (code : Nat) (m : HostCmd) (c : Nat) :
    (s.fold ps code m).core c = s.core c := by rw [State.fold_eq]; rfl
@[simp] theorem State.fold_die (s : State) (ps : List Nat) (code : Nat) (m : HostCmd) (d : Nat) :
    (s.fold ps code m).die d = s.die d := by rw [State.fold_eq]; rfl
@[simp] theorem State.fold_vf (s : State) (ps : List Nat) (code : Nat) (m : HostCmd) (v : Nat) :
    (s.fold ps code m).vf v = s.vf v := by rw [State.fold_eq]; rfl

/-- TLB entries go from the cores and the dies, and nothing else does. -/
@[simp] theorem State.dropTlb_core (s : State) (p : TlbEntry → Bool) (c : Nat) :
    (s.dropTlb p).core c = { s.core c with utlb := (s.core c).utlb.filter fun e => !p e } :=
  look_map (f := fun k : Core => { k with utlb := k.utlb.filter fun e => !p e }) rfl _ _
@[simp] theorem State.dropTlb_die (s : State) (p : TlbEntry → Bool) (d : Nat) :
    (s.dropTlb p).die d = { s.die d with stlb := (s.die d).stlb.filter fun e => !p e } :=
  look_map (f := fun k : Die => { k with stlb := k.stlb.filter fun e => !p e }) rfl _ _
@[simp] theorem State.dropTlb_vf (s : State) (p : TlbEntry → Bool) (v : Nat) : (s.dropTlb p).vf v = s.vf v := rfl
@[simp] theorem State.dropTlb_pfSlots (s : State) (p : TlbEntry → Bool) : (s.dropTlb p).pfSlots = s.pfSlots := rfl

/-- The cores that are zeroed one after another. -/
theorem State.foldl_zeroed_core (cs : List Nat) (s : State) (k : Nat) :
    (cs.foldl (fun s c => s.modCore c Core.zeroed) s).core k = if k ∈ cs then (s.core k).zeroed else s.core k := by
  induction cs generalizing s with
  | nil => rfl
  | cons c cs ih =>
    rw [List.foldl_cons, ih]
    by_cases h : k = c
    · subst h
      rw [State.core_modCore, if_pos List.mem_cons_self]
      split <;> rfl
    · rw [State.core_modCore_ne _ _ h]
      exact if_congr (List.mem_cons.trans (or_iff_right h)).symm rfl rfl

/-- The cores of clusters. -/
def coresOfClusters (xs : List (Nat × Nat)) : List Nat := xs.flatMap fun x => (List.range 8).map (128 * x.1 + 8 * x.2 + ·)

def State.zeroClusters (s : State) (xs : List (Nat × Nat)) : State := xs.foldl (fun s x => s.zeroCluster x.1 x.2) s

theorem State.zeroClusters_core (s : State) (xs : List (Nat × Nat)) (k : Nat) :
    (s.zeroClusters xs).core k = if k ∈ coresOfClusters xs then (s.core k).zeroed else s.core k := by
  rw [← State.foldl_zeroed_core, coresOfClusters, List.foldl_flatMap]
  simp only [List.foldl_map]
  rfl

theorem State.zeroCluster_parts (s : State) (d ph : Nat) : (s.zeroCluster d ph).parts = s.parts :=
  foldl_keeps State.parts (fun s co => State.modCore_parts s (128 * d + 8 * ph + co) Core.zeroed) (List.range 8) s

theorem State.zeroCluster_pfSlots (s : State) (d ph : Nat) : (s.zeroCluster d ph).pfSlots = s.pfSlots :=
  foldl_keeps State.pfSlots (fun s co => State.modCore_pfSlots s (128 * d + 8 * ph + co) Core.zeroed) (List.range 8) s

theorem State.zeroClusters_parts (s : State) (xs : List (Nat × Nat)) : (s.zeroClusters xs).parts = s.parts :=
  foldl_keeps State.parts (fun s (x : Nat × Nat) => State.zeroCluster_parts s x.1 x.2) xs s

theorem State.zeroClusters_pfSlots (s : State) (xs : List (Nat × Nat)) : (s.zeroClusters xs).pfSlots = s.pfSlots :=
  foldl_keeps State.pfSlots (fun s (x : Nat × Nat) => State.zeroCluster_pfSlots s x.1 x.2) xs s

theorem mem_coresOfClusters {xs : List (Nat × Nat)} (hxs : ∀ x ∈ xs, x.2 < 16) {e c co : Nat} (hc : c < 16) (hco : co < 8) :
    128 * e + 8 * c + co ∈ coresOfClusters xs ↔ (e, c) ∈ xs := by
  simp only [coresOfClusters, List.mem_flatMap, List.mem_map, List.mem_range]
  constructor
  · rintro ⟨x, hx, k, hk, eq⟩
    have := hxs x hx
    obtain ⟨rfl, rfl⟩ : x.1 = e ∧ x.2 = c := by omega
    exact hx
  · exact fun h => ⟨_, h, co, hco, rfl⟩

/-! ## PART_SET -/

theorem maskClusters_nodup (m : HostCmd) (d : Nat) : (maskClusters m d).Nodup := List.nodup_range.filter _

theorem lt_of_mem_maskClusters {m : HostCmd} {d c : Nat} (h : c ∈ maskClusters m d) : c < 16 :=
  List.mem_range.1 (List.mem_filter.1 h).1

/-- The clusters that PART_SET adds to a partition or takes from it, each with its die. -/
def changedClusters (q : Partition) (m : HostCmd) : List (Nat × Nat) :=
  (List.range 8).flatMap fun d =>
    ((List.range 16).filter fun c => (maskClusters m d).contains c != (q.held d).contains c).map fun c => (d, c)

theorem mem_changedClusters {q : Partition} {m : HostCmd} {d c : Nat} :
    (d, c) ∈ changedClusters q m ↔ d < 8 ∧ c < 16 ∧ ¬ (c ∈ maskClusters m d ↔ c ∈ q.held d) := by
  simp [changedClusters]

/-- Tests of clusters that change take note of it. -/
def Die.noteChange (p : Nat) (m : HostCmd) (k : Die) (x : Nat × Nat) : Die :=
  { k with scans := k.scans.map fun y =>
    if y.cl = x.2 then { y with part := if (maskClusters m x.1).contains x.2 then some p else none } else y }

def State.noteChanges (s : State) (m : HostCmd) (xs : List (Nat × Nat)) : State :=
  xs.foldl (fun s x => s.modDie x.1 fun k => k.noteChange m.p0.toNat m x) s

theorem State.noteChanges_cores (s : State) (m : HostCmd) (xs : List (Nat × Nat)) : (s.noteChanges m xs).cores = s.cores :=
  foldl_keeps State.cores (fun s (x : Nat × Nat) => State.modDie_cores s x.1 fun k => k.noteChange m.p0.toNat m x) xs s

theorem State.noteChanges_parts (s : State) (m : HostCmd) (xs : List (Nat × Nat)) : (s.noteChanges m xs).parts = s.parts :=
  foldl_keeps State.parts (fun s (x : Nat × Nat) => State.modDie_parts s x.1 fun k => k.noteChange m.p0.toNat m x) xs s

theorem State.noteChanges_pfSlots (s : State) (m : HostCmd) (xs : List (Nat × Nat)) : (s.noteChanges m xs).pfSlots = s.pfSlots :=
  foldl_keeps State.pfSlots (fun s (x : Nat × Nat) => State.modDie_pfSlots s x.1 fun k => k.noteChange m.p0.toNat m x) xs s

/-- The partition that PART_SET names, in a state whose teams say which losses of clusters it still remembers. -/
def State.namedPartition (s : State) (m : HostCmd) (q : Partition) : Partition :=
  { q with
    exists_ := true
    ports := m.p3.setWidth 24
    before := q.before.filter fun e => !(s.teamsOf e.1 m.p0.toNat).isEmpty && (maskClusters m e.1).length < e.2
    clusters := renumberAll (maskClusters m) (List.range 8) q.clusters }

/-- What PART_SET does where it is not refused: the clusters that change are zeroed, their tests take note, and the partition is the
one named. -/
def State.setPartition (s : State) (m : HostCmd) : State :=
  let changed := changedClusters (s.part m.p0.toNat) m
  let t := (s.zeroClusters changed).noteChanges m changed
  t.modPart m.p0.toNat (t.namedPartition m)

theorem State.setPartition_core (s : State) (m : HostCmd) (k : Nat) :
    (s.setPartition m).core k =
      if k ∈ coresOfClusters (changedClusters (s.part m.p0.toNat) m) then (s.core k).zeroed else s.core k := by
  rw [← State.zeroClusters_core]
  exact congrArg (look Core.reset · k) (State.noteChanges_cores ..)

theorem State.setPartition_pfSlots (s : State) (m : HostCmd) : (s.setPartition m).pfSlots = s.pfSlots :=
  (State.noteChanges_pfSlots ..).trans (State.zeroClusters_pfSlots ..)

theorem State.setPartition_part (s : State) (m : HostCmd) :
    ∃ t : State, (s.setPartition m).part m.p0.toNat = t.namedPartition m (s.part m.p0.toNat) :=
  ⟨_, (State.part_modPart ..).trans (congrArg (State.namedPartition _ m) (congrArg (look Partition.reset · m.p0.toNat)
    ((State.noteChanges_parts ..).trans (State.zeroClusters_parts ..))))⟩

/-- PART_SET goes through where nobody else has the ports and clusters, none is withdrawn, teams keep theirs, and the save areas
hold what they must. -/
theorem partSet_runs {s : State} {m : HostCmd} (taken : Claims.taken s m 4) (hp : m.p0.toNat < 64) (hports : m.p3.toNat < 2 ^ 24)
    (others : s.othersPorts m.p0.toNat (m.p3.setWidth 24) = false)
    (free : ∀ e, e < 8 → ∀ c ∈ maskClusters m e, s.othersHold m.p0.toNat e c = false ∧ 16 * e + c ∉ s.withdrawn)
    (stays : ∀ e, e < 8 → s.teamsOf e m.p0.toNat ≠ [] → ∀ c ∈ (s.part m.p0.toNat).held e, c ∈ maskClusters m e)
    (crowd : 2 ≤ (s.boundVfs m.p0.toNat).length → ∀ e, e < 8 → (maskClusters m e).length ≤ 7)
    (room : ∀ e, e < 8 → ∀ t ∈ s.teamsOf e m.p0.toNat, saveNeed (maskClusters m e).length ≤ 65536 * (s.team e t).spages)
    {after : State → Prop} (holds : after ((((Claims.begun s 1 m).setPartition m).fold [m.p0.toNat] 1 m).answerSlot m.slot.toNat
      (stOk, []))) : Claims.endsWith (.partSet m) s m 1 after := by
  have accepted : ((s.othersPorts m.p0.toNat (m.p3.setWidth 24) || (List.range 8).any fun d =>
      (maskClusters m d).any (fun c => s.othersHold m.p0.toNat d c || s.withdrawn.contains (16 * d + c))
        || (!(s.teamsOf d m.p0.toNat).isEmpty
          && ((s.part m.p0.toNat).held d).any fun c => !(maskClusters m d).contains c)) ||
      s.tooLarge m.p0.toNat fun d => (maskClusters m d).length) = false := by
    simp only [Bool.or_eq_false_iff]
    refine ⟨⟨others, ?_⟩, ?_⟩
    · simp only [List.any_eq_false, List.mem_range]
      intro d hd
      simp only [Bool.or_eq_true, not_or, Bool.not_eq_true, List.any_eq_false]
      constructor
      · intro c hc
        simpa using free d hd c hc
      · by_cases none : s.teamsOf d m.p0.toNat = []
        · simp [none]
        · simpa [none] using stays d hd none
    · simp only [State.tooLarge, Bool.and_eq_false_iff, decide_eq_false_iff_not, List.any_eq_false, List.mem_range,
        decide_eq_true_eq]
      by_cases two : 2 ≤ (s.boundVfs m.p0.toNat).length
      · exact .inr fun d hd => Nat.not_lt.2 (crowd two d hd)
      · exact .inl two
  have roomy : ((List.range 8).any fun d => (s.teamsOf d m.p0.toNat).any fun t =>
      65536 * (s.team d t).spages < saveNeed (maskClusters m d).length) = false := by
    simpa using room
  have legal : (decide (m.p0.toNat < 64) && decide (m.p3.toNat < 2 ^ 24)) = true := by
    rw [decide_eq_true hp, decide_eq_true hports, Bool.and_self]
  refine endsWith_of_run (exec_partSet m s) taken legal ?_
    ((State.fold_pfSlots ..).trans (State.setPartition_pfSlots ..)) holds
  exact (if_neg (ne_true_of_eq_false accepted)).trans (if_neg (ne_true_of_eq_false roomy))

theorem partitionsSet_holds : Claims.partitionsSet := by
  rintro s m p rfl taken hp hports others free stays crowd room nodup
  refine partSet_runs taken hp hports others free stays crowd room ?_
  obtain ⟨w, hw⟩ := State.fold_part ((Claims.begun s 1 m).setPartition m) [m.p0.toNat] 1 m m.p0.toNat
  obtain ⟨t, ht⟩ := State.setPartition_part (Claims.begun s 1 m) m
  rw [ht] at hw
  have core (k : Nat) := (State.fold_core ((Claims.begun s 1 m).setPartition m) [m.p0.toNat] 1 m k).trans
    (State.setPartition_core (Claims.begun s 1 m) m k)
  generalize ((Claims.begun s 1 m).setPartition m).fold [m.p0.toNat] 1 m = u at hw core
  have part : (u.answerSlot m.slot.toNat (stOk, [])).part m.p0.toNat = u.part m.p0.toNat := rfl
  rw [part, hw]
  refine ⟨rfl, rfl, fun e he => ?_⟩
  simp only [Partition.held_eq] at nodup ⊢
  obtain ⟨members, kept⟩ := renumberAll_spec (fun d => ⟨maskClusters_nodup m d, fun c => lt_of_mem_maskClusters⟩)
    List.nodup_range (fun d hd => nodup d (List.mem_range.1 hd)) (List.mem_range.2 he)
  refine ⟨members, fun l c hl hc => kept _ c (by omega) hc, fun c co hc hco => ?_⟩
  have zeroed : 128 * e + 8 * c + co ∈ coresOfClusters (changedClusters (s.part m.p0.toNat) m) ↔
      ¬ (c ∈ maskClusters m e ↔ c ∈ (s.part m.p0.toNat).held e) := by
    rw [mem_coresOfClusters (fun x hx => (mem_changedClusters.1 hx).2.1) hc hco, mem_changedClusters]
    simp [he, hc]
  refine ⟨fun same => (core _).trans (if_neg fun h => zeroed.1 h same), fun differs => ?_⟩
  have gone : (u.answerSlot m.slot.toNat (stOk, [])).core (128 * e + 8 * c + co) = (s.core (128 * e + 8 * c + co)).zeroed :=
    (core _).trans (if_pos (zeroed.2 differs))
  rw [gone]
  exact ⟨rfl, rfl⟩

end Sys2Proof.Machine
end

section
/-!
PROOF. VF_BIND and INVALIDATE (R131 to R133, R362, R397).
-/

set_option Elab.async false
namespace Sys2Proof.Machine

/-- Nothing that a VF had in its partition is left (R397). -/
def Unbound (s u : State) (v : Nat) : Prop :=
  (u.vf v).s2 = [] ∧ (u.vf v).imageKeys = [] ∧ (u.vf v).counters = (s.vf v).counters ∧
    (∀ c, (u.core c).utlb = (s.core c).utlb.filter fun e => e.vf != v) ∧
    ∀ d, (u.die d).stlb = (s.die d).stlb.filter fun e => e.vf != v

theorem State.unbindVf_vf (s : State) (v : Nat) :
    (s.unbindVf v).vf v = { s.vf v with part := none, s2 := [], imageKeys := [] } :=
  (State.dropTlb_vf ..).trans (State.vf_modVf ..)

theorem State.unbindVf_unbound (s : State) (v : Nat) : Unbound s (s.unbindVf v) v := by
  refine ⟨?_, ?_, ?_, fun c => ?_, fun d => ?_⟩
  · rw [State.unbindVf_vf]
  · rw [State.unbindVf_vf]
  · rw [State.unbindVf_vf]
  · exact congrArg Core.utlb (State.dropTlb_core ..)
  · exact congrArg Die.stlb (State.dropTlb_die ..)

@[simp] theorem State.unbindVf_pfSlots (s : State) (v : Nat) : (s.unbindVf v).pfSlots = s.pfSlots := rfl

theorem Unbound.fold {s u : State} {v : Nat} (h : Unbound s u v) (ps : List Nat) (code : Nat) (m : HostCmd) :
    Unbound s (u.fold ps code m) v := by
  simpa only [Unbound, State.fold_vf, State.fold_core, State.fold_die] using h

/-- A VF is bound to a partition; `keep` says that it was bound before, else its counters start at zero (R362). -/
def State.bindVf (s : State) (v p : Nat) (keep : Bool) : State :=
  s.modVf v fun f => { f with part := some p, counters := if keep then f.counters else [] }

theorem State.bindVf_vf (s : State) (v p : Nat) (keep : Bool) : (s.bindVf v p keep).vf v =
    { s.vf v with part := some p, counters := if keep then (s.vf v).counters else [] } := State.vf_modVf ..

theorem Unbound.bindVf {s u : State} {v : Nat} (h : Unbound s u v) (p : Nat) : Unbound s (u.bindVf v p true) v := by
  obtain ⟨leaves, keys, counters, tlbs⟩ := h
  exact ⟨by rw [State.bindVf_vf]; exact leaves, by rw [State.bindVf_vf]; exact keys,
    by rw [State.bindVf_vf]; exact counters, tlbs⟩

section Bind
variable {s : State} {m : HostCmd}

theorem vfBind_legal (h : m.p0.toNat = 0xFFFF ∨ m.p0.toNat < 64) : (decide (m.p0.toNat < 64) || m.p0 == 0xFFFF) = true := by
  obtain h | h := h
  · have : m.p0 = 0xFFFF := BitVec.eq_of_toNat_eq h
    simp [this]
  · simp [h]

/-- A VF with a team on some die. -/
theorem onDie_iff (s : State) (v : Nat) :
    ((List.range 8).any fun d => (s.teamOf v d).isSome) = true ↔ ∃ d, d < 8 ∧ (s.teamOf v d).isSome = true := by
  simp

/-- A partition with a bound VF and more than seven clusters on some die. -/
theorem crowded_iff (s : State) (p : Nat) :
    (!(s.boundVfs p).isEmpty && (List.range 8).any fun d => 7 < (s.clustersOn p d).length) = true ↔
      s.boundVfs p ≠ [] ∧ ∃ d, d < 8 ∧ 7 < (s.clustersOn p d).length := by
  simp

theorem vfUnbind_cases (hp : m.p0.toNat = 0xFFFF) (taken : Claims.taken s m 1) :
    ((s.vf m.vf.toNat).part = none → Claims.answersOnly (.vfBind m) s 3 m 6) ∧
    ∀ q, (s.vf m.vf.toNat).part = some q →
      ((∃ d, d < 8 ∧ (s.teamOf m.vf.toNat d).isSome = true) → Claims.answersOnly (.vfBind m) s 3 m 3) ∧
      (¬ (∃ d, d < 8 ∧ (s.teamOf m.vf.toNat d).isSome = true) →
        Claims.endsWith (.vfBind m) s m 1 fun u => (u.vf m.vf.toNat).part = none ∧ Unbound s u m.vf.toNat) := by
  have legal := vfBind_legal (.inl hp)
  have unnamed : m.p0 = 0xFFFF := BitVec.eq_of_toNat_eq hp
  rw [← onDie_iff]
  refine ⟨fun old => ?_, fun q old => ⟨fun team => ?_, fun team => ?_⟩⟩
  · refine answersOnly_of_run (exec_vfBind m s) taken legal ?_
    simp only [if_pos unnamed, begun_vf, old]
    rfl
  · refine answersOnly_of_run (exec_vfBind m s) taken legal ?_
    simp only [if_pos unnamed, begun_vf, old, begun_teamOf, team, if_true]
    rfl
  · refine endsWith_of_run (u := ((Claims.begun s 3 m).unbindVf m.vf.toNat).fold [q] 3 m) (exec_vfBind m s) taken legal ?_ ?_ ?_
    · simp only [if_pos unnamed, begun_vf, old, begun_teamOf]
      exact if_neg team
    · rw [State.fold_pfSlots, State.unbindVf_pfSlots]
    · exact ⟨congrArg Vf.part ((State.fold_vf ..).trans (State.unbindVf_vf ..)),
        (State.unbindVf_unbound (Claims.begun s 3 m) m.vf.toNat).fold [q] 3 m⟩

theorem vfBind_cases {p : Nat} (hm : m.p0.toNat = p) (hp : p < 64) (taken : Claims.taken s m 1) :
    ((s.part p).exists_ = false → Claims.answersOnly (.vfBind m) s 3 m 6) ∧
    ((s.part p).exists_ = true →
      let onDie := ∃ d, d < 8 ∧ (s.teamOf m.vf.toNat d).isSome = true
      let crowded := s.boundVfs p ≠ [] ∧ ∃ d, d < 8 ∧ 7 < (s.clustersOn p d).length
      ((s.vf m.vf.toNat).part = some p → Claims.answersOnly (.vfBind m) s 3 m 1) ∧
      ((s.vf m.vf.toNat).part = none → (crowded → Claims.answersOnly (.vfBind m) s 3 m 3) ∧
        (¬ crowded → Claims.endsWith (.vfBind m) s m 1 fun u => (u.vf m.vf.toNat).part = some p ∧ (u.vf m.vf.toNat).counters = [] ∧
          (u.vf m.vf.toNat).s2 = (s.vf m.vf.toNat).s2)) ∧
      ∀ q, (s.vf m.vf.toNat).part = some q → q ≠ p → (onDie ∨ crowded → Claims.answersOnly (.vfBind m) s 3 m 3) ∧
        (¬ onDie → ¬ crowded → Claims.endsWith (.vfBind m) s m 1 fun u => (u.vf m.vf.toNat).part = some p ∧
          Unbound s u m.vf.toNat)) := by
  subst hm
  have legal := vfBind_legal (.inr hp)
  have named : ¬ m.p0 = 0xFFFF := by rintro h; rw [h] at hp; exact absurd hp (by decide)
  refine ⟨fun gone => ?_, fun there => ?_⟩
  · refine answersOnly_of_run (exec_vfBind m s) taken legal ?_
    simp only [if_neg named, begun_part, gone, Bool.not_false, if_true]
    rfl
  rw [← onDie_iff, ← crowded_iff]
  refine ⟨fun old => ?_, fun old => ⟨fun crowd => ?_, fun crowd => ?_⟩, fun q old ne => ⟨fun refused => ?_, fun team crowd => ?_⟩⟩
  · refine answersOnly_of_run (exec_vfBind m s) taken legal ?_
    simp only [if_neg named, begun_part, begun_vf, there, old, Bool.not_true, Bool.false_eq_true, if_false, if_true]
    rfl
  · refine answersOnly_of_run (exec_vfBind m s) taken legal ?_
    simp only [if_neg named, begun_part, begun_vf, there, old, Bool.not_true, Bool.false_eq_true, if_false, reduceCtorEq]
    exact if_pos crowd
  · refine endsWith_of_run (u := ((Claims.begun s 3 m).bindVf m.vf.toNat m.p0.toNat false).fold [m.p0.toNat] 3 m)
      (exec_vfBind m s) taken legal ?_ (State.fold_pfSlots ..) ?_
    · simp only [if_neg named, begun_part, begun_vf, there, old, Bool.not_true, Bool.false_eq_true, if_false, reduceCtorEq]
      exact if_neg crowd
    · have vf := (State.fold_vf ((Claims.begun s 3 m).bindVf m.vf.toNat m.p0.toNat false) [m.p0.toNat] 3 m m.vf.toNat).trans
        (State.bindVf_vf ..)
      exact ⟨congrArg Vf.part vf, congrArg Vf.counters vf, (congrArg Vf.s2 vf :)⟩
  · refine answersOnly_of_run (exec_vfBind m s) taken legal ?_
    simp only [if_neg named, begun_part, begun_vf, there, old, Bool.not_true, Bool.false_eq_true, if_false, Option.some.injEq, ne]
    exact if_pos (Bool.or_eq_true_iff.2 refused)
  · refine endsWith_of_run (u := ((((Claims.begun s 3 m).unbindVf m.vf.toNat).fold [q] 3 m).bindVf m.vf.toNat m.p0.toNat true).fold
      [m.p0.toNat] 3 m) (exec_vfBind m s) taken legal ?_ ?_ ?_
    · simp only [if_neg named, begun_part, begun_vf, there, old, Bool.not_true, Bool.false_eq_true, if_false, Option.some.injEq, ne]
      exact if_neg fun h => (Bool.or_eq_true_iff.1 h).elim team crowd
    · exact (State.fold_pfSlots ..).trans (State.fold_pfSlots ..)
    · exact ⟨congrArg Vf.part ((State.fold_vf ..).trans (State.bindVf_vf ..)),
        (((State.unbindVf_unbound (Claims.begun s 3 m) m.vf.toNat).fold [q] 3 m).bindVf m.p0.toNat).fold [m.p0.toNat] 3 m⟩

end Bind

theorem functionsBound_holds : Claims.functionsBound := by
  intro s m p hm
  refine ⟨fun taken hp => vfUnbind_cases (hm.trans hp) taken, fun taken hp => vfBind_cases hm hp taken, fun taken hp => ?_⟩
  subst hm
  refine endsWith_of_run (exec_invalidate m s) taken (decide_eq_true hp) rfl (State.dropTlb_pfSlots ..) ⟨fun c => ?_, fun d => ?_⟩
  · exact congrArg Core.utlb (State.dropTlb_core ..)
  · exact congrArg Die.stlb (State.dropTlb_die ..)

end Sys2Proof.Machine
end

section
/-!
PROOF. The management commands over partitions, slot tables, translations, ownership and parameters (R129, R130, R133, R136, R366, R396
to R398, R400, R401), and O42.
-/

set_option Elab.async false
namespace Sys2Proof.Machine

/-! ## Sparse maps -/

/-- Values put under consecutive keys. -/
theorem look_foldl_put {α : Type} [DecidableEq α] (d : α) (b n : Nat) (g : Nat → α) (t : Sparse α) (j : Nat) :
    look d ((List.range n).foldl (fun t k => put d t (b + k) (g k)) t) j = if b ≤ j ∧ j < b + n then g (j - b) else look d t j := by
  induction n with
  | zero => rw [if_neg (by omega)]; rfl
  | succ n ih =>
    rw [List.range_succ, List.foldl_append, List.foldl_cons, List.foldl_nil]
    by_cases h : j = b + n
    · subst h
      rw [look_put_self, if_pos (by omega), Nat.add_sub_cancel_left]
    · rw [look_put_ne _ _ _ _ h, ih]
      exact if_congr (by omega) rfl rfl

/-- A filter that drops a key makes it read as the default. -/
theorem look_filter_of_dropped {α : Type} (d : α) {p : Nat × α → Bool} (m : Sparse α) {k : Nat} (h : ∀ v, p (k, v) = false) :
    look d (m.filter p) k = d := by
  induction m with
  | nil => rfl
  | cons e rest ih =>
    obtain ⟨j, v⟩ := e
    by_cases hp : p (j, v) = true
    · have hj : j ≠ k := by rintro rfl; exact absurd hp (by simp [h v])
      rw [List.filter_cons_of_pos hp, look, if_neg hj, ih]
    · rw [List.filter_cons_of_neg hp, ih]

theorem readByte_zeroRange (mem : List Host.Cell) (a n j : Nat) :
    readByte (zeroRange mem a n) j = if a ≤ j ∧ j < a + n then 0 else readByte mem j := by
  by_cases h : a ≤ j ∧ j < a + n
  · rw [if_pos h]
    exact look_filter_of_dropped 0 mem fun v => by simpa using h
  · rw [if_neg h]
    exact look_filter_of_kept 0 mem fun v => by simp; omega

theorem mem_insertNat_self (k : Nat) (l : List Nat) : k ∈ insertNat k l := by
  induction l with
  | nil => exact List.mem_cons_self
  | cons j rest ih =>
    rw [insertNat]
    split
    · exact List.mem_cons_self
    · split
      · next h => exact h ▸ List.mem_cons_self
      · exact List.mem_cons_of_mem _ ih

/-! ## Partitions and slot tables -/

section Commands
variable {s : State} {m : HostCmd} {p : Nat}

theorem partDestroy_ends (hm : m.p0.toNat = p) (taken : Claims.taken s m 1) (hp : p < 64) (there : (s.part p).exists_ = true)
    (unbound : s.boundVfs p = []) : Claims.endsWith (.partDestroy m) s m 1 fun u => (u.part p).exists_ = false := by
  subst hm
  refine endsWith_of_run (exec_partDestroy m s) taken (decide_eq_true hp)
    ((if_neg ?_).trans (if_neg ?_)) ?_ ?_
  · simp [there]
  · simp [unbound]
  · exact foldl_keeps State.pfSlots (fun s (e : Nat × Nat) => State.zeroCluster_pfSlots s (e.1 / 16) e.2) _ _
  · exact congrArg Partition.exists_ (look_ins_self Partition.reset _ _ _)

theorem slotSet_ends (hm : m.p0.toNat = p) (taken : Claims.taken s m 2) (hp : p < 2 ^ 11) (hf : field p 5 6 ≤ 56)
    (hk : ∀ k, k < 8 → m.p1.toNat / 2 ^ (8 * k) % 256 < 128) :
    Claims.endsWith (.slotSet m) s m 1 fun u => ∀ k, k < 8 →
      look 0 (u.die m.die.toNat).slotTable (64 * (p % 32) + field p 5 6 + k) =
        BitVec.ofNat 7 (m.p1.toNat / 2 ^ (8 * k) % 256) := by
  subst hm
  have legal : (decide (m.p0.toNat < 2 ^ 11) && decide (field m.p0.toNat 5 6 ≤ 56) &&
      (List.range 8).all fun k => decide (m.p1.toNat / 2 ^ (8 * k) % 256 < 128)) = true := by
    rw [decide_eq_true hp, decide_eq_true hf]
    simpa using hk
  have runs := exec_slotSet m s
  unfold execSlotSet at runs
  refine endsWith_of_run runs taken legal rfl (State.fold_pfSlots ..) fun k hk => ?_
  refine (congrArg (fun x : Die => look 0 x.slotTable _) ((State.fold_die ..).trans (State.die_modDie ..))).trans ?_
  refine (look_foldl_put ..).trans ?_
  rw [if_pos (by omega), Nat.add_sub_cancel_left]

/-! ## Translations -/

theorem begun_readsItem (s : State) (code : Nat) (m : HostCmd) : (Claims.begun s code m).readsItem = s.readsItem := rfl
theorem begun_readsPage (s : State) (code : Nat) (m : HostCmd) (v a : Nat) :
    (Claims.begun s code m).readsPage v a = s.readsPage v a := by
  unfold State.readsPage
  rw [begun_readsItem]
theorem begun_owns (s : State) (code : Nat) (m : HostCmd) (p a : Nat) : (Claims.begun s code m).owns p a = s.owns p a := rfl

theorem begun_leafAllowed (s : State) (code : Nat) (m : HostCmd) (v : Nat) (l : S2Leaf) :
    (Claims.begun s code m).leafAllowed v l = s.leafAllowed v l := by
  simp only [State.leafAllowed, begun_vf, begun_readsPage, begun_owns]

theorem s2Map_ends (hm : m.p0.toNat = p) {l : S2Leaf}
    (hl : l = ⟨m.p2.toNat % 4, m.p1.toNat, m.p2.getLsbD 2, m.p2.getLsbD 3, m.p2.getLsbD 4, false⟩) (taken : Claims.taken s m 3)
    (level : l.level ≠ 0) (h2 : m.p2.toNat < 32) (hp : p < 2 ^ 42) (h1 : m.p1.toNat < 2 ^ 42) (ipa : p % leafSpan l.level = 0)
    (pa : m.p1.toNat % leafSpan l.level = 0) (allowed : s.leafAllowed m.vf.toNat l = true) :
    Claims.endsWith (.s2Map m) s m 1 fun u => seek (u.vf m.vf.toNat).s2 (p / 65536) = some l := by
  have same : l.level = m.p2.toNat % 4 := congrArg S2Leaf.level hl
  rw [same] at level ipa pa
  subst hm hl
  have legal : ((m.p2.toNat % 4 != 0) && decide (m.p2.toNat < 32) && decide (m.p0.toNat < 2 ^ 42) && decide (m.p1.toNat < 2 ^ 42) &&
      (m.p0.toNat % leafSpan (m.p2.toNat % 4) == 0) && (m.p1.toNat % leafSpan (m.p2.toNat % 4) == 0)) = true := by
    rw [bne_iff_ne.2 level, decide_eq_true h2, decide_eq_true hp, decide_eq_true h1, beq_iff_eq.2 ipa, beq_iff_eq.2 pa]
    rfl
  have runs := exec_s2Map m s
  unfold execS2Map at runs
  refine endsWith_of_run runs taken legal (if_pos ((begun_leafAllowed ..).trans allowed)) rfl ?_
  refine (congrArg (fun f : Vf => seek f.s2 (m.p0.toNat / 65536)) (look_ins_self Vf.reset _ _ _)).trans ?_
  exact seek_ins_self ..

theorem s2Unmap_ends (hm : m.p0.toNat = p) {e : Nat × S2Leaf} (taken : Claims.taken s m 1) (hp : p < 2 ^ 42)
    (found : (s.vf m.vf.toNat).s2.find?
      (fun e => decide (65536 * e.1 ≤ p) && decide (p < 65536 * e.1 + leafSpan e.2.level)) = some e) :
    Claims.endsWith (.s2Unmap m) s m 1 fun u => seek (u.vf m.vf.toNat).s2 e.1 = none := by
  subst hm
  refine endsWith_of_run (u := ((Claims.begun s 0x0D m).modVf m.vf.toNat fun f => { f with s2 := dropKey f.s2 e.1 }).dropTlb fun x =>
    x.vf == m.vf.toNat && e.1 ≤ x.ipa && x.ipa < e.1 + leafSpan e.2.level / 65536) (exec_s2Unmap m s) taken (decide_eq_true hp) ?_ rfl ?_
  · simp only [begun_vf, found]
  · refine (congrArg (fun f : Vf => seek f.s2 e.1) (look_ins_self Vf.reset _ _ _)).trans ?_
    exact seek_dropKey_self ..

/-! ## PAGE_ANSWER -/

theorem pageAnswer_cases (hm : m.p0.toNat = p) (taken : Claims.taken s m 2) (hp : p < 65536) (h1 : m.p1.toNat < 2) :
    ((∀ r ∈ (s.vf m.vf.toNat).queue, r.tag ≠ p) → Claims.answersOnly (.pageAnswer m) s 0x0F m 6) ∧
    ∀ r, (s.vf m.vf.toNat).queue.find? (fun r => r.tag == p) = some r →
      exec (.pageAnswer m) s =
        .next (((Claims.begun s 0x0F m).answerPage m.vf.toNat r (m.p1 == 1)).answerSlot m.slot.toNat (1, [])) := by
  subst hm
  have legal : (decide (m.p0.toNat < 65536) && decide (m.p1.toNat < 2)) = true := by
    rw [decide_eq_true hp, decide_eq_true h1, Bool.and_self]
  refine ⟨fun absent => ?_, fun r found => ?_⟩
  · have absent : (s.vf m.vf.toNat).queue.find? (fun r => r.tag == m.p0.toNat) = none := by simpa using absent
    refine answersOnly_of_run (exec_pageAnswer m s) taken legal ?_
    simp only [begun_vf, absent]
    rfl
  · refine (exec_pageAnswer m s).trans (command_runs taken legal ?_)
    simp only [begun_vf, found]
    rfl

theorem Strand.pageAnswered_cases (x : Strand) (tag ipa : Nat) (refused : Bool) (again : Word → Resolved) (page : PageRequest → Nat)
    (read : KeptElem → KeptElem) :
    let y := x.pageAnswered tag ipa refused again page read
    (tag ∉ x.wait.tags → y = x) ∧
    (tag ∈ x.wait.tags → y.wait.tags = x.wait.tags.filter (fun k => k != tag) ∧
      (refused = true → ipa ∈ y.wait.refused) ∧ (refused = false → y.wait.refused = x.wait.refused) ∧
      (x.gather = none → x.mode = .blocked → (y.mode = .ready ↔ ∀ k ∈ x.wait.tags, k = tag))) := by
  unfold Strand.pageAnswered
  refine ⟨fun h => ?_, fun h => ?_⟩
  · rw [if_pos (by simpa using h)]
  · rw [if_neg (by simpa using h)]
    refine ⟨rfl, fun hr => ?_, fun hr => ?_, fun hg hb => ?_⟩
    · simp only [hr, if_true]
      exact mem_insertNat_self ..
    · simp [hr]
    · simp [hg, hb, List.isEmpty_iff]

/-! ## Ownership and parameters -/

theorem ownerSet_ends (hm : m.p0.toNat = p) (taken : Claims.taken s m 3) (aligned : p % 65536 = 0) (h1 : m.p1 ≠ 0)
    (fits : p + 65536 * m.p1.toNat ≤ 412316860416) (h2 : m.p2.toNat < 256) :
    Claims.endsWith (.ownerSet m) s m 1 fun u =>
      (∀ a, readByte u.hbm a = if p ≤ a ∧ a < p + 65536 * m.p1.toNat then 0 else readByte s.hbm a) ∧
      ∀ k, look 0 u.owner k =
        if p / 65536 ≤ k ∧ k < p / 65536 + m.p1.toNat then m.p2.setWidth 16 else look 0 s.owner k := by
  subst hm
  have legal : (m.p0.toNat % 65536 == 0 && m.p1 != 0 && decide (m.p0.toNat + 65536 * m.p1.toNat ≤ hbmSize) &&
      decide (m.p2.toNat < 256)) = true := by
    simp only [aligned, h2, hbmSize, fits, bne_iff_ne.2 h1, beq_self_eq_true, decide_true, Bool.and_self]
  exact endsWith_of_run (exec_ownerSet m s) taken legal rfl rfl
    ⟨fun a => readByte_zeroRange s.hbm .., fun k => look_foldl_put 0 _ _ (fun _ => m.p2.setWidth 16) s.owner k⟩

theorem replicaReserve_ends (hm : m.p0.toNat = p) (taken : Claims.taken s m 2) (hp : p < 64) (there : (s.part p).exists_ = true) :
    Claims.endsWith (.replicaReserve m) s m 1 fun u => (u.part p).reserve = m.p1.toNat := by
  subst hm
  refine endsWith_of_run (exec_replicaReserve m s) taken (decide_eq_true hp) (if_pos there) (State.fold_pfSlots ..) ?_
  obtain ⟨w, hw⟩ := State.fold_part ((Claims.begun s 0x11 m).modPart m.p0.toNat fun q => { q with reserve := m.p1.toNat })
    [m.p0.toNat] 0x11 m m.p0.toNat
  rw [State.part_modPart] at hw
  exact congrArg Partition.reserve hw

theorem paramSet_ends (taken : Claims.taken s m 3) (legal : paramsOk m = true) :
    Claims.endsWith (.paramSet m) s m 1 fun u => (u.die m.die.toNat).qbase = m.p0.toNat % 2 ^ 32 ∧
      (u.die m.die.toNat).quantum = m.p0.toNat / 2 ^ 32 ∧ (u.die m.die.toNat).grace = m.p1.toNat % 2 ^ 32 ∧
      (u.die m.die.toNat).bcap = m.p1.toNat / 2 ^ 32 ∧ (u.die m.die.toNat).wdwait = m.p2.toNat := by
  have die := State.die_modDie (Claims.begun s 0x0B m) m.die.toNat fun k => { k with
    qbase := m.p0.toNat % 2 ^ 32, quantum := m.p0.toNat / 2 ^ 32, grace := m.p1.toNat % 2 ^ 32, bcap := m.p1.toNat / 2 ^ 32,
    wdwait := m.p2.toNat }
  exact endsWith_of_run (exec_paramSet m s) taken legal rfl rfl
    ⟨congrArg Die.qbase die, congrArg Die.quantum die, congrArg Die.grace die, congrArg Die.bcap die, congrArg Die.wdwait die⟩

theorem epochAdvance_ends (hm : m.p0.toNat = p) (taken : Claims.taken s m 1) (hp : p < 2 ^ 24) :
    Claims.endsWith (.epochAdvance m) s m 1 fun u =>
      (u.gang (m.p0.setWidth 24)).epoch = (s.gang (m.p0.setWidth 24)).epoch + 1 := by
  subst hm
  exact endsWith_of_run (exec_epochAdvance m s) taken (decide_eq_true hp) rfl rfl (congrArg Gang.epoch (look_ins_self ..))

theorem scanSet_ends (hm : m.p0.toNat = p) (taken : Claims.taken s m 1) (h1 : 1 ≤ p) (hp : p ≤ 1000) :
    Claims.endsWith (.scanSet m) s m 1 fun u => u.scanHours = p := by
  subst hm
  refine endsWith_of_run (exec_scanSet m s) taken ?_ rfl rfl rfl
  rw [decide_eq_true h1, decide_eq_true hp, Bool.and_self]

theorem powerSet_ends (hm : m.p0.toNat = p) (taken : Claims.taken s m 1) (h1 : 600 ≤ p) (hp : p ≤ 2600) :
    Claims.endsWith (.powerSet m) s m 1 fun u => u.powerLimit = p := by
  subst hm
  refine endsWith_of_run (exec_powerSet m s) taken ?_ rfl rfl rfl
  rw [decide_eq_true h1, decide_eq_true hp, Bool.and_self]

end Commands

theorem managed_holds : Claims.managed := fun _ _ _ hm =>
  ⟨partDestroy_ends hm, slotSet_ends hm, fun _ => s2Map_ends hm, fun _ => s2Unmap_ends hm, pageAnswer_cases hm,
    Strand.pageAnswered_cases, ownerSet_ends hm, replicaReserve_ends hm, paramSet_ends, epochAdvance_ends hm, scanSet_ends hm,
    powerSet_ends hm⟩

/-- Settles O42: what PART_SET, VF_BIND, INVALIDATE and the other management commands answer and leave, command by command over the
frame that they share. -/
theorem managementCommands : Obligations.ManagementCommands := ⟨partitionsSet_holds, functionsBound_holds, managed_holds⟩

end Sys2Proof.Machine
end

section
/-!
PROOF. Encoding and decoding (R35, R41 to R55): what a layout holds in each of its fields, and how a word is put together from them.
-/

set_option Elab.async false
namespace Sys2Proof

/-! ## Fields of a word -/

theorem field_lt (w lo n : Nat) : field w lo n < 2 ^ n := Nat.mod_lt _ (Nat.two_pow_pos n)

theorem bits_eq_field (w lo n : Nat) : bits w lo n = BitVec.ofNat n (field w lo n) :=
  BitVec.eq_of_toNat_eq (by simp [bits, field])

theorem flag_eq_field (w lo : Nat) : flag w lo = (field w lo 1 == 1) := rfl

theorem bits_toNat (w lo n : Nat) : (bits w lo n).toNat = field w lo n := BitVec.toNat_ofNat ..

theorem flag_toNat (w lo : Nat) : (flag w lo).toNat = field w lo 1 := by
  have bound := field_lt w lo 1
  rw [flag_eq_field]
  interval_cases field w lo 1 <;> rfl

@[simp] theorem field_mod_word {w lo n : Nat} (h : lo + n ≤ 32) : field (w % 4294967296) lo n = field w lo n := by
  obtain ⟨k, hk⟩ := Nat.exists_eq_add_of_le h
  have : 4294967296 = 2 ^ (lo + (n + k)) := by rw [← Nat.add_assoc, ← hk]; rfl
  rw [this, field, field, Nat.pow_add, Nat.mod_mul_right_div_self, Nat.pow_add, Nat.mod_mul_right_mod]

/-! ## A value added at a position of a word -/

theorem field_add_above (x v lo l n : Nat) (h : l + n ≤ lo) : field (x + v * 2 ^ lo) l n = field x l n := by
  obtain ⟨k, rfl⟩ := Nat.exists_eq_add_of_le h
  have : v * 2 ^ (l + n + k) = v * 2 ^ k * 2 ^ n * 2 ^ l := by ring
  rw [field, this, Nat.add_mul_div_right _ _ (Nat.two_pow_pos l), Nat.add_mul_mod_self_right, field]

theorem field_add_at (x v lo n : Nat) (hv : v < 2 ^ n) : field (x + v * 2 ^ lo) lo n = (field x lo n + v) % 2 ^ n := by
  rw [field, Nat.add_mul_div_right _ _ (Nat.two_pow_pos lo), Nat.add_mod, field, Nat.mod_eq_of_lt hv]

/-- A value that finds its place empty carries nothing into the bits above it. -/
theorem field_add_below (x v lo k l n : Nat) (hv : v < 2 ^ k) (room : field x lo k = 0) (h : lo + k ≤ l) :
    field (x + v * 2 ^ lo) l n = field x l n := by
  obtain ⟨j, rfl⟩ := Nat.exists_eq_add_of_le h
  obtain ⟨q, hq⟩ := Nat.dvd_of_mod_eq_zero room
  have top : (x + v * 2 ^ lo) / 2 ^ (lo + k) = x / 2 ^ (lo + k) := by
    rw [Nat.pow_add, ← Nat.div_div_eq_div_mul, ← Nat.div_div_eq_div_mul, Nat.add_mul_div_right _ _ (Nat.two_pow_pos lo), hq,
      Nat.mul_add_div (Nat.two_pow_pos k), Nat.mul_div_cancel_left _ (Nat.two_pow_pos k), Nat.div_eq_of_lt hv, Nat.add_zero]
  rw [field, field, Nat.pow_add, ← Nat.div_div_eq_div_mul, top, Nat.div_div_eq_div_mul]

/-! ## Fields of a layout: the operands are listed from the highest to the lowest -/

section
variable {c lo k l n : Nat} {fs : List (Nat × Nat)}

theorem lay_nil (c : Nat) : lay c [] = c := rfl

theorem lay_cons (c lo v : Nat) (fs : List (Nat × Nat)) : (lay c ((lo, v) :: fs) : Int) = lay c fs + (v : Int) * 2 ^ lo := by
  simp [lay]

@[simp] theorem field_lay_nil : field (lay c []) l n = c / 2 ^ l % 2 ^ n := rfl

@[simp] theorem field_lay_above {v : Nat} (h : l + n ≤ lo) : field (lay c ((lo, v) :: fs)) l n = field (lay c fs) l n :=
  field_add_above _ v lo l n h

theorem field_lay_at_of_lt {v : Nat} (hv : v < 2 ^ n) : field (lay c ((lo, v) :: fs)) lo n =
    if field (lay c fs) lo n = 0 then v else (field (lay c fs) lo n + v) % 2 ^ n := by
  rw [lay, field_add_at _ _ _ _ hv]
  split
  case isTrue room => rw [room, Nat.zero_add, Nat.mod_eq_of_lt hv]
  case isFalse => rfl

theorem field_lay_below_of_lt {v : Nat} (hv : v < 2 ^ k) (hl : lo + k ≤ l) : field (lay c ((lo, v) :: fs)) l n =
    if field (lay c fs) lo k = 0 then field (lay c fs) l n else field (lay c fs + v * 2 ^ lo) l n := by
  split
  case isTrue room => exact field_add_below _ _ lo k l n hv room hl
  case isFalse => rfl

@[simp] theorem field_lay_at {v : BitVec n} : field (lay c ((lo, v.toNat) :: fs)) lo n =
    if field (lay c fs) lo n = 0 then v.toNat else (field (lay c fs) lo n + v.toNat) % 2 ^ n := field_lay_at_of_lt v.isLt

@[simp] theorem field_lay_atBit {v : Bool} : field (lay c ((lo, v.toNat) :: fs)) lo 1 =
    if field (lay c fs) lo 1 = 0 then v.toNat else (field (lay c fs) lo 1 + v.toNat) % 2 ^ 1 := field_lay_at_of_lt v.toNat_lt

@[simp] theorem field_lay_below {v : BitVec k} (hl : lo + k ≤ l) : field (lay c ((lo, v.toNat) :: fs)) l n =
    if field (lay c fs) lo k = 0 then field (lay c fs) l n else field (lay c fs + v.toNat * 2 ^ lo) l n :=
  field_lay_below_of_lt v.isLt hl

@[simp] theorem field_lay_belowBit {v : Bool} (hl : lo + 1 ≤ l) : field (lay c ((lo, v.toNat) :: fs)) l n =
    if field (lay c fs) lo 1 = 0 then field (lay c fs) l n else field (lay c fs + v.toNat * 2 ^ lo) l n :=
  field_lay_below_of_lt v.toNat_lt hl

end

/-! ## A word as the sum of its fields: each field is the difference of two of the word's remainders -/

/-- Bits [m - 1 : 0] of a word. -/
def low (w m : Nat) : Int := ((w % 2 ^ m : Nat) : Int)

theorem low_add (w lo n : Nat) : low w (lo + n) = low w lo + field w lo n * 2 ^ lo := by
  simp only [low, field, Nat.pow_add, Nat.mod_mul, Nat.cast_add, Nat.cast_mul, Nat.cast_pow, Nat.cast_ofNat]
  ring

theorem low_zero (w : Nat) : low w 0 = 0 := by simp [low, Nat.mod_one]

theorem low_word (w : Word32) : low w.toNat 32 = w.toNat := congrArg Nat.cast (Nat.mod_eq_of_lt w.isLt)

theorem field_mul_pow (w lo n : Nat) : (field w lo n : Int) * 2 ^ lo = low w (lo + n) - low w lo := by rw [low_add]; ring

theorem field_eq_iff (w lo n v : Nat) : field w lo n = v ↔ low w (lo + n) = low w lo + v * 2 ^ lo := by
  rw [low_add, Int.add_right_inj, ← Nat.cast_inj (R := Int), Int.mul_eq_mul_right_iff (by positivity)]

theorem ofNat_eq_word {n : Nat} {w : Word32} (h : (n : Int) = low w.toNat 32) : BitVec.ofNat 32 n = w := by
  rw [low_word, Nat.cast_inj] at h
  rw [h, BitVec.ofNat_toNat, BitVec.setWidth_eq]

end Sys2Proof
end

section
/-!
PROOF. Decode of encode, and encode of decode, map by map (R35, R48 to R55).
-/

set_option Elab.async false
namespace Sys2Proof

/-! ## A syllable parses to what it encodes -/

theorem parseScalar_encode {i : Instr} (h : i.slot? = some 0) : parseScalar i.encode.toNat = some i := by
  cases i <;> cases h
  all_goals
    unfold Instr.encode
    simp [parseScalar, bits_eq_field, flag_eq_field]

theorem parseScalar_encode_of_sbOnly {i : Instr} (h : i.slot? = some 1) : parseScalar i.encode.toNat = some i := by
  cases i <;> cases h
  case yield => rfl
  case endk => rfl
  case eret => rfl
  case phaseCommit => rfl
  all_goals
    unfold Instr.encode
    simp [parseScalar, bits_eq_field, flag_eq_field]

theorem parseLoadStore_encode {i : Instr} (h : i.slot? = some 2) : parseLoadStore i.encode.toNat = some i := by
  cases i <;> cases h
  case drain => rfl
  all_goals
    unfold Instr.encode
    simp [parseLoadStore, bits_eq_field, flag_eq_field]

theorem parseVector_encode {i : Instr} (h : i.slot? = some 3) : parseVector i.encode.toNat = some i := by
  cases i <;> cases h
  all_goals
    unfold Instr.encode
    simp only [parseVector, BitVec.toNat_ofNat, bits_eq_field, flag_eq_field, field_mod_word, field_lay_nil, field_lay_above,
      field_lay_at, field_lay_atBit, field_lay_below, field_lay_belowBit, Nat.reducePow, Nat.reduceAdd, Nat.reduceLeDiff,
      Nat.reduceDiv, Nat.reduceMod, ↓reduceIte, BitVec.ofNat_toNat, BitVec.setWidth_eq, Bool.toNat_beq_one, and_self]

theorem parseMatrix_encode {i : Instr} (h : i.slot? = some 12) : parseMatrix i.encode.toNat = some i := by
  cases i <;> cases h
  all_goals
    unfold Instr.encode
    simp [parseMatrix, bits_eq_field, flag_eq_field]

theorem parseEddy_encode {i : Instr} (h : i.slot? = some 13) : parseEddy i.encode.toNat = some i := by
  cases i <;> cases h
  all_goals
    unfold Instr.encode
    simp [parseEddy, bits_eq_field, flag_eq_field]

theorem parseEngine_encode {i : Instr} (h : i.slot? = some 14) : parseEngine i.encode.toNat = some i := by
  cases i <;> cases h
  all_goals
    unfold Instr.encode
    simp [parseEngine, bits_eq_field, flag_eq_field]

theorem parseScale_encode {i : Instr} (h : i.slot? = some 15) : parseScale i.encode.toNat = some i := by
  cases i <;> cases h
  all_goals
    unfold Instr.encode
    simp [parseScale, bits_eq_field, flag_eq_field]

/-- The maps are those of SA, SB, LS, the vector slots, MX, CY, XF and SC. -/
theorem Instr.slot?_mem {i : Instr} {k : Nat} (h : i.slot? = some k) : k ∈ [0, 1, 2, 3, 12, 13, 14, 15] := by
  cases i <;> cases h <;> decide

theorem parseSlot_vector {slot : Nat} (lo : 3 ≤ slot) (hi : slot ≤ 11) (w : Nat) : parseSlot slot w = parseVector w := by
  interval_cases slot <;> rfl

theorem parseSlot_encode {i : Instr} {slot : Nat} (fits : Claims.fitsSlot i slot = true) : parseSlot slot i.encode.toNat = some i := by
  cases h : i.slot? with
  | none => rw [Claims.fitsSlot, h] at fits; cases fits
  | some k =>
    have maps := i.slot?_mem h
    simp only [List.mem_cons, List.not_mem_nil, or_false] at maps
    rw [Claims.fitsSlot, h] at fits
    obtain rfl | rfl | rfl | rfl | rfl | rfl | rfl | rfl := maps
    case inl => obtain rfl | rfl : slot = 0 ∨ slot = 1 := by simpa using fits
                all_goals exact parseScalar_encode h
    case inr.inl => obtain rfl | rfl : slot = 0 ∨ slot = 1 := by simpa using fits
                    all_goals exact parseScalar_encode_of_sbOnly h
    case inr.inr.inr.inl =>
      obtain ⟨lo, hi⟩ : 3 ≤ slot ∧ slot ≤ 11 := by simpa using fits
      rw [parseSlot_vector lo hi, parseVector_encode h]
    all_goals obtain rfl := beq_iff_eq.1 fits
    · exact parseLoadStore_encode h
    · exact parseMatrix_encode h
    · exact parseEddy_encode h
    · exact parseEngine_encode h
    · exact parseScale_encode h

theorem parseSlot_zero (slot : Nat) : parseSlot slot 0 = none := by
  unfold parseSlot
  split
  case h_8 => split <;> rfl
  all_goals rfl

/-- Settles O2: a syllable is not the zero word, which no map knows, and its map reads each operand in its own field. -/
theorem decodeOfEncode : Obligations.DecodeOfEncode := by
  intro i slot wf fits
  have parsed := parseSlot_encode fits
  have nonzero : i.encode ≠ 0 := by
    intro zero
    rw [zero] at parsed
    cases (parseSlot_zero slot).symm.trans parsed
  rw [decodeSyllable, if_neg nonzero, parsed]
  exact if_pos wf

/-! ## A word that parses is the encoding of what it parses to -/

theorem encode_of_parseScalar {w : Word32} {i : Instr} (h : parseScalar w.toNat = some i) : i.encode = w := by
  unfold parseScalar at h
  repeat' split at h
  all_goals
    cases h <;>
    · unfold Instr.encode
      apply ofNat_eq_word
      simp only [field_eq_iff, lay_cons, lay_nil, bits_toNat, flag_toNat, field_mul_pow, Nat.reduceAdd, low_zero] at *
      omega

theorem encode_of_parseLoadStore {w : Word32} {i : Instr} (h : parseLoadStore w.toNat = some i) : i.encode = w := by
  unfold parseLoadStore at h
  repeat' split at h
  all_goals
    cases h <;>
    · unfold Instr.encode
      apply ofNat_eq_word
      simp only [field_eq_iff, lay_cons, lay_nil, bits_toNat, flag_toNat, field_mul_pow, Nat.reduceAdd, low_zero] at *
      omega

theorem encode_of_parseVector {w : Word32} {i : Instr} (h : parseVector w.toNat = some i) : i.encode = w := by
  unfold parseVector at h
  repeat' split at h
  all_goals
    cases h <;>
    · unfold Instr.encode
      apply ofNat_eq_word
      simp only [field_eq_iff, lay_cons, lay_nil, bits_toNat, flag_toNat, field_mul_pow, Nat.reduceAdd, low_zero] at *
      omega

theorem encode_of_parseMatrix {w : Word32} {i : Instr} (h : parseMatrix w.toNat = some i) : i.encode = w := by
  unfold parseMatrix at h
  repeat' split at h
  all_goals
    cases h <;>
    · unfold Instr.encode
      apply ofNat_eq_word
      simp only [field_eq_iff, lay_cons, lay_nil, bits_toNat, flag_toNat, field_mul_pow, Nat.reduceAdd, low_zero] at *
      omega

theorem encode_of_parseEddy {w : Word32} {i : Instr} (h : parseEddy w.toNat = some i) : i.encode = w := by
  unfold parseEddy at h
  repeat' split at h
  all_goals
    cases h <;>
    · unfold Instr.encode
      apply ofNat_eq_word
      simp only [field_eq_iff, lay_cons, lay_nil, bits_toNat, flag_toNat, field_mul_pow, Nat.reduceAdd, low_zero] at *
      omega

theorem encode_of_parseEngine {w : Word32} {i : Instr} (h : parseEngine w.toNat = some i) : i.encode = w := by
  unfold parseEngine at h
  repeat' split at h
  all_goals
    cases h <;>
    · unfold Instr.encode
      apply ofNat_eq_word
      simp only [field_eq_iff, lay_cons, lay_nil, bits_toNat, flag_toNat, field_mul_pow, Nat.reduceAdd, low_zero] at *
      omega

theorem encode_of_parseScale {w : Word32} {i : Instr} (h : parseScale w.toNat = some i) : i.encode = w := by
  unfold parseScale at h
  repeat' split at h
  all_goals
    cases h <;>
    · unfold Instr.encode
      apply ofNat_eq_word
      simp only [field_eq_iff, lay_cons, lay_nil, bits_toNat, flag_toNat, field_mul_pow, Nat.reduceAdd, low_zero] at *
      omega

theorem encode_of_parseSlot {slot : Nat} {w : Word32} {i : Instr} (h : parseSlot slot w.toNat = some i) : i.encode = w := by
  unfold parseSlot at h
  split at h
  · exact encode_of_parseScalar h
  · exact encode_of_parseScalar h
  · exact encode_of_parseLoadStore h
  · exact encode_of_parseMatrix h
  · exact encode_of_parseEddy h
  · exact encode_of_parseEngine h
  · exact encode_of_parseScale h
  · split at h
    · exact encode_of_parseVector h
    · cases h

theorem decodeSyllable_ok {slot : Nat} {w : Word32} {i : Instr} (h : decodeSyllable slot w = .ok i) :
    w ≠ 0 ∧ parseSlot slot w.toNat = some i ∧ i.wellFormed = true := by
  unfold decodeSyllable at h
  split at h
  case isTrue => cases h
  case isFalse nonzero =>
    split at h
    case h_1 => cases h
    case h_2 j parsed =>
      split at h
      case isFalse => cases h
      case isTrue wf => cases h; exact ⟨nonzero, parsed, wf⟩

/-- Settles O3: the fields that a map reads and those that it requires to be fixed are together the whole word. -/
theorem acceptedWordsAreEncodings : Obligations.AcceptedWordsAreEncodings := by
  intro slot w i h
  obtain ⟨-, parsed, wf⟩ := decodeSyllable_ok h
  exact ⟨encode_of_parseSlot parsed, wf⟩

/-- Settles O1: the words of the layouts, each decoded. -/
theorem writtenWordsDecode : Obligations.WrittenWordsDecode := by
  unfold Obligations.WrittenWordsDecode
  decide

end Sys2Proof
end

section
/-!
PROOF. Malformed headers (R30 to R32, R39).
-/

set_option Elab.async false
namespace Sys2Proof

/-! ## The bits of a header -/

theorem flag_eq_getLsbD {n : Nat} (w : BitVec n) (k : Nat) : flag w.toNat k = w.getLsbD k := by
  rw [BitVec.getLsbD, Nat.testBit_eq_decide_div_mod_eq]; rfl

theorem field_eq_extract (w : Word32) (lo n : Nat) : field w.toNat lo n ≠ 0 ↔ w.extractLsb' lo n ≠ 0 := by
  rw [ne_eq, ne_eq, ← BitVec.toNat_inj, BitVec.extractLsb'_toNat, Nat.shiftRight_eq_div_pow]; rfl

/-- The present mask is the upper half of the header. -/
theorem headerOf_has (w : Word32) {n : Nat} (h : n < 16) : (headerOf w).has n = w.getLsbD (16 + n) := by
  rw [Header.has, flag_eq_getLsbD]
  show (BitVec.ofNat 16 (w.toNat / 2 ^ 16)).getLsbD n = w.toNat.testBit (16 + n)
  rw [BitVec.getLsbD_ofNat, Nat.testBit_div_two_pow, decide_eq_true h, Bool.true_and, Nat.add_comm]

/-- A test of the mirror slots that a header marks, as one of the marks of R39. -/
theorem headerOf_mirrors_any (w : Word32) (p : Nat → Bool) :
    (headerOf w).mirrors.any p = true ↔ ∃ m ∈ Claims.mirrorBits, w.getLsbD m.1 = true ∧ p m.2.2 = true := by
  have bit (b : Bool) (k : Nat) : (if b = true then [k] else []).any p = (b && p k) := by cases b <;> simp
  simp only [Header.mirrors, List.any_append, bit, headerOf, flag_eq_getLsbD, Claims.mirrorBits, List.mem_cons, List.not_mem_nil,
    or_false, exists_eq_or_imp, exists_eq_left, Bool.or_eq_true, Bool.and_eq_true, or_assoc]

theorem mirrorBits_slots : ∀ m ∈ Claims.mirrorBits, m.2.2 < 16 ∧ m.2.1 < 16 ∧ m.2.2 - 1 = m.2.1 := by decide

/-! ## The rules of R32 -/

/-- A header is malformed when one of the rules is broken, whichever comes first. -/
theorem headerError_isSome (w : Word32) (syl : List (Nat × Word32)) :
    (headerError w syl).isSome = true ↔
      (field w.toNat 13 3 ≠ 0 ∨ field w.toNat 0 6 ≠ 0) ∨
        ((headerOf w).has 3 && (List.range 8).any fun k => (headerOf w).has (4 + k)) = true ∨
        (headerOf w).mirrors.any (fun m => !((headerOf w).has m && (headerOf w).has (m - 1)) || slotWord syl m != slotWord syl (m - 1) ||
          !((slotWord syl (m - 1)).map (mirrorable (m - 1))).getD false) = true := by
  have any_or (l : List Nat) (f g : Nat → Bool) : l.any (fun m => f m || g m) = (l.any f || l.any g) := by
    induction l with
    | nil => rfl
    | cons a l ih => simp only [List.any_cons, ih, Bool.or_assoc, Bool.or_left_comm]
  rw [any_or, any_or, Bool.or_eq_true, Bool.or_eq_true]
  dsimp only [headerError]
  split_ifs <;> simp only [Option.isSome_some, Option.isSome_none, *, true_or, or_true, or_self, Bool.false_eq_true]

theorem headerOf_vbWithLane (w : Word32) :
    ((headerOf w).has 3 && (List.range 8).any fun k => (headerOf w).has (4 + k)) = true ↔
      w.getLsbD 19 = true ∧ ∃ k, k < 8 ∧ w.getLsbD (20 + k) = true := by
  rw [Bool.and_eq_true, headerOf_has w (by decide), List.any_eq_true]
  refine and_congr_right fun _ => exists_congr fun k => ?_
  rw [List.mem_range]
  refine and_congr_right fun hk => ?_
  rw [headerOf_has w (by omega), ← Nat.add_assoc]

/-- Settles O4: the rules of R32, each a test of the header's bits and of its syllables, and the one trap that a malformed header is. -/
theorem malformedHeaders : Obligations.MalformedHeaders := by
  refine ⟨fun w syl => ?_, fun s w syl bad => ⟨_, if_pos bad⟩⟩
  rw [headerError_isSome, headerOf_vbWithLane, headerOf_mirrors_any, field_eq_extract, field_eq_extract]
  refine or_congr_right (or_congr_right (exists_congr fun m => and_congr_right fun hm => and_congr_right fun _ => ?_))
  obtain ⟨hmirror, hprimary, hnext⟩ := mirrorBits_slots m hm
  rw [hnext, headerOf_has w hmirror, headerOf_has w hprimary]
  cases w.getLsbD (16 + m.2.1) <;> simp [or_assoc]

end Sys2Proof
end

section
/-!
PROOF. Scalar sources (R38, R88, R89), what a strand and the conductor may not do (R35, R101, R344), and guarded syllables (R40).
-/

set_option Elab.async false
namespace Sys2Proof.Machine

/-! ## Reading a source -/

theorem State.src_register (s : State) {r : BitVec 6} (h : r.toNat < 56) : s.src r = ((s.me.reg r, s.me.regMark r), s) := if_pos h

theorem State.src_empty (s : State) {r : BitVec 6} (h : 56 ≤ r.toNat) (he : s.me.stream (r.toNat - 56) = []) :
    s.src r = ((0, false), s) := by
  rw [State.src, if_neg (by omega)]
  simp only [he]

/-- A stream source pops the head of its stream, and nothing else of the strand changes. -/
theorem State.src_stream (s : State) {r : BitVec 6} {e : Elem} {es : List Elem} (h : 56 ≤ r.toNat)
    (he : s.me.stream (r.toNat - 56) = e :: es) :
    (s.src r).1 = (e.val, e.mark) ∧
      (s.src r).2.me = { s.me with streams := put [] s.me.streams (r.toNat - 56) es } := by
  rw [State.src, if_neg (by omega)]
  simp only [he, true_and]
  exact s.me_modMe fun t => { t with streams := put [] t.streams (r.toNat - 56) es }

theorem State.src_stream_self (s : State) {r : BitVec 6} {e : Elem} {es : List Elem} (h : 56 ≤ r.toNat)
    (he : s.me.stream (r.toNat - 56) = e :: es) : (s.src r).2.me.stream (r.toNat - 56) = es := by
  rw [(s.src_stream h he).2]
  exact look_put_self ..

/-- The other streams stand as before. -/
theorem State.src_stream_ne (s : State) (r : BitVec 6) {k : Nat} (hk : 56 ≤ r.toNat → k ≠ r.toNat - 56) :
    (s.src r).2.me.stream k = s.me.stream k := by
  by_cases h : r.toNat < 56
  · rw [s.src_register h]
  · cases he : s.me.stream (r.toNat - 56) with
    | nil => rw [s.src_empty (by omega) he]
    | cons e es =>
      rw [(s.src_stream (by omega) he).2]
      exact look_put_ne _ _ _ _ (hk (by omega))

theorem State.src_reg (s : State) (a b : BitVec 6) : (s.src a).2.me.reg b = s.me.reg b := by
  obtain same | ⟨streams, same⟩ := s.me_src_cases a
  · rw [same]
  · rw [same]; rfl

/-! ## Peeking at a source -/

theorem State.srcPeek_eq (s : State) (r : BitVec 6) : s.srcPeek r = (s.src r).1.1 := by
  by_cases h : r.toNat < 56
  · rw [s.src_register h, State.srcPeek, if_pos h]
  · rw [State.srcPeek, if_neg h]
    cases he : s.me.stream (r.toNat - 56) with
    | nil => rw [s.src_empty (by omega) he]; rfl
    | cons e es => rw [(s.src_stream (by omega) he).1]; rfl

/-- The second field of one stream sees the element behind the head. -/
theorem State.srcPeek_skip (s : State) {r : BitVec 6} (h : 56 ≤ r.toNat) : s.srcPeek r 1 = (s.src2 r r).1.2.1 := by
  show _ = ((s.src r).2.src r).1.1
  rw [← State.srcPeek_eq, State.srcPeek, State.srcPeek, if_neg (by omega), if_neg (by omega)]
  cases he : s.me.stream (r.toNat - 56) with
  | nil => rw [s.src_empty h he, he]; rfl
  | cons e es => rw [s.src_stream_self h he]; cases es <;> rfl

theorem State.srcPeek2_eq (s : State) (a b : BitVec 6) : s.srcPeek2 a b = (s.src2 a b).1.2.1 := by
  by_cases same : a = b ∧ 56 ≤ a.toNat
  · obtain ⟨rfl, h⟩ := same
    rw [State.srcPeek2, if_pos ⟨rfl, h⟩, s.srcPeek_skip h]
  · rw [State.srcPeek2, if_neg same]
    show _ = ((s.src a).2.src b).1.1
    rw [← State.srcPeek_eq, State.srcPeek, State.srcPeek, s.src_reg]
    by_cases hb : b.toNat < 56
    · rw [if_pos hb, if_pos hb]
    · have apart : 56 ≤ a.toNat → b.toNat - 56 ≠ a.toNat - 56 := fun ha e =>
        same ⟨BitVec.eq_of_toNat_eq (by omega), ha⟩
      rw [s.src_stream_ne a apart]

/-! ## Writing a register -/

theorem Strand.reg_setReg (t : Strand) (r q : BitVec 6) (v : Word) (m : Bool) :
    (t.setReg r v m).reg q = if q = r ∧ r ≠ 0 ∧ r.toNat < 56 then v else t.reg q := by
  unfold Strand.setReg
  by_cases h0 : r = 0
  · rw [if_pos h0, if_neg (by tauto)]
  · rw [if_neg h0]
    by_cases h : r.toNat < 56
    · rw [dif_pos h]
      by_cases hq : q = r
      · subst hq
        have written : q = q ∧ q ≠ 0 ∧ q.toNat < 56 := ⟨rfl, h0, h⟩
        rw [if_pos written, Strand.reg, if_neg h0, dif_pos h]
        exact Vector.getElem_set_self _
      · have apart : r.toNat ≠ q.toNat := fun e => hq (BitVec.eq_of_toNat_eq e.symm)
        simp [Strand.reg, hq, Vector.getElem_set_ne, apart]
    · rw [dif_neg h, if_neg (by tauto)]

/-- Settles O52: a source is a register or the head of a stream, and the two fields of a syllable read one after the other. -/
theorem sources : Obligations.Sources := by
  refine ⟨fun s => ?_, fun s r h => ?_, fun s r e es h he => ?_, fun s r e f es h he => ?_,
    fun s a b => ⟨s.srcPeek_eq a, s.srcPeek2_eq a b⟩, Strand.reg_setReg⟩
  · rw [s.src_register (by decide)]
    exact ⟨rfl, rfl⟩
  · rw [s.src_register h]
    exact ⟨rfl, rfl⟩
  · obtain ⟨head, me⟩ := s.src_stream h he
    exact ⟨head, s.src_stream_self h he, fun k hk => s.src_stream_ne r fun _ => hk, by rw [me], by rw [me]⟩
  · have rest := s.src_stream_self h he
    exact ⟨by rw [State.src2, (s.src_stream h he).1], by rw [State.src2, ((s.src r).2.src_stream h rest).1],
      by rw [State.src2, (s.src r).2.src_stream_self h rest]⟩

/-! ## The checks of R35 that state and slot decide -/

/-- A check of R35 that fails stops the syllable with its trap (R91). -/
theorem issueWith_decodeFault {i : Instr} {s : State} {code : Nat} (h : s.issue.admitted = false)
    (hv : s.decodeVerdict i = some (decodeFault code i)) :
    ∃ v, ∀ checks effect, issueWith i s checks effect = .next (({ s with issue := v } : State).takeTrap s.issue.core s.issue.strand
      (causeWord code 0 s.issue.slot 0 0 s.issue.len) (BitVec.ofNat 17 (2 ^ s.issue.slot)) (zext64 i.encode) s.issue.addr) := by
  refine ⟨{ s.issue with verdict := some (decodeFault code i) }, fun checks effect => ?_⟩
  have first : s.verdictOf i (checks s) = some (decodeFault code i) := by rw [State.verdictOf, hv]; rfl
  exact (issueWith_refused h first).trans (congrArg _ (State.refuse_fault ..))

theorem ctlReadOnly_iff (n : Nat) : ctlReadOnly n = true ↔
    n ∈ [0x001, 0x003, 0x004, 0x009, 0x00A, 0x041, 0x042, 0x043, 0x044, 0x045, 0x046, 0x047, 0x048, 0x050, 0x060] := by
  simp only [ctlReadOnly, Bool.or_eq_true, Bool.and_eq_true, beq_iff_eq, decide_eq_true_eq, List.mem_cons, List.not_mem_nil, or_false]
  omega

theorem ctlPrivileged_iff (n : Nat) : ctlPrivileged n = true ↔
    n ∈ [0x000, 0x002, 0x005, 0x006, 0x030, 0x031, 0x032, 0x033, 0x034, 0x035, 0x036, 0x037, 0x038, 0x039, 0x03A, 0x03B, 0x03C,
      0x03D, 0x03E, 0x03F, 0x040] := by
  simp only [ctlPrivileged, Bool.or_eq_true, Bool.and_eq_true, beq_iff_eq, decide_eq_true_eq, List.mem_cons, List.not_mem_nil, or_false]
  omega

/-- An MTC in a slot that it may stand in: its register alone decides. -/
theorem State.decodeVerdict_mtc {s : State} {a : BitVec 6} {i : BitVec 12} (wf : (Instr.mtc a i).wellFormed = true)
    (lanes : s.meConductor = true → s.issue.slot < 3 ∨ 13 < s.issue.slot) (hs : s.issue.slot ≠ 0) :
    s.decodeVerdict (.mtc a i) =
      if ctlReadOnly i.toNat || (ctlPrivileged i.toNat && !s.me.ctl.priv) then some (decodeFault privilegeCode (.mtc a i)) else none := by
  have free : (s.meConductor && 3 ≤ s.issue.slot && s.issue.slot ≤ 13) = false := by
    cases hc : s.meConductor with
    | false => rfl
    | true => have := lanes hc; simp; omega
  have formed : (!(Instr.mtc a i).wellFormed || (f64Special (.mtc a i) && !versionSupported s.me.ctl.version)) = false := by rw [wf]; rfl
  have inSb : ((Instr.mtc a i).sbOnly && s.issue.slot == 0) = false := Bool.and_eq_false_imp.2 fun _ => beq_false_of_ne hs
  have format : (!formatPairOk (.mtc a i)) = false := rfl
  unfold State.decodeVerdict
  simp only [formed, inSb, free, format, Bool.false_eq_true, if_false]

/-- LAUNCH is the conductor's alone (R117). -/
theorem State.decodeVerdict_launch {s : State} {d a : BitVec 6} (wf : (Instr.launch d a).wellFormed = true)
    (hc : s.meConductor = false) (hs : s.issue.slot = 1) :
    s.decodeVerdict (.launch d a) = some (decodeFault illegalSlotCode (.launch d a)) := by
  have formed : (!(Instr.launch d a).wellFormed || (f64Special (.launch d a) && !versionSupported s.me.ctl.version)) = false := by
    rw [wf]; rfl
  have format : (!formatPairOk (.launch d a)) = false := rfl
  unfold State.decodeVerdict
  simp only [formed, format, hc, hs, Nat.reduceBEq, Bool.and_false, Bool.false_and, Bool.false_eq_true, if_false]

/-- The conductor has no lanes, no array and no Eddy slots (R18). -/
theorem State.decodeVerdict_conductor {s : State} {i : Instr} (wf : i.wellFormed = true) (hc : s.meConductor = true)
    (lo : 3 ≤ s.issue.slot) (hi : s.issue.slot ≤ 13) :
    s.decodeVerdict i = some (decodeFault illegalCode i) ∨ s.decodeVerdict i = some (decodeFault illegalSlotCode i) := by
  have hs : s.issue.slot ≠ 0 := by omega
  unfold State.decodeVerdict
  by_cases version : (f64Special i && !versionSupported s.me.ctl.version) = true
  · simp [version]
  · simp [wf, version, hs, hc, lo, hi]

/-- Settles O48: each limit is a check of R35, and a check that fails is the trap of its code. -/
theorem privileges : Obligations.Privileges := by
  refine ⟨fun s a i wf lanes hs => ?_, fun s a i wf lanes hs fresh stops => ?_, fun s d a wf hc hs fresh => ?_,
    fun s i wf hc lo hi => ?_⟩
  · rw [State.decodeVerdict_mtc wf lanes hs, ← ctlReadOnly_iff, ← ctlPrivileged_iff]
    cases ctlReadOnly i.toNat <;> cases ctlPrivileged i.toNat <;> cases s.me.ctl.priv <;> simp
  · have fault : s.decodeVerdict (.mtc a i) = some (decodeFault privilegeCode (.mtc a i)) := by
      rw [State.decodeVerdict_mtc wf lanes hs] at stops ⊢
      split at stops
      case isTrue register => exact if_pos register
      case isFalse => cases stops rfl
    obtain ⟨v, trap⟩ := issueWith_decodeFault fresh fault
    exact ⟨v, _, by rw [exec_mtc, execMtc, issuePlain, trap]; rfl⟩
  · obtain ⟨v, trap⟩ := issueWith_decodeFault fresh (State.decodeVerdict_launch wf hc hs)
    rw [hs] at trap
    exact ⟨v, by rw [exec_launch, execLaunch, trap]; rfl⟩
  · obtain fault | fault := State.decodeVerdict_conductor wf hc lo hi <;> rw [fault]
    · exact ⟨fun f hf => .inl (Option.some.inj hf).symm, nofun⟩
    · exact ⟨fun f hf => .inr (Option.some.inj hf).symm, nofun⟩

/-! ## Guarded syllables -/

/-- Settles O49: the guard comes after decode, blocks and holds, and before all else. -/
theorem guard : Obligations.Guard := by
  refine ⟨fun i => ?_, fun s i k guarded pending decodes fed blocks holds => ?_, fun s i clear => ?_⟩
  · cases i <;> unfold Instr.guarded <;> simp only [Bool.false_eq_true]
  · have fault : s.guardFault i = some (faultWith 0x05 0
        (BitVec.ofNat 64 (s.me.ctl.mirrorAddr.toNat + 2 ^ 40 * s.me.ctl.mirrorSlot.toNat))) := by
      rw [State.guardFault, guarded, pending]; rfl
    rw [State.verdictOf, decodes, fed, blocks, holds, fault]
    rfl
  · rw [State.guardFault, clear, Bool.and_false]
    rfl

end Sys2Proof.Machine
end

section
/-!
PROOF. Results that are due (R37, R94, R356).
-/

set_option Elab.async false
namespace Sys2Proof.Machine

/-! ## A value that an uncorrectable word outdoes -/

/-- Two results are due in one cycle for x1: the value 5, and with a later number an uncorrectable word alone (R356). (The model's own
`spoil` sets such a word beside the value that it strikes, with that value's number; the statement ranges over every state.) -/
def spoiledResult : State := State.reset.modStrand 0 0 fun t => { t with
  time := 1
  pend :=
    [{ due := 1, seq := 0, write := .x 1 5, mark := false, load := none, recs := [] },
     { due := 1, seq := 1, write := .bad { kind := .scalarReg, core := 0, strand := 0, group := 0, index := 1 }, mark := false,
       load := none, recs := [] }] }

/-- The later of the two is the one that is written (R37), and it writes no value. -/
theorem spoiledResult_reg : ((spoiledResult.writeDue 0 0).strand 0 0).reg 1 = 0 := by decide

/-- Refutes O53: of the results due, the third clause of `resultDelivery` looks at the values for a register alone. An uncorrectable word
(`Write.bad`) has that register as its target too, so one with a later number discards the value (`Pending.outdone`), and the register
keeps its old value, where the clause says 5. -/
theorem not_delivery : ¬ Obligations.Delivery := by
  unfold Obligations.Delivery Claims.resultDelivery
  rintro ⟨⟨-, -, last, -⟩, -⟩
  have written := last spoiledResult 0 0 1 (by decide) (by decide)
  rw [spoiledResult_reg] at written
  exact absurd written (by decide)

end Sys2Proof.Machine
end

section
/-!
PROOF. Traps (R36, R162, R340 to R343).
-/

set_option Elab.async false
namespace Sys2Proof.Machine

/-! ## The CAUSE word (R340) -/

theorem causeWord_toNat {code reason slot lg lane len : Nat} (hcode : code < 256) (hreason : reason < 256) (hslot : slot < 32)
    (hlg : lg < 8) (hlane : lane < 16) (hlen : len < 32) :
    (causeWord code reason slot lg lane len).toNat =
      code + 256 * reason + 65536 * slot + 2097152 * lg + 16777216 * lane + 4294967296 * len := by
  rw [causeWord, BitVec.toNat_ofNat]
  omega

theorem causeFields_holds : Claims.causeFields := by
  intro code reason slot lg lane len hcode hreason hslot hlg hlane hlen
  have word := causeWord_toNat hcode hreason hslot hlg hlane hlen
  dsimp only
  refine ⟨?_, ?_, ?_, ?_, ?_, BitVec.eq_of_toNat_eq (.trans (b := 0) ?_ rfl), ?_, BitVec.eq_of_toNat_eq (.trans (b := 0) ?_ rfl)⟩ <;>
  · rw [BitVec.extractLsb'_toNat, word, Nat.shiftRight_eq_div_pow]
    omega

/-! ## What a trap sets aside (R162) -/

/-- The trap registers are control registers: a word of a vector register that is uncorrectable stays so. -/
theorem Strand.isBad_mendFaulted (t : Strand) (lg reg : Nat) :
    t.mendFaulted.isBad .vectorReg lg reg = t.isBad .vectorReg lg reg := by
  rw [Strand.isBad, Strand.isBad, Strand.mendFaulted, List.any_filter]
  refine congrArg (fun f => t.bad.any f) (funext fun p => ?_)
  cases p.kind <;> simp

/-- The value that a trap keeps of a register: what an earlier trap has kept, else what the register holds. -/
def Strand.kept (t : Strand) (k : Core) (n : Nat) (b : Block) (r : Nat) : Line × Bool :=
  (b.saved.find? fun e => e.1 == r).elim ((k.vreg b.lg n r).1, (k.vreg b.lg n r).2 || t.isBad .vectorReg b.lg r) (·.2)

/-- A block as a trap keeps it. -/
def Strand.keepBlock (t : Strand) (k : Core) (n : Nat) (b : Block) : Block :=
  if b.idle then b else { b with saved := (b.unread (vregCount t.ctl.poolpart)).map fun r => (r, t.kept k n b r) }

theorem Strand.keepOperands_eq (t : Strand) (k : Core) (n : Nat) :
    t.keepOperands k n = { t with blocks := t.blocks.map (t.keepBlock k n) } := rfl

theorem keptOperands_holds : Claims.keptOperands := by
  intro t k n b hb
  rw [t.keepOperands_eq]
  refine ⟨fun idle => List.mem_map.2 ⟨b, hb, if_pos idle⟩, fun busy => ⟨_, List.mem_map_of_mem hb, ?_⟩⟩
  rw [Strand.keepBlock, if_neg (by rw [busy]; decide)]
  refine ⟨rfl, rfl, rfl, by simp [Function.comp_def], fun r hr fresh sound => List.mem_map.2 ⟨r, hr, ?_⟩⟩
  have none : b.saved.find? (fun e => e.1 == r) = none := List.find?_eq_none.2 fun e he => by simpa using fresh e he
  rw [Strand.kept, none, sound, Bool.or_false]
  rfl

/-- The four registers that a trap writes are not among what it keeps of the blocks. -/
theorem Strand.keepOperands_faulted (t : Strand) (s : State) (c n m : Nat) (f : Strand → Strand) (cause : Word) (fmask : BitVec 17)
    (info : Word) (epc : VAddr) :
    ((t.mendFaulted.setFaulted cause fmask info epc).keepOperands ((s.modStrand c m f).core c) n).blocks =
      (t.keepOperands (s.core c) n).blocks := by
  have vreg (lg r : Nat) : ((s.modStrand c m f).core c).vreg lg n r = (s.core c).vreg lg n r := by
    rw [State.modStrand, State.core_modCore]; rfl
  have bad (lg r : Nat) : (t.mendFaulted.setFaulted cause fmask info epc).isBad .vectorReg lg r = t.isBad .vectorReg lg r :=
    t.isBad_mendFaulted lg r
  rw [Strand.keepOperands_eq, Strand.keepOperands_eq]
  refine List.map_congr_left fun b _ => ?_
  rw [Strand.keepBlock, Strand.keepBlock]
  simp only [Strand.kept, vreg, bad]
  rfl

theorem Strand.mem_mendFaulted_ctlMarks (t : Strand) (i : Nat) :
    i ∈ t.mendFaulted.ctlMarks ↔ i ∈ t.ctlMarks ∧ i ∉ [0x001, 0x002, 0x003, 0x004] := by
  simp [Strand.mendFaulted, faultControls]

/-! ## Trap entry (R342) -/

/-- The counter of R362 that a trap of code 0x10 raises. -/
def State.countTrap (s : State) (c : Nat) (cause : Word) : State :=
  if cause.toNat % 256 = 0x10 then s.countVf (s.team (coreDie c) (s.teamAt c)).vf 7 else s

theorem State.countTrap_eq (s : State) (c : Nat) (cause : Word) : ∃ vfs, s.countTrap c cause = { s with vfs := vfs } := by
  rw [State.countTrap]
  split
  · exact ⟨_, rfl⟩
  · exact ⟨s.vfs, rfl⟩

/-- A trap that is no double trap: the registers of the fault, then trap entry, each an update of the strand alone. -/
theorem State.takeTrap_enters {s : State} {c n : Nat} (cause : Word) (fmask : BitVec 17) (info : Word) (epc : VAddr)
    (h : (s.strand c n).doubleTrap = false) :
    ∃ vfs, s.takeTrap c n cause fmask info epc =
      let r := ({ s with vfs := vfs } : State).modStrand c n fun t => t.mendFaulted.setFaulted cause fmask info epc
      r.modStrand c n fun t => (t.keepOperands (r.core c) n).enterTrap := by
  obtain ⟨vfs, counted⟩ := s.countTrap_eq c cause
  refine ⟨vfs, ?_⟩
  rw [← counted]
  exact if_neg (by rw [h]; decide)

theorem trapEntry_holds : Claims.trapEntry := by
  intro s c n cause info fmask epc hexl hen t
  obtain ⟨vfs, taken⟩ := s.takeTrap_enters (c := c) (n := n) cause fmask info epc (by rw [Strand.doubleTrap, hexl, hen]; rfl)
  dsimp only at taken ⊢
  rw [taken]
  let v : State := { s with vfs := vfs }
  let t' := (s.strand c n).mendFaulted.setFaulted cause fmask info epc
  let r := v.modStrand c n fun t => t.mendFaulted.setFaulted cause fmask info epc
  have strand : (r.modStrand c n fun t => (t.keepOperands (r.core c) n).enterTrap).strand c n = (t'.keepOperands (r.core c) n).enterTrap := by
    rw [State.strand_modStrand, State.strand_modStrand]
    rfl
  have blocks : (t'.keepOperands (r.core c) n).blocks = (t.keepOperands (s.core c) n).blocks :=
    t.keepOperands_faulted v c n n _ cause fmask info epc
  have core : (r.modStrand c n fun t => (t.keepOperands (r.core c) n).enterTrap).core c =
      ((s.core c).setStrand n t').setStrand n (t'.keepOperands (r.core c) n).enterTrap := by
    refine (State.core_modCore ..).trans ?_
    rw [show r.core c = (s.core c).setStrand n t' from State.core_modCore .., Core.strand_setStrand]
  rw [strand]
  refine ⟨⟨rfl, rfl, rfl, rfl⟩, rfl, rfl, rfl, ?_, rfl, rfl, rfl, rfl, rfl, ?_, rfl, rfl, rfl, rfl, rfl, rfl, rfl, rfl, rfl,
    t.mem_mendFaulted_ctlMarks, rfl, rfl, rfl, ?_, fun c' n' other => ?_, fun c' other => ?_⟩
  · have := t.ctl.tvecBase.isLt
    show (BitVec.ofNat 42 (t.ctl.tvecBase.toNat * 4)).toNat = _
    rw [BitVec.toNat_ofNat]
    omega
  · rw [← blocks]
    rfl
  · rw [core]
    rfl
  · rw [State.strand_modStrand_ne _ _ _ _ other, State.strand_modStrand_ne _ _ _ _ other]
    rfl
  · rw [State.modStrand, State.core_modCore_ne _ _ other, State.modStrand, State.core_modCore_ne _ _ other]
    rfl

/-! ## The double trap (R343) -/

theorem State.postEvent_cores (s : State) (kind d t vf cause : Nat) : (s.postEvent kind d t vf cause).cores = s.cores := by
  rw [State.postEvent]
  split <;> rfl

theorem State.postEvent_dies (s : State) (kind d t vf cause : Nat) : (s.postEvent kind d t vf cause).dies = s.dies := by
  rw [State.postEvent]
  split <;> rfl

theorem State.postEvent_hostMem (s : State) (kind d t vf cause : Nat) : (s.postEvent kind d t vf cause).hostMem = s.hostMem := by
  rw [State.postEvent]
  split <;> rfl

theorem Team.launchEnd_fault (t : Team) (id : Option Nat) (w : StrandName) (poisoned : Bool) (closing : Option Closing) :
    (t.launchEnd id w poisoned closing).fault = t.fault :=
  foldl_keeps Team.fault
    (step := fun (t : Team) (l : Launch) => { t.setToken l.ctok (plainToken (if l.poisoned then .error else .ok)) with
      launches := t.launches.filter fun m => m.id != l.id }) (fun _ _ => rfl) _ _

theorem State.teamAt_discardHeld (s : State) (h : Holder) (c : Nat) : (s.discardHeld h).teamAt c = s.teamAt c := by
  rw [State.teamAt, State.teamAt, State.teamOn, State.teamOn, State.discardHeld_die]
  rfl

theorem State.team_discardHeld (s : State) (h : Holder) (d t : Nat) : (s.discardHeld h).team d t = s.team d t := by
  rw [State.team, State.team, State.discardHeld_die]
  rfl

/-- The end of a strand leaves the fault record of its team. -/
theorem State.killStrand_fault (s : State) (c n : Nat) (p : Bool) :
    ((s.killStrand c n p).team (coreDie c) (s.teamAt c)).fault = (s.team (coreDie c) (s.teamAt c)).fault := by
  have ended := (s.discardHeld (s.phaseHolder c n)).endStrand_team c n p
  rw [State.teamAt_discardHeld] at ended
  rw [State.killStrand, ended, State.team_discardHeld]
  exact Team.launchEnd_fault ..

theorem State.killStrand_strand (s : State) (c n : Nat) (p : Bool) : (s.killStrand c n p).strand c n = (s.strand c n).ended := by
  rw [State.killStrand, State.endStrand_strand, State.strand, State.discardHeld_core]
  rfl

/-- The fault of a double trap, in its strand's registers and in its team's record. -/
def State.recordFault (s : State) (c n : Nat) (cause : Word) (fmask : BitVec 17) (info : Word) (epc : VAddr) : State :=
  (s.modStrand c n fun t => t.mendFaulted.setFaulted cause fmask info epc).modTeam (coreDie c) (s.teamAt c) fun t => { t with
    fault := { cause := cause, fmask := fmask, finfo := info, epc := epc, strand := n, core := c } }

/-- A double trap: the fault is recorded, the strand ends, and an event is posted. -/
theorem State.takeTrap_double {s : State} {c n : Nat} (cause : Word) (fmask : BitVec 17) (info : Word) (epc : VAddr)
    (h : (s.strand c n).doubleTrap = true) :
    s.takeTrap c n cause fmask info epc =
      let r := (s.countTrap c cause).recordFault c n cause fmask info epc
      let t := (s.countTrap c cause).teamAt c
      (r.killStrand c n true).postEvent 1 (coreDie c) t (r.team (coreDie c) t).vf (cause.toNat % 256) :=
  if_pos h

/-- The state that a double trap leaves, but for the event. -/
theorem State.recordFault_killed (s : State) (c n : Nat) (cause : Word) (fmask : BitVec 17) (info : Word) (epc : VAddr) :
    let r := (s.recordFault c n cause fmask info epc).killStrand c n true
    r.strand c n = ((s.strand c n).mendFaulted.setFaulted cause fmask info epc).ended ∧
    (r.team (coreDie c) (s.teamAt c)).fault = { cause := cause, fmask := fmask, finfo := info, epc := epc, strand := n, core := c } := by
  have teamAt : (s.recordFault c n cause fmask info epc).teamAt c = s.teamAt c := State.teamAt_modTeam ..
  have fault := (s.recordFault c n cause fmask info epc).killStrand_fault c n true
  rw [teamAt] at fault
  dsimp only
  refine ⟨(State.killStrand_strand ..).trans ?_, fault.trans ?_⟩
  · rw [State.recordFault, State.strand_modTeam, State.strand_modStrand]
  · rw [State.recordFault, State.team_modTeam]

theorem doubleTrap_holds : Claims.doubleTrap := by
  intro s c n cause info fmask epc double
  obtain ⟨vfs, counted⟩ := s.countTrap_eq c cause
  have taken := State.takeTrap_double cause fmask info epc (s := s) (c := c) (n := n)
    (by rw [Strand.doubleTrap]; obtain h | h := double <;> simp [h])
  rw [counted] at taken
  dsimp only at taken ⊢
  rw [taken]
  generalize hw : ({ s with vfs := vfs } : State).recordFault c n cause fmask info epc = w
  obtain ⟨strand, fault⟩ := ({ s with vfs := vfs } : State).recordFault_killed c n cause fmask info epc
  obtain ⟨⟨-, -, -, -, -, -, -, notRunning, -, -⟩, -⟩ := w.killStrand_killed c n true
  rw [hw] at strand fault
  simp only [State.strand, State.core, State.team, State.die, State.postEvent_cores, State.postEvent_dies, State.postEvent_hbm,
    State.postEvent_hostMem] at strand fault notRunning ⊢
  rw [strand]
  refine ⟨⟨rfl, rfl, rfl, rfl⟩, rfl, rfl, rfl, rfl, rfl, rfl, ?_, ?_, notRunning, fault⟩ <;> rw [← hw] <;> rfl

/-- Settles O46: the fields of CAUSE, trap entry, the operands that it keeps of the blocks, and the double trap. -/
theorem trapTaken : Obligations.TrapTaken := ⟨causeFields_holds, trapEntry_holds, keptOperands_holds, doubleTrap_holds⟩

end Sys2Proof.Machine
end

section
/-!
PROOF. NOP, CMPT, CHKERR, ENDK and YIELD (R33, R113, R118, R352, R355, R379).
-/

set_option Elab.async false
namespace Sys2Proof.Machine

/-! ## The phase of a strand that ends (R118, R119) -/

theorem State.strand_discardHeld (s : State) (h : Holder) (c n : Nat) : (s.discardHeld h).strand c n = s.strand c n := by
  rw [State.strand, State.discardHeld_core]
  rfl

theorem State.strand_commitHeld (s : State) (h : Holder) (k c n : Nat) : (s.commitHeld h k).strand c n = s.strand c n := by
  have core : (s.commitHeld h k).core c = { s.core c with
      stores := (s.core c).stores.map fun w => { w with holders := w.holders.map fun x => if x = h then .done k h.task else x } } :=
    look_map (f := fun q : Core => { q with
      stores := q.stores.map fun w => { w with holders := w.holders.map fun x => if x = h then .done k h.task else x } }) rfl s.cores c
  rw [State.strand, core]
  rfl

theorem State.strand_dropPhase (s : State) (c n : Nat) : (s.dropPhase c n).strand c n = { s.strand c n with phase := none } := by
  rw [State.dropPhase, State.strand_modStrand, State.strand_discardHeld]

theorem State.strand_commitPhase (s : State) (c n : Nat) : (s.commitPhase c n).strand c n = { s.strand c n with phase := none } := by
  rw [State.commitPhase]
  split
  · refine (State.strand_modStrand (s.commitHeld (s.phaseHolder c n) s.nextId) c n fun t => { t with phase := none }).trans ?_
    rw [State.strand_commitHeld]
  · next h =>
    have closed : (s.strand c n).phase = none := by simpa using h
    rw [← closed]

theorem State.strand_leaveCore (s : State) (c n : Nat) : (s.leaveCore c n).strand c n = { s.strand c n with mode := .blocked } := by
  rw [State.strand, State.leaveCore, State.core_modCore]
  exact Core.strand_setStrand ..

/-- ENDK closes the phase: with an error bit set what it holds is discarded, else committed. -/
def State.closePhase (s : State) (c n : Nat) : State :=
  if (s.strand c n).ctl.poison || (s.strand c n).ctl.mm then s.dropPhase c n else s.commitPhase c n

theorem State.strand_closePhase (s : State) (c n : Nat) : (s.closePhase c n).strand c n = { s.strand c n with phase := none } := by
  rw [State.closePhase]
  split
  · exact s.strand_dropPhase c n
  · exact s.strand_commitPhase c n

theorem State.issue_closePhase (s : State) (c n : Nat) : (s.closePhase c n).issue = s.issue := by
  rw [State.closePhase, State.commitPhase]
  split_ifs <;> rfl

/-- The state in which ENDK leaves a strand that is not condemned. -/
def State.endIssue (s : State) (c n : Nat) : State :=
  let s := (s.closePhase c n).modStrand c n fun t => { t with ending := true, nest := none }
  if (s.strand c n).storingAny then s else s.leaveCore c n

theorem State.strand_endIssue (s : State) (c n : Nat) :
    ∃ m, (s.endIssue c n).strand c n = { s.strand c n with phase := none, ending := true, nest := none, mode := m } := by
  rw [State.endIssue]
  split
  · exact ⟨(s.strand c n).mode, by rw [State.strand_modStrand, State.strand_closePhase]⟩
  · exact ⟨.blocked, by rw [State.strand_leaveCore, State.strand_modStrand, State.strand_closePhase]⟩

theorem State.issue_endIssue (s : State) (c n : Nat) : (s.endIssue c n).issue = s.issue := by
  rw [State.endIssue]
  split <;> exact s.issue_closePhase c n

theorem execEndk_goes {s : State} {own : Prop} (h : Goes .endk s own) (alive : s.me.condemned = none) :
    execEndk s = .next (s.endIssue s.issue.core s.issue.strand) :=
  (issuePlain_goes h).trans (congrArg Host.Outcome.next (if_neg (c := s.me.condemned.isSome = true) (by rw [alive]; decide)))

/-! ## A forced pre-emption stops the strands of a team, and changes no other part of them (R384) -/

/-- A core at the bundle boundary at which a forced pre-emption stops it. -/
def Core.preempt (k : Core) : Core :=
  match k.running with
  | some n => (k.leave n .ready).stopRows
  | none => k.stopRows

theorem Core.preempt_strand (k : Core) (n : Nat) : ∃ m, k.preempt.strand n = { k.strand n with mode := m } := by
  rw [Core.preempt]
  cases k.running with
  | none => exact ⟨_, rfl⟩
  | some r =>
    by_cases hr : n = r
    · exact ⟨.ready, by rw [hr]; exact Core.leave_strand ..⟩
    · exact ⟨(k.strand n).mode, Core.leave_strand_ne _ _ hr⟩

theorem State.foldl_preempt_strand (cs : List Nat) (s : State) (c n : Nat) :
    ∃ m, (cs.foldl (fun s c => s.modCore c Core.preempt) s).strand c n = { s.strand c n with mode := m } := by
  induction cs generalizing s with
  | nil => exact ⟨_, rfl⟩
  | cons e cs ih =>
    obtain ⟨m, rest⟩ := ih (s.modCore e Core.preempt)
    have first : ∃ m, (s.modCore e Core.preempt).strand c n = { s.strand c n with mode := m } := by
      by_cases he : c = e
      · subst he
        rw [State.strand, State.core_modCore]
        exact (s.core c).preempt_strand n
      · exact ⟨_, by rw [State.strand, State.core_modCore_ne _ _ he]; rfl⟩
    obtain ⟨m', first⟩ := first
    exact ⟨m, by rw [List.foldl_cons, rest, first]⟩

theorem State.strand_force (s : State) (d t c n : Nat) : ∃ m, (s.force d t).strand c n = { s.strand c n with mode := m } := by
  obtain ⟨m, stopped⟩ := State.foldl_preempt_strand (s.coresOf (s.team d t).part d) s c n
  exact ⟨m, (State.strand_modTeam ..).trans stopped⟩

theorem State.issue_force (s : State) (d t : Nat) : (s.force d t).issue = s.issue :=
  foldl_keeps (step := fun s c => s.modCore c Core.preempt) State.issue (fun _ _ => rfl) (s.coresOf (s.team d t).part d) s

/-- What YIELD makes of the team: the slice ends, or a forced pre-emption begins, or nothing. -/
def State.yieldTeam (s : State) : State :=
  if s.myTeam.st = 4 ∧ s.candidates s.myDie s.myTeam.part ≠ [] then
    if s.anyOverdue s.myDie s.myTeamIndex then s.force s.myDie s.myTeamIndex
    else s.modMyTeam fun m => { m with st := 5, graceStart := (s.die s.myDie).now }
  else s

theorem State.me_yieldTeam (s : State) : ∃ m, s.yieldTeam.me = { s.me with mode := m } := by
  rw [State.yieldTeam]
  split_ifs
  · rw [State.me, State.issue_force]
    exact s.strand_force ..
  · exact ⟨_, State.strand_modTeam ..⟩
  · exact ⟨_, rfl⟩

/-! ## CHKERR (R352) -/

theorem chkerr_clean {s : State} {d : BitVec 6} {t k : Bool} (poison : s.me.ctl.poison = false) (mm : s.me.ctl.mm = false) :
    Claims.Completes (.chkerr d t k) s (s.result 2 (.x d 0)) := by
  intro h
  have clean : s.me.ctl.errorBits = false := by rw [Ctl.errorBits, poison, mm]; rfl
  rw [exec_chkerr, execChkerr]
  refine (issueWith_goes h fun _ => ⟨rfl, rfl, ?_⟩).trans ?_ <;> simp [clean]

theorem chkerr_outsidePhase {s : State} {d : BitVec 6} {t k : Bool} (error : (s.me.ctl.poison || s.me.ctl.mm) = true)
    (outside : s.me.phase = none) :
    Claims.Completes (.chkerr d t k) s
      (let u := s.result 2 (.x d ((if s.me.ctl.poison then 1 else 0) + (if s.me.ctl.mm then 2 else 0)))
       if k then u.modMe fun x => { x with ctl := { x.ctl with poison := false, mm := false } } else u) (t = false) := by
  intro h
  have error : s.me.ctl.errorBits = true := error
  rw [exec_chkerr, execChkerr]
  refine (issueWith_goes h fun quiet => ⟨rfl, rfl, ?_⟩).trans ?_ <;> simp [error, outside]
  exact quiet

/-- Settles O16: each of the five at its one effect. -/
theorem checksAndEnds : Obligations.ChecksAndEnds := by
  refine fun s a b d c t k y => ⟨rfl, fun h => ?_, chkerr_clean, chkerr_outsidePhase, fun alive => ?_, ?_⟩
  · rw [exec_cmpt, execCmpt]
    exact issueWith_goes h fun holds => ⟨rfl, rfl, if_pos holds⟩
  · obtain ⟨m, strand⟩ := s.strand_endIssue s.issue.core s.issue.strand
    refine ⟨_, fun h => execEndk_goes h alive, ?_⟩
    rw [State.me, State.issue_endIssue, strand]
    exact ⟨rfl, rfl, rfl, rfl, rfl⟩
  · let v := s.modMe fun t => { t with yieldNext := true, ctl := { t.ctl with ydist := 0, overdue := false } }
    obtain ⟨m, me⟩ := v.me_yieldTeam
    refine ⟨v.yieldTeam, fun h => by rw [exec_yield, execYield, issuePlain_goes h]; rfl, ?_⟩
    rw [me, State.me_modMe]
    exact ⟨rfl, rfl, rfl, rfl, rfl, rfl⟩

end Sys2Proof.Machine
end

section
/-!
PROOF. What the end of commands, leases, runs and held stores leaves of every team's entry (R251, R258, R307, R336, R388).
-/

set_option Elab.async false
namespace Sys2Proof.Machine

/-! ## The lasting part of an entry -/

/-- A team without what the end of its work changes: its tokens, tiles, saved strands, leases and launches. -/
def Team.lasting (m : Team) : Team :=
  { m with tokens := [], tiles := [], saved := [], spilled := false, leases := [], leaseDeficit := 0, launches := [] }

/-- The lasting part of every team's entry. -/
def State.lasting (s : State) (d t : Nat) : Team := (s.team d t).lasting

theorem State.lasting_st (s : State) (d t : Nat) : (s.lasting d t).st = (s.team d t).st := rfl

theorem State.lasting_of_dies {s u : State} (h : u.dies = s.dies) : u.lasting = s.lasting := by
  funext d t
  rw [State.lasting, State.lasting, State.team, State.team, State.die, State.die, h]

theorem State.team_modDie {s : State} {d : Nat} {f : Die → Die} (h : (f (s.die d)).teams = (s.die d).teams) :
    (s.modDie d f).team = s.team := by
  funext e t
  rw [State.team, State.team, Die.team, Die.team]
  by_cases he : e = d
  · subst he
    rw [State.die_modDie, h]
  · rw [State.die_modDie_ne _ _ he]

theorem State.lasting_of_team {s u : State} (h : u.team = s.team) : u.lasting = s.lasting := by
  funext d t
  rw [State.lasting, State.lasting, h]

theorem State.team_modTeam_ne (s : State) (f : Team → Team) {d t e u : Nat} (h : e ≠ d ∨ u ≠ t) :
    (s.modTeam d t f).team e u = s.team e u := by
  rw [State.team, State.team, State.modTeam]
  by_cases he : e = d
  · subst he
    rw [State.die_modDie]
    exact look_ins_ne _ _ _ (by tauto)
  · rw [State.die_modDie_ne _ _ he]

theorem State.lasting_modTeam (s : State) (d t : Nat) {f : Team → Team} (h : ∀ m, (f m).lasting = m.lasting) :
    (s.modTeam d t f).lasting = s.lasting := by
  funext e u
  rw [State.lasting, State.lasting]
  by_cases same : e = d ∧ u = t
  · obtain ⟨rfl, rfl⟩ := same
    rw [State.team_modTeam, h]
  · rw [s.team_modTeam_ne f (by tauto)]

theorem State.lasting_foldl {α : Type} {step : State → α → State} (h : ∀ s a, (step s a).lasting = s.lasting) (l : List α) (s : State) :
    (l.foldl step s).lasting = s.lasting :=
  foldl_keeps State.lasting h l s

theorem State.lasting_ite {p : Prop} [Decidable p] {s a b : State} (ha : a.lasting = s.lasting) (hb : b.lasting = s.lasting) :
    (if p then a else b).lasting = s.lasting := by
  split
  · exact ha
  · exact hb

/-! ## Commands and leases (R251, R258, R331) -/

theorem State.lasting_setToken (s : State) (d t k : Nat) (v : Token) : (s.setToken d t k v).lasting = s.lasting :=
  s.lasting_modTeam d t (by intro; rfl)

theorem State.lasting_recordTo (s : State) (d t : Nat) (w : StrandName) (rs : List StatRecord) (p : Bool) :
    (s.recordTo d t w rs p).lasting = s.lasting := by
  rw [State.recordTo]
  split
  · split
    · exact State.lasting_of_dies rfl
    · rfl
  · exact s.lasting_modTeam d t (by intro; rfl)

theorem State.lasting_finishCmd (s : State) (id : Nat) (st : TokenState) : (s.finishCmd id st).lasting = s.lasting := by
  rw [State.finishCmd]
  split
  · rfl
  · exact (State.lasting_setToken ..).trans ((State.lasting_of_dies rfl).trans (State.lasting_recordTo ..))

theorem State.lasting_dropCmds (s : State) (d t : Nat) : (s.dropCmds d t).lasting = s.lasting := by
  refine State.lasting_foldl (fun s m => ?_) _ s
  refine Eq.trans (State.lasting_of_dies (s := (s.modCmd m.id _).finishCmd m.id .cancelled) rfl) ?_
  exact (State.lasting_finishCmd ..).trans (State.lasting_of_dies rfl)

theorem State.lasting_returnLease (s : State) (d t l : Nat) : (s.returnLease d t l).lasting = s.lasting := by
  rw [State.returnLease]
  split
  · rfl
  · exact (State.lasting_modTeam _ d t (by intro; rfl)).trans (State.lasting_of_team (State.team_modDie (by rfl)))

theorem State.lasting_suspendLeases (s : State) (d t : Nat) : (s.suspendLeases d t).lasting = s.lasting :=
  State.lasting_foldl (fun s l => by
    split
    · rfl
    · exact (State.lasting_modTeam _ d t (by intro; rfl)).trans (s.lasting_returnLease d t l.1)) _ s

/-- The launches of a team end with the error token (R24, R388). -/
def Team.failLaunches (m : Team) : Team :=
  m.launches.foldl (fun m l => m.setToken l.ctok (plainToken .error)) { m with launches := [] }

theorem Team.lasting_failLaunches (m : Team) : m.failLaunches.lasting = m.lasting :=
  foldl_keeps Team.lasting (step := fun (m : Team) (l : Launch) => m.setToken l.ctok (plainToken .error)) (fun _ _ => rfl) _ _

/-! ## Held stores, cores and the places of a team (R139, R388) -/

theorem State.team_dropHeld (s : State) (d t : Nat) : (s.dropHeld d t).team = s.team := by
  let keep := fun k : Die => { k with staging := k.staging.filter fun l => !(l.d == d && l.t == t) || l.holders.all Holder.isDone }
  let v : State := { s with dies := s.dies.map fun e => (e.1, keep e.2) }
  have held : v.team = s.team := funext fun e => by
    have die : v.die e = keep (s.die e) := look_map (f := keep) rfl s.dies e
    funext u
    rw [State.team, State.team, die]
    rfl
  rw [State.dropHeld]
  dsimp only
  split
  · exact (foldl_keeps (step := fun (s : State) (c : Nat) => s.modCore c fun k => { k with stores := k.stores.filter fun w => w.holders.all Holder.isDone })
      State.team (fun _ _ => rfl) _ v).trans held
  · exact held

theorem State.lasting_clearTeam (s : State) (d t : Nat) : (s.clearTeam d t).lasting = s.lasting := by
  unfold State.clearTeam
  extract_lets p held zeroed stopped freed
  have hheld : held.lasting = s.lasting := State.lasting_of_team (s.team_dropHeld d t)
  have hzeroed : zeroed.lasting = held.lasting := by
    exact State.lasting_ite (State.lasting_foldl (step := fun s c => s.modCore c Core.zeroed) (fun _ _ => State.lasting_of_dies rfl) _ _) rfl
  have hstopped : stopped.lasting = zeroed.lasting := by
    exact State.lasting_ite (State.lasting_of_team (State.team_modDie (by rfl))) rfl
  have hfreed : freed.lasting = stopped.lasting := by
    exact State.lasting_ite (State.lasting_of_team (State.team_modDie (by rfl))) rfl
  exact (State.lasting_modTeam _ d t (by intro; rfl)).trans (hfreed.trans (hstopped.trans (hzeroed.trans hheld)))

/-! ## The runs of peers (R307, R316) -/

theorem State.lasting_sendAbort (s : State) (d t i dst : Nat) : (s.sendAbort d t i dst).lasting = s.lasting := by
  have depart (s : State) (k : BitVec 256) (m : Message) : (s.depart d k m).lasting = s.lasting := by
    rw [State.depart]
    split
    · rfl
    · exact State.lasting_of_team (State.team_modDie (by rfl))
  rw [State.sendAbort]
  split
  · next r sent =>
    rw [State.transmit] at sent
    dsimp only at sent
    split at sent
    · cases sent
    · split at sent
      · cases sent
        exact (State.lasting_of_dies rfl).trans ((depart ..).trans (State.lasting_of_dies rfl))
      · cases sent
  · rfl

theorem State.lasting_failRun (s : State) (d t i status cause : Nat) : (s.failRun d t i status cause).lasting = s.lasting := by
  unfold State.failRun State.endRun
  extract_lets k aborted out st
  split
  · rfl
  · next r _ =>
    extract_lets recorded next ended dropped
    have haborted : aborted.lasting = s.lasting :=
      State.lasting_foldl (step := fun s dst => s.sendAbort d t i dst) (fun s _ => s.lasting_sendAbort d t i _) _ s
    have hrecorded : recorded.lasting = aborted.lasting := by
      unfold recorded
      split
      · split
        · exact State.lasting_recordTo ..
        · rfl
      · rfl
    have hended : ended.lasting = recorded.lasting := State.lasting_modTeam _ d t (by intro; rfl)
    exact (State.lasting_setToken ..).trans ((State.lasting_of_dies rfl).trans (hended.trans (hrecorded.trans haborted)))

theorem State.lasting_peersLost (s : State) (lost u : Nat) : (s.peersLost lost u).lasting = s.lasting := by
  refine State.lasting_foldl (fun r e => ?_) _ s
  split
  · rfl
  · refine State.lasting_foldl (fun r x => ?_) _ r
    split
    · rfl
    · refine State.lasting_foldl (fun r k => ?_) _ r
      exact State.lasting_ite (State.lasting_failRun ..) rfl

theorem State.lasting_rewaitTeam (s : State) (d t : Nat) : (s.rewaitTeam d t).lasting = s.lasting := by
  refine State.lasting_foldl (fun s e => ?_) _ s
  split
  · split
    · rfl
    · rw [State.modNamed]
      split
      · split
        · exact State.lasting_of_dies rfl
        · rfl
      · exact State.lasting_modTeam _ d t (by intro; rfl)
  · rfl

theorem State.lasting_rewaitAll (s : State) : s.rewaitAll.lasting = s.lasting := by
  refine State.lasting_foldl (fun s x => ?_) _ s
  rw [State.rewait]
  split
  · exact State.lasting_rewaitTeam ..
  · rfl

/-! ## The loss of a team (R388) -/

/-- What LOST makes of an entry. -/
def Team.lost (m : Team) (cause : Nat) : Team :=
  { m with st := 9, fcause := cause, stopping := 0, joins := m.joins.map fun q => (q.1, q.2.freed) }

theorem Team.lasting_lost (m : Team) (cause : Nat) : (m.lost cause).lasting = (m.lasting.lost cause).lasting := rfl

/-- A loss sets the one entry, and leaves every other. -/
theorem State.lasting_loseTeam (s : State) (d t cause : Nat) :
    (s.loseTeam d t cause).lasting =
      fun e u => if e = d ∧ u = t then ((s.lasting e u).lost cause).lasting else s.lasting e u := by
  unfold State.loseTeam
  extract_lets ended failed cleared lost posted
  have hended : ended.lasting = s.lasting := (State.lasting_suspendLeases ..).trans (State.lasting_dropCmds ..)
  have hfailed : failed.lasting = ended.lasting := State.lasting_modTeam _ d t Team.lasting_failLaunches
  have hcleared : cleared.lasting = failed.lasting := State.lasting_clearTeam ..
  have hlost : lost = cleared.modTeam d t fun m => m.lost cause := rfl
  have hposted : posted.lasting = lost.lasting := State.lasting_of_dies (State.postEvent_dies ..)
  rw [State.lasting_rewaitAll, State.lasting_peersLost, hposted, ← hended, ← hfailed, ← hcleared]
  funext e u
  by_cases same : e = d ∧ u = t
  · obtain ⟨rfl, rfl⟩ := same
    rw [if_pos ⟨rfl, rfl⟩, State.lasting, State.lasting, hlost, State.team_modTeam]
    exact Team.lasting_lost (cleared.team e u) cause
  · rw [if_neg same, State.lasting, State.lasting, hlost, State.team_modTeam_ne _ _ (by tauto)]

theorem State.loseTeam_st (s : State) (d t cause e u : Nat) :
    ((s.loseTeam d t cause).team e u).st = if e = d ∧ u = t then 9 else (s.team e u).st := by
  rw [← State.lasting_st, State.lasting_loseTeam, ← State.lasting_st]
  by_cases same : e = d ∧ u = t
  · simp only [same, and_self, if_true]
    rfl
  · simp only [same, if_false]

end Sys2Proof.Machine
end

section
/-!
PROOF. Mirror mismatches, errors of the silicon, and bundles that cannot be taken (R32 to R36, R39, R348, R354 to R357, R424).
-/

set_option Elab.async false
namespace Sys2Proof.Machine

/-! ## Mirrors (R39, R354) -/

theorem State.comparing_iff (s : State) (c n : Nat) (slot : BitVec 5) (a : VAddr) :
    s.comparing c n slot a = true ↔
      (s.core c).running = some n ∧ (s.core c).switchLeft = 0 ∧ (s.strand c n).late = false ∧
        ∃ p ∈ (s.strand c n).pend, p.check = some (a, slot) ∧ p.due ≤ (s.strand c n).time := by
  simp only [State.comparing, Bool.and_eq_true, beq_iff_eq, Bool.not_eq_true', List.any_eq_true, decide_eq_true_eq, and_assoc]

theorem BitVec.ofNat_div_four (a : VAddr) : BitVec.ofNat 40 (a.toNat / 4) = a.extractLsb' 2 40 := by
  refine BitVec.eq_of_toNat_eq ?_
  rw [BitVec.toNat_ofNat, BitVec.extractLsb'_toNat, Nat.shiftRight_eq_div_pow]

/-- A strand whose mirror in a slot has computed another result of the bundle at an address (R354). -/
def Strand.mismatched (t : Strand) (slot : BitVec 5) (addr : VAddr) : Strand :=
  { t with
    pend := t.pend.map fun p : Pending => if p.check = some (addr, slot) ∧ p.due ≤ t.time then { p with check := none } else p
    ctl := { t.ctl with
      mirrorPending := true
      mm := true
      mirrorAddr := if !t.ctl.mirrorPending then BitVec.ofNat 40 (addr.toNat / 4) else t.ctl.mirrorAddr
      mirrorSlot := if !t.ctl.mirrorPending then slot else t.ctl.mirrorSlot } }

theorem execMirrorMismatch_eq (c n : Nat) (slot : BitVec 5) (a : VAddr) (s : State) :
    execMirrorMismatch c n slot a s = if s.comparing c n slot a = true then
      .next ((s.modStrand c n fun t => t.mismatched slot a).countVf (s.team (coreDie c) (s.teamAt c)).vf 6) else .next s := by
  rw [execMirrorMismatch]
  cases s.comparing c n slot a <;> rfl

theorem Strand.mismatched_checked (t : Strand) (slot : BitVec 5) (a : VAddr) :
    ∀ p ∈ (t.mismatched slot a).pend, p.due ≤ t.time → p.check ≠ some (a, slot) := by
  intro p hp due
  obtain ⟨q, -, rfl⟩ := List.mem_map.1 hp
  by_cases mine : q.check = some (a, slot) ∧ q.due ≤ t.time
  · rw [if_pos mine]
    nofun
  · rw [if_neg mine] at due ⊢
    exact fun check => mine ⟨check, due⟩

theorem Strand.mismatched_results (t : Strand) (slot : BitVec 5) (a : VAddr) :
    (t.mismatched slot a).pend.map (fun p => (p.write, p.due)) = t.pend.map fun p => (p.write, p.due) := by
  refine List.map_map.trans (List.map_congr_left fun p _ => ?_)
  rw [Function.comp_apply]
  split <;> rfl

theorem State.countVf_counter (s : State) (v i : Nat) : look 0 ((s.countVf v i).vf v).counters i = look 0 (s.vf v).counters i + 1 := by
  rw [State.countVf, State.vf_modVf]
  exact look_put_self ..

theorem mirrorFails_holds : Claims.mirrorFails := by
  intro s c n slot a
  dsimp only
  rw [← s.comparing_iff, exec_mirrorMismatch, execMirrorMismatch_eq]
  refine ⟨fun idle => if_neg idle, fun writes => ⟨_, if_pos writes, ?_⟩⟩
  have strand : ((s.modStrand c n fun t => t.mismatched slot a).countVf (s.team (coreDie c) (s.teamAt c)).vf 6).strand c n =
      (s.strand c n).mismatched slot a := s.strand_modStrand c n fun t => t.mismatched slot a
  rw [strand]
  refine ⟨rfl, rfl, fun clear => ?_, fun pending => ?_, Strand.mismatched_results .., (s.strand c n).mismatched_checked slot a, rfl, rfl,
    State.countVf_counter ..⟩
  · simp [Strand.mismatched, clear, BitVec.ofNat_div_four]
  · simp [Strand.mismatched, pending]

/-! ## An error of HBM (R348, R388) -/

theorem State.foldl_loseTeam_st (l : List (Nat × Nat)) (cause : Nat) (s : State) (d t : Nat) :
    ((l.foldl (fun s x => s.loseTeam x.1 x.2 cause) s).team d t).st = if (d, t) ∈ l then 9 else (s.team d t).st := by
  induction l generalizing s with
  | nil => rfl
  | cons x l ih =>
    rw [List.foldl_cons, ih, State.loseTeam_st]
    by_cases hl : (d, t) ∈ l <;> by_cases hx : (d, t) = x <;> simp_all [Prod.ext_iff]

/-- The teams to whose save an address belongs. -/
def State.savesAt (s : State) (pa : Nat) : List (Nat × Nat) :=
  s.dies.flatMap fun k => (k.2.teams.filter fun t => s.inSave k.1 t.1 pa).map fun t => (k.1, t.1)

theorem State.poisonHbm_eq (s : State) (pa : Nat) :
    s.poisonHbm pa = (s.savesAt pa).foldl (fun s x => s.loseTeam x.1 x.2 0x15) { s with hbmPoison := insertNat (pa / 64 * 64) s.hbmPoison } := rfl

theorem State.savesAt_of_none {s : State} {pa : Nat} (h : ∀ d t, s.inSave d t pa = false) : s.savesAt pa = [] := by
  simp [State.savesAt, h]

/-- A team in whose save an address lies stands in its die's table. -/
theorem State.mem_savesAt {s : State} {d t pa : Nat} (h : s.inSave d t pa = true) : (d, t) ∈ s.savesAt pa := by
  have there : (s.team d t).st ≠ 0 := by
    intro empty
    simp [State.inSave, empty] at h
  have team : (t, s.team d t) ∈ (s.die d).teams := mem_of_look_ne fun e => there (congrArg Team.st e)
  have die : (d, s.die d) ∈ s.dies := mem_of_look_ne fun e => by
    rw [State.die, e] at team
    cases team
  exact List.mem_flatMap.2 ⟨_, die, List.mem_map.2 ⟨_, List.mem_filter.2 ⟨team, h⟩, rfl⟩⟩

/-! ## An error of a stream (R89, R356) -/

theorem strikeAt_getElem? {α : Type} (f : α → α) (l : List α) (i j : Nat) :
    (strikeAt f l i)[j]? = (l[j]?).map fun a => if j = i then f a else a := by
  rw [strikeAt, List.getElem?_map, List.getElem?_zipIdx, Option.map_map, Nat.zero_add]
  rfl

theorem Strand.spoilStream_element {t : Strand} {p : Place} (group : p.group = 0) {j : Nat} {e : Elem}
    (he : (t.stream (p.index / 32 % 8))[j]? = some e) :
    ((t.spoilStream p).stream (p.index / 32 % 8))[j]? = some { e with bad := e.bad || j == p.index % 32 / 2 } := by
  have spoilt : (t.spoilStream p).stream (p.index / 32 % 8) =
      strikeAt (fun e : Elem => { e with bad := true }) (t.stream (p.index / 32 % 8)) (p.index % 32 / 2) := by
    rw [Strand.spoilStream, if_pos group]
    exact look_put_self ..
  rw [spoilt, strikeAt_getElem?, he, Option.map_some]
  by_cases struck : j = p.index % 32 / 2
  · simp [struck]
  · rw [if_neg struck, beq_false_of_ne struck, Bool.or_false]

/-! ## What an error strikes (R348, R356, R357) -/

theorem execEccUncorrectable_scrub (s : State) (p : Place) :
    (placeExists p = false → execEccUncorrectable p s = .next s ∧ ∀ ok, execScrub p ok s = .next s) ∧
    (placeExists p = true →
      execEccUncorrectable p s = .next ((s.countError p (2 * placeGroup p.kind + 1)).strike p) ∧
      execScrub p false s = .next ((s.countError p (2 * placeGroup p.kind + 1)).strike p) ∧
      execScrub p true s = .next ((s.replay p).countError p (2 * placeGroup p.kind))) := by
  simp only [execEccUncorrectable, execScrub]
  cases placeExists p <;> simp

theorem State.replay_keeps (s : State) (p : Place) :
    (s.replay p).hbm = s.hbm ∧ (s.replay p).hbmPoison = s.hbmPoison ∧ ∀ c, ((s.replay p).core c).strands = (s.core c).strands := by
  have stalled (c : Nat) : ((s.draw.2.modCore p.core fun k => { k with stall := k.stall + 1 }).core c).strands = (s.core c).strands := by
    by_cases hc : c = p.core
    · rw [hc, State.core_modCore]; rfl
    · rw [State.core_modCore_ne _ _ hc]; rfl
  rw [State.replay]
  split_ifs
  · exact ⟨rfl, rfl, stalled⟩
  · exact ⟨rfl, rfl, fun _ => rfl⟩
  · exact ⟨rfl, rfl, fun _ => rfl⟩

theorem State.strike_hbmLine {s : State} {p : Place} (kind : p.kind = .hbmLine) : s.strike p = s.poisonHbm p.index := by
  rw [State.strike, kind]

theorem State.strike_shadowLine {s : State} {p : Place} (kind : p.kind = .shadowLine) : s.strike p = s.poisonShadow p := by
  rw [State.strike, kind]

theorem errorsStrike_holds : Claims.errorsStrike := by
  refine ⟨execEccUncorrectable_scrub, fun s p => ⟨fun kind clear => ?_, fun kind d t saved => ?_, fun kind => ⟨fun none => ?_, fun x held => ?_⟩,
    fun kind group j e he => ?_, fun kind => ?_, fun kind => ?_, fun kind => ?_, s.replay_keeps p⟩⟩
  · have struck : s.strike p = { s with hbmPoison := insertNat (p.index / 64 * 64) s.hbmPoison } := by
      rw [State.strike_hbmLine kind, State.poisonHbm_eq, State.savesAt_of_none clear]
      rfl
    exact ⟨struck, by rw [struck]; exact mem_insertNat_self ..⟩
  · rw [State.strike_hbmLine kind, State.poisonHbm_eq, State.foldl_loseTeam_st, if_pos (State.mem_savesAt saved)]
  · rw [State.strike_shadowLine kind, State.poisonShadow, none]
  · rw [State.strike_shadowLine kind, State.poisonShadow, held]
    exact (State.loseTeam_st ..).trans (if_pos ⟨rfl, rfl⟩)
  · rw [State.strike, kind]
    dsimp only
    rw [State.strand_modStrand]
    exact Strand.spoilStream_element group he
  · rw [State.strike, kind]
    dsimp only
    rw [State.core_modCore]
    exact ⟨mem_insertNat_self .., rfl⟩
  · rw [State.strike, kind]
    dsimp only
    rw [State.core_modCore, Core.tri, Core.poisonFile]
    dsimp only
    rw [look_ins_self]
  · rw [State.strike, kind]
    dsimp only
    rw [State.strand_modStrand]
    exact ⟨List.mem_cons_self, rfl⟩

/-- Settles O45: a failed comparison, an error at its place, and the traps of a bundle that cannot be taken. -/
theorem siliconEvents : Obligations.SiliconEvents := by
  refine ⟨mirrorFails_holds, errorsStrike_holds, fun s slot w => ?_, fun s c r a => rfl⟩
  rw [exec_illegalEncoding, execIllegalEncoding]
  exact ⟨_, congrArg _ (State.refuse_fault ..)⟩

end Sys2Proof.Machine
end

section
/-!
PROOF. A step of a core whose running strand presents a bundle of one syllable (R30, R91 to R94).
-/

set_option Elab.async false
namespace Sys2Proof.Machine

/-! ## A header with one slot (R30 to R32) -/

/-- The header of a bundle that holds one slot and no mark. -/
def soloHeader (slot : Nat) : Word32 := BitVec.ofNat 32 (2 ^ (16 + slot))

theorem headerOf_soloHeader : ∀ slot < 16, (headerOf (soloHeader slot)).slots = [slot] ∧ (headerOf (soloHeader slot)).mirrors = [] ∧
    (headerOf (soloHeader slot)).k = false := by decide

theorem soloHeader_fields : ∀ slot < 16, (field (soloHeader slot).toNat 13 3 = 0 ∧ field (soloHeader slot).toNat 0 6 = 0) ∧
    ((headerOf (soloHeader slot)).has 3 && (List.range 8).any fun k => (headerOf (soloHeader slot)).has (4 + k)) = false := by decide

theorem headerError_soloHeader {slot : Nat} (h : slot < 16) (syl : List (Nat × Word32)) :
    (headerError (soloHeader slot) syl).isSome = false := by
  obtain ⟨⟨high, low⟩, lanes⟩ := soloHeader_fields slot h
  obtain ⟨-, mirrors, -⟩ := headerOf_soloHeader slot h
  rw [← Bool.not_eq_true, headerError_isSome, high, low, lanes, mirrors]
  simp

/-! ## The checks of one syllable (R37, R91) -/

/-- A slot alone meets no other slot. -/
theorem conflicting_singleton (slot : Nat) (ds : List Dest) : conflicting [(slot, ds)] = [] := by
  simp [conflicting]

theorem State.withConflicts_singleton (s : State) (q : SlotCheck) : s.withConflicts [q] = [q] := by
  have apart : conflicting (s.writeSets [q]) = [] := by
    rw [State.writeSets, List.filterMap_cons, List.filterMap_nil]
    split
    · rfl
    · next b _ => exact conflicting_singleton b.1 b.2
  simp [State.withConflicts, apart]

/-- A syllable alone takes effect, whatever it is. -/
theorem State.effectOrder_singleton (s : State) (slot : Nat) (i : Instr) : s.effectOrder [(slot, i)] = [(slot, i)] := by
  unfold State.effectOrder
  extract_lets last rolls
  simp only [List.any_cons, List.any_nil, Bool.or_false, List.filter_cons, List.filter_nil]
  cases rolls (slot, i) <;> cases last (slot, i) <;> rfl

theorem State.checkSlot_ok {s : State} {slot : Nat} {w : Word32} {i : Instr} (decodes : decodeSyllable slot w = .ok i) :
    s.checkSlot [] [] slot w =
      { slot := slot, word := w, instr := some i, verdict := ((s.atSlot slot false []).run i).issue.verdict } := by
  rw [State.checkSlot, decodes]
  cases i <;> rfl

/-! ## The issue of one syllable (R36, R94) -/

/-- The end of the cycle in which a bundle has issued. -/
def State.issueEnd (s : State) (c n : Nat) : State :=
  let u := s.closeIssue c n
  if (u.core c).running == some n then u.advance c n else u

/-- What the presenting strand and its instruction meet: nothing that holds, blocks or traps the bundle. -/
structure Passes (s : State) (slot : Nat) (w : Word32) (i : Instr) : Prop where
  decodes : decodeSyllable slot w = .ok i
  spins : s.me.spin = none
  base : s.me.badStep = none
  passes : (((s.modMe Strand.takeStep).atSlot slot false []).run i).issue.verdict = none

theorem State.commit_solo {s t : State} {c n slot : Nat} {h : Header} {w : Word32} {i : Instr} (slots : h.slots = [slot])
    (mirrors : h.mirrors = [])
    (runs : exec i { s.admitted h with issue := { (s.admitted h).issue with slot := slot, mirrored := false } } = .next t) :
    s.commit c n h [{ slot := slot, word := w, instr := some i, verdict := none }] = t.issueEnd c n := by
  have one : bundleOf h [{ slot := slot, word := w, instr := some i, verdict := none }] = [(slot, i)] := by
    rw [bundleOf, slots]
    rfl
  have effect : (s.admitted h).effect h.mirrors (slot, i) = t := by
    rw [State.effect, mirrors]
    show State.after _ _ = _
    rw [State.after]
    exact runs ▸ rfl
  rw [State.commit, one, State.effectOrder_singleton, List.foldl_cons, List.foldl_nil, effect]
  rfl

/-- The state in which a bundle of some words is checked. -/
def State.withLen (s : State) (len : Nat) : State := { s with issue := { s.issue with len := len } }

/-- The checks of a bundle of one syllable that passes them. -/
theorem Passes.checks {s : State} {slot : Nat} {w : Word32} {i : Instr} (pass : Passes s slot w i) :
    s.withConflicts ((s.modMe Strand.takeStep).checkSlots [] [(slot, w)] []) ++ s.stepCheck =
      [{ slot := slot, word := w, instr := some i, verdict := none }] := by
  have one : (s.modMe Strand.takeStep).checkSlots [] [(slot, w)] [] = [(s.modMe Strand.takeStep).checkSlot [] [] slot w] := rfl
  rw [one, State.checkSlot_ok pass.decodes, pass.passes, State.withConflicts_singleton, State.stepCheck, pass.base]
  rfl

theorem State.issueBundle_solo {s t : State} {c n slot : Nat} {w : Word32} {i : Instr} (hslot : slot < 16)
    (pass : Passes (s.withLen 2) slot w i)
    (runs : let a := ((s.withLen 2).modMe Strand.takeStep).admitted (headerOf (soloHeader slot))
      exec i { a with issue := { a.issue with slot := slot, mirrored := false } } = .next t) :
    s.issueBundle c n (soloHeader slot) [(slot, w)] = t.issueEnd c n := by
  obtain ⟨slots, mirrors, -⟩ := headerOf_soloHeader slot hslot
  have length : (headerOf (soloHeader slot)).length = 2 := by rw [Header.length, slots]; rfl
  unfold State.issueBundle
  extract_lets h src v stepped cs decode blocks holds faults mx v' waits
  have hv : v = s.withLen 2 := by unfold v; rw [length]; rfl
  have hcs : cs = [{ slot := slot, word := w, instr := some i, verdict := none }] := by
    unfold cs stepped h
    rw [mirrors, hv, pass.checks]
  have hmx : mx = false := by unfold mx; rw [hcs]; simp
  have hv' : v' = v := if_neg (by rw [hmx]; decide)
  have hdecode : decode = [] := by unfold decode; rw [hcs]; rfl
  have hblocks : blocks = [] := by unfold blocks; rw [hcs]; rfl
  have hholds : holds = [] := by unfold holds; rw [hcs]; rfl
  have hfaults : faults = [] := by unfold faults; rw [hcs]; rfl
  have quiet : v'.me.spin.isSome = false := by rw [hv', hv, pass.spins]; rfl
  rw [headerError_soloHeader hslot, hdecode, hblocks, hholds, hfaults, quiet, hcs]
  refine State.commit_solo slots mirrors ?_
  unfold stepped
  rw [hv]
  exact runs

/-! ## Presentation -/

theorem State.strand_noteFetch (s : State) (c va d n : Nat) : (s.noteFetch c va).strand d n = s.strand d n := by
  rw [State.noteFetch, State.noteTlb]
  split
  · dsimp only
    by_cases hd : d = c
    · rw [hd, State.strand, State.core_modCore]; rfl
    · rw [State.strand, State.core_modCore_ne _ _ hd]; rfl
  · rfl

theorem State.issue_noteFetch (s : State) (c va : Nat) : (s.noteFetch c va).issue = s.issue := by
  rw [State.noteFetch, State.noteTlb]
  split <;> rfl

/-- The fetches of a bundle of one syllable. -/
def State.fetchedSolo (s : State) (c n : Nat) : State :=
  (s.noteFetch c (s.strand c n).pc.toNat).noteFetch c ((s.strand c n).pc.toNat + 4)

theorem State.strand_fetchedSolo (s : State) (c n : Nat) : (s.fetchedSolo c n).strand c n = s.strand c n := by
  rw [State.fetchedSolo, State.strand_noteFetch, State.strand_noteFetch]

theorem State.issue_fetchedSolo (s : State) (c n : Nat) : (s.fetchedSolo c n).issue = s.issue := by
  rw [State.fetchedSolo, State.issue_noteFetch, State.issue_noteFetch]

/-- A running strand's cycle begins with an issue record of its own. -/
def State.presents (s : State) (c n : Nat) : State :=
  { s with issue := { Issue.reset with core := c, strand := n, addr := (s.strand c n).pc, len := 0 } }

/-- What the presenting state's fetches answer. -/
structure FetchesSolo (p : State) (c n slot : Nat) (w : Word32) : Prop where
  header : p.fetchWord c (p.strand c n).pc.toNat = .ok (soloHeader slot)
  start : p.startBit (coreDie c) (p.vfAt c) (p.strand c n).pc.toNat = true
  word : p.fetchWords c 1 ((p.strand c n).pc.toNat + 4) = .ok [w]

theorem State.present_solo {s : State} {c n slot : Nat} {w : Word32} (hslot : slot < 16) (fetch : FetchesSolo (s.presents c n) c n slot w)
    (running : ((s.presents c n).team (coreDie c) ((s.presents c n).teamAt c)).st = 4) :
    s.present c n = ((s.presents c n).fetchedSolo c n).issueBundle c n (soloHeader slot) [(slot, w)] := by
  obtain ⟨slots, -, k⟩ := headerOf_soloHeader slot hslot
  have length : (headerOf (soloHeader slot)).length = 2 := by rw [Header.length, slots]; rfl
  unfold State.present
  extract_lets x src p va
  have hp : p = s.presents c n := rfl
  have hva : va = ((s.presents c n).strand c n).pc.toNat := rfl
  rw [hp, hva, fetch.header]
  dsimp only
  rw [fetch.start, k, running, length, slots, fetch.word, Bool.and_false]
  rfl

/-! ## The cycle of a core (R93, R94, R191) -/

theorem State.strand_presents (s : State) (c n d m : Nat) : (s.presents c n).strand d m = s.strand d m := rfl

theorem State.die_presents (s : State) (c n d : Nat) : (s.presents c n).die d = s.die d := rfl

theorem State.openCycle_presents {s : State} {c n : Nat} (going : (((s.writeDue c n).presents c n).strand c n).ending = false)
    (due : (((s.writeDue c n).presents c n).strand c n).issueAt ≤ (((s.writeDue c n).presents c n).strand c n).time)
    (cool : (((s.writeDue c n).presents c n).die (coreDie c)).throttling = false) :
    s.openCycle c n = ((s.writeDue c n).present c n).endCycle c true := by
  rw [State.strand_presents] at going due
  rw [State.die_presents] at cool
  rw [State.openCycle]
  simp only [going, Nat.not_lt.2 due, State.withholds, cool, Bool.false_eq_true, Bool.false_and, if_false]

theorem State.issueCycle_opens {s : State} {c n : Nat} (running : ((s.wakeStrands c).core c).running = some n)
    (settled : ((s.wakeStrands c).core c).switchLeft = 0) (prompt : ((s.wakeStrands c).strand c n).late = false)
    (free : ((s.wakeStrands c).core c).stall = 0) :
    s.issueCycle c = ((s.wakeStrands c).openCycle c n).departs c := by
  rw [State.issueCycle, running]
  simp only [settled, prompt, free, Nat.lt_irrefl, decide_false, Bool.or_self, Bool.false_eq_true, if_false]

theorem State.coreTurn_issues {s : State} {c team : Nat} (on : ((s.catchUp c).settleCore c).teamOn c = some team)
    (running : (((s.catchUp c).settleCore c).team (coreDie c) team).st = 4) :
    s.coreTurn c = ((s.catchUp c).settleCore c).issueCycle c := by
  rw [State.coreTurn, on]
  simp only [running]
  rfl

theorem step_core {s : State} {c : Nat} {rest : List Turn} (head : s.agenda = .core c :: rest) (hc : c < 1024) :
    step s = .next (({ s with agenda := rest } : State).coreTurn c) := by
  rw [step, State.move, head]
  exact if_pos hc

theorem presenting_eq (s : State) (c n : Nat) : Sys2Proof.Claims.presenting s c n = (s.writeDue c n).presents c n := rfl

/-- Settles O9: the step, the core's turn, the cycle, the presentation and the issue, each in the one case that the hypotheses leave. -/
theorem stepRunsTheDecodedInstruction : Obligations.StepRunsTheDecodedInstruction := by
  intro s t c n slot team rest i w h head hc on running hrunning settled prompt free p hp going due cool live spins base hslot hh
    header start word decodes q hq q' hq' passes a ha runs
  have fetched : q = p.fetchedSolo c n := hq
  have length : q' = (q.withLen 2).modMe Strand.takeStep := hq'
  have solo : h = soloHeader slot := hh
  have presented : p = ((Claims.cycleStart s rest c).writeDue c n).presents c n := hp.trans (presenting_eq ..)
  have issuer : p.issue.core = c ∧ p.issue.strand = n := by rw [presented]; exact ⟨rfl, rfl⟩
  have me : (q.withLen 2).me = p.strand c n := by
    have cursor : (q.withLen 2).me = q.strand q.issue.core q.issue.strand := rfl
    rw [cursor, fetched, State.issue_fetchedSolo, issuer.1, issuer.2, State.strand_fetchedSolo]
  rw [length] at passes ha
  rw [ha, solo] at runs
  have pass : Passes (q.withLen 2) slot w i := ⟨decodes, by rw [me]; exact spins, by rw [me]; exact base, passes⟩
  have issues := State.issueBundle_solo (c := c) (n := n) hslot pass runs
  rw [solo] at header
  have presents : ((Claims.cycleStart s rest c).writeDue c n).present c n = (p.fetchedSolo c n).issueBundle c n (soloHeader slot) [(slot, w)] := by
    rw [presented] at header start word live ⊢
    exact State.present_solo hslot ⟨header, start, word⟩ live
  have opens : (Claims.cycleStart s rest c).openCycle c n = (t.issueEnd c n).endCycle c true := by
    rw [presented] at going due cool
    rw [State.openCycle_presents going due cool, presents, ← fetched, issues]
  rw [step_core head hc, State.coreTurn_issues on running, State.issueCycle_opens hrunning settled prompt free]
  exact congrArg (fun u => Host.Outcome.next (State.departs u c)) opens

end Sys2Proof.Machine
end

section
/-!
PROOF. Commands over teams: what turns them away (R396, R397), TEAM_CREATE and TEAM_SET (R365, R397, R399).
-/

set_option Elab.async false
namespace Sys2Proof.Machine

/-! ## The frame (R396, R398) -/

section Frame
variable {i : Instr} {s u : State} {m : HostCmd} {code n : Nat} {ok : Bool} {run : State → Answer × State}

theorem command_pending (pending : (s.pfSlot m.slot.toNat).status = 0) : command code n m ok s run = .next (s.countDrop dropCommand) :=
  if_pos pending

theorem command_bad (free : (s.pfSlot m.slot.toNat).status ≠ 0) (bad : commandForm n m = false ∨ ok = false) :
    command code n m ok s run = .next ((Claims.begun s code m).answerSlot m.slot.toNat (2, [])) := by
  have turned : (!commandForm n m || !ok) = true := by obtain h | h := bad <;> simp [h]
  exact (if_neg free).trans (if_pos turned)

/-- A command that ends with result words, and has left the slots alone. -/
theorem endsWith_of_answer {after : State → Prop} {words : List Word} (exec_eq : exec i s = command code n m ok s run)
    (taken : Claims.taken s m n) (legal : ok = true) (ends : run (Claims.begun s code m) = (some (stOk, words), u))
    (slots : u.pfSlots = (Claims.begun s code m).pfSlots) (holds : after (u.answerSlot m.slot.toNat (stOk, words))) :
    Claims.endsWith i s m 1 after := by
  have slot : (u.answerSlot m.slot.toNat (stOk, words)).pfSlot m.slot.toNat =
      { u.pfSlot m.slot.toNat with status := 1, a := words, cmd := none, load := none } := look_ins_self ..
  have mine : (u.pfSlot m.slot.toNat).tag = m.tag := by
    rw [State.pfSlot, slots]
    exact congrArg CmdSlot.tag (look_ins_self ..)
  exact ⟨_, exec_eq.trans (command_runs taken legal ends), by rw [slot], by rw [slot]; exact mine, holds⟩

/-- A state in which a command runs in the background. -/
def State.startsCommand (u : State) (code : Nat) (m : HostCmd) : State :=
  { u.modSlot m.slot.toNat fun k => { k with cmd := some (code, m), order := u.nextId } with nextId := u.nextId + 1 }

theorem State.startsCommand_slot (u : State) (code : Nat) (m : HostCmd) :
    (u.startsCommand code m).pfSlot m.slot.toNat = { u.pfSlot m.slot.toNat with cmd := some (code, m), order := u.nextId } :=
  look_ins_self ..

/-- A command that goes on in the background, and has left the slots alone. -/
theorem endsWith_of_start {after : State → Prop} (exec_eq : exec i s = command code n m ok s run) (taken : Claims.taken s m n)
    (legal : ok = true) (starts : run (Claims.begun s code m) = (none, u)) (slots : u.pfSlots = (Claims.begun s code m).pfSlots)
    (holds : after (u.startsCommand code m)) : Claims.endsWith i s m 0 after := by
  obtain ⟨free, form⟩ := taken
  have formed : ¬ (!commandForm n m || !ok) = true := by simp [form, legal]
  have ran : command code n m ok s run = .next (u.startsCommand code m) := by
    refine (if_neg free).trans ((if_neg formed).trans ?_)
    show (match run (Claims.begun s code m) with
      | (some a, s) => Host.Outcome.next (s.answerSlot m.slot.toNat a)
      | (none, s) => .next (s.startsCommand code m)) = _
    rw [starts]
  have mine : u.pfSlot m.slot.toNat = (Claims.begun s code m).pfSlot m.slot.toNat := by rw [State.pfSlot, slots]; rfl
  have slot : ((Claims.begun s code m).pfSlot m.slot.toNat).status = 0 ∧ ((Claims.begun s code m).pfSlot m.slot.toNat).tag = m.tag :=
    ⟨congrArg CmdSlot.status (look_ins_self ..), congrArg CmdSlot.tag (look_ins_self ..)⟩
  exact ⟨_, exec_eq.trans ran, by rw [State.startsCommand_slot, mine]; exact slot.1, by rw [State.startsCommand_slot, mine]; exact slot.2, holds⟩

end Frame

/-- A command of a VF that is bound to a partition starts in the background. -/
def State.runBound (s : State) (m : HostCmd) : Answer × State := if (s.vf m.vf.toNat).part.isNone then done stNotFound s else (none, s)

/-- Each of the commands over teams, images and keys stands in the frame. -/
theorem exec_teamCommand {i : Instr} {code n : Nat} {m : HostCmd} {ok : Bool} (h : Claims.teamCommand i = some (code, n, m, ok)) :
    ∃ run, ∀ s, exec i s = command code n m ok s run := by
  cases i <;> cases h
  case teamCreate.refl => exact ⟨_, exec_teamCreate _⟩
  case teamSet.refl => exact ⟨_, exec_teamSet _⟩
  case teamStop.refl => exact ⟨_, exec_teamStop _⟩
  case teamResume.refl => exact ⟨_, exec_teamResume _⟩
  case teamRestart.refl => exact ⟨_, exec_teamRestart _⟩
  case teamDestroy.refl => exact ⟨_, exec_teamDestroy _⟩
  case imageLoad.refl => exact ⟨_, exec_imageLoad _⟩
  case attest.refl => exact ⟨fun s => s.runBound m, exec_attest m⟩
  case keySession.refl => exact ⟨fun s => s.runBound m, exec_keySession m⟩
  case keyInstall.refl => exact ⟨_, exec_keyInstall _⟩
  case teamExport.refl => exact ⟨_, exec_teamExport _⟩
  case teamImport.refl => exact ⟨_, exec_teamImport _⟩

theorem turnedAway_holds : Claims.turnedAway := by
  intro s i code n m ok h
  obtain ⟨run, frame⟩ := exec_teamCommand h
  exact ⟨fun pending => (frame s).trans (command_pending pending), fun free bad => (frame s).trans (command_bad free bad)⟩

/-! ## Pages that change owner (R133, R401) -/

theorem State.giveOwner_owner (s : State) (pa count : Nat) (e : BitVec 16) (k : Nat) :
    look 0 (s.giveOwner pa count e).owner k = if pa / 65536 ≤ k ∧ k < pa / 65536 + count then e else look 0 s.owner k :=
  look_foldl_put 0 _ _ (fun _ => e) s.owner k

theorem State.giveOwner_readByte (s : State) (pa count : Nat) (e : BitVec 16) (a : Nat) :
    readByte (s.giveOwner pa count e).hbm a = if pa ≤ a ∧ a < pa + 65536 * count then 0 else readByte s.hbm a :=
  readByte_zeroRange s.hbm ..

theorem State.team_giveOwner (s : State) (pa count : Nat) (e : BitVec 16) : (s.giveOwner pa count e).team = s.team := by
  funext d t
  have die : (s.giveOwner pa count e).die d = ((s.zeroHbm pa (65536 * count)).dropTlb fun x =>
    pa / 65536 ≤ x.pa && x.pa < pa / 65536 + count).die d := rfl
  rw [State.team, die, State.dropTlb_die]
  rfl

/-- Two areas given to one owner: each of their pages is its own, and reads zero. -/
theorem State.giveOwner_pages (s : State) {pa pa' : Nat} (count count' : Nat) (e : BitVec 16) (aligned : pa % 65536 = 0)
    (aligned' : pa' % 65536 = 0) {k : Nat}
    (held : (pa / 65536 ≤ k ∧ k < pa / 65536 + count) ∨ (pa' / 65536 ≤ k ∧ k < pa' / 65536 + count')) :
    look 0 ((s.giveOwner pa count e).giveOwner pa' count' e).owner k = e ∧
      ∀ a, 65536 * k ≤ a → a < 65536 * k + 65536 → readByte ((s.giveOwner pa count e).giveOwner pa' count' e).hbm a = 0 := by
  refine ⟨?_, fun a lo hi => ?_⟩
  · rw [State.giveOwner_owner, State.giveOwner_owner]
    obtain h | h := held
    · rw [if_pos h, ite_self]
    · rw [if_pos h]
  · rw [State.giveOwner_readByte, State.giveOwner_readByte]
    obtain h | h := held
    · rw [if_pos (c := pa ≤ a ∧ a < pa + 65536 * count) (by omega), ite_self]
    · rw [if_pos (by omega)]

/-! ## TEAM_CREATE (R365, R397, R399) -/

section Create
variable {s : State} {m : HostCmd}

theorem createOk_aligned (legal : createOk m = true) : areaBase m.p5 % 65536 = 0 ∧ areaBase m.p6 % 65536 = 0 := by
  simp only [createOk, Bool.and_eq_true, beq_iff_eq] at legal
  exact ⟨legal.1.2, legal.2⟩

/-- The state that TEAM_CREATE leaves where it makes a team. -/
def State.createTeam (s : State) (m : HostCmd) (t p cl : Nat) : State :=
  ((s.giveOwner (areaBase m.p5) (areaPages m.p5) 0x80).giveOwner (areaBase m.p6) (areaPages m.p6) 0x80).modTeam m.die.toNat t fun _ =>
    newTeam m p cl

/-- What TEAM_CREATE refuses. -/
def State.createRefused (s : State) (m : HostCmd) (p : Nat) : Bool :=
  !s.startBit m.die.toNat m.vf.toNat m.p2.toNat || (s.teamOf m.vf.toNat m.die.toNat).isSome || s.areaRefused p m.p5 m.p6 ||
    s.areaRefused p m.p6 m.p5 || field m.p1.toNat 40 8 == 0

theorem State.createRefused_iff (s : State) (m : HostCmd) (p : Nat) : s.createRefused m p = true ↔
    s.startBit m.die.toNat m.vf.toNat m.p2.toNat = false ∨ (s.teamOf m.vf.toNat m.die.toNat).isSome = true ∨
      s.areaRefused p m.p5 m.p6 = true ∨ s.areaRefused p m.p6 m.p5 = true ∨ m.p1.toNat / 2 ^ 40 % 256 = 0 := by
  simp only [State.createRefused, Bool.or_eq_true, Bool.not_eq_true', beq_iff_eq, or_assoc]
  rfl

/-- The areas are too small. -/
def createSmall (m : HostCmd) (clusters : Nat) : Bool :=
  decide (65536 * areaPages m.p5 < landingNeed (m.p1.toNat % 16)) || decide (65536 * areaPages m.p6 < saveNeed clusters)

/-- TEAM_CREATE, once its partition is found. -/
def State.runCreate (s : State) (m : HostCmd) (p : Nat) : Answer × State :=
  match (s.clustersOn p m.die.toNat).head?, (List.range 128).find? fun t => (s.team m.die.toNat t).st == 0 with
  | none, _ => done stRefused s
  | some cl, free =>
    if s.createRefused m p then done stRefused s
    else match free with
      | none => done stNoResource s
      | some t =>
        if createSmall m (s.clustersOn p m.die.toNat).length then done stNoResource s
        else (some (stOk, [BitVec.ofNat 64 t, zext64 (newTeam m p cl).lbase, zext64 (newTeam m p cl).sbase]), s.createTeam m t p cl)

/-- TEAM_CREATE, its partition looked up. -/
def State.runTeamCreate (s : State) (m : HostCmd) : Answer × State :=
  match (s.vf m.vf.toNat).part with
  | none => done stNotFound s
  | some p => s.runCreate m p

theorem exec_teamCreate_command (m : HostCmd) (s : State) :
    exec (.teamCreate m) s = command 0x05 7 m (createOk m) s fun s => s.runTeamCreate m := rfl

theorem begun_createRefused (s : State) (code : Nat) (m : HostCmd) (p : Nat) :
    (Claims.begun s code m).createRefused m p = s.createRefused m p := rfl

theorem begun_team (s : State) (code : Nat) (m : HostCmd) (d t : Nat) : (Claims.begun s code m).team d t = s.team d t := rfl

section Runs
variable {p cl : Nat} (bound : (s.vf m.vf.toNat).part = some p)
include bound

theorem State.runTeamCreate_noCluster (none : (s.clustersOn p m.die.toNat).head? = none) : s.runTeamCreate m = done stRefused s := by
  rw [State.runTeamCreate, bound]
  dsimp only
  rw [State.runCreate, none]

theorem State.runTeamCreate_cluster (first : (s.clustersOn p m.die.toNat).head? = some cl) :
    s.runTeamCreate m = if s.createRefused m p then done stRefused s
      else match (List.range 128).find? fun t => (s.team m.die.toNat t).st == 0 with
        | none => done stNoResource s
        | some t =>
          if createSmall m (s.clustersOn p m.die.toNat).length then done stNoResource s
          else (some (stOk, [BitVec.ofNat 64 t, zext64 (newTeam m p cl).lbase, zext64 (newTeam m p cl).sbase]), s.createTeam m t p cl) := by
  rw [State.runTeamCreate, bound]
  dsimp only
  rw [State.runCreate, first]

end Runs

theorem createSmall_iff (m : HostCmd) (clusters : Nat) : createSmall m clusters = true ↔
    65536 * (m.p5.toNat / 2 ^ 42) < 4160 * 2 ^ (m.p1.toNat % 16) ∨ 65536 * (m.p6.toNat / 2 ^ 42) < 4509952 * (8 * clusters) + 1048576 := by
  rw [createSmall, Bool.or_eq_true, decide_eq_true_iff, decide_eq_true_iff, landingNeed, Nat.mul_comm (2 ^ _)]
  rfl

theorem State.createTeam_team (s : State) (m : HostCmd) (t p cl : Nat) : (s.createTeam m t p cl).team m.die.toNat t = newTeam m p cl :=
  State.team_modTeam ..

/-- Every page of the areas is the team's, and zeroed. -/
theorem State.createTeam_pages (s : State) {m : HostCmd} (legal : createOk m = true) (t p cl k : Nat)
    (held : areaHolds m.p5 k = true ∨ areaHolds m.p6 k = true) :
    look 0 (s.createTeam m t p cl).owner k = 0x80 ∧
      ∀ a, 65536 * k ≤ a → a < 65536 * k + 65536 → readByte (s.createTeam m t p cl).hbm a = 0 := by
  obtain ⟨landing, save⟩ := createOk_aligned legal
  simp only [areaHolds, Bool.and_eq_true, decide_eq_true_eq] at held
  exact s.giveOwner_pages _ _ _ landing save held

theorem teamCreate_cases (taken : Claims.taken s m 7) (legal : createOk m = true) {p cl : Nat} (bound : (s.vf m.vf.toNat).part = some p)
    (first : (s.clustersOn p m.die.toNat).head? = some cl) :
    (s.createRefused m p = true → Claims.answersOnly (.teamCreate m) s 5 m 3) ∧
    (s.createRefused m p = false →
      ((∀ t, t < 128 → (s.team m.die.toNat t).st ≠ 0) → Claims.answersOnly (.teamCreate m) s 5 m 5) ∧
      ∀ t, (List.range 128).find? (fun t => (s.team m.die.toNat t).st == 0) = some t →
        (createSmall m (s.clustersOn p m.die.toNat).length = true → Claims.answersOnly (.teamCreate m) s 5 m 5) ∧
        (createSmall m (s.clustersOn p m.die.toNat).length = false → Claims.endsWith (.teamCreate m) s m 1 fun u =>
          u.team m.die.toNat t = newTeam m p cl ∧
          (u.pfSlot m.slot.toNat).a = [BitVec.ofNat 64 t, zext64 (newTeam m p cl).lbase, zext64 (newTeam m p cl).sbase] ∧
          (∀ k, areaHolds m.p5 k = true ∨ areaHolds m.p6 k = true → look 0 u.owner k = 0x80 ∧
            ∀ a, 65536 * k ≤ a → a < 65536 * k + 65536 → readByte u.hbm a = 0))) := by
  have runs := State.runTeamCreate_cluster (s := Claims.begun s 5 m) (m := m) (p := p) (cl := cl) bound first
  rw [begun_createRefused] at runs
  have answers {status : Nat} (ends : (Claims.begun s 5 m).runTeamCreate m = done status (Claims.begun s 5 m)) :
      Claims.answersOnly (.teamCreate m) s 5 m status := answersOnly_of_run (exec_teamCreate_command m s) taken legal ends
  refine ⟨fun refused => answers (runs.trans (if_pos refused)), fun accepted => ⟨fun full => answers ?_, fun t free => ?_⟩⟩
  · have none : (List.range 128).find? (fun t => (s.team m.die.toNat t).st == 0) = none :=
      List.find?_eq_none.2 fun t ht => by simpa using full t (List.mem_range.1 ht)
    rw [runs, accepted, if_neg Bool.false_ne_true]
    simp only [begun_team, none]
    rfl
  · have runs : (Claims.begun s 5 m).runTeamCreate m = if createSmall m (s.clustersOn p m.die.toNat).length then done stNoResource (Claims.begun s 5 m)
        else (some (stOk, [BitVec.ofNat 64 t, zext64 (newTeam m p cl).lbase, zext64 (newTeam m p cl).sbase]),
          (Claims.begun s 5 m).createTeam m t p cl) := by
      rw [runs, accepted, if_neg Bool.false_ne_true]
      simp only [begun_team, free]
      rfl
    refine ⟨fun small => answers (runs.trans (if_pos small)), fun fits => ?_⟩
    refine endsWith_of_answer (exec_teamCreate_command m s) taken legal (runs.trans (if_neg (by rw [fits]; decide))) rfl ?_
    exact ⟨State.createTeam_team .., congrArg CmdSlot.a (look_ins_self ..), State.createTeam_pages _ legal t p cl⟩

end Create

/-- A conductor's registers are zero but for its argument. -/
theorem conductorStart_reg (entry : VAddr) (arg : Word) (r : BitVec 6) :
    (conductorStart entry arg).reg r = if r = 1 then arg else 0 := by
  have reset (r : BitVec 6) : Strand.reset.reg r = 0 := by
    simp [Strand.reg, Strand.reset]
  have start : (conductorStart entry arg).reg r = (Strand.reset.setReg 1 arg false).reg r := rfl
  rw [start, Strand.reg_setReg, reset]
  exact if_congr (and_iff_left (by decide)) rfl rfl

theorem newTeam_fields (m : HostCmd) (p cl : Nat) : let k := newTeam m p cl
    k.st = 2 ∧ k.vf = m.vf.toNat ∧ k.part = p ∧ k.gang = m.p0.setWidth 24 ∧ k.weight.toNat = m.p1.toNat / 2 ^ 40 % 256 ∧
      k.cls.toNat = m.p1.toNat / 2 ^ 48 % 4 ∧ k.cap = m.p4.toNat / 2 ^ 32 ∧ k.lsize = m.p1.toNat % 16 ∧
      ∃ v, k.saved = [v] ∧ v.lcore = 8 * cl ∧ ∃ x, v.strands = [(3, x)] ∧ x.mode = .ready ∧ x.pc = m.p2.setWidth 42 ∧
        x.ctl.priv = true ∧ ∀ r, x.reg r = if r = 1 then m.p3 else 0 := by
  refine ⟨rfl, rfl, rfl, rfl, ?_, ?_, rfl, rfl, _, rfl, rfl, _, rfl, rfl, rfl, rfl, conductorStart_reg _ _⟩
  · exact (BitVec.toNat_ofNat ..).trans (Nat.mod_mod ..)
  · exact (BitVec.toNat_ofNat ..).trans (Nat.mod_mod ..)

/-! ## TEAM_SET (R365) -/

/-- TEAM_SET, its team looked up. -/
def State.runTeamSet (s : State) (m : HostCmd) (t : Nat) : Answer × State :=
  let k := (s.team m.die.toNat t).setWord m.p0.toNat m.p1 m.p2
  if m.p0 = 0 ∧ m.p1.toNat % 2 ^ 15 ≠ 0 then done stRefused s
  else if k.weight = 0 then done stRefused s
  else if k.lsize < 3 ∨ 12 < k.lsize then done stBadCommand s
  else if 65536 * k.lpages < landingNeed k.lsize then done stNoResource s
  else done stOk (s.modTeam m.die.toNat t fun _ => k)

theorem exec_teamSet_command (m : HostCmd) (s : State) :
    exec (.teamSet m) s = command 0x06 3 m (decide (m.p0.toNat < 5)) s fun s => s.onTeam m fun _ t => s.runTeamSet m t := rfl

theorem State.onTeam_none {s : State} {m : HostCmd} (absent : s.teamOf m.vf.toNat m.die.toNat = none) (f : Nat → Nat → Answer × State) :
    s.onTeam m f = done stNotFound s := by
  rw [State.onTeam, absent]

theorem State.onTeam_some {s : State} {m : HostCmd} {t : Nat} (found : s.teamOf m.vf.toNat m.die.toNat = some t)
    (f : Nat → Nat → Answer × State) : s.onTeam m f = f m.die.toNat t := by
  rw [State.onTeam, found]

theorem teamSet_cases {s : State} {m : HostCmd} (taken : Claims.taken s m 3) (word : m.p0.toNat < 5) :
    let d := m.die.toNat
    (s.teamOf m.vf.toNat d = none → Claims.answersOnly (.teamSet m) s 6 m 6) ∧
    ∀ t, s.teamOf m.vf.toNat d = some t →
      let k := (s.team d t).setWord m.p0.toNat m.p1 m.p2
      let refused := (m.p0 = 0 ∧ m.p1.toNat % 2 ^ 15 ≠ 0) ∨ k.weight = 0
      (refused → Claims.answersOnly (.teamSet m) s 6 m 3) ∧
      (¬ refused → k.lsize < 3 ∨ 12 < k.lsize → Claims.answersOnly (.teamSet m) s 6 m 2) ∧
      (¬ refused → 3 ≤ k.lsize → k.lsize ≤ 12 → 65536 * k.lpages < 4160 * 2 ^ k.lsize → Claims.answersOnly (.teamSet m) s 6 m 5) ∧
      (¬ refused → 3 ≤ k.lsize → k.lsize ≤ 12 → 4160 * 2 ^ k.lsize ≤ 65536 * k.lpages →
        Claims.endsWith (.teamSet m) s m 1 fun u => u.team d t = k) := by
  have frame := exec_teamSet_command m s
  have legal : decide (m.p0.toNat < 5) = true := decide_eq_true word
  dsimp only
  refine ⟨fun absent => answersOnly_of_run frame taken legal (State.onTeam_none (s := Claims.begun s 6 m) absent _), fun t found => ?_⟩
  have looked : (Claims.begun s 6 m).onTeam m (fun _ t => (Claims.begun s 6 m).runTeamSet m t) = (Claims.begun s 6 m).runTeamSet m t :=
    State.onTeam_some (s := Claims.begun s 6 m) found _
  have answers {status : Nat} (ends : (Claims.begun s 6 m).runTeamSet m t = done status (Claims.begun s 6 m)) :
      Claims.answersOnly (.teamSet m) s 6 m status := answersOnly_of_run frame taken legal (looked.trans ends)
  generalize hk : (s.team m.die.toNat t).setWord m.p0.toNat m.p1 m.p2 = k
  have runs : (Claims.begun s 6 m).runTeamSet m t = if m.p0 = 0 ∧ m.p1.toNat % 2 ^ 15 ≠ 0 then done stRefused (Claims.begun s 6 m)
      else if k.weight = 0 then done stRefused (Claims.begun s 6 m)
      else if k.lsize < 3 ∨ 12 < k.lsize then done stBadCommand (Claims.begun s 6 m)
      else if 65536 * k.lpages < landingNeed k.lsize then done stNoResource (Claims.begun s 6 m)
      else done stOk ((Claims.begun s 6 m).modTeam m.die.toNat t fun _ => k) := by
    rw [← hk]
    rfl
  rw [landingNeed, Nat.mul_comm (2 ^ _) 4160] at runs
  refine ⟨fun refused => answers (runs.trans ?_), fun accepted odd => answers (runs.trans ?_),
    fun accepted lo hi small => answers (runs.trans ?_), fun accepted lo hi fits => ?_⟩
  · obtain wide | weightless := refused
    · exact if_pos wide
    · rw [if_pos weightless, ite_self]
      rfl
  · rw [if_neg (not_or.1 accepted).1, if_neg (not_or.1 accepted).2, if_pos odd]
    rfl
  · rw [if_neg (not_or.1 accepted).1, if_neg (not_or.1 accepted).2, if_neg (by omega), if_pos small]
    rfl
  · rw [if_neg (not_or.1 accepted).1, if_neg (not_or.1 accepted).2, if_neg (by omega), if_neg (by omega)] at runs
    exact endsWith_of_run frame taken legal (looked.trans runs) rfl ((Claims.begun s 6 m).team_modTeam m.die.toNat t fun _ => k)

/-! ## The words of an entry (R365) -/

theorem testBit_field {w lo n i : Nat} (h : i < n) : (field w lo n).testBit i = w.testBit (lo + i) := by
  rw [field, Nat.testBit_mod_two_pow, decide_eq_true h, Bool.true_and, Nat.testBit_div_two_pow, Nat.add_comm]

/-- A word of the entry as TEAM_SET writes it. -/
def Team.newWord (k : Team) (word : Nat) (mask value : Word) : Word :=
  let on : Word := mask &&& BitVec.ofNat 64 (settable word)
  (BitVec.ofNat 64 (k.entryWord word) &&& ~~~on) ||| (value &&& on)

/-- A bit that may be written is the value's where the mask has it, else the old one. -/
theorem Team.newWord_bit (k : Team) {word : Nat} (mask value : Word) {j : Nat} (h : j < 64) (may : (settable word).testBit j = true) :
    (k.newWord word mask value).toNat.testBit j = if mask.getLsbD j then value.getLsbD j else (k.entryWord word).testBit j := by
  have bit : (k.newWord word mask value).toNat.testBit j = (k.newWord word mask value).getLsbD j := rfl
  rw [bit, Team.newWord]
  simp only [BitVec.getLsbD_or, BitVec.getLsbD_and, BitVec.getLsbD_not, BitVec.getLsbD_ofNat, h, may, decide_true, Bool.true_and, Bool.and_true]
  cases mask.getLsbD j <;> simp

section SetWord
variable (k : Team) (mask value : Word)

/-- A field of the written word, bit by bit, where the old word holds a field of the entry. -/
theorem Team.newWord_field {word lo n i old : Nat} (hi : i < n) (top : lo + n ≤ 64) (may : (settable word).testBit (lo + i) = true)
    (held : field (k.entryWord word) lo n = old) :
    (field (k.newWord word mask value).toNat lo n).testBit i = if mask.getLsbD (lo + i) then value.getLsbD (lo + i) else old.testBit i := by
  rw [testBit_field hi, k.newWord_bit mask value (by omega) may, ← held, testBit_field hi]

theorem getLsbD_ofNat_field {w lo n i : Nat} (hi : i < n) : (BitVec.ofNat n (field w lo n)).getLsbD i = (field w lo n).testBit i := by
  rw [BitVec.getLsbD_ofNat, decide_eq_true hi, Bool.true_and]

theorem settable_bits : (∀ i < 34, (settable 0).testBit (16 + i) = true) ∧ (∀ i < 32, (settable 1).testBit (32 + i) = true) ∧
    (∀ i < 4, (settable 3).testBit (0 + i) = true) ∧ (∀ i < 26, (settable 3).testBit (22 + i) = true) ∧
    ∀ i < 26, (settable 4).testBit (0 + i) = true := by decide

/-- The fields of the entry that TEAM_SET may write, in its words. -/
theorem Team.entryWord_fields :
    field (k.entryWord 0) 16 24 = k.gang.toNat ∧ field (k.entryWord 0) 40 8 = k.weight.toNat ∧ field (k.entryWord 0) 48 2 = k.cls.toNat ∧
    field (k.entryWord 1) 32 32 = k.cap % 2 ^ 32 ∧ field (k.entryWord 3) 0 4 = k.lsize % 2 ^ 4 ∧
    field (k.entryWord 3) 22 26 = k.lbase.toNat ∧ field (k.entryWord 4) 0 26 = k.sbase.toNat := by
  have gang := k.gang.isLt
  have weight := k.weight.isLt
  have cls := k.cls.isLt
  have deficit : wrap 32 k.deficit < 2 ^ 32 := by unfold wrap; omega
  have lbase := k.lbase.isLt
  have sbase := k.sbase.isLt
  simp only [field, Team.entryWord]
  omega

theorem Team.setWord_one : (k.setWord 1 mask value).cap = field (k.newWord 1 mask value).toNat 32 32 := by
  have top := (k.newWord 1 mask value).isLt
  show (k.newWord 1 mask value).toNat / 2 ^ 32 = _
  rw [field, Nat.mod_eq_of_lt (by omega)]

theorem Team.setWord_three : (k.setWord 3 mask value).lsize = field (k.newWord 3 mask value).toNat 0 4 := by
  show (k.newWord 3 mask value).toNat % 2 ^ 4 = _
  rw [field, Nat.pow_zero, Nat.div_one]

theorem Team.setWord_four : (k.setWord 4 mask value).sbase = BitVec.ofNat 26 (field (k.newWord 4 mask value).toNat 0 26) := by
  show BitVec.ofNat 26 ((k.newWord 4 mask value).toNat % 2 ^ 26) = _
  rw [field, Nat.pow_zero, Nat.div_one]

theorem testBit_mod_two_pow_of_lt {x n i : Nat} (h : i < n) : (x % 2 ^ n).testBit i = x.testBit i := by
  rw [Nat.testBit_mod_two_pow, decide_eq_true h, Bool.true_and]

theorem setWord_bits :
    let bit := fun (i : Nat) (old : Bool) => if mask.getLsbD i then value.getLsbD i else old
    (∀ i, i < 24 → (k.setWord 0 mask value).gang.getLsbD i = bit (16 + i) (k.gang.getLsbD i)) ∧
    (∀ i, i < 8 → (k.setWord 0 mask value).weight.getLsbD i = bit (40 + i) (k.weight.getLsbD i)) ∧
    (∀ i, i < 2 → (k.setWord 0 mask value).cls.getLsbD i = bit (48 + i) (k.cls.getLsbD i)) ∧
    (∀ i, i < 32 → (k.setWord 1 mask value).cap.testBit i = bit (32 + i) (k.cap.testBit i)) ∧
    k.setWord 2 mask value = k ∧
    (∀ i, i < 4 → (k.setWord 3 mask value).lsize.testBit i = bit i (k.lsize.testBit i)) ∧
    (∀ i, i < 26 → (k.setWord 3 mask value).lbase.getLsbD i = bit (22 + i) (k.lbase.getLsbD i)) ∧
    ∀ i, i < 26 → (k.setWord 4 mask value).sbase.getLsbD i = bit i (k.sbase.getLsbD i) := by
  obtain ⟨may0, may1, may3, may3', may4⟩ := settable_bits
  obtain ⟨gang, weight, cls, cap, lsize, lbase, sbase⟩ := k.entryWord_fields
  have may0 (i : Nat) (h : 16 ≤ i) (h' : i < 50) : (settable 0).testBit i = true := by
    rw [show i = 16 + (i - 16) by omega]
    exact may0 _ (by omega)
  dsimp only
  refine ⟨fun i hi => ?_, fun i hi => ?_, fun i hi => ?_, fun i hi => ?_, rfl, fun i hi => ?_, fun i hi => ?_, fun i hi => ?_⟩
  · exact (getLsbD_ofNat_field hi).trans (k.newWord_field mask value hi (by omega) (may0 _ (by omega) (by omega)) gang)
  · exact (getLsbD_ofNat_field hi).trans (k.newWord_field mask value hi (by omega) (may0 _ (by omega) (by omega)) weight)
  · exact (getLsbD_ofNat_field hi).trans (k.newWord_field mask value hi (by omega) (may0 _ (by omega) (by omega)) cls)
  · rw [Team.setWord_one, k.newWord_field mask value hi (by omega) (may1 i hi) cap, testBit_mod_two_pow_of_lt hi]
  · rw [Team.setWord_three, k.newWord_field mask value hi (by omega) (may3 i hi) lsize, testBit_mod_two_pow_of_lt hi, Nat.zero_add]
  · exact (getLsbD_ofNat_field hi).trans (k.newWord_field mask value hi (by omega) (may3' i hi) lbase)
  · rw [Team.setWord_four, getLsbD_ofNat_field hi, k.newWord_field mask value hi (by omega) (may4 i hi) sbase, Nat.zero_add]
    rfl

end SetWord

theorem teamsMade_holds : Claims.teamsMade := by
  refine ⟨fun s m taken legal => ⟨fun unbound => ?_, fun p bound => ⟨fun noCluster => ?_, fun cl first => ?_⟩⟩, newTeam_fields,
    fun s m taken word => teamSet_cases taken word, setWord_bits⟩
  · refine answersOnly_of_run (exec_teamCreate_command m s) taken legal ?_
    rw [State.runTeamCreate, begun_vf, unbound]
    rfl
  · exact answersOnly_of_run (exec_teamCreate_command m s) taken legal
      (State.runTeamCreate_noCluster (s := Claims.begun s 5 m) bound noCluster)
  · obtain ⟨refused, made⟩ := teamCreate_cases taken legal bound first
    dsimp only
    rw [← State.createRefused_iff, Bool.not_eq_true]
    refine ⟨refused, fun accepted => ⟨(made accepted).1, fun t free => ?_⟩⟩
    obtain ⟨small, fits⟩ := (made accepted).2 t free
    rw [← createSmall_iff, Bool.not_eq_true]
    exact ⟨small, fits⟩

end Sys2Proof.Machine
end

section
/-!
PROOF. TEAM_STOP, TEAM_RESUME, TEAM_RESTART and TEAM_DESTROY (R368, R389, R398, R399).
-/

set_option Elab.async false
namespace Sys2Proof.Machine

/-! ## The end of a team's work leaves the command slots alone -/

theorem State.pfSlots_foldl {α : Type} {step : State → α → State} (h : ∀ s a, (step s a).pfSlots = s.pfSlots) (l : List α) (s : State) :
    (l.foldl step s).pfSlots = s.pfSlots :=
  foldl_keeps State.pfSlots h l s

theorem State.pfSlots_recordTo (s : State) (d t : Nat) (w : StrandName) (rs : List StatRecord) (p : Bool) :
    (s.recordTo d t w rs p).pfSlots = s.pfSlots := by
  rw [State.recordTo]
  split
  · split <;> rfl
  · rfl

theorem State.pfSlots_finishCmd (s : State) (id : Nat) (st : TokenState) : (s.finishCmd id st).pfSlots = s.pfSlots := by
  rw [State.finishCmd]
  split
  · rfl
  · exact State.pfSlots_recordTo ..

theorem State.pfSlots_dropCmds (s : State) (d t : Nat) : (s.dropCmds d t).pfSlots = s.pfSlots :=
  State.pfSlots_foldl (fun s m => by exact (State.pfSlots_finishCmd (s.modCmd m.id _) m.id .cancelled)) _ s

theorem State.pfSlots_returnLease (s : State) (d t l : Nat) : (s.returnLease d t l).pfSlots = s.pfSlots := by
  rw [State.returnLease]
  split <;> rfl

theorem State.pfSlots_suspendLeases (s : State) (d t : Nat) : (s.suspendLeases d t).pfSlots = s.pfSlots :=
  State.pfSlots_foldl (fun s l => by
    split
    · rfl
    · exact s.pfSlots_returnLease d t l.1) _ s

theorem State.pfSlots_dropHeld (s : State) (d t : Nat) : (s.dropHeld d t).pfSlots = s.pfSlots := by
  rw [State.dropHeld]
  dsimp only
  split
  · exact State.pfSlots_foldl (step := fun (s : State) (c : Nat) => s.modCore c fun k =>
      { k with stores := k.stores.filter fun w => w.holders.all Holder.isDone }) (fun _ _ => rfl) _ _
  · rfl

theorem State.pfSlots_clearTeam (s : State) (d t : Nat) : (s.clearTeam d t).pfSlots = s.pfSlots := by
  unfold State.clearTeam
  extract_lets p held zeroed stopped freed
  have hheld : held.pfSlots = s.pfSlots := s.pfSlots_dropHeld d t
  have hzeroed : zeroed.pfSlots = held.pfSlots := by
    unfold zeroed
    split
    · exact State.pfSlots_foldl (step := fun s c => s.modCore c Core.zeroed) (fun _ _ => rfl) _ _
    · rfl
  have hstopped : stopped.pfSlots = zeroed.pfSlots := by
    unfold stopped
    split <;> rfl
  have hfreed : freed.pfSlots = stopped.pfSlots := by
    unfold freed
    split <;> rfl
  exact (State.modTeam_pfSlots ..).trans (hfreed.trans (hstopped.trans (hzeroed.trans hheld)))

theorem State.pfSlots_postEvent (s : State) (kind d t vf cause : Nat) : (s.postEvent kind d t vf cause).pfSlots = s.pfSlots := by
  rw [State.postEvent]
  split <;> rfl

theorem State.pfSlots_endWork (s : State) (d t : Nat) : (s.endWork d t).pfSlots = s.pfSlots :=
  (State.pfSlots_suspendLeases ..).trans (State.pfSlots_dropCmds ..)

theorem State.lasting_endWork (s : State) (d t : Nat) : (s.endWork d t).lasting = s.lasting := by
  refine (State.lasting_of_dies rfl).trans ((State.lasting_modTeam _ d t Team.lasting_failLaunches).trans ?_)
  exact (State.lasting_suspendLeases ..).trans (State.lasting_dropCmds ..)

/-! ## The four commands -/

section Commands
variable {s : State} {m : HostCmd} {t : Nat}

/-- TEAM_STOP of a team. -/
def State.runStop (s : State) (d t : Nat) : Answer × State :=
  if 3 ≤ (s.team d t).st ∧ (s.team d t).st ≤ 7 then (none, s.stopTeam d t 1) else (some (stopAnswer (s.team d t).st), s.stopTeam d t 1)

/-- TEAM_RESUME of a team. -/
def State.runResume (s : State) (d t : Nat) : Answer × State :=
  if (s.team d t).st ≠ 8 then done stBusyNow s
  else if !s.clustersThere d t then done stNoResource s
  else if !s.resumable d t then done stRefusedVer s
  else
    let r := s.modTeam d t fun k => { k with st := 2 }
    done stOk (r.modTeam d t fun k => { k with st := if r.runnable d t then 2 else 1 })

/-- What TEAM_RESTART makes of an entry. -/
def Team.restarted (m : Team) (cl : Nat) : Team :=
  { m with
    st := 2, joins := m.joins.map (fun q => (q.1, q.2.freed)), leases := [], tokens := [], leaseDeficit := 0, spilled := false
    saved := [conductorImage cl m.entry m.arg] }

/-- The state that TEAM_RESTART leaves. -/
def State.restartTeam (s : State) (d t cl : Nat) : State := ((s.endWork d t).dropHeld d t).modTeam d t fun m => m.restarted cl

/-- TEAM_RESTART of a team. -/
def State.runRestart (s : State) (d t : Nat) : Answer × State :=
  if (s.team d t).st ≠ 9 ∧ (s.team d t).st ≠ 1 then done stBusyNow s
  else match (s.clustersOn (s.team d t).part d).head? with
    | none => done stNoResource s
    | some cl => done stOk (s.restartTeam d t cl)

/-- A state without the commands of a team, and without the messages that its tiles have sent. -/
def State.forgetTeam (s : State) (d t : Nat) : State :=
  let s := { s with cmds := s.cmds.filter fun c => !(c.d == d && c.t == t) }
  { s with sent := s.sent.filter fun x => !(x.d == d && (match x.tile with
    | some (u, _) => u == t
    | none => false)) }

/-- A die without a team. -/
def Die.withoutTeam (k : Die) (p t : Nat) : Die :=
  { k with
    teams := dropKey k.teams t
    shadow := k.shadow.map fun e : Nat × Shadow =>
      (e.1, if e.1 = p ∧ (e.2.staged = some t ∨ e.2.draining = some t) then Shadow.reset else e.2) }

/-- The state that TEAM_DESTROY leaves. -/
def State.destroyTeam (s : State) (d t : Nat) : State :=
  let k := s.team d t
  let own : BitVec 16 := BitVec.ofNat 16 (64 + k.part)
  let s := ((s.endWork d t).clearTeam d t).forgetTeam d t
  ((s.giveOwner (65536 * k.lbase.toNat) k.lpages own).giveOwner (65536 * k.sbase.toNat) k.spages own).modDie d fun x => x.withoutTeam k.part t

theorem State.pfSlots_restartTeam (s : State) (d t cl : Nat) : (s.restartTeam d t cl).pfSlots = s.pfSlots := by
  rw [State.restartTeam, State.modTeam_pfSlots, State.pfSlots_dropHeld, State.pfSlots_endWork]

theorem State.pfSlots_giveOwner (s : State) (pa count : Nat) (e : BitVec 16) : (s.giveOwner pa count e).pfSlots = s.pfSlots := rfl

theorem State.pfSlots_forgetTeam (s : State) (d t : Nat) : (s.forgetTeam d t).pfSlots = s.pfSlots := rfl

theorem State.pfSlots_destroyTeam (s : State) (d t : Nat) : (s.destroyTeam d t).pfSlots = s.pfSlots := by
  rw [State.destroyTeam, State.modDie_pfSlots, State.pfSlots_giveOwner, State.pfSlots_giveOwner, State.pfSlots_forgetTeam,
    State.pfSlots_clearTeam, State.pfSlots_endWork]

theorem Die.team_withoutTeam (k : Die) (p t : Nat) : (k.withoutTeam p t).team t = Team.reset := look_dropKey_self ..

theorem State.destroyTeam_team (s : State) (d t : Nat) : (s.destroyTeam d t).team d t = Team.reset := by
  rw [State.destroyTeam, State.team, State.die_modDie, Die.team_withoutTeam]

theorem State.cmds_giveOwner (s : State) (pa count : Nat) (e : BitVec 16) : (s.giveOwner pa count e).cmds = s.cmds := rfl

theorem State.cmds_forgetTeam (s : State) (d t : Nat) : ∀ c ∈ (s.forgetTeam d t).cmds, c.d = d → c.t ≠ t := by
  intro c hc die
  have kept := (List.mem_filter.1 hc).2
  rw [die, beq_self_eq_true, Bool.true_and, Bool.not_eq_true', beq_eq_false_iff_ne] at kept
  exact kept

theorem State.destroyTeam_cmds (s : State) (d t : Nat) : ∀ c ∈ (s.destroyTeam d t).cmds, c.d = d → c.t ≠ t := by
  rw [State.destroyTeam, State.modDie_cmds, State.cmds_giveOwner, State.cmds_giveOwner]
  exact State.cmds_forgetTeam _ d t

/-- The pages of a destroyed team return to its partition, zeroed. -/
theorem State.destroyTeam_pages (s : State) {d t n : Nat}
    (held : ((s.team d t).lbase.toNat ≤ n ∧ n < (s.team d t).lbase.toNat + (s.team d t).lpages) ∨
      ((s.team d t).sbase.toNat ≤ n ∧ n < (s.team d t).sbase.toNat + (s.team d t).spages)) :
    look 0 (s.destroyTeam d t).owner n = BitVec.ofNat 16 (64 + (s.team d t).part) ∧
      ∀ a, 65536 * n ≤ a → a < 65536 * n + 65536 → readByte (s.destroyTeam d t).hbm a = 0 := by
  rw [State.destroyTeam, State.modDie_owner, State.modDie_hbm]
  refine State.giveOwner_pages _ _ _ _ (Nat.mul_mod_right ..) (Nat.mul_mod_right ..) ?_
  rw [Nat.mul_div_cancel_left _ (by decide), Nat.mul_div_cancel_left _ (by decide)]
  exact held

theorem State.owner_answerSlot (s : State) (i : Nat) (a : Nat × List Word) : (s.answerSlot i a).owner = s.owner := rfl

theorem State.hbm_answerSlot (s : State) (i : Nat) (a : Nat × List Word) : (s.answerSlot i a).hbm = s.hbm := rfl

theorem State.cmds_answerSlot (s : State) (i : Nat) (a : Nat × List Word) : (s.answerSlot i a).cmds = s.cmds := rfl

theorem State.team_answerSlot (s : State) (i : Nat) (a : Nat × List Word) : (s.answerSlot i a).team = s.team := rfl

theorem State.restartTeam_team (s : State) (d t cl : Nat) :
    (s.restartTeam d t cl).team d t = (((s.endWork d t).dropHeld d t).team d t).restarted cl := by
  rw [State.restartTeam, State.team_modTeam]

/-- The end of its work leaves the lasting part of the team that restarts. -/
theorem State.restarting_lasting (s : State) (d t : Nat) : (((s.endWork d t).dropHeld d t).team d t).lasting = (s.team d t).lasting := by
  rw [State.team_dropHeld]
  exact congrFun (congrFun (s.lasting_endWork d t) d) t

theorem Team.restarted_of_lasting {m k : Team} (same : m.lasting = k.lasting) (cl : Nat) :
    (m.restarted cl).st = 2 ∧ (∀ e ∈ (m.restarted cl).joins, e.2.st = .free) ∧ (m.restarted cl).leases = [] ∧
      (m.restarted cl).tokens = [] ∧ (m.restarted cl).landing = k.landing ∧
      (m.restarted cl).saved = [conductorImage cl k.entry k.arg] := by
  have entry : m.entry = k.entry := (congrArg Team.entry same :)
  have arg : m.arg = k.arg := (congrArg Team.arg same :)
  have landing : m.landing = k.landing := (congrArg Team.landing same :)
  rw [← entry, ← arg, ← landing]
  refine ⟨rfl, fun e he => ?_, rfl, rfl, rfl, rfl⟩
  obtain ⟨q, -, rfl⟩ := List.mem_map.1 he
  rfl

theorem exec_teamStop_command (m : HostCmd) (s : State) :
    exec (.teamStop m) s = command 0x07 0 m true s fun s => s.onTeam m fun d t => s.runStop d t := rfl

theorem exec_teamResume_command (m : HostCmd) (s : State) :
    exec (.teamResume m) s = command 0x08 0 m true s fun s => s.onTeam m fun d t => s.runResume d t := rfl

theorem exec_teamRestart_command (m : HostCmd) (s : State) :
    exec (.teamRestart m) s = command 0x09 0 m true s fun s => s.onTeam m fun d t => s.runRestart d t := rfl

theorem exec_teamDestroy_command (m : HostCmd) (s : State) :
    exec (.teamDestroy m) s = command 0x0A 0 m true s fun s => s.onTeam m fun d t => done stOk (s.destroyTeam d t) := rfl

section OnTeam
variable {i : Instr} {code n : Nat} {ok : Bool} {run : State → Nat → Nat → Answer × State} {u : State}
  (frame : exec i s = command code n m ok s fun s => s.onTeam m fun d t => run s d t) (taken : Claims.taken s m n) (legal : ok = true)
include frame taken legal

/-- A command for a team where the VF has none on the die. -/
theorem answersOnly_of_noTeam (absent : s.teamOf m.vf.toNat m.die.toNat = none) : Claims.answersOnly i s code m 6 :=
  answersOnly_of_run frame taken legal (State.onTeam_none (s := Claims.begun s code m) absent _)

variable (found : s.teamOf m.vf.toNat m.die.toNat = some t)
include found

theorem answersOnly_of_team {status : Nat}
    (ends : run (Claims.begun s code m) m.die.toNat t = done status (Claims.begun s code m)) : Claims.answersOnly i s code m status :=
  answersOnly_of_run frame taken legal ((State.onTeam_some (s := Claims.begun s code m) found _).trans ends)

theorem endsWith_of_team {after : State → Prop} (ends : run (Claims.begun s code m) m.die.toNat t = done stOk u)
    (slots : u.pfSlots = (Claims.begun s code m).pfSlots) (holds : after (u.answerSlot m.slot.toNat (stOk, []))) :
    Claims.endsWith i s m 1 after :=
  endsWith_of_run frame taken legal ((State.onTeam_some (s := Claims.begun s code m) found _).trans ends) slots holds

theorem startsWith_of_team {after : State → Prop} (starts : run (Claims.begun s code m) m.die.toNat t = (none, u))
    (slots : u.pfSlots = (Claims.begun s code m).pfSlots) (holds : after (u.startsCommand code m)) : Claims.endsWith i s m 0 after :=
  endsWith_of_start frame taken legal ((State.onTeam_some (s := Claims.begun s code m) found _).trans starts) slots holds

end OnTeam

/-! ## TEAM_STOP (R368, R389) -/

/-- A team that is out stops at once. -/
theorem State.stopTeam_out {d : Nat} (out : (s.team d t).st = 1 ∨ (s.team d t).st = 2) (why : Nat) :
    (s.stopTeam d t why).team d t = { s.team d t with st := 8 } ∧ (s.stopTeam d t why).pfSlots = s.pfSlots := by
  rw [State.stopTeam]
  dsimp only
  rw [if_pos out]
  refine ⟨?_, State.pfSlots_postEvent ..⟩
  rw [State.team, State.die, State.postEvent_dies]
  exact s.team_modTeam d t fun m => { m with st := 8 }

/-- A team on its cores stops with its slice. -/
theorem State.stopTeam_in {d : Nat} (lo : 3 ≤ (s.team d t).st) (hi : (s.team d t).st ≤ 7) (why : Nat) :
    s.stopTeam d t why = s.modTeam d t fun m => { m with stopping := why } := by
  rw [State.stopTeam]
  exact (if_neg (by omega)).trans (if_pos ⟨lo, hi⟩)

theorem State.stopTeam_stopped {d : Nat} (h : 7 < (s.team d t).st) (why : Nat) : s.stopTeam d t why = s := by
  rw [State.stopTeam]
  exact (if_neg (by omega)).trans (if_neg (by omega))

section Stop
variable (taken : Claims.taken s m 0) (found : s.teamOf m.vf.toNat m.die.toNat = some t)
include taken found

theorem teamStop_out (out : (s.team m.die.toNat t).st = 1 ∨ (s.team m.die.toNat t).st = 2) :
    Claims.endsWith (.teamStop m) s m 1 fun u => (u.team m.die.toNat t).st = 8 ∧ (u.team m.die.toNat t).saved = (s.team m.die.toNat t).saved := by
  obtain ⟨team, slots⟩ := State.stopTeam_out (s := Claims.begun s 7 m) out 1
  refine endsWith_of_team (exec_teamStop_command m s) taken rfl found (u := (Claims.begun s 7 m).stopTeam m.die.toNat t 1) ?_ slots ?_
  · have answer : stopAnswer (s.team m.die.toNat t).st = (stOk, []) := if_neg (by omega)
    refine (if_neg ?_).trans (congrArg (fun a => (some a, _)) answer)
    rw [begun_team]
    omega
  · have team : ((((Claims.begun s 7 m).stopTeam m.die.toNat t 1).answerSlot m.slot.toNat (stOk, [])).team m.die.toNat t) =
      { s.team m.die.toNat t with st := 8 } := team
    rw [team]
    exact ⟨rfl, rfl⟩

theorem teamStop_in (lo : 3 ≤ (s.team m.die.toNat t).st) (hi : (s.team m.die.toNat t).st ≤ 7) :
    Claims.endsWith (.teamStop m) s m 0 fun u => (u.pfSlot m.slot.toNat).cmd = some (7, m) ∧ (u.team m.die.toNat t).stopping = 1 ∧
      (u.team m.die.toNat t).st = (s.team m.die.toNat t).st := by
  have stops := State.stopTeam_in (s := Claims.begun s 7 m) lo hi 1
  refine startsWith_of_team (exec_teamStop_command m s) taken rfl found (u := (Claims.begun s 7 m).stopTeam m.die.toNat t 1)
    (if_pos ⟨lo, hi⟩) (by rw [stops]; rfl) ?_
  have team : (((Claims.begun s 7 m).stopTeam m.die.toNat t 1).startsCommand 7 m).team m.die.toNat t =
      { s.team m.die.toNat t with stopping := 1 } := by
    rw [stops]
    exact (Claims.begun s 7 m).team_modTeam m.die.toNat t fun m => { m with stopping := 1 }
  rw [State.startsCommand_slot, team]
  exact ⟨rfl, rfl, rfl⟩

theorem teamStop_stopped (stopped : (s.team m.die.toNat t).st = 8) : Claims.answersOnly (.teamStop m) s 7 m 1 := by
  have stays := State.stopTeam_stopped (s := Claims.begun s 7 m) (d := m.die.toNat) (t := t) (by rw [begun_team]; omega) 1
  refine answersOnly_of_team (exec_teamStop_command m s) taken rfl found ?_
  rw [State.runStop, stays, begun_team, stopped]
  rfl

theorem teamStop_lost (lost : (s.team m.die.toNat t).st = 9) :
    exec (.teamStop m) s = .next ((Claims.begun s 7 m).answerSlot m.slot.toNat (3, [9])) := by
  have stays := State.stopTeam_stopped (s := Claims.begun s 7 m) (d := m.die.toNat) (t := t) (by rw [begun_team]; omega) 1
  refine (exec_teamStop_command m s).trans (command_runs taken rfl ((State.onTeam_some (s := Claims.begun s 7 m) found _).trans ?_))
  rw [State.runStop, stays, begun_team, lost]
  rfl

/-! ## TEAM_RESUME (R368, R389) -/

theorem teamResume_cases :
    ((s.team m.die.toNat t).st ≠ 8 → Claims.answersOnly (.teamResume m) s 8 m 4) ∧
    ((s.team m.die.toNat t).st = 8 → s.clustersThere m.die.toNat t = false → Claims.answersOnly (.teamResume m) s 8 m 5) ∧
    ((s.team m.die.toNat t).st = 8 → s.clustersThere m.die.toNat t = true → s.resumable m.die.toNat t = false →
      Claims.answersOnly (.teamResume m) s 8 m 7) ∧
    ((s.team m.die.toNat t).st = 8 → s.clustersThere m.die.toNat t = true → s.resumable m.die.toNat t = true →
      let r := (Claims.begun s 8 m).modTeam m.die.toNat t fun k => { k with st := 2 }
      Claims.endsWith (.teamResume m) s m 1 fun u => (u.team m.die.toNat t).st = if r.runnable m.die.toNat t then 2 else 1) := by
  have answers {status : Nat} := answersOnly_of_team (exec_teamResume_command m s) taken rfl found (status := status)
  have there : (Claims.begun s 8 m).clustersThere m.die.toNat t = s.clustersThere m.die.toNat t := rfl
  have resumable : (Claims.begun s 8 m).resumable m.die.toNat t = s.resumable m.die.toNat t := rfl
  refine ⟨fun st => answers (if_pos st), fun st gone => answers ?_, fun st kept old => answers ?_, fun st kept fit => ?_⟩
  · rw [State.runResume, there, begun_team, gone, if_neg (by rw [st]; decide)]
    rfl
  · rw [State.runResume, there, resumable, begun_team, kept, old, if_neg (by rw [st]; decide)]
    rfl
  · let r := (Claims.begun s 8 m).modTeam m.die.toNat t fun k => { k with st := 2 }
    refine endsWith_of_team (exec_teamResume_command m s) taken rfl found
      (u := r.modTeam m.die.toNat t fun k => { k with st := if r.runnable m.die.toNat t then 2 else 1 }) ?_ rfl ?_
    · rw [State.runResume, there, resumable, begun_team, kept, fit, if_neg (by rw [st]; decide)]
      rfl
    · exact congrArg Team.st (r.team_modTeam m.die.toNat t fun k => { k with st := if r.runnable m.die.toNat t then 2 else 1 })

/-! ## TEAM_RESTART, TEAM_DESTROY (R399) -/

theorem teamRestart_cases :
    ((s.team m.die.toNat t).st ≠ 9 → (s.team m.die.toNat t).st ≠ 1 → Claims.answersOnly (.teamRestart m) s 9 m 4) ∧
    ((s.team m.die.toNat t).st = 9 ∨ (s.team m.die.toNat t).st = 1 → (s.clustersOn (s.team m.die.toNat t).part m.die.toNat).head? = none →
      Claims.answersOnly (.teamRestart m) s 9 m 5) ∧
    (∀ cl, (s.team m.die.toNat t).st = 9 ∨ (s.team m.die.toNat t).st = 1 →
      (s.clustersOn (s.team m.die.toNat t).part m.die.toNat).head? = some cl →
      Claims.endsWith (.teamRestart m) s m 1 fun u => (u.team m.die.toNat t).st = 2 ∧
        (∀ e ∈ (u.team m.die.toNat t).joins, e.2.st = .free) ∧ (u.team m.die.toNat t).leases = [] ∧ (u.team m.die.toNat t).tokens = [] ∧
        (u.team m.die.toNat t).landing = (s.team m.die.toNat t).landing ∧
        (u.team m.die.toNat t).saved = [conductorImage cl (s.team m.die.toNat t).entry (s.team m.die.toNat t).arg]) := by
  have answers {status : Nat} := answersOnly_of_team (exec_teamRestart_command m s) taken rfl found (status := status)
  refine ⟨fun lost out => answers (if_pos ⟨lost, out⟩), fun ended none => answers ?_, fun cl ended first => ?_⟩
  · rw [State.runRestart, begun_team, begun_clustersOn, none]
    exact if_neg (by omega)
  · refine endsWith_of_team (exec_teamRestart_command m s) taken rfl found (u := (Claims.begun s 9 m).restartTeam m.die.toNat t cl) ?_ ?_ ?_
    · rw [State.runRestart, begun_team, begun_clustersOn, first]
      exact if_neg (by omega)
    · exact State.pfSlots_restartTeam ..
    · rw [State.team_answerSlot, State.restartTeam_team]
      exact Team.restarted_of_lasting (State.restarting_lasting ..) cl

theorem teamDestroy_ends :
    Claims.endsWith (.teamDestroy m) s m 1 fun u => (u.team m.die.toNat t).st = 0 ∧ (∀ c ∈ u.cmds, c.d = m.die.toNat → c.t ≠ t) ∧
      ∀ n, ((s.team m.die.toNat t).lbase.toNat ≤ n ∧ n < (s.team m.die.toNat t).lbase.toNat + (s.team m.die.toNat t).lpages) ∨
          ((s.team m.die.toNat t).sbase.toNat ≤ n ∧ n < (s.team m.die.toNat t).sbase.toNat + (s.team m.die.toNat t).spages) →
        look 0 u.owner n = BitVec.ofNat 16 (64 + (s.team m.die.toNat t).part) ∧
          ∀ a, 65536 * n ≤ a → a < 65536 * n + 65536 → readByte u.hbm a = 0 := by
  refine endsWith_of_team (exec_teamDestroy_command m s) taken rfl found (u := (Claims.begun s 10 m).destroyTeam m.die.toNat t) rfl
    (State.pfSlots_destroyTeam ..) ?_
  rw [State.team_answerSlot, State.owner_answerSlot, State.hbm_answerSlot, State.cmds_answerSlot, State.destroyTeam_team]
  refine ⟨rfl, State.destroyTeam_cmds _ m.die.toNat t, fun n held => ?_⟩
  have pages := (Claims.begun s 10 m).destroyTeam_pages (d := m.die.toNat) (t := t) (n := n)
  rw [begun_team] at pages
  exact pages held

end Stop

end Commands

theorem teamsMove_holds : Claims.teamsMove := by
  intro s m taken
  refine ⟨fun absent => ⟨answersOnly_of_noTeam (exec_teamStop_command m s) taken rfl absent,
    answersOnly_of_noTeam (exec_teamResume_command m s) taken rfl absent,
    answersOnly_of_noTeam (exec_teamRestart_command m s) taken rfl absent,
    answersOnly_of_noTeam (run := fun s d t => done stOk (s.destroyTeam d t)) (exec_teamDestroy_command m s) taken rfl absent⟩, fun t found => ?_⟩
  obtain ⟨notHalted, noClusters, tooOld, resumes⟩ := teamResume_cases taken found
  obtain ⟨busy, noCluster, restarts⟩ := teamRestart_cases taken found
  exact ⟨teamStop_out taken found, teamStop_in taken found, teamStop_stopped taken found, teamStop_lost taken found, notHalted, noClusters,
    tooOld, resumes, busy, noCluster, restarts, teamDestroy_ends taken found⟩

end Sys2Proof.Machine
end

section
/-!
PROOF. The commands that run in the background start, and KEY_INSTALL (R397, R398, R403).
-/

set_option Elab.async false
namespace Sys2Proof.Machine

section Starts
variable {s : State} {m : HostCmd} {i : Instr} {code n : Nat} {ok : Bool}

/-! ## Commands of a VF that is bound to a partition -/

theorem startsBound_cases (frame : exec i s = command code n m ok s fun s => s.runBound m) (taken : Claims.taken s m n) (legal : ok = true) :
    ((s.vf m.vf.toNat).part = none → Claims.answersOnly i s code m 6) ∧
    ((s.vf m.vf.toNat).part.isSome = true →
      Claims.endsWith i s m 0 fun u => (u.pfSlot m.slot.toNat).cmd = some (code, m)) := by
  refine ⟨fun unbound => answersOnly_of_run frame taken legal ?_, fun bound => ?_⟩
  · rw [State.runBound, begun_vf, unbound]
    rfl
  · refine endsWith_of_start frame taken legal (u := Claims.begun s code m) ?_ rfl ?_
    · rw [State.runBound, begun_vf, ← Option.not_isSome, bound]
      rfl
    · rw [State.startsCommand_slot]

/-! ## Commands for a team that is HALTED -/

/-- Exports and imports start, of a HALTED team. -/
def State.runHalted (s : State) (d t : Nat) : Answer × State := if (s.team d t).st = 8 then (none, s) else done stBusyNow s

theorem startsHalted_cases (frame : exec i s = command code n m ok s fun s => s.onTeam m fun d t => s.runHalted d t)
    (taken : Claims.taken s m n) (legal : ok = true) {t : Nat} (found : s.teamOf m.vf.toNat m.die.toNat = some t) :
    ((s.team m.die.toNat t).st ≠ 8 → Claims.answersOnly i s code m 4) ∧
    ((s.team m.die.toNat t).st = 8 → Claims.endsWith i s m 0 fun u => (u.pfSlot m.slot.toNat).cmd = some (code, m)) := by
  refine ⟨fun out => answersOnly_of_team frame taken legal found (if_neg out), fun halted => ?_⟩
  exact startsWith_of_team frame taken legal found (u := Claims.begun s code m) (if_pos halted) rfl (by rw [State.startsCommand_slot])

theorem exec_teamExport_command (m : HostCmd) (s : State) :
    exec (.teamExport m) s = command 0x19 2 m true s fun s => s.onTeam m fun d t => s.runHalted d t := rfl

theorem exec_teamImport_command (m : HostCmd) (s : State) :
    exec (.teamImport m) s = command 0x1A 2 m true s fun s => s.onTeam m fun d t => s.runHalted d t := rfl

theorem commandsStart (s : State) (m : HostCmd) :
    let v := m.vf.toNat
    let starts := fun (i : Instr) (code : Nat) => Claims.endsWith i s m 0 fun u => (u.pfSlot m.slot.toNat).cmd = some (code, m)
    (Claims.taken s m 3 → m.p2.toNat < 2 ^ 42 →
      ((s.vf v).part = none → Claims.answersOnly (.imageLoad m) s 0x12 m 6) ∧ ((s.vf v).part.isSome = true → starts (.imageLoad m) 0x12)) ∧
    (Claims.taken s m 2 → (s.vf v).part = none →
      Claims.answersOnly (.attest m) s 0x13 m 6 ∧ Claims.answersOnly (.keySession m) s 0x14 m 6) ∧
    (Claims.taken s m 2 → (s.vf v).part.isSome = true → starts (.attest m) 0x13 ∧ starts (.keySession m) 0x14) ∧
    (Claims.taken s m 2 → s.teamOf v m.die.toNat = none →
      Claims.answersOnly (.teamExport m) s 0x19 m 6 ∧ Claims.answersOnly (.teamImport m) s 0x1A m 6) ∧
    ∀ t, Claims.taken s m 2 → s.teamOf v m.die.toNat = some t →
      ((s.team m.die.toNat t).st ≠ 8 → Claims.answersOnly (.teamExport m) s 0x19 m 4 ∧ Claims.answersOnly (.teamImport m) s 0x1A m 4) ∧
      ((s.team m.die.toNat t).st = 8 → starts (.teamExport m) 0x19 ∧ starts (.teamImport m) 0x1A) := by
  have attest (taken : Claims.taken s m 2) := startsBound_cases (i := .attest m) (exec_attest m s) taken rfl
  have session (taken : Claims.taken s m 2) := startsBound_cases (i := .keySession m) (exec_keySession m s) taken rfl
  have exports := exec_teamExport_command m s
  have imports := exec_teamImport_command m s
  refine ⟨fun taken low => startsBound_cases (exec_imageLoad m s) taken (decide_eq_true low),
    fun taken unbound => ⟨(attest taken).1 unbound, (session taken).1 unbound⟩,
    fun taken bound => ⟨(attest taken).2 bound, (session taken).2 bound⟩,
    fun taken absent => ⟨answersOnly_of_noTeam exports taken rfl absent, answersOnly_of_noTeam imports taken rfl absent⟩,
    fun t taken found => ?_⟩
  obtain ⟨outE, haltedE⟩ := startsHalted_cases exports taken rfl found
  obtain ⟨outI, haltedI⟩ := startsHalted_cases imports taken rfl found
  exact ⟨fun out => ⟨outE out, outI out⟩, fun halted => ⟨haltedE halted, haltedI halted⟩⟩

/-! ## KEY_INSTALL (R403) -/

/-- The blob that KEY_INSTALL names. -/
def State.keyBlob (s : State) (m : HostCmd) : List Byte := readBytes s.hostMem m.p0.toNat m.p1.toNat

/-- The state in which a key of a blob is installed, before it is measured. -/
def State.installKey (s : State) (m : HostCmd) (p : Nat) (plain : List Byte) (k : Session) (q : Partition) : State :=
  (s.modPart p fun _ => { q with session := some { k with counter := k.counter + 1 } }).modVf m.vf.toNat (·.install plain)

/-- The state in which a key of a blob is installed; a policy is measured. -/
def State.installBlob (s : State) (m : HostCmd) (p : Nat) (plain : List Byte) (k : Session) (q : Partition) : State :=
  if num plain 0 1 = 5 then (s.installKey m p plain k q).fold [p] 0x15 m else s.installKey m p plain k q

/-- KEY_INSTALL under a session's key. -/
def State.runKeyInstall (s : State) (m : HostCmd) (p : Nat) (k : Session) : Answer × State :=
  if ((s.part p).confidential && !s.ide) || num (s.keyBlob m) 0 12 ≠ k.counter + 1 then done stAuthFail s
  else match openBlob k.key (s.keyBlob m) with
    | none => done stAuthFail s
    | some plain => match (s.part p).install plain with
      | none => done stBadCommand s
      | some q => done stOk (s.installBlob m p plain k q)

/-- KEY_INSTALL, its partition and session looked up. -/
def State.runKeyCommand (s : State) (m : HostCmd) : Answer × State :=
  match (s.vf m.vf.toNat).part with
  | none => done stNotFound s
  | some p => match (s.part p).session with
    | none => done stAuthFail s
    | some k => s.runKeyInstall m p k

theorem exec_keyInstall_command (m : HostCmd) (s : State) :
    exec (.keyInstall m) s = command 0x15 2 m true s fun s => s.runKeyCommand m := rfl

theorem State.installKey_part (s : State) (m : HostCmd) (p : Nat) (plain : List Byte) (k : Session) (q : Partition) :
    (s.installKey m p plain k q).part p = { q with session := some { k with counter := k.counter + 1 } } :=
  s.part_modPart p fun _ => { q with session := some { k with counter := k.counter + 1 } }

theorem State.installKey_vf (s : State) (m : HostCmd) (p : Nat) (plain : List Byte) (k : Session) (q : Partition) :
    (s.installKey m p plain k q).vf m.vf.toNat = (s.vf m.vf.toNat).install plain := by
  rw [State.installKey, State.vf_modVf]
  rfl

/-- The partition is the one installed, but for its measure; the VF has its image key; the slots stand. -/
theorem State.installBlob_leaves (s : State) (m : HostCmd) (p : Nat) (plain : List Byte) (k : Session) (q : Partition) :
    (∃ w, (s.installBlob m p plain k q).part p = { q with session := some { k with counter := k.counter + 1 }, measure := w }) ∧
      (s.installBlob m p plain k q).vf m.vf.toNat = (s.vf m.vf.toNat).install plain ∧
      (s.installBlob m p plain k q).pfSlots = s.pfSlots := by
  rw [State.installBlob]
  split
  · obtain ⟨w, part⟩ := (s.installKey m p plain k q).fold_part [p] 0x15 m p
    rw [State.installKey_part] at part
    exact ⟨⟨w, part⟩, (State.fold_vf ..).trans (State.installKey_vf ..), (State.fold_pfSlots ..).trans rfl⟩
  · exact ⟨⟨q.measure, State.installKey_part ..⟩, State.installKey_vf .., rfl⟩

section Session
variable {p : Nat} {k : Session} (bound : (s.vf m.vf.toNat).part = some p) (open_ : (s.part p).session = some k)
include bound open_

theorem State.runKeyCommand_session : s.runKeyCommand m = s.runKeyInstall m p k := by
  rw [State.runKeyCommand, bound]
  dsimp only
  rw [open_]

/-- What bars a blob: a confidential partition without link encryption, or a counter that is not the next. -/
theorem State.runKeyCommand_barred
    (barred : ((s.part p).confidential = true ∧ s.ide = false) ∨ ofBytes ((s.keyBlob m).take 12) ≠ k.counter + 1) :
    s.runKeyCommand m = done stAuthFail s := by
  rw [State.runKeyCommand_session bound open_, State.runKeyInstall]
  refine if_pos ?_
  obtain ⟨confidential, plain⟩ | counter := barred
  · simp [confidential, plain]
  · have counter : num (s.keyBlob m) 0 12 ≠ k.counter + 1 := counter
    simp [counter]

variable (free : ¬ (((s.part p).confidential = true ∧ s.ide = false) ∨ ofBytes ((s.keyBlob m).take 12) ≠ k.counter + 1))
include free

theorem State.runKeyCommand_opens : s.runKeyCommand m = match openBlob k.key (s.keyBlob m) with
    | none => done stAuthFail s
    | some plain => match (s.part p).install plain with
      | none => done stBadCommand s
      | some q => done stOk (s.installBlob m p plain k q) := by
  rw [State.runKeyCommand_session bound open_, State.runKeyInstall]
  have free : ¬ (((s.part p).confidential = true ∧ s.ide = false) ∨ num (s.keyBlob m) 0 12 ≠ k.counter + 1) := free
  refine if_neg fun barred => free ?_
  simpa using barred

end Session

end Starts

theorem State.part_answerSlot (s : State) (i : Nat) (a : Nat × List Word) : (s.answerSlot i a).part = s.part := rfl

theorem State.vf_answerSlot (s : State) (i : Nat) (a : Nat × List Word) : (s.answerSlot i a).vf = s.vf := rfl

theorem keyInstall_cases (s : State) (m : HostCmd) (taken : Claims.taken s m 2) :
    let v := m.vf.toNat
    let blob := readBytes s.hostMem m.p0.toNat m.p1.toNat
    let fails := Claims.answersOnly (.keyInstall m) s 0x15 m
    ((s.vf v).part = none → fails 6) ∧
    ∀ p, (s.vf v).part = some p →
      ((s.part p).session = none → fails 8) ∧
      ∀ k, (s.part p).session = some k →
        let barred := ((s.part p).confidential = true ∧ s.ide = false) ∨ ofBytes (blob.take 12) ≠ k.counter + 1
        (barred ∨ openBlob k.key blob = none → fails 8) ∧
        ∀ plain, ¬ barred → openBlob k.key blob = some plain →
          ((s.part p).install plain = none → fails 2) ∧
          ∀ q, (s.part p).install plain = some q → Claims.endsWith (.keyInstall m) s m 1 fun u =>
            (u.part p).gangKeys = q.gangKeys ∧ (u.part p).readKey = q.readKey ∧ (u.part p).memKey = q.memKey ∧
              (u.part p).confidential = q.confidential ∧ (u.part p).switches = q.switches ∧
              (u.part p).session = some { k with counter := k.counter + 1 } ∧
              (u.vf v).imageKeys = ((s.vf v).install plain).imageKeys := by
  have frame := exec_keyInstall_command m s
  have fails {status : Nat} (ends : (Claims.begun s 0x15 m).runKeyCommand m = done status (Claims.begun s 0x15 m)) :
      Claims.answersOnly (.keyInstall m) s 0x15 m status := answersOnly_of_run frame taken rfl ends
  dsimp only
  refine ⟨fun unbound => fails ?_, fun p bound => ⟨fun closed => fails ?_, fun k session => ⟨fun stops => fails ?_, fun plain free opened =>
    ⟨fun unknown => fails ?_, fun q installs => ?_⟩⟩⟩⟩
  · rw [State.runKeyCommand, begun_vf, unbound]
    rfl
  · rw [State.runKeyCommand, begun_vf, bound]
    dsimp only
    rw [begun_part, closed]
    rfl
  · by_cases barred : ((s.part p).confidential = true ∧ s.ide = false) ∨ ofBytes ((s.keyBlob m).take 12) ≠ k.counter + 1
    · exact State.runKeyCommand_barred (s := Claims.begun s 0x15 m) bound session barred
    · have shut : openBlob k.key (s.keyBlob m) = none := stops.resolve_left barred
      rw [State.runKeyCommand_opens (s := Claims.begun s 0x15 m) bound session barred]
      rw [show (Claims.begun s 0x15 m).keyBlob m = s.keyBlob m from rfl, shut]
      rfl
  · have opened : openBlob k.key (s.keyBlob m) = some plain := opened
    rw [State.runKeyCommand_opens (s := Claims.begun s 0x15 m) bound session free]
    rw [show (Claims.begun s 0x15 m).keyBlob m = s.keyBlob m from rfl, opened]
    dsimp only
    rw [begun_part, unknown]
    rfl
  · have opened : openBlob k.key (s.keyBlob m) = some plain := opened
    obtain ⟨⟨w, part⟩, vf, slots⟩ := (Claims.begun s 0x15 m).installBlob_leaves m p plain k q
    refine endsWith_of_run frame taken rfl (u := (Claims.begun s 0x15 m).installBlob m p plain k q) ?_ slots ?_
    · rw [State.runKeyCommand_opens (s := Claims.begun s 0x15 m) bound session free]
      rw [show (Claims.begun s 0x15 m).keyBlob m = s.keyBlob m from rfl, opened]
      dsimp only
      rw [begun_part, installs]
    · rw [State.part_answerSlot, State.vf_answerSlot, part, vf]
      exact ⟨rfl, rfl, rfl, rfl, rfl, rfl, rfl⟩

/-! ## What a blob installs (R403) -/

theorem flag_eq_testBit (w k : Nat) : flag w k = w.testBit k := by
  rw [Nat.testBit_eq_decide_div_mod_eq]; rfl

theorem Partition.install_gangKey (q : Partition) {plain : List Byte} (purpose : num plain 0 1 = 2) (length : plain.length = 37) :
    let g : BitVec 24 := BitVec.ofNat 24 (num plain 1 3)
    let e : BitVec 8 := BitVec.ofNat 8 (num plain 4 1)
    q.install plain = some { q with
      gangKeys := (g, e, BitVec.ofNat 256 (num plain 5 32)) :: q.gangKeys.filter fun k => !(k.1 == g && k.2.1 == e) } := by
  rw [Partition.install, purpose, length]
  rfl

theorem Partition.install_policy (q : Partition) {plain : List Byte} (purpose : num plain 0 1 = 5) (length : plain.length = 2) :
    q.install plain = some { q with
      confidential := q.confidential || (num plain 1 1).testBit 0, switches := (num plain 1 1).testBit 1 } := by
  rw [Partition.install, purpose, length, ← flag_eq_testBit, ← flag_eq_testBit]
  rfl

theorem Partition.install_unknown (q : Partition) {plain : List Byte} (purpose : num plain 0 1 = 0 ∨ 5 < num plain 0 1) :
    q.install plain = none := by
  rw [Partition.install]
  split
  case h_6 => rfl
  all_goals omega

theorem Partition.install_cases (q : Partition) (plain : List Byte) :
    (num plain 0 1 = 1 → plain.length = 65 → q.install plain = some { q with memKey := some (BitVec.ofNat 512 (num plain 1 64)) }) ∧
    (num plain 0 1 = 2 → plain.length = 37 → ∃ r, q.install plain = some r ∧
      r.gangKey (BitVec.ofNat 24 (num plain 1 3)) (BitVec.ofNat 8 (num plain 4 1)) = some (BitVec.ofNat 256 (num plain 5 32))) ∧
    (num plain 0 1 = 4 → plain.length = 33 → q.install plain = some { q with readKey := some (BitVec.ofNat 256 (num plain 1 32)) }) ∧
    (num plain 0 1 = 5 → plain.length = 2 → ∃ r, q.install plain = some r ∧
      r.confidential = (q.confidential || (num plain 1 1).testBit 0) ∧ r.switches = (num plain 1 1).testBit 1) ∧
    (num plain 0 1 = 0 ∨ 5 < num plain 0 1 → q.install plain = none) := by
  refine ⟨fun purpose length => ?_, fun purpose length => ⟨_, q.install_gangKey purpose length, ?_⟩, fun purpose length => ?_,
    fun purpose length => ⟨_, q.install_policy purpose length, rfl, rfl⟩, q.install_unknown⟩
  · rw [Partition.install, purpose, length]
    rfl
  · rw [Partition.gangKey, List.find?_cons_of_pos (by simp)]
  · rw [Partition.install, purpose, length]
    rfl

theorem keysAndStarts_holds : Claims.keysAndStarts := ⟨commandsStart, keyInstall_cases, Partition.install_cases⟩

end Sys2Proof.Machine
end

section
/-!
PROOF. The ends of background commands (R64 to R66, R397, R398, R402, R403), and O43.
-/

set_option Elab.async false
namespace Sys2Proof.Machine

/-! ## What the parts of a load leave alone (R66) -/

theorem State.hbmWrite_vfs (s : State) (pa : Nat) (bs : List Byte) (mark : Bool) : (s.hbmWrite pa bs mark).vfs = s.vfs := by
  rw [State.hbmWrite, State.countWrites]
  split <;> rfl

theorem State.hbmWrite_pfSlots (s : State) (pa : Nat) (bs : List Byte) (mark : Bool) : (s.hbmWrite pa bs mark).pfSlots = s.pfSlots := by
  rw [State.hbmWrite, State.countWrites]
  split <;> rfl

section WriteVf
variable {γ : Type} (g : State → γ) (writes : ∀ (s : State) (pa : Nat) (bs : List Byte) (mark : Bool), g (s.hbmWrite pa bs mark) = g s)
include writes

/-- What a write of HBM leaves alone, the writes of a section do. -/
theorem State.writeVf_keeps (s : State) (v d va : Nat) (bs : List Byte) : g (s.writeVf v d va bs) = g s := by
  rw [State.writeVf]
  split
  · rfl
  · refine foldl_keeps g (fun s k => ?_) _ s
    dsimp only
    split
    · exact writes ..
    · rfl

theorem State.writeSections_keeps (v d : Nat) (xs : List (Nat × List Byte)) (s : State) :
    g (xs.foldl (fun s x => s.writeVf v d x.1 x.2) s) = g s :=
  foldl_keeps g (fun s x => State.writeVf_keeps g writes s v d x.1 x.2) xs s

end WriteVf

/-- The start bits outside the text that a load writes. -/
def Loaded.clears (l : Loaded) (old : List Nat) : List Nat := old.filter fun a => !(l.texts.any fun t => t.1 ≤ a && a < t.1 + t.2)

theorem Loaded.mem_clears {l : Loaded} {old : List Nat} {a : Nat} (h : a ∈ l.clears old) :
    a ∈ old ∧ ∀ t ∈ l.texts, ¬ (t.1 ≤ a ∧ a < t.1 + t.2) := by
  obtain ⟨mem, clear⟩ := List.mem_filter.1 h
  exact ⟨mem, by simpa using clear⟩

theorem State.gimWrite_starts (s : State) (v d : Nat) (l : Loaded) :
    look [] ((s.gimWrite v d l).vf v).starts d = l.clears (look [] (s.vf v).starts d) := by
  have vfs : (s.gimWrite v d l).vfs = (s.modVf v fun f => { f with starts := ins f.starts d (l.clears (look [] f.starts d)) }).vfs :=
    State.writeSections_keeps State.vfs State.hbmWrite_vfs ..
  rw [State.vf, vfs]
  have vf : look Vf.reset (s.modVf v fun f => { f with starts := ins f.starts d (l.clears (look [] f.starts d)) }).vfs v =
      { s.vf v with starts := ins (s.vf v).starts d (l.clears (look [] (s.vf v).starts d)) } :=
    s.vf_modVf v fun f => { f with starts := ins f.starts d (l.clears (look [] f.starts d)) }
  rw [vf]
  exact look_ins_self ..

theorem State.gimWrite_pfSlots (s : State) (v d : Nat) (l : Loaded) : (s.gimWrite v d l).pfSlots = s.pfSlots :=
  State.writeSections_keeps State.pfSlots State.hbmWrite_pfSlots ..

/-! ## The end of a load (R66) -/

theorem mem_insertNat {a k : Nat} {l : List Nat} : a ∈ insertNat k l ↔ a = k ∨ a ∈ l := by
  induction l with
  | nil => simp [insertNat]
  | cons j rest ih =>
    rw [insertNat]
    split
    · exact List.mem_cons
    · split
      · next h => simp [h]
      · rw [List.mem_cons, ih, List.mem_cons, or_left_comm]

theorem mem_foldl_insertNat {a : Nat} {ks l : List Nat} : a ∈ ks.foldl (fun o k => insertNat k o) l ↔ a ∈ l ∨ a ∈ ks := by
  induction ks generalizing l with
  | nil => simp
  | cons k ks ih => rw [List.foldl_cons, ih, mem_insertNat, List.mem_cons, or_comm (a := a = k), or_assoc]

/-- What a load publishes. -/
theorem State.gimPublish_published (s : State) (v d : Nat) (l : Loaded) :
    (∀ a, a ∈ look [] ((s.gimPublish v d l).vf v).starts d ↔ a ∈ look [] (s.vf v).starts d ∨ a ∈ l.starts) ∧
      look [] ((s.gimPublish v d l).vf v).symbols d = look [] (s.vf v).symbols d ++ l.symbols ∧
      look [] ((s.gimPublish v d l).vf v).kernels d = look [] (s.vf v).kernels d ++ l.kernels := by
  rw [State.gimPublish, State.vf_modVf]
  dsimp only
  rw [look_ins_self, look_ins_self, look_ins_self]
  exact ⟨fun a => mem_foldl_insertNat, rfl, rfl⟩

/-! ## BACKGROUND_COMMAND_DONE (R398) -/

section Ends
variable {s : State} {b : BitVec 4} {code : Nat} {m : HostCmd}

theorem backgroundDone_idle (idle : (s.pfSlot b.toNat).cmd = none) : exec (.backgroundCommandDone b) s = .next s := by
  rw [exec_backgroundCommandDone, execBackgroundCommandDone]
  rw [idle]

theorem backgroundDone_load (runs : (s.pfSlot b.toNat).cmd = some (0x12, m)) :
    exec (.backgroundCommandDone b) s = if s.loadBefore b.toNat m then .next s
      else match (s.pfSlot b.toNat).load with
        | none => .next (s.beginImageLoad b.toNat m)
        | some l => .next (s.endImageLoad b.toNat m l) := by
  rw [exec_backgroundCommandDone, execBackgroundCommandDone]
  rw [runs]
  rfl

theorem backgroundDone_ends (runs : (s.pfSlot b.toNat).cmd = some (code, m)) (other : code ≠ 0x12) :
    exec (.backgroundCommandDone b) s = match s.endBackground code m with
      | none => .next s
      | some r => .next (r.2.answerSlot b.toNat r.1) := by
  rw [exec_backgroundCommandDone, execBackgroundCommandDone]
  rw [runs]
  refine (if_neg other).trans ?_
  cases s.endBackground code m <;> rfl

theorem State.answerSlot_slot (s : State) (i : Nat) (a : Nat × List Word) :
    (s.answerSlot i a).pfSlot i = { s.pfSlot i with status := BitVec.ofNat 8 a.1, a := a.2, cmd := none, load := none } := look_ins_self ..

theorem imageLoad_cases (runs : (s.pfSlot b.toNat).cmd = some (0x12, m)) :
    let i := b.toNat
    let v := m.vf.toNat
    let d := m.die.toNat
    let image := readBytes s.hostMem m.p0.toNat m.p1.toNat
    (s.loadBefore i m = true → exec (.backgroundCommandDone b) s = .next s) ∧
    (s.loadBefore i m = false → (s.pfSlot i).load = none →
      (∀ e, s.gimLoad v d image m.p2.toNat = .error e → exec (.backgroundCommandDone b) s = .next (s.answerSlot i (1, [gimStatus e]))) ∧
      ∀ l, s.gimLoad v d image m.p2.toNat = .ok l → ∃ u, exec (.backgroundCommandDone b) s = .next u ∧
        (u.pfSlot i).load = some l ∧ (u.pfSlot i).status = (s.pfSlot i).status ∧
        ∀ a, a ∈ look [] (u.vf v).starts d → a ∈ look [] (s.vf v).starts d ∧ ∀ t ∈ l.texts, ¬ (t.1 ≤ a ∧ a < t.1 + t.2)) ∧
    (∀ l, s.loadBefore i m = false → (s.pfSlot i).load = some l → ∃ u, exec (.backgroundCommandDone b) s = .next u ∧
      (u.pfSlot i).status = 1 ∧ (u.pfSlot i).a = [0] ∧ (u.pfSlot i).cmd = none ∧
      ((s.vf v).part.isSome = true →
        (∀ a, a ∈ look [] (u.vf v).starts d ↔ a ∈ look [] (s.vf v).starts d ∨ a ∈ l.starts) ∧
        look [] (u.vf v).symbols d = look [] (s.vf v).symbols d ++ l.symbols ∧
        look [] (u.vf v).kernels d = look [] (s.vf v).kernels d ++ l.kernels)) := by
  have done := backgroundDone_load runs
  dsimp only
  refine ⟨fun before => done.trans (if_pos before), fun first fresh => ⟨fun e fails => ?_, fun l loads => ?_⟩, fun l first loaded => ?_⟩
  · rw [done, first, fresh, State.beginImageLoad]
    dsimp only
    rw [fails]
    rfl
  · let w := s.gimWrite m.vf.toNat m.die.toNat l
    let u := w.modSlot b.toNat fun k => { k with load := some l }
    have slot : u.pfSlot b.toNat = { w.pfSlot b.toNat with load := some l } := look_ins_self ..
    refine ⟨u, ?_, by rw [slot], ?_, fun a ha => Loaded.mem_clears ((s.gimWrite_starts m.vf.toNat m.die.toNat l) ▸ ha)⟩
    · rw [done, first, fresh, State.beginImageLoad]
      dsimp only
      rw [loads]
      rfl
    · rw [slot]
      exact congrArg (fun x => (look CmdSlot.reset x b.toNat).status) (State.gimWrite_pfSlots ..)
  · refine ⟨s.endImageLoad b.toNat m l, ?_, ?_, ?_, ?_, fun bound => ?_⟩
    · rw [done, first, loaded]
      rfl
    · rw [State.endImageLoad, State.answerSlot_slot]
      rfl
    · rw [State.endImageLoad, State.answerSlot_slot]
      rfl
    · rw [State.endImageLoad, State.answerSlot_slot]
    · rw [State.endImageLoad, State.vf_answerSlot, if_neg (by rw [← Option.not_isSome, bound]; decide)]
      exact s.gimPublish_published ..

theorem teamStop_done (runs : (s.pfSlot b.toNat).cmd = some (0x07, m)) :
    (s.teamOf m.vf.toNat m.die.toNat = none → exec (.backgroundCommandDone b) s = .next (s.answerSlot b.toNat (1, []))) ∧
    ∀ t, s.teamOf m.vf.toNat m.die.toNat = some t →
      ((s.team m.die.toNat t).stopping ≠ 0 → exec (.backgroundCommandDone b) s = .next s) ∧
      ((s.team m.die.toNat t).stopping = 0 → exec (.backgroundCommandDone b) s =
        .next (s.answerSlot b.toNat (if (s.team m.die.toNat t).st = 9 then (3, [9]) else (1, [])))) := by
  have done := backgroundDone_ends runs (by decide)
  rw [State.endBackground, if_pos rfl] at done
  refine ⟨fun absent => ?_, fun t found => ⟨fun stopping => ?_, fun stopped => ?_⟩⟩
  · rw [done, absent]
    rfl
  · rw [done, found]
    simp only [if_neg stopping]
  · rw [done, found]
    simp only [if_pos stopped]
    rfl

/-- The end of a command that ends at once. -/
theorem backgroundDone_answers {r : (Nat × List Word) × State} (runs : (s.pfSlot b.toNat).cmd = some (code, m)) (other : code ≠ 0x12)
    (ends : s.endBackground code m = some r) : exec (.backgroundCommandDone b) s = .next (r.2.answerSlot b.toNat r.1) := by
  rw [backgroundDone_ends runs other, ends]

theorem attest_done (runs : (s.pfSlot b.toNat).cmd = some (0x13, m)) :
    let n := s.draw
    let written := n.2.report m.vf.toNat (readBytes s.hostMem m.p0.toNat 32) n.1 ++ certificate s.bootSerial
    exec (.backgroundCommandDone b) s =
      .next (({ n.2 with hostMem := writeBytes s.hostMem m.p1.toNat written } : State).answerSlot b.toNat (1, [])) :=
  backgroundDone_answers (r := s.endAttest m) runs (by decide) rfl

theorem keySession_done (runs : (s.pfSlot b.toNat).cmd = some (0x14, m)) {p : Nat} (bound : (s.vf m.vf.toNat).part = some p) :
    let input := readBytes s.hostMem m.p0.toNat 96
    ∃ (secret : BitVec 256) (n : Nat) (u : State), exec (.backgroundCommandDone b) s = .next u ∧
      let qd := pairBytes (Config.p256Public secret)
      let z := Config.p256Shared secret (BitVec.ofNat 256 (num (input.take 64) 0 32)) (BitVec.ofNat 256 (num (input.take 64) 32 32))
      let hash := Config.sha256 (input.take 64 ++ qd ++ input.drop 64)
      (u.part p).session = some { key := Config.sha256 (bytesOf 32 z.toNat ++ input.take 64 ++ qd), counter := 0 } ∧
      u.hostMem = writeBytes s.hostMem m.p1.toNat (qd ++ s.report m.vf.toNat (bytesOf 32 hash.toNat) n) ∧
      (u.pfSlot b.toNat).status = 1 ∧ (u.pfSlot b.toNat).cmd = none := by
  have done := backgroundDone_answers (r := s.endKeySession m) runs (by decide) rfl
  refine ⟨Config.firmwareKey (2 ^ 90 + s.fresh), s.draw.1, _, done, ?_, rfl, ?_, ?_⟩
  · have part : (s.vf m.vf.toNat).part.getD 64 = p := by rw [bound]; rfl
    rw [State.part_answerSlot, ← part]
    exact congrArg Partition.session (State.part_modPart ..)
  · rw [State.answerSlot_slot]
    rfl
  · rw [State.answerSlot_slot]

section Halted
variable {t : Nat} (found : s.teamOf m.vf.toNat m.die.toNat = some t) (halted : (s.team m.die.toNat t).st = 8)
include found halted

/-- Exporting seals the team, or says that the host's buffer is too small for the image. -/
theorem State.endExport_cases :
    ((s.endExport m).1.1 = 1 ∧ (s.endExport m).2.exports.map (fun e => (e.key, e.image)) =
      s.exports.map (fun e => (e.key, e.image)) ++ [(s.sealKey (s.team m.die.toNat t).part, s.imageOf m.die.toNat t)]) ∨
    ((s.endExport m).1 = (5, []) ∧ (0 < (s.team m.die.toNat t).spages → m.p1.toNat < 64 + 65536 * (s.team m.die.toNat t).spages)) := by
  rw [State.endExport, found]
  dsimp only
  rw [if_neg (not_not.2 halted)]
  by_cases small : m.p1.toNat < 64 + s.draw.1 % (65536 * (s.team m.die.toNat t).spages)
  · rw [if_pos small]
    refine .inr ⟨rfl, fun room => small.trans ?_⟩
    have := Nat.mod_lt s.draw.1 (show 0 < 65536 * (s.team m.die.toNat t).spages by omega)
    omega
  · rw [if_neg small]
    exact .inl ⟨rfl, List.map_append ..⟩

/-- An import takes an image that the partition's key opens, whole, or refuses it. -/
theorem State.endImport_cases :
    let image := s.openImage (s.sealKey (s.team m.die.toNat t).part) (readBytes s.hostMem m.p0.toNat m.p1.toNat)
    (image = none → s.endImport m = ((8, []), s)) ∧
    ∀ e, image = some e →
      ((∃ k ∈ e.team.saved, ∃ x ∈ k.strands, x.2.supported = false) → s.endImport m = ((7, []), s)) ∧
      ((∀ k ∈ e.team.saved, ∀ x ∈ k.strands, x.2.supported = true) → e.team.landing.length ≤ 2 ^ (s.team m.die.toNat t).lsize →
        (∀ k ∈ e.team.saved, k.strands = [] ∨
          (s.physCore (s.team m.die.toNat t).part m.die.toNat (k.lcore / 8) (k.lcore % 8)).isSome = true) →
        s.endImport m = ((1, []), s.takeImage m.die.toNat t e)) := by
  dsimp only
  rw [State.endImport, found]
  dsimp only
  rw [if_neg (not_not.2 halted)]
  refine ⟨fun shut => ?_, fun e opened => ⟨fun old => ?_, fun fit room cores => ?_⟩⟩
  · rw [shut]
    rfl
  · rw [opened]
    dsimp only
    refine if_pos ?_
    obtain ⟨k, hk, x, hx, unsupported⟩ := old
    rw [Bool.not_eq_true', List.all_eq_false]
    exact ⟨k, hk, by rw [List.all_eq_true]; exact fun all => absurd (all x hx) (by rw [unsupported]; decide)⟩
  · have supported : (e.team.saved.all fun v => v.strands.all fun x => x.2.supported) = true := by simpa using fun k hk => fit k hk
    have placed : (e.team.saved.all fun v => v.strands.isEmpty ||
        (s.physCore (s.team m.die.toNat t).part m.die.toNat (v.lcore / 8) (v.lcore % 8)).isSome) = true := by
      rw [List.all_eq_true]
      intro k hk
      rw [Bool.or_eq_true, List.isEmpty_iff]
      exact cores k hk
    rw [opened]
    dsimp only
    rw [supported, placed, decide_eq_false (by omega)]
    rfl

end Halted

end Ends

theorem backgroundEnds_holds : Claims.backgroundEnds := by
  refine ⟨fun s b idle => backgroundDone_idle idle, fun s b code m runs => ⟨?_, ?_, ?_, ?_, ?_, ?_⟩⟩
  · rintro rfl
    exact imageLoad_cases runs
  · rintro rfl
    exact teamStop_done runs
  · rintro rfl
    exact attest_done runs
  · rintro rfl p bound
    exact keySession_done runs bound
  · rintro rfl
    exact ⟨backgroundDone_answers runs (by decide) rfl, fun t found halted => State.endExport_cases found halted⟩
  · rintro rfl
    exact ⟨backgroundDone_answers runs (by decide) rfl, fun t found halted => State.endImport_cases found halted⟩

/-- Settles O43: the frame that turns a command away, the commands that make and move a team, the starts, and the ends in the background. -/
theorem teamCommands : Obligations.TeamCommands :=
  ⟨turnedAway_holds, teamsMade_holds, teamsMove_holds, keysAndStarts_holds, backgroundEnds_holds⟩

end Sys2Proof.Machine
end

section
/-!
PROOF. The scalar float instructions: results, rounding modes, latencies and records (R78, R108 to R112, R348).
-/

set_option Elab.async false
namespace Sys2Proof.Machine

/-! ## What sources and the divide unit leave of the marks -/

theorem State.src_ctlMarks (s : State) (a : BitVec 6) : (s.src a).2.me.ctlMarks = s.me.ctlMarks := by
  obtain same | ⟨streams, same⟩ := s.me_src_cases a <;> rw [same]

theorem State.src2_ctlMarks (s : State) (a b : BitVec 6) : (s.src2 a b).2.me.ctlMarks = s.me.ctlMarks :=
  ((s.src a).2.src_ctlMarks b).trans (s.src_ctlMarks a)

/-- A divide unit is a part of the core outside its strands. -/
theorem State.me_useDivider (s : State) (sb : Bool) (n : Nat) : (s.useDivider sb n).me = s.me := by
  show ((s.useDivider sb n).core s.issue.core).strand s.issue.strand = (s.core s.issue.core).strand s.issue.strand
  rw [State.useDivider, State.modMyCore, State.core_modCore]
  cases sb <;> rfl

/-! ## The rounding mode and its mark (R77, R348) -/

/-- The mark that a rounded result takes from RMODE. -/
def State.modeMark (s : State) (r : BitVec 3) : Bool := r.toNat == 7 && s.me.ctlMarks.contains 0x007

/-- A rounding syllable reads RMODE exactly where its field selects it, and the mark is the one from before its sources. -/
theorem State.ctlMark_rounding {s t : State} {i : Instr} {r : BitVec 3}
    (reads : i.controls = if r.toNat = 7 then [0x007] else []) (marks : t.me.ctlMarks = s.me.ctlMarks) :
    t.ctlMark i.controls = s.modeMark r := by
  rw [reads, State.modeMark]
  by_cases selected : r.toNat = 7
  · rw [if_pos selected, State.ctlMark_singleton, marks, selected]
    rfl
  · rw [if_neg selected, beq_eq_false_iff_ne.2 selected]
    rfl

/-! ## The divide-and-root units (R112) -/

/-- The units of a syllable's slot, and of SB with a mirror, are taken for n cycles. -/
def State.occupyDividers (s : State) (n : Nat) : State :=
  let t := s.useDivider (s.issue.slot != 0) n
  if t.issue.mirrored then t.useDivider true n else t

theorem State.me_occupyDividers (s : State) (n : Nat) : (s.occupyDividers n).me = s.me := by
  rw [State.occupyDividers]
  split <;> simp only [State.me_useDivider]

/-- The units that a syllable needs are idle. -/
def State.DividersIdle (s : State) : Prop :=
  ¬ s.myCore.mtime < (if s.issue.slot = 0 then s.myCore.divA else s.myCore.divB) ∧
    (s.issue.mirrored = true → ¬ s.myCore.mtime < s.myCore.divB)

theorem State.divHold_slot_eq_none {s : State} (idle : s.DividersIdle) : s.divHold (s.issue.slot != 0) = none := by
  obtain ⟨own, -⟩ := idle
  refine if_neg ?_
  simpa using own

theorem State.divHold_mirror_eq_none {s : State} (idle : s.DividersIdle) :
    (if s.issue.mirrored then s.divHold true else none) = none := by
  obtain ⟨-, mirror⟩ := idle
  split
  · next mirrored => exact if_neg (mirror mirrored)
  · rfl

/-! ## The shapes of a float syllable -/

section Shapes
variable {i : Instr} {s : State} {d a b : BitVec 6} {p : BitVec 2} {r : BitVec 3} {own : Prop}
  {f : Fmt → RMode → Val → Val → Nat × Events}

/-- Two operands, with the latency of the precision. -/
theorem floatTwo_goes {l l32 l64 : Nat} (h : Goes i s own) (reads : i.controls = if r.toNat = 7 then [0x007] else [])
    (latency : (if p = 0 then l32 else l64) = l) :
    floatTwo i d a b p r l32 l64 f s = .next (let q := s.src2 a b
      let v := f (precFmt p) (s.roundMode r) (floatOf p q.1.1) (floatOf p q.1.2.1)
      q.2.result l (.x d (BitVec.ofNat 64 v.1)) (q.1.2.2 || s.modeMark r) (q.2.eventRecords v.2)) := by
  rw [floatTwo, issuePlain_goes h, latency]
  dsimp only
  rw [State.ctlMark_rounding reads (s.src2_ctlMarks a b)]

/-- The operations that round their exact result. -/
theorem floatOp_goes {g : RMode → Val → Val → Val} {l l32 l64 : Nat} (h : Goes i s own)
    (reads : i.controls = if r.toNat = 7 then [0x007] else []) (latency : (if p = 0 then l32 else l64) = l) :
    floatTwo i d a b p r l32 l64 (floatOp g) s = .next (let q := s.src2 a b
      let x := floatOf p q.1.1
      let y := floatOf p q.1.2.1
      let v := (precFmt p).result (s.roundMode r) (x.isNan || y.isNan) (g (s.roundMode r) x y)
      q.2.result l (.x d (BitVec.ofNat 64 v.1)) (q.1.2.2 || s.modeMark r) (q.2.eventRecords v.2)) :=
  floatTwo_goes h reads latency

/-- Division and root, once the units are idle. -/
theorem floatRoot_goes {read : State → (Val × Val × Bool) × State} (h : Goes i s s.DividersIdle)
    (reads : i.controls = if r.toNat = 7 then [0x007] else []) (marks : (read s).2.me.ctlMarks = s.me.ctlMarks) :
    floatRoot i d p r read f s = .next (let q := read s
      let n := if p = 0 then 14 else 24
      let v := f (precFmt p) (s.roundMode r) q.1.1 q.1.2.1
      (q.2.occupyDividers n).result n (.x d (BitVec.ofNat 64 v.1)) (q.1.2.2 || s.modeMark r)
        ((q.2.occupyDividers n).eventRecords v.2)) := by
  have kept (n : Nat) : ((read s).2.occupyDividers n).me.ctlMarks = s.me.ctlMarks := by rw [State.me_occupyDividers, marks]
  rw [floatRoot, issueWith_goes h fun idle => ⟨rfl, ?_, rfl⟩]
  · dsimp only
    rw [← State.ctlMark_rounding reads (kept _)]
    rfl
  · dsimp only
    rw [State.divHold_slot_eq_none idle, State.divHold_mirror_eq_none idle]
    rfl

end Shapes

/-! ## FFMA, FCVT and FCMP (R109 to R111) -/

theorem ffma_completes (s : State) (d a b : BitVec 6) (p : BitVec 2) (r : BitVec 3) :
    Claims.Completes (.ffma d a b p r) s (let q := s.src2 a b
      let acc := floatOf p (s.me.reg d)
      let x := floatOf p q.1.1
      let y := floatOf p q.1.2.1
      let v := (precFmt p).result (s.roundMode r) (acc.isNan || x.isNan || y.isNan) (Val.add (s.roundMode r) acc (x.mul y))
      q.2.result (if p = 0 then 5 else 7) (.x d (BitVec.ofNat 64 v.1)) (s.me.regMark d || q.1.2.2 || s.modeMark r)
        (q.2.eventRecords v.2)) := by
  intro h
  rw [exec_ffma, execFfma, issuePlain_goes h]
  dsimp only
  rw [State.ctlMark_rounding rfl (s.src2_ctlMarks a b)]

theorem fcvt_completes (s : State) (d a : BitVec 6) (k t : BitVec 2) (r : BitVec 3) :
    Claims.Completes (.fcvt d a k t r) s (let q := s.src a
      let v := toKind t (s.roundMode r) (kindOf k q.1.1)
      q.2.result 3 (.x d v.1) (q.1.2 || s.modeMark r) (q.2.eventRecords v.2)) := by
  intro h
  rw [exec_fcvt, execFcvt, issuePlain_goes h]
  dsimp only
  rw [State.ctlMark_rounding rfl (s.src_ctlMarks a)]

theorem fcmp_completes (s : State) (d a b : BitVec 6) (p : BitVec 2) (c : BitVec 3) :
    Claims.Completes (.fcmp d a b p c) s
      (Claims.twoNext s d a b 2 fun x y => if fcmpHolds c (floatOf p x) (floatOf p y) then 1 else 0) := by
  intro h
  rw [exec_fcmp, execFcmp, aluTwo, issuePlain_goes h]
  rfl

/-- Settles O13: each float instruction is its format's operation under the selected mode, through the shape of its operands. -/
theorem floatResults : Obligations.FloatResults := by
  intro s d a b p k t r c mode two ready n busy
  have same : (if p = 0 then 4 else 4) = 4 := ite_self 4
  refine ⟨?fadd, ?fsub, ?fmul, ?fmin, ?fmax, ?fdiv, ?fsqrt, ffma_completes s d a b p r, fcvt_completes s d a k t r,
    fcmp_completes s d a b p c⟩
  case fadd => exact fun h => (exec_fadd d a b p r s).trans (floatOp_goes h rfl same)
  case fsub => exact fun h => (exec_fsub d a b p r s).trans (floatOp_goes h rfl same)
  case fmul => exact fun h => (exec_fmul d a b p r s).trans (floatOp_goes h rfl rfl)
  case fmin => exact fun h => (exec_fmin d a b p r s).trans (floatOp_goes h rfl same)
  case fmax => exact fun h => (exec_fmax d a b p r s).trans (floatOp_goes h rfl same)
  case fdiv => exact fun h => (exec_fdiv d a b p r s).trans (floatRoot_goes h rfl (s.src2_ctlMarks a b))
  case fsqrt => exact fun h => (exec_fsqrt d a p r s).trans (floatRoot_goes h rfl (s.src_ctlMarks a))

end Sys2Proof.Machine
end

section
/-!
PROOF. Bit fields and zero counts, bit by bit (R105, R106).
-/

set_option Elab.async false
namespace Sys2Proof.Machine

/-! ## Fields and zero counts (R105, R106) -/

theorem extractField_getLsbD (pos len j : Nat) (x : Word) (hj : j < 64) :
    (extractField pos len x).getLsbD j = (decide (j < len) && x.getLsbD (pos + j)) := by
  rw [extractField, BitVec.getLsbD_ofNat, Nat.testBit_mod_two_pow, Nat.testBit_div_two_pow, BitVec.testBit_toNat, Nat.add_comm pos]
  simp [hj]

/-- The mask of a field: the bits from pos to pos + len - 1. -/
theorem fieldMask_getLsbD (pos len j : Nat) (hj : j < 64) :
    (BitVec.ofNat 64 ((2 ^ len - 1) * 2 ^ pos)).getLsbD j = decide (pos ≤ j ∧ j < pos + len) := by
  rw [BitVec.getLsbD_ofNat, Nat.testBit_mul_two_pow, Nat.testBit_two_pow_sub_one]
  by_cases h : pos ≤ j
  · have : j - pos < len ↔ j < pos + len := by omega
    simp [hj, h, this]
  · simp [h]

theorem insertField_getLsbD (pos len j : Nat) (x y : Word) (hj : j < 64) :
    (insertField pos len x y).getLsbD j = if pos ≤ j ∧ j < pos + len then y.getLsbD (j - pos) else x.getLsbD j := by
  rw [insertField, BitVec.getLsbD_or, BitVec.getLsbD_and, BitVec.getLsbD_and, BitVec.getLsbD_not, fieldMask_getLsbD _ _ _ hj,
    BitVec.getLsbD_shiftLeft]
  split
  · next h => simp [hj, h, Nat.not_lt.2 h.1]
  · next h => simp [hj, h]

theorem bitFields_hold : Claims.bitFields := fun pos len j x y _ _ hj =>
  ⟨extractField_getLsbD pos len j x hj, insertField_getLsbD pos len j x y hj⟩

/-- The highest set bit stands below as many zeros as CLZ counts (R105). -/
theorem leadingZeros_spec {x : Word} (h : x ≠ 0) : leadingZeros x < 64 ∧ x.getLsbD (63 - leadingZeros x) = true ∧
    ∀ j, 63 - leadingZeros x < j → x.getLsbD j = false := by
  have hx : x.toNat ≠ 0 := fun e => h (BitVec.eq_of_toNat_eq (by simpa using e))
  have hlog : x.toNat.log2 < 64 := (Nat.log2_lt hx).2 x.isLt
  have htop : 63 - leadingZeros x = x.toNat.log2 := by rw [leadingZeros, if_neg h]; omega
  rw [htop]
  refine ⟨by rw [leadingZeros, if_neg h]; omega, ?_, fun j hj => ?_⟩
  · rw [← BitVec.testBit_toNat]; exact Nat.testBit_log2 hx
  · rw [← BitVec.testBit_toNat]
    exact Nat.testBit_lt_two_pow (Nat.lt_of_lt_of_le Nat.lt_log2_self (Nat.pow_le_pow_right (by decide) hj))

/-- A word without a set bit below 64 is zero. -/
theorem eq_zero_of_getLsbD {x : Word} (h : ∀ j, j < 64 → x.getLsbD j = false) : x = 0 :=
  BitVec.eq_of_getLsbD_eq fun j hj => by simpa using h j hj

/-- The lowest set bit stands above as many zeros as CTZ counts (R105). -/
theorem trailingZeros_spec {x : Word} (h : x ≠ 0) : trailingZeros x < 64 ∧ x.getLsbD (trailingZeros x) = true ∧
    ∀ j, j < trailingZeros x → x.getLsbD j = false := by
  cases hf : (List.range 64).find? fun i => x.getLsbD i with
  | none =>
    refine absurd (eq_zero_of_getLsbD fun j hj => ?_) h
    simpa using List.find?_eq_none.1 hf j (List.mem_range.2 hj)
  | some k =>
    have hk : trailingZeros x = k := by rw [trailingZeros, hf]; rfl
    obtain ⟨set, below⟩ := List.find?_range_eq_some.1 hf
    rw [hk]
    exact ⟨List.mem_range.1 below.1, set, fun j hj => by simpa using below.2 j hj⟩

/-- Settles O11: the bits of a field by those of its number, the zero counts by the highest and the lowest set bit. -/
theorem bitFieldsAndCounts : Obligations.BitFieldsAndCounts :=
  ⟨bitFields_hold, by decide, by decide, fun _ h => ⟨leadingZeros_spec h, trailingZeros_spec h⟩⟩
end Sys2Proof.Machine
end

section
/-!
PROOF. The scalar integer instructions (R88, R89, R94, R103, R105 to R107).
-/

set_option Elab.async false
namespace Sys2Proof.Machine

/-! ## Integer operations as the rules name them (R103 to R107) -/

/-- Bits [127:64] of a number taken modulo 2^128. -/
theorem upperHalf_ofInt (z : Int) : ((BitVec.ofInt 128 z) >>> 64).setWidth 64 = BitVec.ofInt 64 (z / 2 ^ 64) := by
  apply BitVec.eq_of_toNat_eq
  rw [BitVec.toNat_setWidth, BitVec.toNat_ushiftRight, BitVec.toNat_ofInt, BitVec.toNat_ofInt, Nat.shiftRight_eq_div_pow]
  omega

theorem mulHigh_eq_upperProduct (u : Bool) (a b : Word) : mulHigh u a b = Claims.upperProduct u a b := by
  cases u
  · simp only [mulHigh, Claims.upperProduct, Bool.false_eq_true, if_false, BitVec.signExtend, ← BitVec.ofInt_mul,
      upperHalf_ofInt]
  · have hab : a.toNat * b.toNat < 2 ^ 128 := by
      have := Nat.mul_lt_mul'' a.isLt b.isLt
      omega
    apply BitVec.eq_of_toNat_eq
    simp only [mulHigh, Claims.upperProduct, if_true, BitVec.toNat_setWidth, BitVec.toNat_ushiftRight, BitVec.toNat_mul,
      BitVec.toNat_ofNat, Nat.shiftRight_eq_div_pow]
    have ha := a.isLt
    have hb := b.isLt
    rw [Nat.mod_eq_of_lt (a := a.toNat) (by omega), Nat.mod_eq_of_lt (a := b.toNat) (by omega), Nat.mod_eq_of_lt hab]

theorem shiftBy_eq (y : Word) : shiftBy y = (y.extractLsb' 0 6).toNat := by
  simp [shiftBy, BitVec.extractLsb'_toNat]

theorem less_eq (u : Bool) (x y : Word) :
    less u x y = if u then decide (x.toNat < y.toNat) else decide (x.toInt < y.toInt) := by
  cases u <;> rfl

theorem ofBool64_decide (p : Prop) [Decidable p] : ofBool64 (decide p) = if p then 1 else 0 := by
  simp [ofBool64]

theorem shiftLeft_eq_mul (y : Word) (k : Nat) : y <<< k = y * BitVec.ofNat 64 (2 ^ k) := by
  apply BitVec.eq_of_toNat_eq
  simp [BitVec.toNat_shiftLeft, Nat.shiftLeft_eq]

/-- BFX of len bits as a shift and a mask (R106). -/
theorem extractField_eq_and (pos len : Nat) (x : Word) :
    extractField pos len x = (x >>> pos) &&& BitVec.ofNat 64 (2 ^ len - 1) := by
  refine BitVec.eq_of_getLsbD_eq fun j hj => ?_
  rw [extractField_getLsbD _ _ _ _ hj, BitVec.getLsbD_and, BitVec.getLsbD_ushiftRight, BitVec.getLsbD_ofNat,
    Nat.testBit_two_pow_sub_one, Bool.and_comm]
  simp [hj]

/-- MOVHH: the field of 20 bits at 44 replaced (R107). -/
theorem insertField_top (x : Word) (h : BitVec 20) :
    insertField 44 20 x (zext64 h) = (h.setWidth 64 <<< 44) ||| (x &&& 0xFFFFFFFFFFF) := by
  refine BitVec.eq_of_getLsbD_eq fun j hj => ?_
  rw [insertField_getLsbD _ _ _ _ _ hj, show (0xFFFFFFFFFFF : Word) = BitVec.ofNat 64 (2 ^ 44 - 1) from rfl, BitVec.getLsbD_or,
    BitVec.getLsbD_and, BitVec.getLsbD_shiftLeft, BitVec.getLsbD_ofNat, Nat.testBit_two_pow_sub_one, zext64]
  by_cases h44 : j < 44
  · simp [hj, h44, Nat.not_le.2 h44]
  · simp [hj, h44, Nat.not_lt.1 h44]

/-! ## The shapes of operand -/

/-- A meaning of one source answers the state that its function gives. -/
theorem aluOne_completes {i : Instr} {s : State} {d a : BitVec 6} {l : Nat} {f g : Word → Word}
    (meaning : exec i s = aluOne i d a l f s) (agree : ∀ x, f x = g x) : Claims.Completes i s (Claims.oneNext s d a l g) := by
  obtain rfl : f = g := funext agree
  exact fun h => meaning.trans (issuePlain_goes h)

theorem aluTwo_completes {i : Instr} {s : State} {d a b : BitVec 6} {l : Nat} {f g : Word → Word → Word}
    (meaning : exec i s = aluTwo i d a b l f s) (agree : ∀ x y, f x y = g x y) :
    Claims.Completes i s (Claims.twoNext s d a b l g) := by
  obtain rfl : f = g := funext fun x => funext (agree x)
  exact fun h => meaning.trans (issuePlain_goes h)

theorem aluKeep_completes {i : Instr} {s : State} {d a : BitVec 6} {f : Word → Word → Word}
    (meaning : exec i s = aluKeep i d a f s) : Claims.Completes i s (Claims.keepNext s d a f) :=
  fun h => meaning.trans (issuePlain_goes h)

theorem aluSelf_completes {i : Instr} {s : State} {d : BitVec 6} {f : Word → Word} {v : Word}
    (meaning : exec i s = aluSelf i d f s) (agree : f (s.me.reg d) = v) :
    Claims.Completes i s (Claims.valueNext s d 1 v (s.me.regMark d)) := by
  subst agree
  exact fun h => meaning.trans (issuePlain_goes h)

theorem sel_completes (s : State) (d a b : BitVec 6) : Claims.Completes (.sel d a b) s ((s.src2 a b).2.result 1
    (.x d (if s.me.reg d = 0 then (s.src2 a b).1.2.1 else (s.src2 a b).1.1)) (s.me.regMark d || (s.src2 a b).1.2.2)) := by
  intro h
  rw [exec_sel, execSel, issuePlain_goes h]
  simp only [ne_eq, ite_not]

/-- Settles O10: each meaning is one of the shapes of operand, and its function is the one that the rules name. -/
theorem integerResults : Obligations.IntegerResults := by
  intro s d a b p l n u m h k
  refine ⟨aluTwo_completes (exec_add ..) fun _ _ => rfl, aluTwo_completes (exec_sub ..) fun _ _ => rfl,
    aluTwo_completes (exec_mul ..) fun _ _ => rfl, aluTwo_completes (exec_mulh ..) (mulHigh_eq_upperProduct u),
    aluTwo_completes (exec_and ..) fun _ _ => rfl, aluTwo_completes (exec_or ..) fun _ _ => rfl,
    aluTwo_completes (exec_xor ..) fun _ _ => rfl,
    aluTwo_completes (exec_shl ..) fun _ y => by rw [shiftBy_eq], aluTwo_completes (exec_shr ..) fun _ y => by rw [shiftBy_eq],
    aluTwo_completes (exec_sar ..) fun _ y => by rw [shiftBy_eq],
    aluTwo_completes (exec_slt ..) fun x y => by rw [less_eq]; rfl,
    aluTwo_completes (exec_seq ..) fun x y => ?_,
    aluTwo_completes (exec_min ..) fun x y => by rw [less_eq], aluTwo_completes (exec_max ..) fun x y => by rw [less_eq],
    sel_completes s d a b, aluTwo_completes (exec_agen ..) fun x y => by rw [shiftLeft_eq_mul],
    aluOne_completes (exec_clz ..) fun _ => rfl, aluOne_completes (exec_ctz ..) fun _ => rfl,
    aluOne_completes (exec_popc ..) fun _ => rfl, aluOne_completes (exec_brev ..) fun _ => rfl,
    fun go => (exec_peek ..).trans (issuePlain_goes go),
    aluOne_completes (exec_bfx ..) (extractField_eq_and p.toNat (l.toNat + 1)), aluKeep_completes (exec_bfi ..),
    aluOne_completes (exec_addi ..) fun _ => rfl, aluOne_completes (exec_andi ..) fun _ => rfl,
    aluOne_completes (exec_ori ..) fun _ => rfl, aluOne_completes (exec_xori ..) fun _ => rfl,
    aluOne_completes (exec_shli ..) fun _ => rfl, aluOne_completes (exec_shri ..) fun _ => rfl,
    aluOne_completes (exec_sari ..) fun _ => rfl, aluOne_completes (exec_slti ..) fun x => ?_,
    fun go => (exec_movi ..).trans (issuePlain_goes go), aluSelf_completes (exec_movhi ..) rfl,
    aluSelf_completes (exec_movhh ..) (insertField_top _ h)⟩
  · simp [ofBool64]
  · simp [ofBool64, BitVec.slt, sext64, BitVec.toInt_signExtend_of_le]

end Sys2Proof.Machine
end

section
/-!
PROOF. The order of the checks (R91), and the divisions (R104).
-/

set_option Elab.async false
namespace Sys2Proof.Machine

/-! ## The first check that fails (R91) -/

section FirstCheck
variable {i : Instr} {s : State} {k : Checks} {v : Verdict}

theorem State.verdictOf_of_decode (h : s.decodeVerdict i = some v) : s.verdictOf i k = some v := by
  rw [State.verdictOf, h]; rfl

theorem State.verdictOf_of_starves (legal : s.decodeVerdict i = none) (starved : s.starves [] i = true) :
    s.verdictOf i k = some (blockFor waitStream) := by
  rw [State.verdictOf, legal, starved]; rfl

theorem State.verdictOf_of_blocks (legal : s.decodeVerdict i = none) (fed : s.starves [] i = false) (h : k.blocks = some v) :
    s.verdictOf i k = some v := by
  rw [State.verdictOf, legal, fed, h]; rfl

theorem State.verdictOf_of_holds (legal : s.decodeVerdict i = none) (fed : s.starves [] i = false) (blocks : k.blocks = none)
    (h : k.holds = some v) : s.verdictOf i k = some v := by
  rw [State.verdictOf, legal, fed, blocks, h]; rfl

/-- A fault of its own stops a syllable that passes everything before it. -/
theorem State.verdictOf_of_faults (clear : Clear i s) (blocks : k.blocks = none) (holds : k.holds = none) (h : k.faults = some v) :
    s.verdictOf i k = some v := by
  obtain ⟨legal, fed, unguarded, sound⟩ := clear
  rw [State.verdictOf, legal, fed, blocks, holds, unguarded, sound, h]; rfl

end FirstCheck

/-- Settles O50: the checks of a syllable are made in this order, and the first that fails is its verdict. -/
theorem checkOrder : Obligations.CheckOrder := fun s i k =>
  ⟨fun _ => State.verdictOf_of_decode, State.verdictOf_of_starves, fun legal fed _ => State.verdictOf_of_blocks legal fed,
    fun legal fed blocks _ => State.verdictOf_of_holds legal fed blocks, s.verdictOf_none i k⟩

/-! ## Quotient and remainder (R104) -/

theorem divide_zero (u : Bool) (a : Word) : divide u a 0 = (BitVec.allOnes 64, a) := if_pos rfl

theorem divide_unsigned (a : Word) {b : Word} (h : b ≠ 0) : divide true a b = (a / b, a % b) := by
  rw [divide, if_neg h, if_pos rfl]
  refine Prod.ext (BitVec.eq_of_toNat_eq ?_) (BitVec.eq_of_toNat_eq ?_)
  · rw [BitVec.toNat_udiv]
    exact Nat.mod_eq_of_lt (Nat.lt_of_le_of_lt (Nat.div_le_self ..) a.isLt)
  · rw [BitVec.toNat_umod]
    exact Nat.mod_eq_of_lt (Nat.lt_of_le_of_lt (Nat.mod_le ..) a.isLt)

/-- Outside the corner where the quotient does not fit, both round as the integers do. -/
theorem divide_signed {a b : Word} (h : b ≠ 0) (fits : ¬ (a = BitVec.intMin 64 ∧ b = BitVec.allOnes 64)) :
    (divide false a b).1.toInt = a.toInt.tdiv b.toInt ∧ (divide false a b).2.toInt = a.toInt.tmod b.toInt := by
  have quotient : (a.sdiv b).toInt = a.toInt.tdiv b.toInt := by
    refine BitVec.toInt_sdiv_of_ne_or_ne a b ?_
    by_contra both
    push Not at both
    exact fits both
  rw [divide, if_neg h, if_neg Bool.false_ne_true, if_neg fits]
  dsimp only
  rw [← quotient, ← BitVec.toInt_srem, BitVec.ofInt_toInt, BitVec.ofInt_toInt]
  exact ⟨rfl, rfl⟩

theorem divide_unsigned_spec (a : Word) {b : Word} (h : b ≠ 0) :
    (divide true a b).1 * b + (divide true a b).2 = a ∧ (divide true a b).2.toNat < b.toNat := by
  rw [divide_unsigned a h]
  have positive : 0 < b.toNat := Nat.pos_of_ne_zero fun e => h (BitVec.eq_of_toNat_eq (by simpa using e))
  refine ⟨BitVec.eq_of_toNat_eq ?_, ?_⟩
  · rw [BitVec.toNat_add, BitVec.toNat_mul, BitVec.toNat_udiv, BitVec.toNat_umod, Nat.mod_add_mod, Nat.div_add_mod',
      Nat.mod_eq_of_lt a.isLt]
  · rw [BitVec.toNat_umod]
    exact Nat.mod_lt _ positive

theorem divide_signed_spec {a b : Word} (h : b ≠ 0) (fits : ¬ (a = BitVec.intMin 64 ∧ b = BitVec.allOnes 64)) :
    (divide false a b).1.toInt * b.toInt + (divide false a b).2.toInt = a.toInt ∧
    (divide false a b).2.toInt.natAbs < b.toInt.natAbs ∧
    ((divide false a b).2 = 0 ∨ ((divide false a b).2.toInt < 0 ↔ a.toInt < 0)) := by
  obtain ⟨quotient, remainder⟩ := divide_signed h fits
  have positive : 0 < b.toInt.natAbs := Int.natAbs_pos.2 fun e => h (BitVec.eq_of_toInt_eq (by simpa using e))
  refine ⟨by rw [quotient, remainder, Int.tdiv_mul_add_tmod], by rw [remainder, Int.natAbs_tmod]; exact Nat.mod_lt _ positive, ?_⟩
  rw [or_iff_not_imp_left]
  intro left
  have nonzero : a.toInt.tmod b.toInt ≠ 0 := fun e => left (BitVec.eq_of_toInt_eq (by rw [remainder, e]; rfl))
  rw [remainder, ← Int.sign_eq_neg_one_iff_neg, Int.sign_tmod, if_neg fun dvd => nonzero (Int.tmod_eq_zero_of_dvd dvd),
    Int.sign_eq_neg_one_iff_neg]

/-! ## The divide unit of SB (R104, R112) -/

theorem divRem_goes {i : Instr} {s : State} {d a b : BitVec 6} {f : Word → Word → Word}
    (h : Goes i s (¬ s.myCore.mtime < s.myCore.divB)) :
    divRem i d a b f s = .next (((s.src2 a b).2.useDivider true 20).result 20 (.x d (f (s.src2 a b).1.1 (s.src2 a b).1.2.1))
      (s.src2 a b).1.2.2) := by
  rw [divRem, issueWith_goes h fun idle => ⟨rfl, if_neg idle, rfl⟩]

/-- A bundle that a hold stops passes a cycle, and nothing else of it happens (R161). -/
theorem issueWith_held {i : Instr} {s : State} {checks : State → Checks} {effect : State → State} (fresh : s.issue.admitted = false)
    (clear : Clear i s) (blocks : (checks s).blocks = none) (holds : (checks s).holds = some (.hold true)) :
    issueWith i s checks effect = .next (({ s with issue := { s.issue with verdict := some (.hold true) } } : State).holdCycle
      s.issue.core s.issue.strand true) :=
  issueWith_refused fresh (State.verdictOf_of_holds clear.legal clear.fed blocks holds)

/-- What a held cycle of the issuing strand leaves. -/
theorem State.holdCycle_me (s : State) : (s.holdCycle s.issue.core s.issue.strand true).me = { s.me with time := s.me.time + 1 } ∧
    (s.holdCycle s.issue.core s.issue.strand true).myCore.mtime = s.myCore.mtime + 1 ∧
    (s.holdCycle s.issue.core s.issue.strand true).myCore.divB = s.myCore.divB := by
  have core : (s.holdCycle s.issue.core s.issue.strand true).myCore =
      { s.myCore.setStrand s.issue.strand { s.me with time := s.me.time + 1 } with
        cycle := s.myCore.cycle + 1, mtime := s.myCore.mtime + 1 } := s.core_modCore _ _
  refine ⟨?_, by rw [core], by rw [core]; rfl⟩
  show ((s.holdCycle s.issue.core s.issue.strand true).myCore).strand s.issue.strand = _
  rw [core]
  exact Core.strand_setStrand ..

/-- The four syllables of SB's divide unit find it busy. -/
theorem divUnit_held {s : State} {i : Instr} {d a b : BitVec 6} {u : Bool} {p : BitVec 2} {r : BitVec 3}
    (which : i = .div d a b u ∨ i = .rem d a b u ∨ i = .fdiv d a b p r ∨ i = .fsqrt d a p r) (sb : s.issue.slot = 1)
    (fresh : s.issue.admitted = false) (clear : Clear i s) (busy : s.myCore.mtime < s.myCore.divB) :
    exec i s = .next (({ s with issue := { s.issue with verdict := some (.hold true) } } : State).holdCycle
      s.issue.core s.issue.strand true) := by
  have held : s.divHold true = some (.hold true) := if_pos busy
  have heldHere : (s.divHold (s.issue.slot != 0)).or (if s.issue.mirrored then s.divHold true else none) = some (.hold true) := by
    rw [sb, show ((1 : Nat) != 0) = true from rfl, held]; rfl
  rcases which with rfl | rfl | rfl | rfl
  · rw [exec_div, execDiv, divRem, issueWith_held fresh clear rfl held]
  · rw [exec_rem, execRem, divRem, issueWith_held fresh clear rfl held]
  · rw [exec_fdiv, execFdiv, floatRoot, issueWith_held fresh clear rfl heldHere]
  · rw [exec_fsqrt, execFsqrt, floatRoot, issueWith_held fresh clear rfl heldHere]

/-- DIV and REM stand in SB alone (R48, R104). -/
theorem State.decodeVerdict_sbOnly {s : State} {i : Instr} (wf : i.wellFormed = true) (sb : i.sbOnly = true) (plain : f64Special i = false)
    (sa : s.issue.slot = 0) : s.decodeVerdict i = some (decodeFault illegalSlotCode i) := by
  have formed : ¬ (!i.wellFormed || (f64Special i && !versionSupported s.me.ctl.version)) = true := by simp [wf, plain]
  have inSa : (i.sbOnly && s.issue.slot == 0) = true := by simp [sb, sa]
  exact (if_neg formed).trans (if_pos inSa)

/-- Settles O12: the operations are the machine's integer division, and SB's unit is the one hold of the syllables on it. -/
theorem divisionResults : Obligations.DivisionResults := by
  refine ⟨fun s d a b u => ⟨fun h => (exec_div ..).trans (divRem_goes h), fun h => (exec_rem ..).trans (divRem_goes h)⟩,
    divide_zero, by decide, fun a b => divide_unsigned_spec a, fun a b => divide_signed_spec,
    fun s i d a b u p r which sb fresh clear busy => ?_, fun s d a b u hd sa => ?_, by decide⟩
  · obtain ⟨me, mtime, divB⟩ :=
      State.holdCycle_me ({ s with issue := { s.issue with verdict := some (.hold true) } } : State)
    exact ⟨_, divUnit_held which sb fresh clear busy, rfl, me, mtime, divB, rfl⟩
  · have wf : destOk d = true := decide_eq_true hd
    exact ⟨State.decodeVerdict_sbOnly wf rfl rfl sa, State.decodeVerdict_sbOnly wf rfl rfl sa⟩

end Sys2Proof.Machine
end

section
/-!
PROOF. Branches, jumps and calls (R100, R113, R114).
-/

set_option Elab.async false
namespace Sys2Proof.Machine

/-! ## What a source leaves alone -/

/-- The state after a pop: other streams of the issuing strand, and other elements noted as popped (R38). -/
def State.popping (s : State) (streams popped : Sparse (List Elem)) : State :=
  { s.modMe (fun t => { t with streams := streams }) with issue := { s.issue with popped := popped } }

theorem State.src_cases (s : State) (r : BitVec 6) : (s.src r).2 = s ∨ ∃ streams popped, (s.src r).2 = s.popping streams popped := by
  by_cases h : r.toNat < 56
  · exact .inl (by rw [s.src_register h])
  · cases he : s.me.stream (r.toNat - 56) with
    | nil => exact .inl (by rw [s.src_empty (by omega) he])
    | cons e es =>
      refine .inr ⟨put [] s.me.streams (r.toNat - 56) es,
        put [] s.issue.popped (r.toNat - 56) (look [] s.issue.popped (r.toNat - 56) ++ [e]), ?_⟩
      rw [State.src, if_neg h]
      simp only [he]
      rfl

theorem State.src_issue (s : State) (r : BitVec 6) : (s.src r).2.issue = { s.issue with popped := (s.src r).2.issue.popped } := by
  obtain same | ⟨streams, popped, same⟩ := s.src_cases r
  · rw [same]
  · rw [same]; rfl

theorem State.src2_issue (s : State) (a b : BitVec 6) :
    (s.src2 a b).2.issue = { s.issue with popped := (s.src2 a b).2.issue.popped } := by
  show ((s.src a).2.src b).2.issue = _
  rw [State.src_issue, State.src_issue]
  rfl

theorem State.src_addr (s : State) (r : BitVec 6) : (s.src r).2.issue.addr = s.issue.addr := by rw [s.src_issue r]

theorem State.src2_addr (s : State) (a b : BitVec 6) : (s.src2 a b).2.issue.addr = s.issue.addr := by rw [s.src2_issue a b]

theorem State.consumed_issue (s : State) (m : Bool) : (s.consumed m).issue = s.issue := by cases m <;> rfl

/-! ## Branches and jumps (R113, R114) -/

/-- Outside a live nest no transfer is in a loop body (R100). -/
theorem State.loopFault_none {s : State} (h : s.me.nest = none) : s.loopFault = none := by rw [State.loopFault, h]; rfl

theorem misalignedTarget_none {v : Word} (h : v.toNat % 4 = 0) : misalignedTarget v = none := by
  rw [misalignedTarget, if_neg (not_not.2 h)]

/-- A branch whose sources have been read, and marked ones consumed, goes to its target or on. -/
theorem branch_goes {w : Nat} {i : Instr} {s : State} {taken : State → Bool} {disp : BitVec w} {m : Bool} {t : State}
    (h : Goes i s (taken s = true → s.me.nest = none))
    (reads : i.sources.foldl (fun (q : Bool × State) r => let v := q.2.src r; (q.1 || v.1.2, v.2)) (false, s) = (m, t))
    (issue : t.issue.addr = s.issue.addr) :
    branch i taken disp s = .next (if taken s then (t.consumed m).goTo (s.issue.addr + disp.signExtend 42 * 4) 2 else t.consumed m) := by
  rw [branch, issueWith_goes h fun free => ⟨rfl, rfl, ?_⟩]
  · dsimp only
    rw [reads, State.target, State.consumed_issue, issue]
  · dsimp only
    split
    · next go => exact State.loopFault_none (free go)
    · rfl

/-- One source. -/
theorem branchOne_goes {w : Nat} {i : Instr} {s : State} {a : BitVec 6} {p : Prop} [Decidable p] {taken : State → Bool} {disp : BitVec w}
    (sources : i.sources = [a]) (means : taken s = true ↔ p) (h : Goes i s (p → s.me.nest = none)) :
    branch i taken disp s = .next (if p then ((s.src a).2.consumed (s.src a).1.2).goTo (s.issue.addr + disp.signExtend 42 * 4) 2
      else (s.src a).2.consumed (s.src a).1.2) := by
  have reads : i.sources.foldl (fun (q : Bool × State) r => let v := q.2.src r; (q.1 || v.1.2, v.2)) (false, s) =
      ((s.src a).1.2, (s.src a).2) := by rw [sources]; rfl
  rw [branch_goes (h.imp id fun ⟨clear, free⟩ => ⟨clear, free ∘ means.1⟩) reads (s.src_addr a)]
  simp only [means]

theorem br_completes (s : State) (c : BitVec 3) (a b : BitVec 6) (d : BitVec 11)
    (h : Goes (.br c a b d) s (condHolds c (s.srcPeek a) (s.srcPeek2 a b) = true → s.me.nest = none)) :
    exec (.br c a b d) s = .next (if condHolds c (s.srcPeek a) (s.srcPeek2 a b) = true then
      ((s.src2 a b).2.consumed (s.src2 a b).1.2.2).goTo (s.issue.addr + d.signExtend 42 * 4) 2
      else (s.src2 a b).2.consumed (s.src2 a b).1.2.2) := by
  rw [exec_br, execBr, branch_goes (m := (s.src2 a b).1.2.2) (t := (s.src2 a b).2) h rfl (s.src2_addr a b)]

/-- Settles O14: a transfer reads its sources, consumes their marks, and moves the strand. -/
theorem transfers : Obligations.Transfers := by
  intro s a b d c d11 d19 d26 g free whole after jump link q r
  refine ⟨br_completes s c a b d11, fun h => ?bz, fun h => ?bnz, fun h => ?jmp, fun h => ?call, fun h => ?jr, fun h => ?jrl⟩
  case bz => rw [exec_bz, execBz, branchOne_goes (p := s.srcPeek a = 0) rfl (by simp) h]; rfl
  case bnz => rw [exec_bnz, execBnz, branchOne_goes (p := s.srcPeek a ≠ 0) rfl (by simp) h]; rfl
  case jmp => rw [exec_jmp, execJmp, issueWith_goes h fun free => ⟨rfl, rfl, State.loopFault_none free⟩]; rfl
  case call => rw [exec_call, execCall, issueWith_goes h fun free => ⟨rfl, rfl, State.loopFault_none free⟩]; rfl
  all_goals
    have passes : free ∧ whole (s.srcPeek a) → s.loopFault.or (misalignedTarget (s.srcPeek a)) = none := fun ⟨out, aligned⟩ => by
      rw [State.loopFault_none out, misalignedTarget_none aligned]; rfl
  case jr => rw [exec_jr, execJr, issueWith_goes h fun own => ⟨rfl, rfl, passes own⟩]; rfl
  case jrl => rw [exec_jrl, execJrl, issueWith_goes h fun own => ⟨rfl, rfl, passes own⟩]; rfl

end Sys2Proof.Machine
end

section
/-!
PROOF. LOOP and the passes of a nest (R98, R99).
-/

set_option Elab.async false
namespace Sys2Proof.Machine

/-! ## LOOP (R98, R99, R348) -/

/-- The marks of the counts and steps that LOOP latches. -/
theorem State.ctlMark_loop (s : State) (n : BitVec 6) (p : BitVec 3) : s.ctlMark (Instr.loop n p).controls =
    (List.range p.toNat).any fun k => s.me.ctlMarks.contains (0x010 + k) || s.me.ctlMarks.contains (0x018 + k) := by
  show ((List.range p.toNat).flatMap fun k => [0x010 + k, 0x018 + k]).any s.me.ctlMarks.contains = _
  rw [List.any_flatMap]
  simp

theorem loopBegins_holds : Claims.loopBegins := by
  intro s n p counts steps marked body next u h
  rw [exec_loop, execLoop, issueWith_goes h fun free => ⟨rfl, rfl, State.loopFault_none free⟩]
  dsimp only
  rw [State.ctlMark_loop, State.consumed_issue]
  rfl

/-! ## The advance of a nest (R99) -/

/-- The first index below its last value is raised, those before it begin again. -/
theorem advanceIdx_eq (idx : List Nat) : ∀ (counts : List Nat) (m k : Nat), idx.length = counts.length → k < idx.length →
    (∀ j, j < k → (idx[j]?).map (· + 1) = counts[j]?) → (idx[k]?).map (· + 1) ≠ counts[k]? →
    advanceIdx idx counts m = (List.replicate k 0 ++ ((idx[k]?).getD 0 + 1) :: idx.drop (k + 1), m + k) := by
  induction idx with
  | nil => intro _ _ _ _ hk; exact absurd hk (Nat.not_lt_zero _)
  | cons i is ih =>
    intro counts m k length hk last first
    cases counts with
    | nil => simp at length
    | cons c cs =>
      rw [advanceIdx]
      cases k with
      | zero => rw [if_neg (by simpa using first)]; simp
      | succ k =>
        have here : i + 1 = c := by simpa using last 0 (Nat.succ_pos k)
        have behind := ih cs (m + 1) k (by simpa using length) (by simpa using hk)
          (fun j hj => by simpa using last (j + 1) (by omega)) (by simpa using first)
        rw [if_pos here, behind, List.replicate_succ, Nat.add_right_comm m 1 k, Nat.add_assoc]
        rfl

/-! ## The step of a pass's first bundle (R99) -/

/-- A bit of a set, put in or taken out. -/
theorem getLsbD_setBit {w : Nat} (b : BitVec w) (r q : Nat) (m : Bool) (hq : q < w) :
    (if m then b ||| ((1 : BitVec w) <<< r) else b &&& ~~~((1 : BitVec w) <<< r)).getLsbD q =
      if q = r then m else b.getLsbD q := by
  have one : ((1 : BitVec w) <<< r).getLsbD q = decide (q = r) := by
    have := BitVec.getLsbD_twoPow (w := w) r q
    rw [BitVec.twoPow_eq] at this
    rw [show (1 : BitVec w) = 1#w from rfl, this]
    by_cases e : q = r
    · subst e; simp [hq]
    · simp [e, Ne.symm e]
  cases m
  · simp only [Bool.false_eq_true, if_false, BitVec.getLsbD_and, BitVec.getLsbD_not, one, hq, decide_true, Bool.true_and]
    split <;> simp_all
  · simp only [if_true, BitVec.getLsbD_or, one]
    split <;> simp_all

theorem Strand.regMark_setReg (t : Strand) (r q : BitVec 6) (v : Word) (m : Bool) :
    (t.setReg r v m).regMark q = if q = r ∧ r ≠ 0 ∧ r.toNat < 56 then m else t.regMark q := by
  unfold Strand.setReg
  by_cases h0 : r = 0
  · rw [if_pos h0, if_neg (by tauto)]
  rw [if_neg h0]
  by_cases h : r.toNat < 56
  · rw [dif_pos h, Strand.regMark]
    dsimp only
    by_cases hq : q.toNat < 56
    · rw [getLsbD_setBit t.marks r.toNat q.toNat m hq]
      by_cases same : q = r
      · subst same
        rw [if_pos rfl, if_pos ⟨rfl, h0, h⟩, bne_iff_ne.2 h0, Bool.true_and]
      · rw [if_neg fun e => same (BitVec.eq_of_toNat_eq e), if_neg fun e => same e.1]; rfl
    · have apart : q ≠ r := fun e => hq (e ▸ h)
      rw [BitVec.getLsbD_of_ge _ _ (Nat.le_of_not_lt hq), if_neg (by tauto), Strand.regMark,
        BitVec.getLsbD_of_ge _ _ (Nat.le_of_not_lt hq)]
  · rw [dif_neg h, if_neg (by tauto)]

theorem Strand.setReg_nest (t : Strand) (r : BitVec 6) (v : Word) (m : Bool) : (t.setReg r v m).nest = t.nest := by
  unfold Strand.setReg
  split_ifs <;> rfl

/-- The nest after its advance, the LSTEP word of the dimension that advances with its mark, and that word's base register. -/
def Nest.advance (q : Nest) : Nest := { q with idx := (advanceIdx q.idx q.counts 0).1, due := false }
def Nest.stepWord (q : Nest) : BitVec 54 × Bool := nth (0, false) q.steps (advanceIdx q.idx q.counts 0).2
def Nest.stepBase (q : Nest) : BitVec 6 := q.stepWord.1.extractLsb' 48 6

/-- A step is due: the indices advance, and the base register receives the step. -/
theorem Strand.takeStep_due {t : Strand} {q : Nest} (nest : t.nest = some q) (due : q.due = true) :
    t.takeStep = if 1 ≤ q.stepBase.toNat ∧ q.stepBase.toNat ≤ 55 then
      (({ t with nest := some q.advance } : Strand).setReg q.stepBase
        (t.reg q.stepBase + (q.stepWord.1.extractLsb' 0 48).signExtend 64) (t.regMark q.stepBase || q.stepWord.2)).mend
        .scalarReg 0 q.stepBase.toNat
      else { t with nest := some q.advance } := by
  unfold Strand.takeStep
  rw [nest]
  simp only [due, Bool.not_true, Bool.false_eq_true, if_false]
  rfl

theorem Nest.stepBase_named (q : Nest) : (1 ≤ q.stepBase.toNat ∧ q.stepBase.toNat ≤ 55) ↔ q.stepBase ≠ 0 ∧ q.stepBase.toNat < 56 := by
  bv_omega

theorem Strand.takeStep_nest {t : Strand} {q : Nest} (nest : t.nest = some q) (due : q.due = true) :
    t.takeStep.nest = some q.advance := by
  rw [Strand.takeStep_due nest due]
  split
  · rw [Strand.mend_nest, Strand.setReg_nest]
  · rfl

theorem Strand.takeStep_reg {t : Strand} {q : Nest} (nest : t.nest = some q) (due : q.due = true) (x : BitVec 6) :
    t.takeStep.reg x = if x = q.stepBase ∧ 1 ≤ q.stepBase.toNat ∧ q.stepBase.toNat ≤ 55 then
      t.reg q.stepBase + (q.stepWord.1.extractLsb' 0 48).signExtend 64 else t.reg x := by
  rw [Strand.takeStep_due nest due]
  simp only [q.stepBase_named]
  split
  · exact Strand.reg_setReg ..
  · next out => exact (if_neg fun e => out e.2).symm

theorem Strand.takeStep_regMark {t : Strand} {q : Nest} (nest : t.nest = some q) (due : q.due = true) (x : BitVec 6) :
    t.takeStep.regMark x = if x = q.stepBase ∧ 1 ≤ q.stepBase.toNat ∧ q.stepBase.toNat ≤ 55 then
      (t.regMark q.stepBase || q.stepWord.2) else t.regMark x := by
  rw [Strand.takeStep_due nest due]
  simp only [q.stepBase_named]
  split
  · exact Strand.regMark_setReg ..
  · next out => exact (if_neg fun e => out e.2).symm

theorem loopAdvances_holds : Claims.loopAdvances := by
  refine ⟨fun q => rfl, fun idx counts k length _ hk last first => ?_, fun t q nest due =>
    ⟨Strand.takeStep_nest nest due, Strand.takeStep_reg nest due, Strand.takeStep_regMark nest due⟩⟩
  rw [advanceIdx_eq idx counts 0 k length hk last first, Nat.zero_add]

/-- Settles O15: what LOOP latches, and the odometer of the indices, by induction on the dimensions. -/
theorem loops : Obligations.Loops := ⟨loopBegins_holds, loopAdvances_holds⟩

end Sys2Proof.Machine
end

section
/-!
PROOF. Phases open, commit and roll back (R119, R352, R353).
-/

set_option Elab.async false
namespace Sys2Proof.Machine

/-! ## A fault of a syllable's own is its trap (R36, R91) -/

theorem issueWith_faults {i : Instr} {s : State} {checks : State → Checks} {code reason : Nat} {info : Word}
    (fresh : s.issue.admitted = false) (clear : Clear i s) (blocks : (checks s).blocks = none) (holds : (checks s).holds = none)
    (faults : (checks s).faults = some (faultWith code reason info)) (effect : State → State) :
    ∃ v, issueWith i s checks effect = .next (({ s with issue := v } : State).takeTrap s.issue.core s.issue.strand
      (causeWord code reason s.issue.slot 0 0 s.issue.len) (BitVec.ofNat 17 (2 ^ s.issue.slot)) info s.issue.addr) :=
  ⟨_, (issueWith_refused fresh (State.verdictOf_of_faults clear blocks holds faults)).trans (congrArg _ (State.refuse_fault ..))⟩

/-! ## Rollback (R353) -/

theorem State.foldl_newCmd_me {α : Type} (cap : α → Captured) (tok : α → Nat) (l : List α) (s : State) :
    (l.foldl (fun s m => s.newCmd (cap m) (tok m) [] false false) s).me = s.me := by
  induction l generalizing s with
  | nil => rfl
  | cons m l ih => exact ih _

theorem State.me_countVf (s : State) (v i : Nat) : (s.countVf v i).me = s.me := rfl

theorem State.me_discardHeld (s : State) (h : Holder) : (s.discardHeld h).me = s.me := s.strand_discardHeld h _ _

/-- The strand at the start of its open phase again. -/
def Strand.rolledBack (t : Strand) (ph : Phase) : Strand :=
  { t with
    pend := [], blocks := [], frames := t.frames.map fun f => { f with pend := [], blocks := [] }
    x := ph.regs, marks := ph.marks, bad := ph.bad ++ t.bad.filter (·.kind != .scalarReg), nest := ph.nest, pc := ph.first
    issueAt := t.time + 4, spin := none, gather := none
    ctl := { t.ctl with poison := false, mm := false, retry := t.ctl.retry + 1 } }

/-- What the rollback does around the strand, to commands, held stores and counters, leaves it alone. -/
theorem State.rollback_me {s : State} {ph : Phase} (open_ : s.me.phase = some ph) : s.rollback.me = s.me.rolledBack ph := by
  unfold State.rollback
  rw [open_]
  dsimp only
  rw [State.foldl_newCmd_me, State.me_countVf, State.me_modMe, State.me_discardHeld]
  rfl

theorem rollback_holds : Claims.rollback := by
  intro s d t k ph open_ errors
  have me := State.rollback_me open_
  refine ⟨s.rollback, fun h => ?_, by rw [me]; rfl, by rw [me]; rfl, by rw [me]; rfl, by rw [me]; rfl, by rw [me]; rfl,
    by rw [me]; rfl, by rw [me]; rfl, by rw [me]; rfl, by rw [me]; exact open_, by rw [me]; rfl⟩
  have bits : s.me.ctl.errorBits = true := errors
  rw [exec_chkerr, execChkerr, issueWith_goes h fun ⟨retries, recorded⟩ => ⟨rfl, rfl, ?_⟩]
  · simp only [bits, open_, Bool.not_true, Bool.false_eq_true, if_false, Option.isSome_some, if_true]
  · simp only [bits, open_, retries, recorded, Bool.not_true, Bool.false_eq_true, if_false]

/-! ## phase.begin and phase.commit (R119) -/

theorem phases_hold : Claims.phases := by
  intro s a b q begun
  refine ⟨fun h => ?_, fun h => (exec_phaseCommit s).trans (issuePlain_goes h), fun fresh clear length => ?_⟩
  · rw [exec_phaseBegin, execPhaseBegin, issueWith_goes h fun whole => ⟨rfl, rfl, if_neg (not_not.2 whole)⟩]
  · rw [exec_phaseBegin, execPhaseBegin]
    exact issueWith_faults fresh clear rfl rfl (if_pos length) _

/-- Settles O17: the rollback writes the strand once, and its phase is recorded and closed by one result each. -/
theorem phasesAndRollback : Obligations.PhasesAndRollback := ⟨rollback_holds, phases_hold⟩

end Sys2Proof.Machine
end

section
/-!
PROOF. The control registers: what a write leaves, and what each one reads (R98, R101, R102, R120).
-/

set_option Elab.async false
namespace Sys2Proof.Machine

/-! ## What a write leaves (R101, R120) -/

/-- The low bits of a word, as a narrower word and as a field. -/
theorem setWidth_eq_field {n : Nat} (v : Word) : v.setWidth n = v.extractLsb' 0 n :=
  BitVec.eq_of_toNat_eq (by simp [BitVec.extractLsb'_toNat])

theorem ofNat_div_eq_field (v : Word) : BitVec.ofNat 40 (v.toNat / 4) = v.extractLsb' 2 40 :=
  BitVec.eq_of_toNat_eq (by simp [BitVec.extractLsb'_toNat, Nat.shiftRight_eq_div_pow])

theorem Ctl.write_count (k : Ctl) (v : Word) : ∀ n : Fin 6, k.write (0x010 + n) v = { k with lc := k.lc.set n (v.setWidth 32) } := by
  intro n
  fin_cases n <;> rfl

theorem Ctl.write_step (k : Ctl) (v : Word) : ∀ n : Fin 6, k.write (0x018 + n) v = { k with lstep := k.lstep.set n (v.setWidth 54) } := by
  intro n
  fin_cases n <;> rfl

theorem Ctl.write_slot (k : Ctl) (v : Word) (n : Fin 16) : k.write (0x030 + n) v =
    { k with mslot := if v.getLsbD 0 then k.mslot ||| ((1 : BitVec 16) <<< n.val) else k.mslot &&& ~~~((1 : BitVec 16) <<< n.val) } := by
  fin_cases n <;> rfl

/-- Settles O20: each register is one branch of the write. -/
theorem controlWrites : Obligations.ControlWrites := by
  intro k v
  simp only [← setWidth_eq_field, ← ofNat_div_eq_field]
  refine ⟨rfl, rfl, rfl, rfl, rfl, rfl, fun n => ⟨k.write_count v n, k.write_step v n⟩, rfl, rfl, fun n m => ?_,
    fun s c n => ⟨rfl, rfl⟩⟩
  rw [Ctl.write_slot]
  simpa only [Fin.val_inj] using getLsbD_setBit k.mslot n m (v.getLsbD 0) m.isLt

/-! ## What a register reads (R98, R101, R102) -/

/-- A flag of a word that is given as a number. -/
theorem flagAt {n i : Nat} {b : Bool} (hi : i < 64) (h : n / 2 ^ i % 2 = b.toNat) : (BitVec.ofNat 64 n).getLsbD i = b := by
  rw [BitVec.getLsbD_ofNat, Nat.testBit_eq_decide_div_mod_eq, h, decide_eq_true hi]
  cases b <;> rfl

/-- A field of a word that is given as a number. -/
theorem fieldAt {n lo len : Nat} {v : BitVec len} (hlo : lo + len ≤ 64) (h : n / 2 ^ lo % 2 ^ len = v.toNat) :
    (BitVec.ofNat 64 n).extractLsb' lo len = v := by
  apply BitVec.eq_of_toNat_eq
  rw [BitVec.extractLsb'_toNat, BitVec.toNat_ofNat, Nat.shiftRight_eq_div_pow, ← h]
  obtain ⟨up, top⟩ : ∃ up, 64 = lo + up := ⟨64 - lo, by omega⟩
  rw [top, Nat.pow_add, Nat.mod_mul_right_div_self]
  exact Nat.mod_mod_of_dvd _ (Nat.pow_dvd_pow 2 (by omega))

theorem bitOf_eq (b : Bool) (k : Nat) : bitOf b k = 2 ^ k * b.toNat := by cases b <;> simp [bitOf]

theorem ite_eq_mul_toNat (b : Bool) (n : Nat) : (if b then n else 0) = n * b.toNat := by cases b <;> simp

/-- STATUS and EDSTAT, flag by flag (R224, R339). -/
theorem status_flags : ∀ a b c d : Bool, let w := BitVec.ofNat 64 (bitOf a 0 + bitOf b 1 + bitOf c 2 + bitOf d 3)
    w.getLsbD 0 = a ∧ w.getLsbD 1 = b ∧ w.getLsbD 2 = c ∧ w.getLsbD 3 = d := by decide

theorem eddyStatus_flags : ∀ a b c d e f : Bool,
    let w := BitVec.ofNat 64 (bitOf a 0 + bitOf b 1 + bitOf c 2 + bitOf d 3 + bitOf e 4 + bitOf f 5)
    w.getLsbD 0 = a ∧ w.getLsbD 1 = b ∧ w.getLsbD 2 = c ∧ w.getLsbD 3 = d ∧ w.getLsbD 4 = e ∧ w.getLsbD 5 = f := by decide

/-- CHKI, field by field (R349). -/
theorem Strand.chki_fields (t : Strand) : t.chki.getLsbD 0 = t.ctl.poison ∧ t.chki.getLsbD 1 = t.ctl.mm ∧
    t.chki.extractLsb' 2 2 = t.ctl.retry ∧ t.chki.getLsbD 4 = t.phase.isSome ∧ t.chki.getLsbD 5 = t.ctl.norec ∧
    t.chki.extractLsb' 16 16 = t.ctl.pcount := by
  have hp := t.ctl.poison.toNat_le
  have hm := t.ctl.mm.toNat_le
  have ho := t.phase.isSome.toNat_le
  have hn := t.ctl.norec.toNat_le
  have hr := t.ctl.retry.isLt
  have hc := t.ctl.pcount.isLt
  unfold Strand.chki
  simp only [ite_eq_mul_toNat]
  refine ⟨flagAt ?_ ?_, flagAt ?_ ?_, fieldAt ?_ ?_, flagAt ?_ ?_, flagAt ?_ ?_, fieldAt ?_ ?_⟩ <;> omega

/-- What an issuing syllable sees of the control registers and the loop indices (R98, R120). -/
def State.seenCtl (s : State) : Ctl × List Nat := s.issue.seen.getD (s.me.ctl, (s.me.nest.map (·.idx)).getD [])

theorem zext64_eq_ofNat {n : Nat} (v : BitVec n) : BitVec.ofNat 64 v.toNat = zext64 v := BitVec.ofNat_toNat ..

theorem ofNat_toNat_word (v : Word) : BitVec.ofNat 64 v.toNat = v := by rw [BitVec.ofNat_toNat, BitVec.setWidth_eq]

theorem State.readCtl_count (s : State) (n : Fin 6) :
    s.readCtl (0x010 + n) = BitVec.ofNat 64 (s.seenCtl.1.lc[n].toNat + 2 ^ 32 * nth 0 s.seenCtl.2 n) := by
  have read : s.readCtl (0x010 + n) =
      BitVec.ofNat 64 (((s.seenCtl.1.lc.toList[n.val]?).getD 0).toNat + 2 ^ 32 * nth 0 s.seenCtl.2 n) := by
    fin_cases n <;> rfl
  rw [read]
  simp

theorem State.readCtl_count_fields (s : State) (n : Fin 6) : (s.readCtl (0x010 + n)).extractLsb' 0 32 = s.seenCtl.1.lc[n] ∧
    (s.readCtl (0x010 + n)).extractLsb' 32 32 = BitVec.ofNat 32 (nth 0 s.seenCtl.2 n) := by
  have count := (s.seenCtl.1.lc[n]).isLt
  rw [s.readCtl_count]
  exact ⟨fieldAt (by decide) (by omega), fieldAt (by decide) (by rw [BitVec.toNat_ofNat]; omega)⟩

theorem State.readCtl_step (s : State) (n : Fin 6) : s.readCtl (0x018 + n) = zext64 s.seenCtl.1.lstep[n] := by
  have read : s.readCtl (0x018 + n) = BitVec.ofNat 64 ((s.seenCtl.1.lstep.toList[n.val]?).getD 0).toNat := by
    fin_cases n <;> rfl
  rw [read, zext64_eq_ofNat]
  simp

theorem State.readCtl_slot (s : State) (n : Fin 16) : s.readCtl (0x030 + n) = if s.seenCtl.1.mslot.getLsbD n then 1 else 0 := by
  have read : s.readCtl (0x030 + n) = BitVec.ofNat 64 (bitOf (s.seenCtl.1.mslot.getLsbD n) 0) := by fin_cases n <;> rfl
  rw [read]
  cases s.seenCtl.1.mslot.getLsbD n <;> rfl

theorem State.logicalCluster_lt (s : State) (c : Nat) : s.logicalCluster c < 16 := by
  unfold State.logicalCluster
  cases h : s.placeOf c with
  | none => decide
  | some p =>
    obtain ⟨e, -, found⟩ := List.exists_of_findSome?_eq_some h
    split at found
    · obtain ⟨k, -, rfl⟩ := Option.map_eq_some_iff.1 found
      exact Nat.mod_lt _ (by decide)
    · cases found

theorem mfc_completes (s : State) (d : BitVec 6) (i : BitVec 12) : Claims.Completes (.mfc d i) s
    (Claims.valueNext s d 1 (s.readCtl i.toNat) (s.me.ctlMarks.contains i.toNat)) (s.me.isBad .controlReg 0 i.toNat = false) := by
  intro h
  rw [exec_mfc, execMfc, issueWith_goes h fun sound => ⟨rfl, rfl, ?_⟩]
  · rfl
  · show s.ueControl i = none
    rw [State.ueControl, sound]
    rfl

/-- Settles O19: each register is one branch of the read, and its fields lie apart in the number that it gives. -/
theorem specialRegisters : Obligations.SpecialRegisters := by
  refine ⟨fun s d a i => ⟨mfc_completes s d i, fun h => (exec_mtc a i s).trans (issuePlain_goes h)⟩, fun s h => rfl, fun s => ?_⟩
  intro seen k
  obtain ⟨priv, ppriv, exl, pending⟩ := status_flags k.priv k.ppriv k.exl k.mirrorPending
  obtain ⟨half, defer, nonfin, gsat, sing, ovf⟩ := eddyStatus_flags k.half k.defer k.nonfin k.gsat k.sing k.ovf
  have chki : s.readCtl 0x006 = ({ s.me with ctl := k } : Strand).chki := ofNat_toNat_word _
  obtain ⟨poison, mm, retry, open_, norec, pcount⟩ := ({ s.me with ctl := k } : Strand).chki_fields
  rw [chki]
  have tvecEn := k.tvecEn.toNat_le
  have tvecBase := k.tvecBase.isLt
  have ftv := k.ftv.isLt
  have waitLast := k.waitLast.isLt
  have waitCyc := k.waitCyc.isLt
  have conductor := s.meConductor.toNat_le
  have ydist := k.ydist.isLt
  have overdue := k.overdue.toNat_le
  have lost := k.lost.isLt
  have tvec : s.readCtl 0x005 = BitVec.ofNat 64 (2 ^ 0 * k.tvecEn.toNat + 4 * k.tvecBase.toNat) := by rw [← bitOf_eq]; rfl
  have ident : s.readCtl 0x044 = BitVec.ofNat 64 (s.issue.strand + 2 ^ 2 * s.meConductor.toNat) := by rw [← bitOf_eq]; rfl
  have yields : s.readCtl 0x048 = BitVec.ofNat 64 (k.ydist.toNat + 2 ^ 32 * k.overdue.toNat) := by rw [← bitOf_eq]; rfl
  have statq : s.readCtl 0x050 = BitVec.ofNat 64 (s.me.stats.length + 2 ^ 16 * k.lost.toNat) := rfl
  have version : s.readCtl 0x008 = BitVec.ofNat 64 (k.ftv.toNat + 256 * k.version + 2 ^ 16 * 0x0E) := rfl
  have wait : s.readCtl 0x00A = BitVec.ofNat 64 (16 * k.waitLast.toNat + 256 * k.waitCyc.toNat) := rfl
  have place : s.readCtl 0x045 = BitVec.ofNat 64 (s.issue.core % 8) := rfl
  have logical : s.readCtl 0x046 = BitVec.ofNat 64 (s.logicalCluster s.issue.core) := rfl
  rw [tvec, ident, yields, statq, version, wait, place, logical]
  refine ⟨ofNat_toNat_word _, zext64_eq_ofNat _, zext64_eq_ofNat _, ofNat_toNat_word _, zext64_eq_ofNat _, ofNat_toNat_word _,
    zext64_eq_ofNat _, zext64_eq_ofNat _, zext64_eq_ofNat _, zext64_eq_ofNat _, zext64_eq_ofNat _, zext64_eq_ofNat _, zext64_eq_ofNat _,
    priv, ppriv, exl, pending, flagAt (by decide) (by omega), fieldAt (by decide) (by omega), fun n => and_assoc.1 ⟨s.readCtl_count_fields n, s.readCtl_step n⟩,
    rfl, ?_, ?_, s.readCtl_slot, poison, mm, retry, open_, norec, pcount, fieldAt (by decide) (by omega),
    fieldAt (by decide) (by show _ = (0 : BitVec 4).toNat; simp; omega), fieldAt (by decide) (by omega), fieldAt (by decide) (by omega),
    fun hn => flagAt (by decide) (by omega), fieldAt (by decide) (by omega), flagAt (by decide) (by omega),
    fun hq => ⟨fieldAt (by decide) ?_, fieldAt (by decide) (by omega)⟩, half, defer, nonfin, gsat, sing, ovf⟩
  · rw [BitVec.toNat_ofNat]
    omega
  · have cluster := s.logicalCluster_lt s.issue.core
    rw [BitVec.toNat_ofNat]
    omega
  · rw [BitVec.toNat_ofNat]
    omega

end Sys2Proof.Machine
end

section
/-!
PROOF. What reset leaves, and which team and which strand is chosen (R93, R365, R366, R371, R373).
-/

set_option Elab.async false
namespace Sys2Proof.Machine

/-- Settles O5: every part of the reset state is read off its table. -/
theorem resetHolds : Obligations.ResetHolds := by
  refine ⟨rfl, fun c n => ⟨rfl, ?_, rfl, rfl, fun g => ⟨rfl, rfl, rfl, rfl⟩, rfl, rfl, rfl⟩, fun c o => rfl, fun d t => ?_,
    fun d => ⟨rfl, rfl, rfl, rfl, rfl⟩⟩
  · have h : (State.reset.strand c n).ctl = Ctl.reset := rfl
    rw [h]
    unfold Claims.controlsAtReset
    decide
  · exact ⟨rfl, rfl, rfl, rfl, rfl, rfl, rfl, rfl, rfl, rfl, fun k => rfl, fun q => rfl, fun i w => rfl⟩

/-! ## The pick of a team (R373) -/

/-- No team of the two that selection compares is larger than the first: by key, then deficit, then the lower index. -/
def State.Leads (s : State) (d t u : Nat) : Prop :=
  (s.team d u).key ≤ (s.team d t).key ∧ ((s.team d u).key = (s.team d t).key →
    (s.team d u).deficit ≤ (s.team d t).deficit ∧ ((s.team d u).deficit = (s.team d t).deficit → t < u))

theorem State.goesBefore_iff (s : State) (d a b : Nat) : s.goesBefore d a b = true ↔ s.Leads d a b := by
  simp only [State.goesBefore, State.Leads, Bool.or_eq_true, Bool.and_eq_true, decide_eq_true_eq, beq_iff_eq]
  omega

theorem State.Leads.trans {s : State} {d a b c : Nat} (hab : s.Leads d a b) (hbc : s.Leads d b c) : s.Leads d a c := by
  unfold State.Leads at *
  omega

/-- The order is total on different teams. -/
theorem State.leads_of_not {s : State} {d a b : Nat} (h : ¬ s.Leads d a b) (hne : a ≠ b) : s.Leads d b a := by
  unfold State.Leads at *
  omega

theorem State.pick_eq_none (s : State) (d : Nat) (l : List Nat) : s.pick d l = none ↔ l = [] := by
  cases l with
  | nil => exact ⟨fun _ => rfl, fun _ => rfl⟩
  | cons t rest =>
    refine ⟨fun h => ?_, fun h => nomatch h⟩
    rw [State.pick] at h
    split at h
    · exact nomatch h
    · split at h <;> exact nomatch h

theorem State.pick_leads (s : State) (d : Nat) (l : List Nat) :
    ∀ t, s.pick d l = some t → t ∈ l ∧ ∀ u ∈ l, u ≠ t → s.Leads d t u := by
  induction l with
  | nil => exact fun t h => nomatch h
  | cons a rest ih =>
    intro t h
    rw [State.pick] at h
    split at h
    case h_1 hn =>
      cases h
      rw [(s.pick_eq_none d rest).1 hn]
      exact ⟨List.mem_singleton_self a, fun u hu hne => absurd (List.mem_singleton.1 hu) hne⟩
    case h_2 b hb =>
      obtain ⟨hmem, hlead⟩ := ih b hb
      split at h
      · next hab =>
        cases h
        have hab := (s.goesBefore_iff d a b).1 hab
        refine ⟨List.mem_cons_self, fun u hu hne => ?_⟩
        have hu := (List.mem_cons.1 hu).resolve_left hne
        by_cases hub : u = b
        · exact hub ▸ hab
        · exact hab.trans (hlead u hu hub)
      · next hab =>
        cases h
        refine ⟨List.mem_cons_of_mem _ hmem, fun u hu hne => ?_⟩
        rcases List.mem_cons.1 hu with rfl | hu
        · exact State.leads_of_not (fun hl => hab ((s.goesBefore_iff d u t).2 hl)) hne
        · exact hlead u hu hne

theorem State.eligible_iff (s : State) (d t : Nat) : s.eligible d t = true ↔
    s.runnable d t = true ∧ ((s.team d t).cap = 0 ∨ (s.team d t).used < (s.team d t).cap) ∧
      (0 < (s.team d t).deficit ∨ (0 < (s.team d t).gust ∧ (s.team d t).borrow < (s.die d).bcap)) := by
  simp only [State.eligible, Die.boosted, Team.underCap, Bool.and_eq_true, Bool.or_eq_true, decide_eq_true_eq, beq_iff_eq]
  tauto

/-! ## The turn of a core (R93) -/

/-- The strand after `i` turns from the one that last ran is `i - 1` places behind the first of the turn. -/
theorem turn_place {last i : Nat} (hi : 1 ≤ i) (h4 : i ≤ 4) : ((last + i) % 4 + 7 - last % 4) % 4 = i - 1 := by omega

/-- Every strand of a core has its place in the turn. -/
theorem turn_of_lt {m : Nat} (last : Nat) (h : m < 4) : ∃ i, 1 ≤ i ∧ i ≤ 4 ∧ (last + i) % 4 = m :=
  ⟨(m + 7 - last % 4) % 4 + 1, by omega, by omega, by omega⟩

/-- The choice is the first of the turn that is READY and not parked. -/
theorem Core.nextStrand_eq_some {k : Core} {n : Nat} : k.nextStrand = some n ↔
    ∃ i, (1 ≤ i ∧ i ≤ 4) ∧ (k.last + i) % 4 = n ∧ ((k.strand n).mode = .ready ∧ (k.strand n).parked = false) ∧
      ∀ j, 1 ≤ j → j < i → ¬ ((k.strand ((k.last + j) % 4)).mode = .ready ∧ (k.strand ((k.last + j) % 4)).parked = false) := by
  have hl : ([1, 2, 3, 4] : List Nat) = List.range' 1 4 := rfl
  simp only [Core.nextStrand, hl, List.find?_map, Option.map_eq_some_iff, List.find?_range'_eq_some, List.mem_range'_1,
    Function.comp_apply, Bool.and_eq_true, Bool.not_eq_true', beq_iff_eq, Bool.and_eq_false_iff, Bool.not_eq_false']
  refine exists_congr fun i => ?_
  constructor
  · rintro ⟨⟨hp, hi, hj⟩, rfl⟩
    exact ⟨by omega, rfl, hp, fun j h1 h2 h => by simpa [h] using hj j h1 h2⟩
  · rintro ⟨hi, rfl, hp, hj⟩
    exact ⟨⟨hp, by omega, fun j h1 h2 => by simpa [Decidable.imp_iff_not_or] using hj j h1 h2⟩, rfl⟩

theorem strandChoice : Claims.strandChoice := by
  intro k n
  rw [Core.nextStrand_eq_some]
  constructor
  · rintro ⟨i, ⟨h1, h4⟩, rfl, hp, hbefore⟩
    refine ⟨Nat.mod_lt _ (by omega), hp.1, hp.2, fun m hm hr hpk => ?_⟩
    obtain ⟨j, hj1, hj4, rfl⟩ := turn_of_lt k.last hm
    rw [turn_place h1 h4, turn_place hj1 hj4]
    have : ¬ j < i := fun hji => hbefore j hj1 hji ⟨hr, hpk⟩
    omega
  · rintro ⟨hn, hr, hpk, hfirst⟩
    obtain ⟨i, h1, h4, rfl⟩ := turn_of_lt k.last hn
    refine ⟨i, ⟨h1, h4⟩, rfl, ⟨hr, hpk⟩, fun j hj1 hji hp => ?_⟩
    have := hfirst _ (Nat.mod_lt _ (by omega)) hp.1 hp.2
    rw [turn_place h1 h4, turn_place hj1 (by omega)] at this
    omega

/-- Settles O60: the pick by induction on the candidates over one total order, the strand by its place in the turn. -/
theorem selection : Obligations.Selection := by
  refine ⟨⟨State.eligible_iff, fun _ => rfl, State.pick_eq_none, State.pick_leads⟩, fun s d t => ?_, strandChoice⟩
  unfold State.raiseGust
  rw [State.team_modTeam]
  exact ⟨rfl, rfl, fun u hu => State.team_modTeam_ne s _ (.inr hu)⟩

end Sys2Proof.Machine
end

section
/-!
PROOF. What a translation and a fetch depend on: two states with the same tables and caches answer them alike (R62, R125 to R134).
-/

set_option Elab.async false
namespace Sys2Proof.Machine

/-- Everything that a translation looks at is the same: memory with its owners, the tables of the functions and gangs, dies and
partitions, and each core's configuration and micro-TLB. -/
structure State.SameTables (s t : State) : Prop where
  hbm : t.hbm = s.hbm
  owner : t.owner = s.owner
  dies : t.dies = s.dies
  parts : t.parts = s.parts
  vfs : t.vfs = s.vfs
  gangs : t.gangs = s.gangs
  utlb : ∀ c, (t.core c).utlb = (s.core c).utlb
  part : ∀ c, (t.core c).part = (s.core c).part

theorem State.SameTables.refl (s : State) : s.SameTables s := ⟨rfl, rfl, rfl, rfl, rfl, rfl, fun _ => rfl, fun _ => rfl⟩

theorem State.SameTables.trans {s t u : State} (h : s.SameTables t) (k : t.SameTables u) : s.SameTables u :=
  ⟨k.hbm.trans h.hbm, k.owner.trans h.owner, k.dies.trans h.dies, k.parts.trans h.parts, k.vfs.trans h.vfs, k.gangs.trans h.gangs,
    fun c => (k.utlb c).trans (h.utlb c), fun c => (k.part c).trans (h.part c)⟩

/-- An update of a core that keeps its configuration and its micro-TLB. -/
theorem State.SameTables.modCore (s : State) (c : Nat) (f : Core → Core) (hu : (f (s.core c)).utlb = (s.core c).utlb)
    (hp : (f (s.core c)).part = (s.core c).part) : s.SameTables (s.modCore c f) := by
  refine ⟨rfl, rfl, rfl, rfl, rfl, rfl, fun e => ?_, fun e => ?_⟩
  all_goals
    by_cases he : e = c
    · subst he
      rw [State.core_modCore]
      assumption
    · rw [State.core_modCore_ne _ _ he]

theorem State.SameTables.modMe (s : State) (f : Strand → Strand) : s.SameTables (s.modMe f) :=
  .modCore s s.issue.core (fun k => k.setStrand s.issue.strand (f (k.strand s.issue.strand))) rfl rfl

theorem State.SameTables.result (s : State) (l : Nat) (w : Write) (m : Bool) (rs : List StatRecord) : s.SameTables (s.result l w m rs) :=
  .modMe s _

theorem State.SameTables.consumed (s : State) (m : Bool) : s.SameTables (s.consumed m) := by
  unfold State.consumed
  split
  · exact .result ..
  · exact .refl s

section
variable {s t : State} (h : s.SameTables t)
include h

theorem State.SameTables.vf_eq (v : Nat) : t.vf v = s.vf v := by rw [State.vf, State.vf, h.vfs]
theorem State.SameTables.die_eq (d : Nat) : t.die d = s.die d := by rw [State.die, State.die, h.dies]
theorem State.SameTables.team_eq (d k : Nat) : t.team d k = s.team d k := by rw [State.team, State.team, h.die_eq]
theorem State.SameTables.part_eq (p : Nat) : t.part p = s.part p := by rw [State.part, State.part, h.parts]
theorem State.SameTables.gang_eq (g : BitVec 24) : t.gang g = s.gang g := by rw [State.gang, State.gang, h.gangs]
theorem State.SameTables.teamAt_eq (c : Nat) : t.teamAt c = s.teamAt c := by
  simp only [State.teamAt, State.teamOn, State.placeOf, h.die_eq, h.parts]
theorem State.SameTables.vfAt_eq (c : Nat) : t.vfAt c = s.vfAt c := by rw [State.vfAt, State.vfAt, h.team_eq, h.teamAt_eq]
theorem State.SameTables.hbm64_eq (pa : Nat) : t.hbm64 pa = s.hbm64 pa := by rw [State.hbm64, State.hbm64, h.hbm]

theorem State.SameTables.owns_eq (p pa : Nat) : t.owns p pa = s.owns p pa := by rw [State.owns, State.owns, h.owner]

theorem State.SameTables.second_eq (v d k ipa : Nat) (va : Word) (acc : Acc) : t.second v d k ipa va acc = s.second v d k ipa va acc := by
  simp only [State.second, h.vf_eq, h.owns_eq]

theorem State.SameTables.first_eq (v d k va : Nat) (acc : Acc) (level table : Nat) :
    t.first v d k va acc level table = s.first v d k va acc level table := by
  induction level generalizing table with
  | zero => rfl
  | succ level ih => simp only [State.first, h.second_eq, h.hbm64_eq, ih]

theorem State.SameTables.tablePages_eq (v d k va level table : Nat) :
    t.tablePages v d k va level table = s.tablePages v d k va level table := by
  induction level generalizing table with
  | zero => rfl
  | succ level ih => simp only [State.tablePages, h.second_eq, h.hbm64_eq, ih]

theorem State.SameTables.meetsRefused_eq (v d k va : Nat) (l : List Nat) : t.meetsRefused v d k va l = s.meetsRefused v d k va l := by
  simp only [State.meetsRefused, h.tablePages_eq, h.vf_eq]

theorem State.SameTables.walk_eq (v d k va : Nat) (acc : Acc) : t.walk v d k va acc = s.walk v d k va acc := by
  simp only [State.walk, h.first_eq, h.second_eq, h.vf_eq]

theorem State.SameTables.xlate_eq (c : Option Nat) (v d k va : Nat) (acc : Acc) : t.xlate c v d k va acc = s.xlate c v d k va acc := by
  have hc : t.cached c d v va = s.cached c d v va := by
    cases c with
    | none => simp only [State.cached, Option.bind_none, h.die_eq]
    | some c => simp only [State.cached, Option.bind_some, h.die_eq, h.utlb]
  simp only [State.xlate, hc, h.walk_eq, h.die_eq]

theorem State.SameTables.gangTeam_eq (d : Nat) (g : BitVec 24) : t.gangTeam d g = s.gangTeam d g := by
  rw [State.gangTeam, State.gangTeam, h.die_eq]

theorem State.SameTables.shareKey_eq (p q : Nat) (g : BitVec 24) : t.shareKey p q g = s.shareKey p q g := by
  simp only [State.shareKey, h.part_eq, h.gang_eq]

theorem State.SameTables.route_eq (d k : Nat) (g : BitVec 24) (ea : Word) : t.route d k g ea = s.route d k g ea := by
  simp only [State.route, h.gangTeam_eq, h.shareKey_eq, h.team_eq, h.part_eq, h.gang_eq]

theorem State.SameTables.refusedAt_eq (d k : Nat) (l : List Nat) (ea : Word) : t.refusedAt d k l ea = s.refusedAt d k l ea := by
  simp only [State.refusedAt, h.route_eq, h.meetsRefused_eq, h.team_eq]

theorem State.SameTables.scratchTarget_eq (c o : Nat) : t.scratchTarget c o = s.scratchTarget c o := by
  rw [State.scratchTarget, State.scratchTarget, h.part]

theorem State.SameTables.localTarget_eq (c va : Nat) (acc : Acc) : t.localTarget c va acc = s.localTarget c va acc := by
  unfold State.localTarget
  rw [h.scratchTarget_eq, h.scratchTarget_eq]

theorem State.SameTables.teamTarget_eq (c : Option Nat) (d k : Nat) (g : BitVec 24) (ea : Word) (acc : Acc) :
    t.teamTarget c d k g ea acc = s.teamTarget c d k g ea acc := by
  have away : t.awayTarget d g ea = s.awayTarget d g ea := by rw [State.awayTarget, State.awayTarget, h.die_eq]
  simp only [State.teamTarget, away, h.route_eq, h.xlate_eq, h.team_eq]

theorem State.SameTables.resolve_eq (c : Nat) (ea : Word) (acc : Acc) : t.resolve c ea acc = s.resolve c ea acc := by
  unfold State.resolve
  extract_lets va
  rw [h.localTarget_eq, h.teamTarget_eq, h.teamAt_eq, h.team_eq]

theorem State.SameTables.fetchWord_eq (hw : t.me.wait.refused = s.me.wait.refused) (c va : Nat) : t.fetchWord c va = s.fetchWord c va := by
  simp only [State.fetchWord, hw, h.meetsRefused_eq, h.xlate_eq, h.vfAt_eq, h.teamAt_eq, h.hbm]

theorem State.SameTables.skipBundles_eq (hw : t.me.wait.refused = s.me.wait.refused) (c n va : Nat) :
    t.skipBundles c n va = s.skipBundles c n va := by
  induction n generalizing va with
  | zero => rfl
  | succ n ih => simp only [State.skipBundles, h.fetchWord_eq hw, ih]

theorem State.SameTables.bodyPlace_eq (hw : t.me.wait.refused = s.me.wait.refused) (c : Nat) (q : Nest) (va : Nat) :
    t.bodyPlace c q va = s.bodyPlace c q va := by
  simp only [State.bodyPlace, h.skipBundles_eq hw]

end

end Sys2Proof.Machine
end

section
/-!
PROOF. ERET, and that it undoes trap entry (R96, R99, R100, R162, R342, R344).
-/

set_option Elab.async false
namespace Sys2Proof.Machine

/-! ## The step of a restored nest (R99) -/

/-- A write of a scalar register changes values and marks only. -/
theorem Strand.setReg_eq (t : Strand) (r : BitVec 6) (v : Word) (m : Bool) :
    ∃ x k, t.setReg r v m = { t with x := x, marks := k } := by
  unfold Strand.setReg
  split_ifs <;> exact ⟨_, _, rfl⟩

theorem Strand.takeStep_of_none {t : Strand} (h : t.nest = none) : t.takeStep = t := by rw [Strand.takeStep, h]

theorem Strand.takeStep_idle {t : Strand} {q : Nest} (h : t.nest = some q) (hd : q.due = false) : t.takeStep = t := by
  rw [Strand.takeStep, h]
  simp only [hd]
  rfl

/-- The step of a pass changes the nest, its base register with the mark, and mends that register. -/
theorem Strand.takeStep_eq (t : Strand) : ∃ n x k b, t.takeStep = { t with nest := n, x := x, marks := k, bad := b } := by
  cases hn : t.nest with
  | none => exact ⟨_, _, _, _, t.takeStep_of_none hn⟩
  | some q =>
    cases hd : q.due with
    | false => exact ⟨_, _, _, _, t.takeStep_idle hn hd⟩
    | true =>
      rw [Strand.takeStep_due hn hd]
      split
      · obtain ⟨x, k, hx⟩ := ({ t with nest := some q.advance } : Strand).setReg_eq q.stepBase
          (t.reg q.stepBase + (q.stepWord.1.extractLsb' 0 48).signExtend 64) (t.regMark q.stepBase || q.stepWord.2)
        rw [hx]
        exact ⟨_, _, _, _, rfl⟩
      · exact ⟨_, _, _, _, rfl⟩

/-- The step of a pass depends on the nest and the registers alone. -/
theorem Strand.takeStep_congr {t u : Strand} (hx : u.x = t.x) (hn : u.nest = t.nest) :
    u.takeStep.x = t.takeStep.x ∧ u.takeStep.nest = t.takeStep.nest := by
  cases h : t.nest with
  | none =>
    rw [u.takeStep_of_none (hn.trans h), t.takeStep_of_none h]
    exact ⟨hx, hn⟩
  | some q =>
    cases hd : q.due with
    | false =>
      rw [u.takeStep_idle (hn.trans h) hd, t.takeStep_idle h hd]
      exact ⟨hx, hn⟩
    | true =>
      refine ⟨?_, by rw [Strand.takeStep_nest (hn.trans h) hd, Strand.takeStep_nest h hd]⟩
      rw [Strand.takeStep_due (hn.trans h) hd, Strand.takeStep_due h hd]
      simp only [Strand.setReg, Strand.reg, hx]
      split_ifs <;> simp only [Strand.mend, Strand.mendWords]

theorem Strand.takeStep_some {t : Strand} {q : Nest} (h : t.nest = some q) : ∃ z, t.takeStep.nest = some z := by
  cases hd : q.due with
  | false => exact ⟨q, by rw [Strand.takeStep_idle h hd, h]⟩
  | true => exact ⟨_, Strand.takeStep_nest h hd⟩

/-! ## The place where a restored nest goes on -/

/-- A restored nest changes the nest, the pc and what the step of a pass changes. -/
theorem Strand.resumeLoop_eq (place : Option Nat) (t : Strand) :
    ∃ n x k b p, t.resumeLoop place = { t with nest := n, x := x, marks := k, bad := b, pc := p } := by
  unfold Strand.resumeLoop
  split
  · split
    · exact ⟨_, _, _, _, _, rfl⟩
    · obtain ⟨n, x, k, b, h⟩ := t.takeStep_eq
      dsimp only
      rw [h]
      split
      · exact ⟨_, _, _, _, _, rfl⟩
      · split <;> exact ⟨_, _, _, _, _, rfl⟩
  · exact ⟨_, _, _, _, _, rfl⟩

theorem Strand.resumeLoop_of_none {t : Strand} (h : t.nest = none) (place : Option Nat) : t.resumeLoop place = t := by
  simp only [Strand.resumeLoop, h]

theorem Strand.resumeLoop_nowhere (t : Strand) : t.resumeLoop none = t := by
  unfold Strand.resumeLoop
  split
  · next h => exact nomatch h
  · rfl

theorem Strand.resumeLoop_body {t : Strand} {q : Nest} {k : Nat} (h : t.nest = some q) (hk : k < q.body) :
    t.resumeLoop (some k) = { t with nest := some { q with pos := k } } := by
  simp only [Strand.resumeLoop, h]
  exact if_pos hk

/-- Past the last bundle the pass is over: after the step the nest ends, or goes on at its first bundle. -/
theorem Strand.resumeLoop_after {t : Strand} {q z : Nest} (h : t.nest = some q) (hz : t.takeStep.nest = some z) :
    t.resumeLoop (some q.body) = if (z.idx.zip z.counts).all (fun p => p.1 + 1 == p.2) = true then { t.takeStep with nest := none }
      else { t.takeStep with nest := some { z with pos := 0, due := true }, pc := z.first } := by
  have past : ¬ z.body - 1 + 1 < z.body := by omega
  simp only [Strand.resumeLoop, h, Nat.lt_irrefl, if_false, hz, Nest.next, past]
  split_ifs <;> rfl

theorem State.bodyPlace_eq_some {s : State} {c va k : Nat} {q : Nest} (hk : k ≤ q.body) (here : s.skipBundles c k q.first.toNat = va)
    (first : ∀ j, j < k → ¬ s.skipBundles c j q.first.toNat = va) : s.bodyPlace c q va = some k := by
  rw [State.bodyPlace, List.find?_range_eq_some]
  exact ⟨by simpa using here, by simpa using Nat.lt_succ_of_le hk, fun j hj => by simpa using first j hj⟩

theorem State.bodyPlace_eq_none {s : State} {c va : Nat} {q : Nest} (h : ∀ k, k ≤ q.body → ¬ s.skipBundles c k q.first.toNat = va) :
    s.bodyPlace c q va = none := by
  rw [State.bodyPlace, List.find?_range_eq_none]
  exact fun k hk => by simpa using h k (Nat.le_of_lt_succ hk)

/-! ## ERET (R344) -/

theorem State.me_consumed (s : State) (m : Bool) : (s.consumed m).me = { s.me with pend := s.me.pend ++ if m then
    [{ due := s.me.time + 1, seq := s.me.nextSeq, write := .none, mark := true, load := none, recs := [] }] else [] } := by
  cases m
  · simp only [State.consumed, Bool.false_eq_true, if_false, List.append_nil]
  · rw [State.consumed, if_pos rfl, State.me_result]
    simp [Issue.compares]

/-- The issuing strand returned from its trap, before its nest goes on. -/
def State.returned (s : State) : Strand := (s.consumed (s.me.ctlMarks.contains 0x002)).me.returnTrap

theorem eret_returns {s : State} (h : Goes .eret s (s.me.nest = none ∧ s.me.ctl.epc.toNat % 4 = 0)) :
    ∃ u, exec .eret s = .next u ∧ u.hbm = s.hbm ∧ u.dies = s.dies ∧
      u.me = s.returned.resumeLoop (s.returned.nest.bind fun q => s.bodyPlace s.issue.core q s.returned.pc.toNat) := by
  have goes := issueWith_goes (checks := fun s => { faults := s.loopFault.or (misalignedTarget (zext64 s.me.ctl.epc)) })
    (effect := fun s =>
      let s := (s.consumed (s.ctlMark [0x002])).modMe Strand.returnTrap
      let c := s.issue.core
      s.modMe fun t => t.resumeLoop (t.nest.bind fun q => s.bodyPlace c q t.pc.toNat)) h fun ⟨free, aligned⟩ =>
    ⟨rfl, rfl, by
      have whole : (zext64 s.me.ctl.epc).toNat % 4 = 0 := by
        rw [zext64, BitVec.toNat_setWidth_of_le (by omega)]
        exact aligned
      simp only [State.loopFault_none free, misalignedTarget_none whole]; rfl⟩
  rw [exec_eret, execEret, goes]
  refine ⟨_, rfl, ?_, ?_, ?_⟩
  · exact (State.SameTables.consumed s _).hbm
  · exact (State.SameTables.consumed s _).dies
  · dsimp only
    have same : s.SameTables ((s.consumed (s.ctlMark [0x002])).modMe Strand.returnTrap) := (State.SameTables.consumed s _).trans (.modMe _ _)
    have back : ((s.consumed (s.ctlMark [0x002])).modMe Strand.returnTrap).me = s.returned := by
      rw [State.me_modMe, State.ctlMark_singleton]; rfl
    have refused : s.returned.wait.refused = s.me.wait.refused := by
      rw [State.returned, State.me_consumed, Strand.returnTrap]
      split <;> rfl
    have core : ((s.consumed (s.ctlMark [0x002])).modMe Strand.returnTrap).issue.core = s.issue.core :=
      congrArg Issue.core (s.consumed_issue _)
    rw [State.me_modMe, back]
    simp only [same.bodyPlace_eq (by rw [back, refused]), core]

/-- What ERET does to a strand apart from the nest that goes on. -/
theorem State.returned_eq (s : State) :
    let kept := s.me.pend ++ if s.me.ctlMarks.contains 0x002 then
      [{ due := s.me.time + 1, seq := s.me.nextSeq, write := .none, mark := true, load := none, recs := [] }] else []
    let t : Strand := { s.me with
      ctl := { s.me.ctl with priv := s.me.ctl.ppriv, exl := false }, pc := s.me.ctl.epc, issueAt := s.me.time + 4, pend := kept }
    (s.me.frames = [] → s.returned = { t with nest := none }) ∧
    ∀ f fs, s.me.frames = f :: fs → s.returned = { t with
      frames := fs, nest := f.nest
      pend := kept ++ f.pend.map (fun p => { p with due := p.due - f.at_ + (s.me.time + 4) })
      blocks := s.me.blocks ++
        f.blocks.map (fun b => { b with start := b.start + (s.me.time + 4) - f.at_, deaf := (f.seq, s.me.nextSeq + 1) :: b.deaf }) } := by
  refine ⟨fun h => ?_, fun f fs h => ?_⟩ <;>
  · rw [State.returned, State.me_consumed, Strand.returnTrap]
    simp only [h]

theorem State.returned_rest (s : State) :
    s.returned.ctl.priv = s.me.ctl.ppriv ∧ s.returned.ctl.exl = false ∧ s.returned.issueAt = s.me.time + 4 ∧
    s.returned.desc = s.me.desc ∧ s.returned.lanes = s.me.lanes ∧ s.returned.streams = s.me.streams ∧
    s.returned.pc = s.me.ctl.epc ∧ s.returned.x = s.me.x := by
  obtain ⟨bare, framed⟩ := s.returned_eq
  cases hf : s.me.frames with
  | nil => rw [bare hf]; exact ⟨rfl, rfl, rfl, rfl, rfl, rfl, rfl, rfl⟩
  | cons f fs => rw [framed f fs hf]; exact ⟨rfl, rfl, rfl, rfl, rfl, rfl, rfl, rfl⟩

/-- At U no slot may hold an ERET: slot SA and the conductor's VB to CY by their kind, any other by the privilege (R35). -/
theorem State.decodeVerdict_eret {s : State} (atU : s.me.ctl.priv = false) : s.decodeVerdict .eret = some (decodeFault
    (if s.meConductor = true ∧ 3 ≤ s.issue.slot ∧ s.issue.slot ≤ 13 ∨ s.issue.slot = 0 then 0x02 else 0x04) .eret) := by
  have formed : (!Instr.eret.wellFormed || (f64Special .eret && !versionSupported s.me.ctl.version)) = false := rfl
  have inSb : (Instr.eret.sbOnly && s.issue.slot == 0) = (s.issue.slot == 0) := rfl
  have format : (!formatPairOk .eret) = false := rfl
  unfold State.decodeVerdict
  simp only [formed, inSb, format, atU, Bool.false_eq_true, if_false, beq_iff_eq, Bool.and_eq_true, decide_eq_true_eq, and_assoc]
  by_cases slot0 : s.issue.slot = 0
  · rw [if_pos slot0, if_pos (.inr slot0)]; rfl
  · by_cases lanes : s.meConductor = true ∧ 3 ≤ s.issue.slot ∧ s.issue.slot ≤ 13
    · rw [if_neg slot0, if_pos lanes, if_pos (.inl lanes)]; rfl
    · rw [if_neg slot0, if_neg lanes, if_neg (not_or.2 ⟨lanes, slot0⟩)]; rfl

/-- ERET at U (R344). -/
theorem eret_atU {s : State} (fresh : s.issue.admitted = false) (atU : s.me.ctl.priv = false) :
    ∃ v, exec .eret s = .next (({ s with issue := v } : State).takeTrap s.issue.core s.issue.strand
      (causeWord (if s.meConductor = true ∧ 3 ≤ s.issue.slot ∧ s.issue.slot ≤ 13 ∨ s.issue.slot = 0 then 0x02 else 0x04) 0 s.issue.slot 0 0 s.issue.len)
      (BitVec.ofNat 17 (2 ^ s.issue.slot)) 0xD8000000 s.issue.addr) := by
  obtain ⟨v, hv⟩ := issueWith_decodeFault fresh (State.decodeVerdict_eret atU)
  rw [exec_eret, execEret]
  exact ⟨v, hv _ _⟩

/-- ERET in a live body, and with an EPC that is no multiple of 4 (R100, R344). -/
theorem eret_faults {s : State} (fresh : s.issue.admitted = false) (clear : Clear .eret s) :
    (s.me.nest.isSome = true → exec .eret s = .next (s.refuse (.fault 0x0F 0 0 0 0 false))) ∧
    (s.me.nest = none → s.me.ctl.epc.toNat % 4 ≠ 0 →
      exec .eret s = .next (s.refuse (.fault misalignedCode alignReason (zext64 s.me.ctl.epc) 0 0 false))) := by
  rw [exec_eret, execEret]
  refine ⟨fun live => issueWith_refused fresh (State.verdictOf_of_faults clear rfl rfl ?_), fun free odd =>
    issueWith_refused fresh (State.verdictOf_of_faults clear rfl rfl ?_)⟩
  · simp only [State.loopFault, if_pos live]; rfl
  · have odd' : (zext64 s.me.ctl.epc).toNat % 4 ≠ 0 := by
      rw [zext64, BitVec.toNat_setWidth_of_le (by omega)]
      exact odd
    simp only [State.loopFault_none free, misalignedTarget, if_pos odd']; rfl

theorem trapReturn_holds : Claims.trapReturn := by
  refine ⟨fun s h => ?_, fun s => eret_atU, fun s => eret_faults⟩
  obtain ⟨u, hu, hbm, dies, me⟩ := eret_returns h
  obtain ⟨priv, exl, issueAt, desc, lanes, streams, pc, x⟩ := s.returned_rest
  obtain ⟨bare, framed⟩ := s.returned_eq
  obtain ⟨n, y, k, b, p, only⟩ :=
    Strand.resumeLoop_eq (s.returned.nest.bind fun q => s.bodyPlace s.issue.core q s.returned.pc.toNat) s.returned
  have rest := me.trans only
  refine ⟨u, hu, ?_, ?_, ?_, hbm, dies, ?_, ?_, ?_, fun hf => ?_, fun f fs hf => ?_⟩
  · rw [rest]; exact priv
  · rw [rest]; exact exl
  · rw [rest]; exact issueAt
  · rw [rest]; exact desc
  · rw [rest]; exact lanes
  · rw [rest]; exact streams
  · rw [me, bare hf, Strand.resumeLoop_of_none rfl]
    exact ⟨rfl, rfl, rfl, rfl, rfl⟩
  · have level := framed f fs hf
    have nest : s.returned.nest = f.nest := by rw [level]
    refine ⟨by rw [rest, level], by rw [rest, level], by rw [rest, level], fun hn => ?_, fun q hq => ?_⟩
    · have none_ := nest.trans hn
      rw [me, Strand.resumeLoop_of_none none_]
      exact ⟨pc, none_, x⟩
    · have some_ := nest.trans hq
      rw [some_, Option.bind_some, pc] at me
      intro at_
      refine ⟨fun nowhere => ?_, fun k hk here first => ?_, fun here first => ?_⟩
      · rw [me, State.bodyPlace_eq_none nowhere, Strand.resumeLoop_nowhere]
        exact ⟨pc, some_, x⟩
      · rw [me, State.bodyPlace_eq_some (Nat.le_of_lt hk) here first, Strand.resumeLoop_body some_ hk]
        exact ⟨pc, rfl, x⟩
      · refine ⟨_, _, rfl, rfl, ?_⟩
        obtain ⟨stepX, stepNest⟩ := Strand.takeStep_congr (t := { s.me with nest := some q }) x some_
        obtain ⟨n, x, k, b, step⟩ := s.returned.takeStep_eq
        have stepPc : s.returned.takeStep.pc = s.returned.pc := by rw [step]
        rw [State.bodyPlace_eq_some (Nat.le_refl _) here first] at me
        obtain ⟨z, hz⟩ := Strand.takeStep_some some_
        rw [Strand.resumeLoop_after some_ hz] at me
        refine ⟨?_, fun z' hz' => ?_⟩
        · rw [me, ← stepX]
          split <;> rfl
        · cases hz.symm.trans (stepNest.trans hz')
          rw [me]
          split
          · exact ⟨stepPc.trans pc, rfl⟩
          · exact ⟨rfl, rfl⟩

/-- Trap entry sets aside, and the return puts back, by the offset from the bundle. -/
theorem returnUndoesEntry_holds : Claims.returnUndoesEntry := by
  rintro t core n k exl late e u m rfl
  refine ⟨rfl, rfl, rfl, rfl, rfl, rfl, ?_, ?_⟩
  · refine (List.nil_append _).trans (List.map_congr_left fun p hp => ?_)
    have := late p hp
    show { p with due := p.due - t.time + (t.time + k + 4) } = _
    rw [show p.due - t.time + (t.time + k + 4) = p.due + (k + 4) by omega]
  · refine (List.nil_append _).trans (List.map_congr_left fun b _ => ?_)
    show { b with start := b.start + (t.time + k + 4) - t.time, deaf := (t.nextSeq, m + 1) :: b.deaf } = _
    rw [show b.start + (t.time + k + 4) - t.time = b.start + (k + 4) by omega]

/-- Settles O47: the return is one update of the strand, and its place in the restored nest the first body bundle at the return address. -/
theorem trapReturned : Obligations.TrapReturned := ⟨trapReturn_holds, returnUndoesEntry_holds⟩

end Sys2Proof.Machine
end

section
/-!
PROOF. Where a scalar syllable waits or traps by its operands, or by a live loop body (R92, R100, R114, R115, R143, R335, R355).
-/

set_option Elab.async false
namespace Sys2Proof.Machine

/-- A wait without more blocks the strand, and leaves no other trace. -/
theorem State.refuse_blockFor (s : State) {reason : Nat} (plain : reason ≠ 10) :
    s.refuse (blockFor reason) = ({ s with issue := { s.issue with verdict := some (blockFor reason) } } : State).block s.issue.core
      s.issue.strand reason [] none := by
  simp only [blockFor, State.refuse, State.waitFor, plain, if_false, State.askLease, ite_self]

/-- A syllable that passes decode waits where its own check says so. -/
theorem issueWith_blocks {i : Instr} {s : State} {checks : State → Checks} {reason : Nat} (fresh : s.issue.admitted = false)
    (clear : Clear i s) (plain : reason ≠ 10) (blocks : (checks s).blocks = some (blockFor reason)) (effect : State → State) :
    ∃ v, issueWith i s checks effect = .next (({ s with issue := v } : State).block s.issue.core s.issue.strand reason [] none) :=
  ⟨_, (issueWith_refused fresh (State.verdictOf_of_blocks clear.legal clear.fed blocks)).trans (congrArg _ (s.refuse_blockFor plain))⟩

/-- A syllable that passes the checks of all syllables, and whose own checks are one fault, traps with it. -/
theorem issueWith_traps {i : Instr} {s : State} {checks : State → Checks} {code reason : Nat} {info : Word} (fresh : s.issue.admitted = false)
    (clear : Clear i s) (own : checks s = { faults := some (faultWith code reason info) }) (effect : State → State) :
    ∃ v, issueWith i s checks effect = .next (({ s with issue := v } : State).takeTrap s.issue.core s.issue.strand
      (causeWord code reason s.issue.slot 0 0 s.issue.len) (BitVec.ofNat 17 (2 ^ s.issue.slot)) info s.issue.addr) :=
  issueWith_faults fresh clear (by rw [own]) (by rw [own]) (by rw [own]) effect

/-- Every load is the one operation of its size. -/
theorem exec_of_loadOf {i : Instr} {x a : BitVec 6} {d : BitVec 10} {n : Nat} {sg : Bool} (h : Claims.loadOf i = some (x, a, d, n, sg))
    (s : State) : exec i s = load i x a d n sg s := by
  unfold Claims.loadOf at h
  split at h <;> cases h
  · exact exec_ldb ..
  · exact exec_ldbu ..
  · exact exec_ldh ..
  · exact exec_ldhu ..
  · exact exec_ldw ..
  · exact exec_ldwu ..
  · exact exec_ldd ..

/-- Every store is the one operation of its size. -/
theorem exec_of_storeOf {i : Instr} {x a : BitVec 6} {d : BitVec 10} {n : Nat} (h : Claims.storeOf i = some (x, a, d, n))
    (s : State) : exec i s = store i x a d n s := by
  unfold Claims.storeOf at h
  split at h <;> cases h
  · exact exec_stb ..
  · exact exec_sth ..
  · exact exec_stw ..
  · exact exec_std ..

/-- Alignment is checked before all else of an access (R143). -/
theorem State.accessChecks_misaligned (s : State) {ea : Word} {n : Nat} (acc : Acc) (odd : ea.toNat % n ≠ 0) :
    s.accessChecks ea n acc = { faults := some (faultWith misalignedCode alignReason ea) } := if_pos odd

theorem State.loopFault_some {s : State} (live : s.me.nest ≠ none) : s.loopFault = some (faultWith loopCode 0 0) :=
  if_pos (Option.isSome_iff_ne_none.2 live)

theorem misalignedTarget_some {v : Word} (odd : v.toNat % 4 ≠ 0) :
    misalignedTarget v = some (faultWith misalignedCode alignReason v) := if_pos odd

/-- A taken branch in a live body traps (R100). -/
theorem branch_loops {w : Nat} {i : Instr} {s : State} {taken : State → Bool} (fresh : s.issue.admitted = false) (clear : Clear i s)
    (live : s.me.nest ≠ none) (goes : taken s = true) (disp : BitVec w) :
    ∃ v, branch i taken disp s = .next (({ s with issue := v } : State).takeTrap s.issue.core s.issue.strand
      (causeWord loopCode 0 s.issue.slot 0 0 s.issue.len) (BitVec.ofNat 17 (2 ^ s.issue.slot)) 0 s.issue.addr) :=
  issueWith_traps fresh clear (by simp only [goes, if_true, State.loopFault_some live]) _

/-- Settles O51: each is the first check of its syllable that fails. -/
theorem waitsAndFaults : Obligations.WaitsAndFaults := by
  intro s fresh traps blocks
  refine ⟨fun i x a d n sg hi clear odd => ?_, fun i x a d n hi clear odd => ?_, fun d t clear => ⟨fun idle => ?_, fun pending met tried => ?_⟩,
    fun a b c clear fails => ?_, fun d q clear opened => ?_, fun d a g free odd => ?_, fun live => ?_⟩
  · dsimp only [traps]
    rw [exec_of_loadOf hi]
    exact issueWith_traps fresh clear (s.accessChecks_misaligned .read odd) _
  · dsimp only [traps]
    rw [exec_of_storeOf hi]
    exact issueWith_traps fresh clear (s.accessChecks_misaligned .write odd) _
  · dsimp only [traps]
    rw [exec_tkwait]
    exact issueWith_traps fresh clear (by simp only [idle]; rfl) _
  · have reason : s.tokenReason s.myDie s.myTeamIndex t.toNat = waitToken := by
      unfold State.tokenReason
      rw [show s.tokenPeerLost _ _ _ = false from met, show s.tokenInRetry _ _ _ = false from tried]
      rfl
    dsimp only [blocks]
    rw [exec_tkwait]
    exact issueWith_blocks fresh clear (by decide) (by simp only [pending, reason]; rfl) _
  · dsimp only [traps]
    rw [exec_cmpt]
    exact issueWith_traps fresh clear (by simp only [fails]; rfl) _
  · dsimp only [blocks]
    rw [exec_qwait]
    exact issueWith_blocks fresh clear (by decide) (by simp only [opened, true_or, if_true]; rfl) _
  · have own : s.loopFault.or (misalignedTarget (s.srcPeek a)) = some (faultWith misalignedCode alignReason (s.srcPeek a)) := by
      rw [State.loopFault_none free, misalignedTarget_some odd]; rfl
    dsimp only [traps]
    rw [exec_jr, exec_jrl]
    exact ⟨fun clear => issueWith_traps fresh clear (by simp only [own]; rfl) _, fun clear => issueWith_traps fresh clear (by simp only [own]; rfl) _⟩
  · have first : ∀ v, s.loopFault.or v = some (faultWith loopCode 0 0) := fun v => by rw [State.loopFault_some live]; rfl
    have alone := State.loopFault_some live
    intro loops
    dsimp only [loops, traps]
    refine ⟨fun c a b e holds clear => ?_, fun a e => ⟨fun zero clear => ?_, fun other clear => ?_⟩, fun e => ⟨fun clear => ?_, fun clear => ?_⟩,
      fun d a g => ⟨fun clear => ?_, fun clear => ?_⟩⟩
    · rw [exec_br, execBr]; exact branch_loops fresh clear live holds e
    · have goes : (s.srcPeek a == 0) = true := beq_iff_eq.2 zero
      rw [exec_bz, execBz]; exact branch_loops fresh clear live goes e
    · have goes : (s.srcPeek a != 0) = true := bne_iff_ne.2 other
      rw [exec_bnz, execBnz]; exact branch_loops fresh clear live goes e
    · rw [exec_jmp, execJmp]; exact issueWith_traps fresh clear (by simp only [alone]; rfl) _
    · rw [exec_call, execCall]; exact issueWith_traps fresh clear (by simp only [alone]; rfl) _
    · rw [exec_jr, execJr]; exact issueWith_traps fresh clear (by simp only [first]; rfl) _
    · rw [exec_jrl, execJrl]; exact issueWith_traps fresh clear (by simp only [first]; rfl) _

end Sys2Proof.Machine
end

section
/-!
PROOF. What result-only syllables and transfers leave unchanged (R94, R103, R107, R113).
-/

set_option Elab.async false
namespace Sys2Proof.Machine
open Claims

/-! ## What stays, read off the kept state -/

section
variable {s t : State} (h : s.Kept t)
include h

theorem State.Kept.strand (c n : Nat) : Strand.Same (s.strand c n) (t.strand c n) := (h.core c).strand n

theorem State.Kept.sameMemory : SameMemory s t :=
  ⟨fun a => by rw [h.hbm], fun a => by rw [h.hostMem], fun c a => by rw [(h.core c).pool]⟩

theorem State.Kept.sameRegisters : SameRegisters s t := fun c n r =>
  ⟨by rw [Strand.reg, Strand.reg, (h.strand c n).x], by rw [Strand.regMark, Strand.regMark, (h.strand c n).marks]⟩

theorem State.Kept.sameControl : SameControl s t := fun c n => (h.strand c n).ctl

theorem State.Kept.sameLanes : SameLanes s t := fun c n =>
  ⟨(h.strand c n).lanes, (h.strand c n).geoRows, (h.strand c n).geoCols, (h.strand c n).geoKlim⟩

theorem State.Kept.sameFiles : SameFiles s t := fun c => ⟨(h.core c).tris, (h.core c).scale⟩

theorem State.Kept.samePlace : SamePlace s t := fun c n =>
  ⟨(h.strand c n).pc, (h.strand c n).issueAt, (h.strand c n).nest, (h.strand c n).mode⟩

theorem State.Kept.sameOthers : SameOthers s t := h.pend

end

/-! ## Reading sources, and answering a result -/

/-- What reading the sources of a syllable and taking its unit do: nothing is put in flight, and only the issuing strand and its core
are touched. -/
structure State.Reads (s t : State) : Prop where
  kept : s.Kept t
  dies : t.dies = s.dies
  cmds : t.cmds = s.cmds
  pend : t.me.pend = s.me.pend
  others : ∀ c n, (c ≠ s.issue.core ∨ n ≠ s.issue.strand) → t.strand c n = s.strand c n

theorem State.Reads.refl (s : State) : s.Reads s := ⟨.refl s, rfl, rfl, rfl, fun _ _ _ => rfl⟩

theorem State.Reads.trans {s t u : State} (h : s.Reads t) (k : t.Reads u) : s.Reads u :=
  ⟨h.kept.trans k.kept, k.dies.trans h.dies, k.cmds.trans h.cmds, k.pend.trans h.pend, fun c n apart =>
    (k.others c n (by rwa [h.kept.core_, h.kept.strand_])).trans (h.others c n apart)⟩

theorem State.Reads.src (s : State) (r : BitVec 6) : s.Reads (s.src r).2 := by
  obtain same | ⟨streams, popped, pops⟩ := s.src_cases r
  · rw [same]
    exact .refl s
  · refine ⟨.src s r, ?_, ?_, ?_, fun c n apart => ?_⟩ <;> rw [pops]
    · rfl
    · rfl
    · have mine := congrArg Strand.pend (s.me_modMe fun t => { t with streams := streams })
      exact mine
    · exact s.strand_modStrand_ne _ _ (fun t => { t with streams := streams }) apart

theorem State.Reads.src2 (s : State) (a b : BitVec 6) : s.Reads (s.src2 a b).2 := (State.Reads.src s a).trans (.src _ b)

theorem State.Reads.useDivider (s : State) (sb : Bool) (n : Nat) : s.Reads (s.useDivider sb n) := by
  have strand : ∀ c m, (s.useDivider sb n).strand c m = s.strand c m := fun c m => by
    unfold State.useDivider State.modMyCore State.strand
    by_cases h : c = s.issue.core
    · subst h
      rw [State.core_modCore]
      split <;> rfl
    · rw [State.core_modCore_ne _ _ h]
  refine ⟨.modMyCore s _ fun k => ?_, rfl, rfl, congrArg Strand.pend (strand _ _), fun c m _ => strand c m⟩
  split <;> exact ⟨rfl, rfl, rfl, rfl⟩

/-- The divide-and-root unit of a slot, and of a mirror SB's too (R112). -/
theorem State.Reads.useRoots (s : State) (n : Nat) :
    s.Reads (if (s.useDivider (s.issue.slot != 0) n).issue.mirrored then (s.useDivider (s.issue.slot != 0) n).useDivider true n
      else s.useDivider (s.issue.slot != 0) n) := by
  split
  · exact (State.Reads.useDivider s _ n).trans (.useDivider _ true n)
  · exact .useDivider s _ n

/-- What a syllable with results for some registers leaves: beside what reading its sources does, it puts results for them in flight. -/
structure State.Answers (ds : List (BitVec 6)) (s t : State) : Prop where
  kept : s.Kept t
  dies : t.dies = s.dies
  cmds : t.cmds = s.cmds
  adds : AddsOnly ds s t
  others : ∀ c n, (c ≠ s.issue.core ∨ n ≠ s.issue.strand) → t.strand c n = s.strand c n

theorem State.Reads.answers {s u : State} (h : s.Reads u) (ds : List (BitVec 6)) : State.Answers ds s u :=
  ⟨h.kept, h.dies, h.cmds, ⟨[], by rw [h.pend, List.append_nil], List.forall_mem_nil _⟩, h.others⟩

theorem State.Answers.result {s u : State} {ds : List (BitVec 6)} (h : State.Answers ds s u) (l : Nat) (w : Write)
    (dest : w = .none ∨ ∃ r v, w = .x r v ∧ (r ∈ ds ∨ r = 0)) (m : Bool) (rs : List StatRecord) :
    State.Answers ds s (u.result l w m rs) := by
  obtain ⟨ps, added, only⟩ := h.adds
  refine ⟨h.kept.trans (.result ..), h.dies, h.cmds, ⟨_, by rw [State.me_result_pend, added, List.append_assoc], fun p hp => ?_⟩,
    fun c n apart => (u.strand_modStrand_ne _ _ _ (by rwa [h.kept.core_, h.kept.strand_])).trans (h.others c n apart)⟩
  rcases List.mem_append.1 hp with hp | hp
  · exact only p hp
  · exact List.mem_singleton.1 hp ▸ dest

theorem State.Reads.result {s u : State} (h : s.Reads u) {ds : List (BitVec 6)} (l : Nat) (w : Write)
    (dest : w = .none ∨ ∃ r v, w = .x r v ∧ (r ∈ ds ∨ r = 0)) (m : Bool) (rs : List StatRecord) :
    State.Answers ds s (u.result l w m rs) := (h.answers ds).result l w dest m rs

theorem State.Reads.consumed {s u : State} (h : s.Reads u) (ds : List (BitVec 6)) (m : Bool) : State.Answers ds s (u.consumed m) := by
  unfold State.consumed
  split
  · exact h.result 1 .none (.inl rfl) true []
  · exact h.answers ds

/-! ## Result-only syllables -/

/-- An admitted syllable whose effect is one result for a destination of its own. -/
theorem issueWith_answers {i : Instr} {s t u : State} {checks : State → Checks} {effect : State → State} {d : BitVec 6} {l : Nat}
    {v : Word} {m : Bool} {rs : List StatRecord} (admitted : s.issue.admitted = true) (next : issueWith i s checks effect = .next t)
    (shape : effect s = u.result l (.x d v) m rs) (reads : s.Reads u) (dest : d ∈ i.dests ∨ d = 0) : State.Answers i.dests s t := by
  rw [issueWith_admitted admitted, shape] at next
  cases next
  exact reads.result l _ (.inr ⟨d, v, rfl, dest⟩) m rs

/-- A register is x0, or it is a destination where it is named as one (R88). -/
theorem dest_named (d : BitVec 6) : d ∈ [d].filter (· != 0) ∨ d = 0 := by
  by_cases h : d = 0
  · exact .inr h
  · exact .inl (List.mem_filter.2 ⟨List.mem_singleton_self d, bne_iff_ne.2 h⟩)

section
variable {i : Instr} {s t : State} {d a b : BitVec 6} {l : Nat} (admitted : s.issue.admitted = true) (dest : d ∈ i.dests ∨ d = 0)
include admitted dest

theorem aluOne_answers {f : Word → Word} (next : aluOne i d a l f s = .next t) : State.Answers i.dests s t := by
  rw [aluOne, issuePlain] at next
  exact issueWith_answers admitted next rfl (.src s a) dest

theorem aluTwo_answers {f : Word → Word → Word} (next : aluTwo i d a b l f s = .next t) : State.Answers i.dests s t := by
  rw [aluTwo, issuePlain] at next
  exact issueWith_answers admitted next rfl (.src2 s a b) dest

theorem aluKeep_answers {f : Word → Word → Word} (next : aluKeep i d a f s = .next t) : State.Answers i.dests s t := by
  rw [aluKeep, issuePlain] at next
  exact issueWith_answers admitted next rfl (.src s a) dest

theorem aluSelf_answers {f : Word → Word} (next : aluSelf i d f s = .next t) : State.Answers i.dests s t := by
  rw [aluSelf, issuePlain] at next
  exact issueWith_answers admitted next rfl (.refl s) dest

theorem divRem_answers {f : Word → Word → Word} (next : divRem i d a b f s = .next t) : State.Answers i.dests s t := by
  rw [divRem] at next
  exact issueWith_answers admitted next rfl ((State.Reads.src2 s a b).trans (.useDivider ..)) dest

theorem floatTwo_answers {p : BitVec 2} {r : BitVec 3} {l32 l64 : Nat} {f : Fmt → RMode → Val → Val → Nat × Events}
    (next : floatTwo i d a b p r l32 l64 f s = .next t) : State.Answers i.dests s t := by
  rw [floatTwo, issuePlain] at next
  exact issueWith_answers admitted next rfl (.src2 s a b) dest

theorem floatRoot_answers {p : BitVec 2} {r : BitVec 3} {read : State → (Val × Val × Bool) × State}
    {f : Fmt → RMode → Val → Val → Nat × Events} (reads : s.Reads (read s).2) (next : floatRoot i d p r read f s = .next t) :
    State.Answers i.dests s t := by
  rw [floatRoot] at next
  exact issueWith_answers admitted next rfl (reads.trans (.useRoots _ _)) dest

end

/-- Every result-only syllable is of one of these shapes. -/
theorem registerOnly_answers {i : Instr} {s t : State} (admitted : s.issue.admitted = true) (only : registerOnly i = true)
    (next : exec i s = .next t) : State.Answers i.dests s t := by
  unfold registerOnly at only
  split at only
  · exact aluTwo_answers admitted (dest_named _) (exec_add .. ▸ next)
  · exact aluTwo_answers admitted (dest_named _) (exec_sub .. ▸ next)
  · exact aluTwo_answers admitted (dest_named _) (exec_mul .. ▸ next)
  · exact aluTwo_answers admitted (dest_named _) (exec_mulh .. ▸ next)
  · exact divRem_answers admitted (dest_named _) (exec_div .. ▸ next)
  · exact divRem_answers admitted (dest_named _) (exec_rem .. ▸ next)
  · exact aluTwo_answers admitted (dest_named _) (exec_and .. ▸ next)
  · exact aluTwo_answers admitted (dest_named _) (exec_or .. ▸ next)
  · exact aluTwo_answers admitted (dest_named _) (exec_xor .. ▸ next)
  · exact aluTwo_answers admitted (dest_named _) (exec_shl .. ▸ next)
  · exact aluTwo_answers admitted (dest_named _) (exec_shr .. ▸ next)
  · exact aluTwo_answers admitted (dest_named _) (exec_sar .. ▸ next)
  · exact aluTwo_answers admitted (dest_named _) (exec_slt .. ▸ next)
  · exact aluTwo_answers admitted (dest_named _) (exec_seq .. ▸ next)
  · exact aluTwo_answers admitted (dest_named _) (exec_min .. ▸ next)
  · exact aluTwo_answers admitted (dest_named _) (exec_max .. ▸ next)
  · rw [exec_sel, execSel, issuePlain] at next; exact issueWith_answers admitted next rfl (.src2 ..) (dest_named _)
  · exact aluOne_answers admitted (dest_named _) (exec_clz .. ▸ next)
  · exact aluOne_answers admitted (dest_named _) (exec_ctz .. ▸ next)
  · exact aluOne_answers admitted (dest_named _) (exec_popc .. ▸ next)
  · exact aluOne_answers admitted (dest_named _) (exec_brev .. ▸ next)
  · rw [exec_peek, execPeek, issuePlain] at next; exact issueWith_answers admitted next rfl (.refl s) (dest_named _)
  · exact aluOne_answers admitted (dest_named _) (exec_bfx .. ▸ next)
  · exact aluKeep_answers admitted (dest_named _) (exec_bfi .. ▸ next)
  · exact aluTwo_answers admitted (dest_named _) (exec_agen .. ▸ next)
  · exact aluOne_answers admitted (dest_named _) (exec_addi .. ▸ next)
  · exact aluOne_answers admitted (dest_named _) (exec_andi .. ▸ next)
  · exact aluOne_answers admitted (dest_named _) (exec_ori .. ▸ next)
  · exact aluOne_answers admitted (dest_named _) (exec_xori .. ▸ next)
  · exact aluOne_answers admitted (dest_named _) (exec_shli .. ▸ next)
  · exact aluOne_answers admitted (dest_named _) (exec_shri .. ▸ next)
  · exact aluOne_answers admitted (dest_named _) (exec_sari .. ▸ next)
  · exact aluOne_answers admitted (dest_named _) (exec_slti .. ▸ next)
  · rw [exec_movi, execMovi, issuePlain] at next; exact issueWith_answers admitted next rfl (.refl s) (dest_named _)
  · exact aluSelf_answers admitted (dest_named _) (exec_movhi .. ▸ next)
  · exact aluSelf_answers admitted (dest_named _) (exec_movhh .. ▸ next)
  · exact floatTwo_answers admitted (dest_named _) (exec_fadd .. ▸ next)
  · exact floatTwo_answers admitted (dest_named _) (exec_fsub .. ▸ next)
  · exact floatTwo_answers admitted (dest_named _) (exec_fmul .. ▸ next)
  · rw [exec_fdiv, execFdiv] at next; exact floatRoot_answers admitted (dest_named _) (.src2 ..) next
  · exact floatTwo_answers admitted (dest_named _) (exec_fmin .. ▸ next)
  · exact floatTwo_answers admitted (dest_named _) (exec_fmax .. ▸ next)
  · rw [exec_fsqrt, execFsqrt] at next; exact floatRoot_answers admitted (dest_named _) (.src ..) next
  · rw [exec_ffma, execFfma, issuePlain] at next; exact issueWith_answers admitted next rfl (.src2 ..) (dest_named _)
  · rw [exec_fcvt, execFcvt, issuePlain] at next; exact issueWith_answers admitted next rfl (.src ..) (dest_named _)
  · exact aluTwo_answers admitted (dest_named _) (exec_fcmp .. ▸ next)
  · rw [exec_mfc, execMfc] at next; exact issueWith_answers admitted next rfl (.refl s) (dest_named _)
  · rw [exec_qwait, execQwait] at next; exact issueWith_answers admitted next rfl (.refl s) (dest_named _)
  · rw [exec_eget, execEget] at next; exact issueWith_answers admitted next rfl (.refl s) (dest_named _)
  · cases only

theorem registerFrame_holds : registerFrame := fun _ _ _ admitted only next =>
  let a := registerOnly_answers admitted only next
  ⟨a.kept.sameMemory, a.kept.sameRegisters, a.kept.sameControl, a.kept.sameLanes, a.kept.sameFiles, a.kept.samePlace,
    a.kept.sameOthers, a.adds, a.dies, a.cmds⟩

/-! ## Transfers -/

/-- A transfer changes where its strand goes on, and nothing else of any strand. -/
theorem State.strand_goTo (s : State) (target : VAddr) (delay c n : Nat) :
    ∃ pc at_, (s.goTo target delay).strand c n = { s.strand c n with pc := pc, issueAt := at_ } := by
  by_cases h : c = s.issue.core ∧ n = s.issue.strand
  · obtain ⟨rfl, rfl⟩ := h
    exact ⟨_, _, s.strand_modStrand _ _ _⟩
  · exact ⟨_, _, s.strand_modStrand_ne _ _ _ (by tauto)⟩

/-- What a transfer with a link for some register leaves. -/
structure State.Transfers (ds : List (BitVec 6)) (s t : State) : Prop where
  memory : SameMemory s t
  registers : SameRegisters s t
  control : SameControl s t
  lanes : SameLanes s t
  files : SameFiles s t
  inFlight : SameOthers s t
  adds : AddsOnly ds s t
  dies : t.dies = s.dies
  cmds : t.cmds = s.cmds
  nest : t.me.nest = s.me.nest
  others : ∀ c n, (c ≠ s.issue.core ∨ n ≠ s.issue.strand) → t.strand c n = s.strand c n

theorem State.Answers.transfers {ds : List (BitVec 6)} {s t : State} (a : State.Answers ds s t) : State.Transfers ds s t := by
  have nest : t.me.nest = s.me.nest := by
    rw [State.me, State.me, a.kept.core_, a.kept.strand_]
    exact (a.kept.strand _ _).nest
  exact ⟨a.kept.sameMemory, a.kept.sameRegisters, a.kept.sameControl, a.kept.sameLanes, a.kept.sameFiles, a.kept.sameOthers, a.adds,
    a.dies, a.cmds, nest, a.others⟩

theorem State.Answers.goTo {ds : List (BitVec 6)} {s t : State} (a : State.Answers ds s t) (target : VAddr) (delay : Nat) :
    State.Transfers ds s (t.goTo target delay) := by
  have b := a.transfers
  have files : ∀ c, ((t.goTo target delay).core c).pool = (t.core c).pool ∧ ((t.goTo target delay).core c).tris = (t.core c).tris ∧
      ((t.goTo target delay).core c).scale = (t.core c).scale := fun c => by
    unfold State.goTo State.modMe State.modStrand
    by_cases h : c = t.issue.core
    · subst h
      rw [State.core_modCore]
      exact ⟨rfl, rfl, rfl⟩
    · rw [State.core_modCore_ne _ _ h]
      exact ⟨rfl, rfl, rfl⟩
  have me : (t.goTo target delay).me.pend = t.me.pend ∧ (t.goTo target delay).me.nest = t.me.nest := by
    rw [State.goTo, State.me_modMe]
    exact ⟨rfl, rfl⟩
  obtain ⟨ps, added, only⟩ := b.adds
  refine ⟨⟨b.memory.1, b.memory.2.1, fun c p => by rw [(files c).1]; exact b.memory.2.2 c p⟩, fun c n r => ?_, fun c n => ?_, fun c n => ?_,
    fun c => ?_, fun c n apart => ?_, ⟨ps, me.1.trans added, only⟩, b.dies, b.cmds, me.2.trans b.nest, fun c n apart => ?_⟩
  · obtain ⟨pc, at_, same⟩ := t.strand_goTo target delay c n
    rw [same]; exact b.registers c n r
  · obtain ⟨pc, at_, same⟩ := t.strand_goTo target delay c n
    rw [same]; exact b.control c n
  · obtain ⟨pc, at_, same⟩ := t.strand_goTo target delay c n
    rw [same]; exact b.lanes c n
  · rw [(files c).2.1, (files c).2.2]; exact b.files c
  · obtain ⟨pc, at_, same⟩ := t.strand_goTo target delay c n
    rw [same]; exact b.inFlight c n apart
  · exact (t.strand_modStrand_ne _ _ _ (by rwa [a.kept.core_, a.kept.strand_])).trans (b.others c n apart)

/-- The sources of a branch, read in their order. -/
theorem State.Reads.sources {s u : State} (h : s.Reads u) (l : List (BitVec 6)) (m : Bool) :
    s.Reads (l.foldl (fun (q : Bool × State) r => let v := q.2.src r; (q.1 || v.1.2, v.2)) (m, u)).2 := by
  induction l generalizing u m with
  | nil => exact h
  | cons r l ih => exact ih (h.trans (.src u r)) _

theorem branch_transfers {w : Nat} {i : Instr} {s t : State} {taken : State → Bool} {disp : BitVec w} (admitted : s.issue.admitted = true)
    (next : branch i taken disp s = .next t) : State.Transfers i.dests s t := by
  rw [branch, issueWith_admitted admitted] at next
  cases next
  dsimp only
  split
  · exact ((State.Reads.sources (.refl s) _ _).consumed _ _).goTo ..
  · exact ((State.Reads.sources (.refl s) _ _).consumed _ _).transfers

theorem isTransfer_transfers {i : Instr} {s t : State} (admitted : s.issue.admitted = true) (only : isTransfer i = true)
    (next : exec i s = .next t) : State.Transfers i.dests s t := by
  unfold isTransfer at only
  split at only
  case h_8 => cases only
  case h_1 => exact branch_transfers admitted (exec_br .. ▸ next)
  case h_2 => exact branch_transfers admitted (exec_bz .. ▸ next)
  case h_3 => exact branch_transfers admitted (exec_bnz .. ▸ next)
  case h_4 =>
    rw [exec_jmp, execJmp, issueWith_admitted admitted] at next
    cases next
    exact ((State.Reads.refl s).answers _).goTo ..
  case h_5 =>
    rw [exec_call, execCall, issueWith_admitted admitted] at next
    cases next
    exact ((State.Reads.refl s).result 1 _ (.inr ⟨_, _, rfl, dest_named 55⟩) false []).goTo ..
  case h_6 =>
    rw [exec_jr, execJr, issueWith_admitted admitted] at next
    cases next
    exact ((State.Reads.src s _).consumed _ _).goTo ..
  case h_7 =>
    rw [exec_jrl, execJrl, issueWith_admitted admitted] at next
    cases next
    exact (((State.Reads.src s _).consumed _ _).result 1 _ (.inr ⟨_, _, rfl, dest_named _⟩) false []).goTo ..

theorem transferFrame_holds : transferFrame := fun _ _ _ admitted only next =>
  let a := isTransfer_transfers admitted only next
  ⟨a.memory, a.registers, a.control, a.lanes, a.files, a.inFlight, a.adds, a.dies, a.cmds, a.nest, a.others⟩

/-- Settles O56: reading sources pops streams and takes a unit, and the effect is then one result, or one change of place. -/
theorem resultFrame : Obligations.ResultFrame := ⟨registerFrame_holds, transferFrame_holds⟩

end Sys2Proof.Machine
end

section
/-!
PROOF. What a queued command of a condemned strand changes as it issues (R242, R251, R326).
-/

set_option Elab.async false
namespace Sys2Proof.Machine
open Claims

/-- An unfinished command of another team, of die 1, whose identifier is the one that the next command is given. -/
def olderCommand : Cmd :=
  { id := 0, d := 1, t := 0, who := { cl := 0, co := 0, n := 0 },
    cap := { op := .unlease 0 0, xa := 0, dep := 3, desc := [], rmode := 0, addr := 0 }, seq := 0, gang := 0, token := 3, consumed := [],
    started := false, done := false, seen := false, cancel := false, own := .ok, progress := 0, next := 0, window := 0, waits := [],
    refused := none, cache := [], olds := [], tees := [], out := [], pos := 0, updates := [], adds := [], crc := 0, events := [],
    holes := [], mark := false, unanswered := 0, status := 0, cause := 0, failAddr := 0 }

/-- A condemned strand of die 0 issues an UNLEASE while that command is unfinished. -/
def condemnedIssue : State :=
  let s := State.reset.modMe fun t => { t with condemned := some 0 }
  { s with cmds := [olderCommand], issue := { s.issue with admitted := true } }

/-- The command that UNLEASE cancels at once is the first of its identifier: the other team's. -/
theorem condemnedIssue_cancels : ∃ t, exec (.unlease 0 0) condemnedIssue = .next t ∧
    ((t.team 1 0).token 3).st = .cancelled ∧ ((condemnedIssue.team 1 0).token 3).st = .idle :=
  ⟨_, rfl, by decide, by decide⟩

/-- Refutes O59: the last clause of `commandFrame` says that a queued command changes nothing of another team. A condemned strand's is
cancelled at once, by its identifier, and the statement lets another team's unfinished command have that identifier already: then that
one's token is produced-cancelled. -/
theorem not_queueFrame : ¬ Obligations.QueueFrame := by
  unfold Obligations.QueueFrame commandFrame
  rintro ⟨-, frame⟩
  obtain ⟨t, next, cancelled, idle⟩ := condemnedIssue_cancels
  obtain ⟨-, -, -, -, -, -, -, -, others⟩ := frame condemnedIssue t (.unlease 0 0) (by decide) rfl next
  rw [others 1 0 (.inl (by decide)), idle] at cancelled
  exact absurd cancelled (by decide)

end Sys2Proof.Machine
end

section
/-!
PROOF. Scalar loads and SPINW (R116, R143, R144, R270).
-/

set_option Elab.async false
namespace Sys2Proof.Machine
open Claims

/-! ## What an access leaves in the caches (R132) -/

/-- Only the caches of translations and the free values drawn differ. -/
structure State.CachesOnly (s t : State) : Prop where
  issue : t.issue = s.issue
  nextId : t.nextId = s.nextId
  strand : ∀ c n, t.strand c n = s.strand c n
  core : ∀ c, ∃ l, t.core c = { s.core c with utlb := l }

theorem State.CachesOnly.me {s t : State} (h : s.CachesOnly t) : t.me = s.me := by
  rw [State.me, State.me, h.issue, h.strand]

theorem State.CachesOnly.poolRead {s t : State} (h : s.CachesOnly t) (c off n : Nat) :
    (t.core c).poolRead off n = (s.core c).poolRead off n := by
  obtain ⟨l, same⟩ := h.core c
  rw [same]; rfl

theorem State.CachesOnly.loads {s t : State} (h : s.CachesOnly t) : t.myCore.loads = s.myCore.loads := by
  obtain ⟨l, same⟩ := h.core s.issue.core
  rw [State.myCore, State.myCore, h.issue, same]

theorem State.CachesOnly.refl (s : State) : s.CachesOnly s := ⟨rfl, rfl, fun _ _ => rfl, fun _ => ⟨_, rfl⟩⟩

theorem State.cachesOnly_utlb (s : State) (c : Nat) (f : List TlbEntry → List TlbEntry) :
    s.CachesOnly (s.modCore c fun k => { k with utlb := f k.utlb }) := by
  have core : ∀ e, ∃ l, (s.modCore c fun k => { k with utlb := f k.utlb }).core e = { s.core e with utlb := l } := fun e => by
    by_cases he : e = c
    · subst he
      rw [State.core_modCore]
      exact ⟨_, rfl⟩
    · exact ⟨_, s.core_modCore_ne _ he⟩
  refine ⟨rfl, rfl, fun e n => ?_, core⟩
  obtain ⟨l, same⟩ := core e
  have strand := congrArg (Core.strand · n) same
  exact strand

theorem State.cachesOnly_noteTlb (s : State) (c : Option Nat) (v d t va : Nat) (acc : Acc) : s.CachesOnly (s.noteTlb c v d t va acc) := by
  unfold State.noteTlb
  split
  · cases c with
    | none => exact ⟨rfl, rfl, fun _ _ => rfl, fun _ => ⟨_, rfl⟩⟩
    | some c =>
      next e _ _ =>
      obtain ⟨issue, nextId, strand, core⟩ := State.cachesOnly_utlb (s.draw.2.modDie d fun k => { k with stlb := cacheInsert s.draw.1 8192 k.stlb e })
        c fun l => cacheInsert s.draw.1 64 l e
      exact ⟨issue, nextId, strand, core⟩
  · exact .refl s

theorem State.cachesOnly_noteAccess (s : State) (c : Nat) (ea : Word) (acc : Acc) : s.CachesOnly (s.noteAccess c ea acc) := by
  unfold State.noteAccess
  dsimp only
  split
  · exact .refl s
  · exact s.cachesOnly_noteTlb _ _ _ _ _ _

/-! ## Which accesses go on -/

/-- An access that `opens` names passes its checks. -/
theorem State.accessChecks_open {s : State} {ea : Word} {n : Nat} {tgt : Target} {pg : Option Nat} (h : opens s ea n .read tgt pg) :
    (s.accessChecks ea n .read).blocks = none ∧ (s.accessChecks ea n .read).holds = none ∧ (s.accessChecks ea n .read).faults = none := by
  obtain ⟨aligned, place, line, -, verdict⟩ := h
  rw [State.accessChecks, if_neg (not_not.2 aligned)]
  simp only [place, verdict]
  exact ⟨rfl, line, trivial⟩

/-! ## A load on its way -/

/-- An update of the issuing strand changes the strands of its core alone. -/
theorem State.core_modMe (s : State) (f : Strand → Strand) (c : Nat) : ∃ l, (s.modMe f).core c = { s.core c with strands := l } := by
  unfold State.modMe State.modStrand
  by_cases h : c = s.issue.core
  · subst h
    rw [State.core_modCore]
    exact ⟨_, rfl⟩
  · exact ⟨_, s.core_modCore_ne _ h⟩

theorem State.me_modMyCore (s : State) (f : Core → Core) (h : (f s.myCore).strands = s.myCore.strands) : (s.modMyCore f).me = s.me := by
  show ((s.modMyCore f).core s.issue.core).strand s.issue.strand = (s.core s.issue.core).strand s.issue.strand
  rw [State.modMyCore, State.core_modCore, Core.strand, Core.strand]
  exact congrArg (look Strand.reset · s.issue.strand) h

theorem State.me_addLoad (s : State) (l : Load) : (s.modMyCore fun k => { k with loads := k.loads ++ [l] }).me = s.me :=
  s.me_modMyCore _ rfl

/-- A load of the issuing strand is put on its way, with a change of the strand. -/
def State.sends (s : State) (l : Load) (f : Strand → Strand) : State :=
  { (s.modMyCore fun k => { k with loads := k.loads ++ [l] }).modMe f with nextId := s.nextId + 1 }

theorem State.sends_me (s : State) (l : Load) (f : Strand → Strand) : (s.sends l f).me = f s.me :=
  ((s.modMyCore fun k => { k with loads := k.loads ++ [l] }).me_modMe f).trans (congrArg f (s.me_addLoad l))

theorem State.sends_loads (s : State) (l : Load) (f : Strand → Strand) : (s.sends l f).myCore.loads = s.myCore.loads ++ [l] := by
  obtain ⟨strands, same⟩ := (s.modMyCore fun k => { k with loads := k.loads ++ [l] }).core_modMe f s.issue.core
  have added := s.core_modCore s.issue.core fun k => { k with loads := k.loads ++ [l] }
  exact (congrArg Core.loads same).trans (congrArg Core.loads added)

/-! ## The loads (R143, R144) -/

/-- A load from anywhere but the own scratchpad and the identity line is put on its way. -/
def State.loadLate (s : State) (x : BitVec 6) (n : Nat) (sg mark : Bool) (tgt : Target) (pg : Option Nat) : State :=
  s.sends { id := s.nextId, strand := s.issue.strand, seq := s.me.nextSeq, kind := .scalar x n sg, target := tgt,
            elems := [], page := pg, got := s.readAtIssue tgt n }
    fun t => { t with pend := t.pend ++ [{ due := s.me.time + 4, seq := s.me.nextSeq, write := .x x 0, mark := mark,
                                           load := some s.nextId, recs := if tgt == .hole then [s.record 7 1 0] else [] }] }

/-- A load that goes, once its source is read and the caches are noted. -/
def State.loaded (s : State) (x : BitVec 6) (n : Nat) (sg mark : Bool) (ea : Word) (tgt : Target) (pg : Option Nat) : State :=
  if ownRegion ea then
    match tgt with
    | .pool c off => s.result 4 (.x x (extendLoad n sg ((s.core c).poolRead off n).1)) (mark || ((s.core c).poolRead off n).2)
    | _ => s.result 4 (.x x 0) mark [s.record 7 1 0]
  else match tgt with
    | .ident off => s.result 4 (.x x (extendLoad n sg (((identLine s.myDie).drop off).take n))) mark
    | _ => s.loadLate x n sg mark tgt pg

theorem load_completes {s : State} {i : Instr} {x a : BitVec 6} {disp : BitVec 10} {n : Nat} {sg : Bool} {tgt : Target} {pg : Option Nat}
    (hi : loadOf i = some (x, a, disp, n, sg))
    (place : (s.src a).2.resolve s.issue.core (addressOf (s.src a).1.1 disp n) .read = .ok tgt pg) :
    Completes i s (((s.src a).2.noteAccess s.issue.core (addressOf (s.src a).1.1 disp n) .read).loaded x n sg (s.src a).1.2
      (addressOf (s.src a).1.1 disp n) tgt pg) (opens s (addressOf (s.srcPeek a) disp n) n .read tgt pg) := by
  intro goes
  have core : (s.src a).2.issue.core = s.issue.core := by rw [s.src_issue a]
  rw [exec_of_loadOf hi, load, issueWith_goes goes fun go => State.accessChecks_open go]
  simp only [core, show lsAddress = addressOf from rfl, place]
  simp only [State.me_addLoad]
  unfold State.loaded
  split
  · cases tgt <;> rfl
  · cases tgt <;> rfl

/-! ## What a load leaves -/

/-- Reading the address and noting the caches leave these of the issuing strand and its core. -/
structure State.SameAccess (s t : State) : Prop where
  core : t.issue.core = s.issue.core
  strand : t.issue.strand = s.issue.strand
  time : t.me.time = s.me.time
  nextId : t.nextId = s.nextId
  loads : t.myCore.loads = s.myCore.loads
  poolRead : ∀ c off n, (t.core c).poolRead off n = (s.core c).poolRead off n

theorem State.sameAccess_src (s : State) (a : BitVec 6) : s.SameAccess (s.src a).2 := by
  obtain same | ⟨streams, popped, pops⟩ := s.src_cases a
  · rw [same]
    exact ⟨rfl, rfl, rfl, rfl, rfl, fun _ _ _ => rfl⟩
  · rw [pops]
    have mine := congrArg Strand.time (s.me_modMe fun t => { t with streams := streams })
    have cores := s.core_modMe fun t => { t with streams := streams }
    refine ⟨rfl, rfl, mine, rfl, ?_, fun c off n => ?_⟩
    · obtain ⟨l, same⟩ := cores s.issue.core
      have loads := congrArg Core.loads same
      exact loads
    · obtain ⟨l, same⟩ := cores c
      have bytes := congrArg (Core.poolRead · off n) same
      exact bytes

theorem State.SameAccess.noteAccess {s t : State} (h : s.SameAccess t) (c : Nat) (ea : Word) (acc : Acc) :
    s.SameAccess (t.noteAccess c ea acc) := by
  have caches := t.cachesOnly_noteAccess c ea acc
  exact ⟨(congrArg Issue.core caches.issue).trans h.core, (congrArg Issue.strand caches.issue).trans h.strand,
    (congrArg Strand.time caches.me).trans h.time, caches.nextId.trans h.nextId, caches.loads.trans h.loads,
    fun c off n => (caches.poolRead c off n).trans (h.poolRead c off n)⟩

theorem State.SameAccess.readAtIssue_pool {s t : State} (h : s.SameAccess t) (c off n : Nat) :
    t.readAtIssue (.pool c off) n = if c = s.issue.core then some (s.myCore.poolRead off n) else none := by
  rw [State.readAtIssue, ownByte, h.core]
  split
  · rw [Option.map_some, State.myCore, h.core, h.poolRead]; rfl
  · rfl

/-- The result that a late load puts in flight, and the load that is on its way. -/
theorem State.SameAccess.loadLate {s t : State} (h : s.SameAccess t) (x : BitVec 6) (n : Nat) (sg mark : Bool) (tgt : Target)
    (pg : Option Nat) :
    ∃ p l, (t.loadLate x n sg mark tgt pg).me.pend = t.me.pend ++ [p] ∧ p.due = s.me.time + 4 ∧ p.load = some s.nextId ∧
      p.write = .x x 0 ∧ (t.loadLate x n sg mark tgt pg).nextId = s.nextId + 1 ∧
      (t.loadLate x n sg mark tgt pg).myCore.loads = s.myCore.loads ++ [l] ∧ l.id = s.nextId ∧ l.strand = s.issue.strand ∧
      l.target = tgt ∧ l.kind = .scalar x n sg ∧ l.got = t.readAtIssue tgt n :=
  ⟨_, _, congrArg Strand.pend (t.sends_me _ _), by rw [h.time], by rw [h.nextId], rfl, by rw [← h.nextId]; rfl,
    (t.sends_loads _ _).trans (by rw [h.loads]), h.nextId, h.strand, rfl, rfl, rfl⟩

/-! ## The value of a load (R143) -/

theorem ofBytes_bytesOf_fits {n v : Nat} (h : v < 2 ^ (8 * n)) : ofBytes (bytesOf n v) = v := by
  rw [ofBytes_bytesOf, show (256 : Nat) ^ n = 2 ^ (8 * n) by rw [Nat.pow_mul]]
  exact Nat.mod_eq_of_lt h

/-- The bytes are read least significant first, and extended by zeros or by the sign. -/
theorem extendLoad_bytesOf {n v : Nat} (size : n ∈ [1, 2, 4, 8]) (h : v < 2 ^ (8 * n)) :
    extendLoad n false (bytesOf n v) = BitVec.ofNat 64 v ∧
    extendLoad n true (bytesOf n v) = (if v < 2 ^ (8 * n - 1) then BitVec.ofNat 64 v
      else BitVec.ofNat 64 (v + 2 ^ 64 - 2 ^ (8 * n))) := by
  refine ⟨by rw [extendLoad, ofBytes_bytesOf_fits h]; rfl, ?_⟩
  rw [extendLoad, if_pos rfl, ofBytes_bytesOf_fits h, signedOf, Nat.mod_eq_of_lt h]
  have wide : 2 ^ (8 * n) ≤ 2 ^ 64 := by
    simp only [List.mem_cons, List.not_mem_nil, or_false] at size
    exact Nat.pow_le_pow_right (by omega) (by omega)
  split
  · rw [BitVec.ofInt_natCast]
  · refine BitVec.eq_of_toNat_eq ?_
    rw [BitVec.toNat_ofInt, BitVec.toNat_ofNat]
    omega

/-! ## SPINW (R116) -/

/-- A strand that waits on a word, with the pending consumption of its first read. -/
def Strand.spins (t : Strand) (w : SpinWait) (id : Nat) (mark : Bool) (recs : List StatRecord) : Strand :=
  { t with
    spin := some w
    pend := t.pend ++ [{ due := t.time + 1, seq := t.nextSeq, write := .none, mark := mark, load := some id, recs := recs }] }

theorem spinw_completes {s : State} {d a : BitVec 6} {c : BitVec 3} {tgt : Target} {pg : Option Nat}
    (place : (s.src a).2.resolve s.issue.core (s.src a).1.1 .read = .ok tgt pg) :
    ∃ l w mark recs, w.addr = (s.src a).1.1 ∧ w.cond = c ∧ w.cmp = s.me.reg d ∧ w.xd = d ∧
      Completes (.spinw d a c) s (((s.src a).2.noteAccess s.issue.core (s.src a).1.1 .read).sends l fun t => t.spins w s.nextId mark recs)
        (opens s (s.srcPeek a) 8 .read tgt pg) := by
  have core : (s.src a).2.issue.core = s.issue.core := by rw [s.src_issue a]
  have access := (s.sameAccess_src a).noteAccess s.issue.core (s.src a).1.1 .read
  refine ⟨?load, { addr := (s.src a).1.1, cond := c, cmp := s.me.reg d, xd := d, last := ?cycle }, ?mark, ?recs, rfl, rfl, rfl, rfl,
    fun goes => ?next⟩
  case next =>
    rw [exec_spinw, execSpinw, issueWith_goes goes fun go => State.accessChecks_open go]
    simp only [core, place, State.sends, access.nextId]
    rfl

/-- Settles O22: an access that goes reads its source, notes the caches, and then answers at once or is put on its way. -/
theorem loadResults : Obligations.LoadResults := by
  refine ⟨fun s i x a disp n sg tgt pg hi place => ?_, fun n v => extendLoad_bytesOf, fun s d a c tgt pg place => ?_⟩
  · intro ea
    have completes := load_completes hi place
    have access := (s.sameAccess_src a).noteAccess s.issue.core ea .read
    have me := ((s.src a).2.cachesOnly_noteAccess s.issue.core ea .read).me
    change Completes i s (((s.src a).2.noteAccess s.issue.core ea .read).loaded x n sg (s.src a).1.2 ea tgt pg) _ at completes
    generalize (s.src a).2.noteAccess s.issue.core ea .read = t at completes access me
    have due : ∀ (w : Write) (m : Bool) (rs : List StatRecord), ∃ p, (t.result 4 w m rs).me.pend = (s.src a).2.me.pend ++ [p] ∧
        p.due = s.me.time + 4 ∧ p.load = none ∧ p.write = w := fun w m rs =>
      ⟨_, by rw [State.me_result_pend, me], by rw [s.src_time a], rfl, rfl⟩
    cases own : ownRegion ea with
    | true =>
      simp only [State.loaded, own, if_true] at completes
      cases tgt with
      | pool c off =>
        obtain ⟨p, pend, at_, load, write⟩ := due (.x x (extendLoad n sg ((t.core c).poolRead off n).1))
          ((s.src a).1.2 || ((t.core c).poolRead off n).2) []
        refine ⟨_, p, completes, pend, at_, fun _ => ⟨fun d o same => ?_, nofun⟩, nofun, nofun⟩
        cases same
        exact ⟨load, by rw [write, access.poolRead]⟩
      | _ =>
        obtain ⟨p, pend, at_, load, write⟩ := due (.x x 0) (s.src a).1.2 [t.record 7 1 0]
        exact ⟨_, p, completes, pend, at_, fun _ => ⟨nofun, fun _ => ⟨load, write⟩⟩, nofun, nofun⟩
    | false =>
      simp only [State.loaded, own, Bool.false_eq_true, if_false] at completes
      cases tgt with
      | ident off =>
        obtain ⟨p, pend, at_, load, write⟩ := due (.x x (extendLoad n sg (((identLine t.myDie).drop off).take n))) (s.src a).1.2 []
        refine ⟨_, p, completes, pend, at_, nofun, fun _ o same => ?_, fun _ other => absurd rfl (other off)⟩
        cases same
        exact ⟨load, by rw [write, State.myDie, access.core]; rfl⟩
      | pool c off =>
        obtain ⟨p, l, pend, at_, load, write, nextId, loads, id, strand, target, kind, got⟩ :=
          access.loadLate x n sg (s.src a).1.2 (.pool c off) pg
        exact ⟨_, p, completes, by rw [← me]; exact pend, at_, nofun, nofun, fun _ _ =>
          ⟨load, write, nextId, l, loads, id, strand, target, kind, got.trans (access.readAtIssue_pool c off n)⟩⟩
      | _ =>
        obtain ⟨p, l, pend, at_, load, write, nextId, loads, id, strand, target, kind, got⟩ := access.loadLate x n sg (s.src a).1.2 _ pg
        exact ⟨_, p, completes, by rw [← me]; exact pend, at_, nofun, nofun, fun _ _ =>
          ⟨load, write, nextId, l, loads, id, strand, target, kind, got⟩⟩
  · obtain ⟨l, w, mark, recs, addr, cond, cmp, xd, completes⟩ := spinw_completes (d := d) (c := c) place
    have me := ((s.src a).2.cachesOnly_noteAccess s.issue.core (s.src a).1.1 .read).me
    generalize (s.src a).2.noteAccess s.issue.core (s.src a).1.1 .read = t at completes me
    have left := (t.sends_me l fun x => x.spins w s.nextId mark recs).trans (by rw [me])
    exact ⟨_, _, w, completes, congrArg Strand.pend left, by rw [s.src_time a], rfl, rfl, congrArg Strand.spin left, addr, cond, cmp, xd⟩

end Sys2Proof.Machine
end

section
/-!
PROOF. The bytes that a strand sees in HBM: its own earlier stores over its staged bytes over memory (R139, R270).
-/

set_option Elab.async false
namespace Sys2Proof.Machine
open Claims

/-! ## The last writer of a byte -/

/-- Writes over one value in order: the last one that counts is left, or else the value at the start. -/
theorem foldl_last_writer {α β : Type} (counts : α → Prop) [DecidablePred counts] (g : α → β) (b : β) :
    (∀ (before after : List α) (w : α), counts w → (∀ v ∈ after, ¬ counts v) →
      (before ++ w :: after).foldl (fun b w => if counts w then g w else b) b = g w) ∧
    ∀ l : List α, (∀ w ∈ l, ¬ counts w) → l.foldl (fun b w => if counts w then g w else b) b = b := by
  have none_ : ∀ (l : List α) (b : β), (∀ w ∈ l, ¬ counts w) → l.foldl (fun b w => if counts w then g w else b) b = b := by
    intro l
    induction l with
    | nil => exact fun _ _ => rfl
    | cons w l ih =>
      intro b h
      rw [List.foldl_cons, if_neg (h w List.mem_cons_self)]
      exact ih b fun v hv => h v (List.mem_cons_of_mem _ hv)
  refine ⟨fun before after w hw hafter => ?_, fun l => none_ l b⟩
  rw [List.foldl_append, List.foldl_cons, if_pos hw]
  exact none_ after _ hafter

/-! ## Bytes that a store covers -/

/-- A byte of a range with a store's bytes over it (R270). -/
def Store.over (w : Store) (p : Nat) (b : Byte) : Byte :=
  if w.target.offset ≤ p ∧ p < w.target.offset + w.bytes.length then nth 0 w.bytes (p - w.target.offset) else b

theorem nth_zipIdx_map (bs : List Byte) (f : Byte → Nat → Byte) {i : Nat} (h : i < bs.length) :
    nth 0 (bs.zipIdx.map fun b => f b.1 b.2) i = f (nth 0 bs i) i := by
  simp [nth, h]

/-- Stores over a range of bytes, byte by byte. -/
theorem nth_foldl_over (p : Nat) (ws : List Store) (bs : List Byte) {i : Nat} (h : i < bs.length) :
    nth 0 (ws.foldl (fun (bs : List Byte) w => bs.zipIdx.map fun b => w.over (p + b.2) b.1) bs) i =
      ws.foldl (fun b w => w.over (p + i) b) (nth 0 bs i) := by
  induction ws generalizing bs with
  | nil => rfl
  | cons w ws ih =>
    rw [List.foldl_cons, List.foldl_cons, ih _ (by simpa using h), nth_zipIdx_map bs (fun b k => w.over (p + k) b) h]

theorem State.heldByte_of_empty {s : State} (h : (s.dies.all fun e => e.2.staging.isEmpty) = true) (d t : Nat) (w : StrandName) (pa : Nat) :
    s.heldByte d t w pa = none := by
  refine List.findSome?_eq_none_iff.2 fun e he => ?_
  rw [List.isEmpty_iff.1 (List.all_eq_true.1 h e he)]
  rfl

theorem State.length_hbmRead (s : State) (d t : Nat) (w : StrandName) (pa n : Nat) : (s.hbmRead d t w pa n).1.length = n := by
  unfold State.hbmRead
  dsimp only
  split <;> simp [readBytes_eq_map_readByte]

/-- A byte of HBM as the strand's staged lines or memory give it (R139). -/
theorem State.nth_hbmRead (s : State) (d t : Nat) (w : StrandName) (pa : Nat) {n i : Nat} (h : i < n) :
    nth 0 (s.hbmRead d t w pa n).1 i = match s.heldByte d t w (pa + i) with
      | some b => b.1
      | none => readByte s.hbm (pa + i) := by
  unfold State.hbmRead
  dsimp only
  rw [readBytes_eq_map_readByte]
  split
  · next empty =>
    rw [State.heldByte_of_empty empty]
    simp [nth, h]
  · rw [List.zip_map']
    simp only [nth, List.getElem?_map, List.getElem?_range h, Option.map_some, Option.getD_some] <;> rfl

/-- A store that a read of a range of HBM by a strand sees, and that covers byte i of the range. -/
def Store.seenAt (n seq pa size i : Nat) (w : Store) : Bool :=
  (w.strand == n && w.seq < seq && sameLocation w.target w.bytes.length (.hbm pa) size) && overlaps w.target w.bytes.length (.hbm pa) size &&
    (decide (w.target.offset ≤ pa + i) && decide (pa + i < w.target.offset + w.bytes.length))

/-- Those are the strand's stores of earlier bundles that cover the byte. -/
theorem Store.seenAt_iff {n seq pa size i : Nat} (h : i < size) (w : Store) : w.seenAt n seq pa size i = true ↔
    w.strand = n ∧ w.seq < seq ∧ ∃ q, w.target = .hbm q ∧ q ≤ pa + i ∧ pa + i < q + w.bytes.length := by
  simp only [Store.seenAt, Bool.and_eq_true, decide_eq_true_eq, beq_iff_eq]
  cases w.target with
  | hbm q =>
    simp only [sameLocation, overlaps, Target.offset, Bool.and_eq_true, decide_eq_true_eq, Target.hbm.injEq, exists_eq_left']
    omega
  | _ => simp [overlaps]

/-- A byte of what a strand reads in HBM: the stores that cover it, in their order, over the byte beneath (R270). -/
theorem State.nth_readOwn_hbm (s : State) (c n seq pa : Nat) {size i : Nat} (h : i < size) :
    nth 0 (s.readOwn c n seq (.hbm pa) size).1.1 i = (s.core c).stores.foldl
      (fun b w => if w.seenAt n seq pa size i = true then nth 0 w.bytes (pa + i - w.target.offset) else b)
      (match s.heldByte (coreDie c) (s.teamAt c) (s.nameOf c n) (pa + i) with
        | some b => b.1
        | none => readByte s.hbm (pa + i)) := by
  have inside : i < (s.hbmRead (coreDie c) (s.teamAt c) (s.nameOf c n) pa size).1.length := by rwa [s.length_hbmRead]
  rw [← s.nth_hbmRead _ _ _ pa h]
  refine (nth_foldl_over pa _ _ inside).trans ?_
  rw [Core.storesBefore, List.foldl_filter, List.foldl_filter]
  congr 1
  funext b w
  simp only [Store.seenAt, Store.over, Bool.and_eq_true, decide_eq_true_eq]
  split_ifs <;> tauto

theorem ownBytes_holds : ownBytes := by
  intro s c n seq pa size i h covers got
  obtain ⟨latest, unwritten⟩ := foldl_last_writer (fun w : Store => w.seenAt n seq pa size i = true)
    (fun w => nth 0 w.bytes (pa + i - w.target.offset)) (match s.heldByte (coreDie c) (s.teamAt c) (s.nameOf c n) (pa + i) with
        | some b => b.1
        | none => readByte s.hbm (pa + i))
  refine ⟨fun before after w q order hw hafter target => ?_, fun none_ => ?_⟩
  · refine (s.nth_readOwn_hbm c n seq pa h).trans ?_
    rw [order, latest before after w ((Store.seenAt_iff h w).2 hw) fun v hv => mt (Store.seenAt_iff h v).1 (hafter v hv), target]
    rfl
  · refine (s.nth_readOwn_hbm c n seq pa h).trans ?_
    exact unwritten _ fun v hv => mt (Store.seenAt_iff h v).1 (none_ v hv)

end Sys2Proof.Machine
end

section
/-!
PROOF. Late results and the re-reads of SPINW (R95, R116, R144, R147, R269, R270).
-/

set_option Elab.async false
namespace Sys2Proof.Machine
open Claims

/-! ## What a read of a place leaves -/

/-- Cores, dies, memory, replicas, commands and partitions are the same: what a read depends on and does not change. -/
structure State.SamePlaces (s t : State) : Prop where
  cores : t.cores = s.cores
  dies : t.dies = s.dies
  hbm : t.hbm = s.hbm
  hbmPoison : t.hbmPoison = s.hbmPoison
  replicas : t.replicas = s.replicas
  cmds : t.cmds = s.cmds
  parts : t.parts = s.parts

theorem State.SamePlaces.refl (s : State) : s.SamePlaces s := ⟨rfl, rfl, rfl, rfl, rfl, rfl, rfl⟩

theorem State.SamePlaces.trans {s t u : State} (h : s.SamePlaces t) (k : t.SamePlaces u) : s.SamePlaces u :=
  ⟨k.cores.trans h.cores, k.dies.trans h.dies, k.hbm.trans h.hbm, k.hbmPoison.trans h.hbmPoison,
    k.replicas.trans h.replicas, k.cmds.trans h.cmds, k.parts.trans h.parts⟩

theorem State.samePlaces_draw (s : State) : s.SamePlaces s.draw.2 := ⟨rfl, rfl, rfl, rfl, rfl, rfl, rfl⟩

theorem State.samePlaces_takeSerial (s : State) (fn : Nat) : s.SamePlaces (s.takeSerial fn).2 := by
  unfold State.takeSerial
  split <;> exact ⟨rfl, rfl, rfl, rfl, rfl, rfl, rfl⟩

theorem State.samePlaces_readbackLine (s : State) (fn line : Nat) : s.SamePlaces (s.readbackLine fn line).2 := by
  have drawn := s.samePlaces_draw
  unfold State.readbackLine
  dsimp only
  split
  · exact drawn
  · split
    · obtain ⟨cores, dies, hbm, hbmPoison, replicas, cmds, parts⟩ := drawn.trans (s.draw.2.samePlaces_takeSerial fn)
      exact ⟨cores, dies, hbm, hbmPoison, replicas, cmds, parts⟩
    · exact ⟨rfl, rfl, rfl, rfl, rfl, rfl, rfl⟩

theorem State.SamePlaces.snd_mk {α : Type} {a : α} {s t : State} (h : s.SamePlaces t) : s.SamePlaces (a, t).2 := h

/-- Lines of the view read one after another. -/
theorem State.SamePlaces.viewLines {s : State} (fn : Nat) (ls : List Nat) : ∀ r : List Byte × State, s.SamePlaces r.2 →
    s.SamePlaces (ls.foldl (fun (r : List Byte × State) l => let v := r.2.readbackLine fn (apertureOf l); (r.1 ++ v.1, v.2)) r).2 := by
  induction ls with
  | nil => exact fun _ h => h
  | cons l ls ih =>
    intro r h
    have line := h.trans (r.2.samePlaces_readbackLine fn (apertureOf l))
    rw [List.foldl_cons]
    exact ih _ (.snd_mk line)

theorem State.samePlaces_viewBytes (s : State) (fn pa n : Nat) : s.SamePlaces (s.viewBytes fn pa n).2 := by
  unfold State.viewBytes
  split
  · exact .snd_mk s.samePlaces_draw
  · exact .snd_mk (.viewLines fn _ ([], s) (.refl s))

theorem State.samePlaces_readTarget (s : State) (d t : Nat) (w : StrandName) (tgt : Target) (n : Nat) :
    s.SamePlaces (s.readTarget d t w tgt n).2 := by
  unfold State.readTarget
  split
  case h_5 pa =>
    have view := s.samePlaces_viewBytes (s.team d t).vf pa n
    dsimp only
    exact view
  all_goals exact ⟨rfl, rfl, rfl, rfl, rfl, rfl, rfl⟩

theorem State.samePlaces_readOwn (s : State) (c n seq : Nat) (tgt : Target) (size : Nat) : s.SamePlaces (s.readOwn c n seq tgt size).2 := by
  unfold State.readOwn
  exact s.samePlaces_readTarget _ _ _ tgt size

section
variable {s t : State} (h : s.SamePlaces t)
include h

theorem State.SamePlaces.core_eq (c : Nat) : t.core c = s.core c := by rw [State.core, State.core, h.cores]
theorem State.SamePlaces.strand_eq (c n : Nat) : t.strand c n = s.strand c n := by rw [State.strand, State.strand, h.core_eq]
theorem State.SamePlaces.die_eq (d : Nat) : t.die d = s.die d := by rw [State.die, State.die, h.dies]

theorem State.SamePlaces.placeOf_eq (c : Nat) : t.placeOf c = s.placeOf c := by rw [State.placeOf, State.placeOf, h.parts]
theorem State.SamePlaces.teamAt_eq (c : Nat) : t.teamAt c = s.teamAt c := by
  simp only [State.teamAt, State.teamOn, h.die_eq, h.placeOf_eq]
theorem State.SamePlaces.nameOf_eq (c n : Nat) : t.nameOf c n = s.nameOf c n := by
  simp only [State.nameOf, State.logicalCluster, h.placeOf_eq]

theorem State.SamePlaces.mayRead_eq (c n seq : Nat) (tgt : Target) (size : Nat) : t.mayRead c n seq tgt size = s.mayRead c n seq tgt size := by
  have replica : ∀ pa, t.replicaOf pa = s.replicaOf pa := fun pa => by rw [State.replicaOf, State.replicaOf, h.replicas]
  cases tgt with
  | hbm pa => simp only [State.mayRead, State.readLocked, State.poolBusy, State.isReplicated, replica, h.core_eq, h.cmds]
  | pool d off => simp only [State.mayRead, State.readLocked, State.poolBusy, State.isReplicated, h.core_eq]
  | _ => simp only [State.mayRead, State.readLocked, State.poolBusy, State.isReplicated, h.core_eq]

theorem State.SamePlaces.hbmRead_eq (d k : Nat) (w : StrandName) (pa n : Nat) :
    t.hbmRead d k w pa n = s.hbmRead d k w pa n := by
  simp only [State.hbmRead, State.heldByte, h.dies, h.hbm, h.hbmPoison]

/-- What a strand reads outside the readback view and other packages, where each read is a free value. -/
theorem State.SamePlaces.readOwn_eq (c n seq : Nat) {tgt : Target} (size : Nat) (here : ∀ a, tgt ≠ .outside a) (plain : ∀ a, tgt ≠ .readback a) :
    (t.readOwn c n seq tgt size).1 = (s.readOwn c n seq tgt size).1 := by
  cases tgt with
  | outside a => exact absurd rfl (here a)
  | readback a => exact absurd rfl (plain a)
  | hbm pa => simp only [State.readOwn, State.readTarget, h.hbmRead_eq, h.core_eq, h.teamAt_eq, h.nameOf_eq]
  | _ => simp only [State.readOwn, State.readTarget, h.core_eq]

end

/-! ## A load that is answered -/

/-- What a wake-up changes of a strand. -/
theorem State.strand_wake (s : State) (c n : Nat) :
    ∃ k w, (s.wake c n).strand c n = { s.strand c n with mode := .ready, ctl := k, wait := w } := by
  unfold State.wake State.strand
  rw [State.core_modCore]
  exact ⟨_, _, Core.strand_setStrand ..⟩

theorem State.loads_wake (s : State) (c n : Nat) : ((s.wake c n).core c).loads = (s.core c).loads := by
  rw [State.wake, State.core_modCore]
  rfl

theorem State.loads_modStrand (s : State) (c n : Nat) (f : Strand → Strand) : ((s.modStrand c n f).core c).loads = (s.core c).loads := by
  rw [State.modStrand, State.core_modCore]
  rfl

/-- A strand after its late result: woken, or as it was. -/
theorem State.strand_thaw (s : State) (c n : Nat) :
    ∃ m k w, (s.thaw c n).strand c n = { s.strand c n with mode := m, ctl := k, wait := w } := by
  unfold State.thaw
  dsimp only
  split
  · obtain ⟨k, w, same⟩ := s.strand_wake c n
    exact ⟨_, k, w, same⟩
  · exact ⟨_, _, _, rfl⟩

theorem State.loads_thaw (s : State) (c n : Nat) : ((s.thaw c n).core c).loads = (s.core c).loads := by
  unfold State.thaw
  dsimp only
  split
  · exact s.loads_wake c n
  · rfl

/-- A frozen-out strand without a late result is READY (R97). -/
theorem State.thaw_ready {s : State} {c n : Nat} (out : (s.strand c n).mode = .frozenOut) (arrived : (s.strand c n).late = false) :
    ((s.thaw c n).strand c n).mode = .ready := by
  unfold State.thaw
  dsimp only
  rw [if_pos (by rw [out, arrived]; rfl)]
  obtain ⟨k, w, same⟩ := s.strand_wake c n
  rw [same]

/-- A load leaves the core, its strand changes, and wakes up. -/
def State.answeredLoad (s : State) (c id n : Nat) (f : Strand → Strand) : State :=
  ((s.modCore c fun k => { k with loads := k.loads.filter fun m => m.id != id }).modStrand c n f).thaw c n

theorem State.strand_dropLoad (s : State) (c e n : Nat) (g : List Load → List Load) :
    (s.modCore c fun k => { k with loads := g k.loads }).strand e n = s.strand e n := by
  unfold State.strand
  by_cases h : e = c
  · subst h
    rw [State.core_modCore]
    rfl
  · rw [State.core_modCore_ne _ _ h]

theorem State.answeredLoad_loads (s : State) (c id n : Nat) (f : Strand → Strand) :
    ((s.answeredLoad c id n f).core c).loads = (s.core c).loads.filter fun m => m.id != id := by
  rw [State.answeredLoad, State.loads_thaw, State.loads_modStrand, State.core_modCore]

/-- The strand of an answered load: changed by its answer, and woken or not. -/
theorem State.answeredLoad_strand (s : State) (c id n : Nat) (f : Strand → Strand) :
    ∃ m k w, (s.answeredLoad c id n f).strand c n = { f (s.strand c n) with mode := m, ctl := k, wait := w } := by
  obtain ⟨m, k, w, thawed⟩ := ((s.modCore c fun k => { k with loads := k.loads.filter fun m => m.id != id }).modStrand c n f).strand_thaw c n
  rw [State.strand_modStrand, s.strand_dropLoad c c n fun l => l.filter fun m => m.id != id] at thawed
  exact ⟨m, k, w, thawed⟩

/-- A frozen-out strand with no late result left is READY again (R97). -/
theorem State.answeredLoad_ready {s : State} {c id n : Nat} {f : Strand → Strand} (out : (f (s.strand c n)).mode = .frozenOut)
    (arrived : ∀ q ∈ ((s.answeredLoad c id n f).strand c n).pend, q.load = none ∨ (f (s.strand c n)).time < q.due) :
    ((s.answeredLoad c id n f).strand c n).mode = .ready := by
  obtain ⟨m, k, w, same⟩ := s.answeredLoad_strand c id n f
  rw [same] at arrived
  have now : ((s.modCore c fun k => { k with loads := k.loads.filter fun m => m.id != id }).modStrand c n f).strand c n = f (s.strand c n) := by
    rw [State.strand_modStrand, s.strand_dropLoad c c n fun l => l.filter fun m => m.id != id]
  refine State.thaw_ready (by rw [now]; exact out) ?_
  rw [now]
  refine List.any_eq_false.2 fun q hq => ?_
  rcases arrived q hq with none_ | later
  · simp [none_]
  · simp [Nat.not_le.2 later]

/-- What an answer that turns the results waiting for a load into others leaves of the load, of its strand, and of the results in flight. -/
theorem State.answeredLoad_leaves {s t : State} (same : s.SamePlaces t) (c id n : Nat) {f : Strand → Strand} {g : Pending → Pending}
    (hp : (f (s.strand c n)).pend = ((s.strand c n).answerLoad id g).pend) (hm : (f (s.strand c n)).mode = (s.strand c n).mode)
    (ht : (f (s.strand c n)).time = (s.strand c n).time) :
    ((t.answeredLoad c id n f).core c).loads = (s.core c).loads.filter (fun m => m.id != id) ∧
    ((s.strand c n).mode = .frozenOut →
      (∀ q ∈ ((t.answeredLoad c id n f).strand c n).pend, q.load = none ∨ (s.strand c n).time < q.due) →
      ((t.answeredLoad c id n f).strand c n).mode = .ready) ∧
    (∀ p ∈ (s.strand c n).pend, p.load ≠ some id → p ∈ ((t.answeredLoad c id n f).strand c n).pend) ∧
    (∀ p ∈ (s.strand c n).pend, p.load = some id → g p ∈ ((t.answeredLoad c id n f).strand c n).pend) ∧
    ((t.answeredLoad c id n f).strand c n).spin = (f (s.strand c n)).spin := by
  obtain ⟨m, k, w, strand⟩ := t.answeredLoad_strand c id n f
  have pend : ((t.answeredLoad c id n f).strand c n).pend = ((s.strand c n).answerLoad id g).pend := by
    rw [strand, same.strand_eq]; exact hp
  refine ⟨by rw [State.answeredLoad_loads, same.core_eq], fun out arrived => ?_, fun p mem other => ?_, fun p mem mine => ?_, by
    rw [strand, same.strand_eq]⟩
  · refine State.answeredLoad_ready ?_ ?_ <;> rw [same.strand_eq]
    · exact hm.trans out
    · rw [ht]; exact arrived
  · rw [pend]
    exact List.mem_map.2 ⟨p, mem, if_neg other⟩
  · rw [pend]
    exact List.mem_map.2 ⟨p, mem, if_pos mine⟩

/-! ## Scalar loads and the first read of a SPINW -/

/-- What a load is answered: the bytes of the own pool that it read at its issue, or what its strand sees now (R144, R270). -/
def State.lateRead (s : State) (c : Nat) (l : Load) (size : Nat) : (List Byte × Bool) × State :=
  (l.got.map fun b => (b, s)).getD (s.readOwn c l.strand l.seq l.target size)

theorem State.lateRead_fst (s : State) (c : Nat) (l : Load) (size : Nat) :
    (s.lateRead c l size).1 = l.got.getD (s.readOwn c l.strand l.seq l.target size).1 := by
  unfold State.lateRead
  cases l.got <;> rfl

theorem State.samePlaces_lateRead (s : State) (c : Nat) (l : Load) (size : Nat) : s.SamePlaces (s.lateRead c l size).2 := by
  unfold State.lateRead
  cases l.got with
  | some b => exact .refl s
  | none => exact s.samePlaces_readOwn ..

/-- Nothing stands before a load of one place that has read it, or may. -/
theorem Load.unblocked {s : State} {c size : Nat} {l : Load} (places : l.places = if l.got.isSome then [] else [l.target]) (wide : l.size = size)
    (may : l.got = none → s.mayRead c l.strand l.seq l.target size = true) :
    ¬ (!l.places.isEmpty && !l.places.any fun p => s.mayRead c l.strand l.seq p l.size) = true := by
  rw [places, wide]
  cases got : l.got with
  | some b => simp
  | none => simp [may got]

/-- What the first read of a SPINW writes: its word, if the strand's wait takes it (R116). -/
def Strand.spinWrite (t : Strand) (r : BitVec 6) (bytes : List Byte) : Write :=
  match t.spin with
  | some w => if spinHolds w.cond (BitVec.ofNat 64 (ofBytes bytes)) w.cmp then .x r (BitVec.ofNat 64 (ofBytes bytes)) else .none
  | none => .none

/-- A strand after the first read of its SPINW (R116). -/
def Strand.answerSpin (t : Strand) (id : Nat) (r : BitVec 6) (v : List Byte × Bool) : Strand :=
  match t.spin with
  | none => t.answerLoad id fun p => p.answer .none v.2
  | some w =>
    if spinHolds w.cond (BitVec.ofNat 64 (ofBytes v.1)) w.cmp then
      { t.answerLoad id fun p => p.answer (.x r (BitVec.ofNat 64 (ofBytes v.1))) v.2 with spin := none }
    else t.answerLoad id fun p => p.answer .none v.2

theorem Strand.answerSpin_keeps (t : Strand) (id : Nat) (r : BitVec 6) (v : List Byte × Bool) :
    (t.answerSpin id r v).pend = (t.answerLoad id fun p => p.answer (t.spinWrite r v.1) v.2).pend ∧
      (t.answerSpin id r v).mode = t.mode ∧ (t.answerSpin id r v).time = t.time := by
  unfold Strand.answerSpin Strand.spinWrite
  cases t.spin with
  | none => exact ⟨rfl, rfl, rfl⟩
  | some w =>
    dsimp only
    split <;> exact ⟨rfl, rfl, rfl⟩

theorem Strand.spinWrite_met {t : Strand} {w : SpinWait} (waits : t.spin = some w) (r : BitVec 6) (id : Nat) (v : List Byte × Bool)
    (met : spinHolds w.cond (BitVec.ofNat 64 (ofBytes v.1)) w.cmp = true) :
    t.spinWrite r v.1 = .x r (BitVec.ofNat 64 (ofBytes v.1)) ∧ (t.answerSpin id r v).spin = none := by
  unfold Strand.spinWrite Strand.answerSpin
  simp only [waits, if_pos met, and_self]

theorem Strand.spinWrite_unmet {t : Strand} {w : SpinWait} (waits : t.spin = some w) (r : BitVec 6) (id : Nat) (v : List Byte × Bool)
    (unmet : spinHolds w.cond (BitVec.ofNat 64 (ofBytes v.1)) w.cmp = false) :
    t.spinWrite r v.1 = .none ∧ (t.answerSpin id r v).spin = some w := by
  unfold Strand.spinWrite Strand.answerSpin
  simp only [waits, unmet, Bool.false_eq_true, if_false, true_and]
  exact waits

section
variable {s : State} {c id : Nat} {l : Load} (found : (s.core c).loads.find? (fun l => l.id == id) = some l)
include found

/-- A load is answered once the place that it has still to read may be read. -/
theorem lateResult_scalar {r : BitVec 6} {size : Nat} {sg : Bool} (kind : l.kind = .scalar r size sg)
    (may : l.got = none → s.mayRead c l.strand l.seq l.target size = true) :
    exec (.lateResult c id) s = .next ((s.lateRead c l size).2.answeredLoad c id l.strand fun t => t.answerLoad id fun p =>
      p.answer (.x r (extendLoad size sg (s.lateRead c l size).1.1)) (s.lateRead c l size).1.2) := by
  have goes := Load.unblocked (l := l) (by rw [Load.places, kind]) (by rw [Load.size, kind]) may
  rw [exec_lateResult, execLateResult, found]
  simp only [if_neg goes, kind]
  rfl

theorem lateResult_spin {r : BitVec 6} (kind : l.kind = .spin r) (may : l.got = none → s.mayRead c l.strand l.seq l.target 8 = true) :
    exec (.lateResult c id) s = .next ((s.lateRead c l 8).2.answeredLoad c id l.strand fun t => t.answerSpin id r (s.lateRead c l 8).1) := by
  have goes := Load.unblocked (l := l) (by rw [Load.places, kind]) (by rw [Load.size, kind]) may
  rw [exec_lateResult, execLateResult, found]
  simp only [if_neg goes, kind]
  rfl

/-- A scalar load's result has the extended bytes that it read (R95, R144). -/
theorem lateScalar {r : BitVec 6} {size : Nat} {sg : Bool} (kind : l.kind = .scalar r size sg)
    (may : l.got = none → s.mayRead c l.strand l.seq l.target size = true) :
    let t := s.strand c l.strand
    let v := l.got.getD (s.readOwn c l.strand l.seq l.target size).1
    ∃ u, exec (.lateResult c id) s = .next u ∧ (u.core c).loads = (s.core c).loads.filter (fun m => m.id != id) ∧
      (t.mode = .frozenOut → (∀ q ∈ (u.strand c l.strand).pend, q.load = none ∨ t.time < q.due) → (u.strand c l.strand).mode = .ready) ∧
      (∀ p ∈ t.pend, p.load ≠ some id → p ∈ (u.strand c l.strand).pend) ∧ ∀ p ∈ t.pend, p.load = some id →
        { p with write := .x r (extendLoad size sg v.1), mark := p.mark || v.2, load := none } ∈ (u.strand c l.strand).pend := by
  intro t v
  have read : (s.lateRead c l size).1 = v := s.lateRead_fst c l size
  obtain ⟨gone, thawed, others, mine, -⟩ := State.answeredLoad_leaves (s.samePlaces_lateRead c l size) c id l.strand
    (f := fun t => t.answerLoad id fun p => p.answer (.x r (extendLoad size sg (s.lateRead c l size).1.1)) (s.lateRead c l size).1.2)
    rfl rfl rfl
  refine ⟨_, lateResult_scalar found kind may, gone, thawed, others, ?_⟩
  rw [read] at mine ⊢
  exact mine

/-- The word of a SPINW is written if it meets the condition, else the wait stands (R116). -/
theorem lateSpin {r : BitVec 6} (kind : l.kind = .spin r) (may : l.got = none → s.mayRead c l.strand l.seq l.target 8 = true) :
    let t := s.strand c l.strand
    let v := l.got.getD (s.readOwn c l.strand l.seq l.target 8).1
    let word : Word := BitVec.ofNat 64 (ofBytes v.1)
    ∃ u, exec (.lateResult c id) s = .next u ∧ (u.core c).loads = (s.core c).loads.filter (fun m => m.id != id) ∧
      (t.mode = .frozenOut → (∀ q ∈ (u.strand c l.strand).pend, q.load = none ∨ t.time < q.due) → (u.strand c l.strand).mode = .ready) ∧
      (∀ p ∈ t.pend, p.load ≠ some id → p ∈ (u.strand c l.strand).pend) ∧
      (∀ w, t.spin = some w → spinHolds w.cond word w.cmp = true → (u.strand c l.strand).spin = none ∧
        ∀ p ∈ t.pend, p.load = some id → { p with write := .x r word, mark := p.mark || v.2, load := none } ∈ (u.strand c l.strand).pend) ∧
      (∀ w, t.spin = some w → spinHolds w.cond word w.cmp = false → (u.strand c l.strand).spin = some w ∧
        ∀ p ∈ t.pend, p.load = some id → { p with write := .none, mark := p.mark || v.2, load := none } ∈ (u.strand c l.strand).pend) := by
  intro t v word
  have read : (s.lateRead c l 8).1 = v := s.lateRead_fst c l 8
  obtain ⟨pend, mode, time⟩ := t.answerSpin_keeps id r v
  obtain ⟨gone, thawed, others, mine, spin⟩ := State.answeredLoad_leaves (s.samePlaces_lateRead c l 8) c id l.strand
    (f := fun t => t.answerSpin id r v) (g := fun p => p.answer (t.spinWrite r v.1) v.2) pend mode time
  have event := lateResult_spin found kind may
  rw [read] at event
  refine ⟨_, event, gone, thawed, others, fun w waits met => ?_, fun w waits unmet => ?_⟩
  · obtain ⟨written, over_⟩ := Strand.spinWrite_met waits r id v met
    rw [written] at mine
    exact ⟨spin.trans over_, mine⟩
  · obtain ⟨written, stands⟩ := Strand.spinWrite_unmet waits r id v unmet
    rw [written] at mine
    exact ⟨spin.trans stands, mine⟩

end

/-! ## Gathers -/

/-- How many elements of a gather have not been read. -/
def KeptElem.unread (es : List KeptElem) : Nat := (es.filter fun e => !e.read).length

/-- An element as a gather leaves it: as it was, or read as the strand sees its place (R144, R269). -/
def State.ElemSeen (s : State) (c : Nat) (l : Load) (e f : KeptElem) : Prop :=
  f = e ∨ (e.read = false ∧ s.mayRead c l.strand l.seq e.target 4 = true ∧
    ∃ v m, f = { e with val := v, mark := m, read := true } ∧
      ((∀ a, e.target ≠ .outside a) → (∀ a, e.target ≠ .readback a) →
        v = BitVec.ofNat 32 (ofBytes (s.readOwn c l.strand l.seq e.target 4).1.1) ∧ m = (s.readOwn c l.strand l.seq e.target 4).1.2))

theorem State.ElemSeen.refl (s : State) (c : Nat) (l : Load) (e : KeptElem) : s.ElemSeen c l e e := .inl rfl

section
variable (s : State) (c : Nat) (l : Load) (n : Nat) {e : KeptElem} (es : List KeptElem)

theorem State.readGather_cons_read (read : e.read = true) :
    s.readGather c l n (e :: es) = (e :: (s.readGather c l n es).1, (s.readGather c l n es).2) := by
  rw [State.readGather.eq_def]
  simp only [read, if_true]

theorem State.readGather_cons_zero (unread : e.read = false) : s.readGather c l 0 (e :: es) = (e :: es, s) := by
  rw [State.readGather.eq_def]
  simp only [unread, Bool.false_eq_true, if_false]

theorem State.readGather_cons_waits (unread : e.read = false) (waits : s.mayRead c l.strand l.seq e.target 4 = false) :
    s.readGather c l (n + 1) (e :: es) = (e :: (s.readGather c l (n + 1) es).1, (s.readGather c l (n + 1) es).2) := by
  rw [State.readGather.eq_def]
  simp only [unread, waits, Bool.false_eq_true, if_false, Bool.not_false, if_true]

theorem State.readGather_cons_reads (unread : e.read = false) (may : s.mayRead c l.strand l.seq e.target 4 = true) :
    s.readGather c l (n + 1) (e :: es) = ((s.readElem c l e).1 :: ((s.readElem c l e).2.readGather c l n es).1,
      ((s.readElem c l e).2.readGather c l n es).2) := by
  rw [State.readGather.eq_def]
  simp only [unread, may, Bool.false_eq_true, if_false, Bool.not_true]

end

/-- An element that may be read, read in a state with the same places. -/
theorem State.SamePlaces.elemSeen {s t : State} (same : s.SamePlaces t) {c : Nat} {l : Load} {e : KeptElem} (unread : e.read = false)
    (may : s.mayRead c l.strand l.seq e.target 4 = true) : s.ElemSeen c l e (t.readElem c l e).1 := by
  refine .inr ⟨unread, may, _, _, rfl, fun here plain => ?_⟩
  rw [same.readOwn_eq c l.strand l.seq 4 here plain]
  exact ⟨rfl, rfl⟩

/-- A gather that goes on reads elements of its own, and nothing else changes. -/
theorem State.SamePlaces.readGather {s : State} (c : Nat) (l : Load) (es : List KeptElem) : ∀ (n : Nat) {t : State}, s.SamePlaces t →
    s.SamePlaces (t.readGather c l n es).2 ∧ List.Forall₂ (s.ElemSeen c l) es (t.readGather c l n es).1 := by
  induction es with
  | nil => exact fun n t same => ⟨by rw [State.readGather]; exact same, by rw [State.readGather]; exact .nil⟩
  | cons e es ih =>
    intro n t same
    cases read : e.read with
    | true =>
      rw [t.readGather_cons_read c l n es read]
      exact ⟨(ih n same).1, .cons (.refl ..) (ih n same).2⟩
    | false =>
      cases n with
      | zero =>
        rw [t.readGather_cons_zero c l es read]
        exact ⟨same, List.forall₂_same.2 fun e _ => .refl s c l e⟩
      | succ n =>
        cases may : t.mayRead c l.strand l.seq e.target 4 with
        | false =>
          rw [t.readGather_cons_waits c l n es read may]
          exact ⟨(ih (n + 1) same).1, .cons (.refl ..) (ih (n + 1) same).2⟩
        | true =>
          obtain ⟨places, seen⟩ := ih n (same.trans (t.samePlaces_readOwn c l.strand l.seq e.target 4))
          rw [t.readGather_cons_reads c l n es read may]
          exact ⟨places, .cons (same.elemSeen read ((same.mayRead_eq ..).symm.trans may)) seen⟩

theorem KeptElem.unread_cons (e : KeptElem) (es : List KeptElem) :
    KeptElem.unread (e :: es) = (if e.read then 0 else 1) + KeptElem.unread es := by
  unfold KeptElem.unread
  cases h : e.read <;> simp [h, Nat.add_comm]

/-- No element that was read is unread afterwards. -/
theorem KeptElem.unread_le {s : State} {c : Nat} {l : Load} {es fs : List KeptElem} (h : List.Forall₂ (s.ElemSeen c l) es fs) :
    KeptElem.unread fs ≤ KeptElem.unread es := by
  induction h with
  | nil => exact Nat.le_refl _
  | @cons e f es fs seen _ ih =>
    rw [KeptElem.unread_cons, KeptElem.unread_cons]
    rcases seen with rfl | ⟨unread, -, v, m, rfl, -⟩
    · omega
    · simp only [unread, if_true, Bool.false_eq_true, if_false]
      omega

/-- A gather that goes on reads at least one element, if one may be read. -/
theorem State.SamePlaces.readGather_reads {s : State} (c : Nat) (l : Load) (es : List KeptElem) : ∀ (n : Nat) {t : State}, s.SamePlaces t →
    (∃ e ∈ es, e.read = false ∧ s.mayRead c l.strand l.seq e.target 4 = true) →
    KeptElem.unread (t.readGather c l (n + 1) es).1 < KeptElem.unread es := by
  induction es with
  | nil => exact fun n t same ⟨e, mem, _⟩ => absurd mem List.not_mem_nil
  | cons e es ih =>
    intro n t same ⟨g, mem, unread, ready⟩
    have rest : ¬ (e.read = false ∧ t.mayRead c l.strand l.seq e.target 4 = true) →
        KeptElem.unread (t.readGather c l (n + 1) es).1 < KeptElem.unread es := fun other => by
      refine ih n same ⟨g, ?_, unread, ready⟩
      rcases List.mem_cons.1 mem with rfl | mem
      · exact absurd ⟨unread, (same.mayRead_eq ..).trans ready⟩ other
      · exact mem
    cases read : e.read with
    | true =>
      have fewer := rest (by simp [read])
      rw [t.readGather_cons_read c l (n + 1) es read, KeptElem.unread_cons, KeptElem.unread_cons]
      omega
    | false =>
      cases may : t.mayRead c l.strand l.seq e.target 4 with
      | false =>
        have fewer := rest (by simp [may])
        rw [t.readGather_cons_waits c l n es read may, KeptElem.unread_cons, KeptElem.unread_cons]
        omega
      | true =>
        obtain ⟨-, seen⟩ := State.SamePlaces.readGather c l es n (same.trans (t.samePlaces_readOwn c l.strand l.seq e.target 4))
        have fewer := KeptElem.unread_le seen
        rw [t.readGather_cons_reads c l n es read may, KeptElem.unread_cons, KeptElem.unread_cons, read]
        simp only [State.readElem, if_true, Bool.false_eq_true, if_false]
        change 0 + KeptElem.unread ((t.readOwn c l.strand l.seq e.target 4).2.readGather c l n es).1 < _
        omega

/-- No element is left when every one is read. -/
theorem KeptElem.unread_eq_zero (es : List KeptElem) : KeptElem.unread es = 0 ↔ es.all (·.read) = true := by
  unfold KeptElem.unread
  rw [List.length_eq_zero_iff, List.filter_eq_nil_iff, List.all_eq_true]
  simp

/-- What a result that waits for a gather becomes: the values of its lane group's elements (R147). -/
def Pending.gathered (es : List KeptElem) (p : Pending) : Pending :=
  match p.write with
  | .vec lg reg _ mask => p.answer (.vec lg reg (gatherLine es lg).1 mask) (gatherLine es lg).2
  | w => p.answer w false

/-- A gather goes on by some number of elements, more than none. -/
theorem State.gatherOn_eq (s : State) (c : Nat) (l : Load) (some_ : KeptElem.unread l.elems ≠ 0) :
    ∃ n, let r := s.draw.2.readGather c l (n + 1) l.elems
      s.gatherOn c l = if r.1.all (·.read) then r.2.answeredLoad c l.id l.strand fun t => t.answerLoad l.id (Pending.gathered r.1)
        else r.2.modCore c fun k => { k with loads := k.loads.map fun m => if m.id = l.id then { m with elems := r.1 } else m } := by
  have positive : ∃ n, (if s.draw.1 % (2 * KeptElem.unread l.elems + 1) = 0 then KeptElem.unread l.elems
      else min (s.draw.1 % (2 * KeptElem.unread l.elems + 1)) (KeptElem.unread l.elems)) = n + 1 :=
    Nat.exists_eq_succ_of_ne_zero (by split <;> omega)
  obtain ⟨n, count⟩ := positive
  refine ⟨n, ?_⟩
  rw [← count]
  rfl

/-- A gather that may read an element goes on. -/
theorem lateResult_gather {s : State} {c id : Nat} {l : Load} (found : (s.core c).loads.find? (fun l => l.id == id) = some l)
    (kind : l.kind = .gather) (may : ∃ e ∈ l.elems, e.read = false ∧ s.mayRead c l.strand l.seq e.target 4 = true) :
    exec (.lateResult c id) s = .next (s.gatherOn c l) := by
  have goes : ¬ (!l.places.isEmpty && !l.places.any fun p => s.mayRead c l.strand l.seq p l.size) = true := by
    obtain ⟨e, mem, unread, ready⟩ := may
    cases got : l.got with
    | some b => simp [Load.places, got]
    | none =>
      have reads : (l.places.any fun p => s.mayRead c l.strand l.seq p l.size) = true := by
        simp only [Load.places, got, kind, Load.size]
        exact List.any_eq_true.2 ⟨e.target, List.mem_map.2 ⟨e, List.mem_filter.2 ⟨mem, by simp [unread]⟩, rfl⟩, ready⟩
      simp [reads]
  rw [exec_lateResult, execLateResult, found]
  simp only [if_neg goes, kind]

/-- Of a gather one element or more is read; when none is left the registers have the elements (R144, R147, R269). -/
theorem lateGather {s : State} {c id : Nat} {l : Load} (found : (s.core c).loads.find? (fun l => l.id == id) = some l)
    (kind : l.kind = .gather) (may : ∃ e ∈ l.elems, e.read = false ∧ s.mayRead c l.strand l.seq e.target 4 = true) :
    let t := s.strand c l.strand
    ∃ u es, exec (.lateResult c id) s = .next u ∧ List.Forall₂ (s.ElemSeen c l) l.elems es ∧
      KeptElem.unread es < KeptElem.unread l.elems ∧ (∀ p ∈ t.pend, p.load ≠ some id → p ∈ (u.strand c l.strand).pend) ∧
      (KeptElem.unread es ≠ 0 → (u.core c).loads = (s.core c).loads.map (fun m => if m.id = id then { m with elems := es } else m) ∧
        (u.strand c l.strand).pend = t.pend) ∧
      (KeptElem.unread es = 0 → (u.core c).loads = (s.core c).loads.filter (fun m => m.id != id) ∧
        (t.mode = .frozenOut → (∀ q ∈ (u.strand c l.strand).pend, q.load = none ∨ t.time < q.due) → (u.strand c l.strand).mode = .ready) ∧
        ∀ p ∈ t.pend, p.load = some id → ∀ lg reg old mask, p.write = .vec lg reg old mask →
          { p with write := .vec lg reg (gatherLine es lg).1 mask, mark := p.mark || (gatherLine es lg).2, load := none } ∈
            (u.strand c l.strand).pend) := by
  intro t
  have named : l.id = id := by simpa using List.find?_some found
  have some_ : KeptElem.unread l.elems ≠ 0 := by
    obtain ⟨e, mem, unread, -⟩ := may
    intro zero
    have read := List.all_eq_true.1 ((KeptElem.unread_eq_zero _).1 zero) e mem
    rw [unread] at read
    exact Bool.false_ne_true read
  obtain ⟨n, on⟩ := s.gatherOn_eq c l some_
  obtain ⟨same, seen⟩ := State.SamePlaces.readGather c l l.elems (n + 1) s.samePlaces_draw
  have fewer := State.SamePlaces.readGather_reads c l l.elems n s.samePlaces_draw may
  rw [named] at on
  refine ⟨_, (s.draw.2.readGather c l (n + 1) l.elems).1, lateResult_gather found kind may, seen, fewer, ?_⟩
  generalize s.draw.2.readGather c l (n + 1) l.elems = r at on same
  by_cases all : r.1.all (·.read) = true
  · obtain ⟨gone, thawed, others, mine, -⟩ := State.answeredLoad_leaves same c id l.strand
      (f := fun t => t.answerLoad id (Pending.gathered r.1)) rfl rfl rfl
    rw [on, if_pos all]
    refine ⟨others, fun left => absurd ((KeptElem.unread_eq_zero _).2 all) left, fun _ => ⟨gone, thawed, fun p mem waits lg reg old mask write => ?_⟩⟩
    have new := mine p mem waits
    rw [Pending.gathered, write] at new
    exact new
  · have strand := r.2.strand_dropLoad c c l.strand fun ms => ms.map fun m => if m.id = id then { m with elems := r.1 } else m
    rw [same.strand_eq] at strand
    rw [on, if_neg all]
    refine ⟨fun p mem _ => by rw [strand]; exact mem, fun _ => ⟨?_, by rw [strand]⟩, fun none_ => absurd ((KeptElem.unread_eq_zero _).1 none_) all⟩
    rw [State.core_modCore, same.core_eq]

theorem lateAnswers_holds : lateAnswers := fun _ _ _ _ found =>
  ⟨fun _ _ _ kind may => lateScalar found kind may, fun _ kind may => lateSpin found kind may, fun kind may => lateGather found kind may⟩

/-! ## The re-read of a SPINW -/

/-- A strand whose SPINW has had its first read waits on it. -/
theorem State.spinning_of {s : State} {c n : Nat} {w : SpinWait} (waits : (s.strand c n).spin = some w)
    (first : ∀ l ∈ (s.core c).loads, l.strand = n → ∀ r, l.kind ≠ .spin r) : s.spinning c n = true := by
  have answered : ((s.core c).loads.any fun l => l.strand == n && (match l.kind with
      | .spin _ => true
      | _ => false)) = false := by
    refine List.any_eq_false.2 fun l mem => ?_
    intro spins
    obtain ⟨mine, kind⟩ := Bool.and_eq_true_iff.1 spins
    cases k : l.kind with
    | spin r => exact first l mem (beq_iff_eq.1 mine) r k
    | _ => simp [k] at kind
  unfold State.spinning
  rw [waits]
  simp only [Option.isSome_some, Bool.true_and, Bool.not_eq_true']
  exact answered

/-- The re-read of a SPINW's word by a strand of a state with the same places. -/
def Strand.reread (t : Strand) (w : SpinWait) (cycle : Nat) : Strand := { t with spin := some { w with last := cycle } }
/-- The end of a SPINW's wait: its word is written now. -/
def Strand.spinMet (t : Strand) (w : SpinWait) (word : Word) (mark : Bool) : Strand :=
  { t with
    spin := none
    pend := t.pend ++ [{ due := t.time, seq := t.nextSeq, write := .x w.xd word, mark := mark, load := none, recs := [] }] }

theorem spinwReread_eq {s : State} {c n : Nat} {w : SpinWait} {tgt : Target} {pg : Option Nat} (waits : (s.strand c n).spin = some w)
    (first : ∀ l ∈ (s.core c).loads, l.strand = n → ∀ r, l.kind ≠ .spin r) (goes : s.resolve c w.addr .read = .ok tgt pg)
    (may : s.mayRead c n (s.strand c n).nextSeq tgt 8 = true) :
    let v := s.readOwn c n (s.strand c n).nextSeq tgt 8
    let word : Word := BitVec.ofNat 64 (ofBytes v.1.1)
    ∃ u, u.strand c n = (s.strand c n).reread w (s.core c).cycle ∧ exec (.spinwReread c n) s = .next (
      let met := u.modStrand c n fun t => t.spinMet w word v.1.2
      if spinHolds w.cond word w.cmp = false then u
      else if (met.strand c n).mode == .blocked && (met.strand c n).wait.reason == waitSpin then met.wake c n else met) := by
  have read : s.spinWord c n w = some (s.readOwn c n (s.strand c n).nextSeq tgt 8) := by
    rw [State.spinWord, goes]
    exact if_pos may
  have same := s.samePlaces_readOwn c n (s.strand c n).nextSeq tgt 8
  refine ⟨(s.readOwn c n (s.strand c n).nextSeq tgt 8).2.modStrand c n fun t =>
    t.reread w ((s.readOwn c n (s.strand c n).nextSeq tgt 8).2.core c).cycle, ?_, ?_⟩
  · rw [State.strand_modStrand, same.strand_eq, same.core_eq]
  · rw [exec_spinwReread, execSpinwReread, waits]
    simp only [State.spinning_of waits first, Bool.not_true, Bool.false_eq_true, if_false, read, Bool.not_eq_true']
    exact (apply_ite Host.Outcome.next _ _ _).symm

/-- A strand that is woken if it was blocked by its SPINW (R97, R116). -/
theorem State.strand_wakeSpin (s : State) (c n : Nat) :
    ∃ m k w, ((if (s.strand c n).mode == .blocked && (s.strand c n).wait.reason == waitSpin then s.wake c n else s).strand c n) =
      { s.strand c n with mode := m, ctl := k, wait := w } ∧
      ((s.strand c n).mode = .blocked → (s.strand c n).wait.reason = waitSpin → m = .ready) := by
  by_cases blocked : ((s.strand c n).mode == .blocked && (s.strand c n).wait.reason == waitSpin) = true
  · obtain ⟨k, w, woken⟩ := s.strand_wake c n
    rw [if_pos blocked, woken]
    exact ⟨_, k, w, rfl, fun _ _ => rfl⟩
  · rw [if_neg blocked]
    exact ⟨_, _, _, rfl, fun mode reason => absurd (by rw [mode, reason]; rfl) blocked⟩

theorem spinRereads_holds : spinRereads := by
  intro s c n w tgt pg waits first goes may t v word
  obtain ⟨u, read, event⟩ := spinwReread_eq waits first goes may
  cases met : spinHolds w.cond word w.cmp with
  | false =>
    rw [if_pos met] at event
    refine ⟨u, event, by rw [read]; rfl, by rw [read]; rfl, nofun, fun _ => ?_⟩
    rw [read]
    exact ⟨rfl, rfl, rfl⟩
  | true =>
    rw [if_neg (by rw [met]; decide)] at event
    have ends : (u.modStrand c n fun t => t.spinMet w word v.2).strand c n = (t.reread w (s.core c).cycle).spinMet w word v.2 := by
      rw [State.strand_modStrand, read]
    obtain ⟨m, k, wait, strand, ready⟩ := (u.modStrand c n fun t => t.spinMet w word v.2).strand_wakeSpin c n
    rw [ends] at ready
    refine ⟨_, event, ?_⟩
    rw [strand, ends]
    exact ⟨rfl, rfl, fun _ => ⟨rfl, rfl, ready⟩, nofun⟩

end Sys2Proof.Machine
end

section
/-!
PROOF. Posted stores and the updates of replicated pages (R139, R141, R144, R265, R270, R278).
-/

set_option Elab.async false
namespace Sys2Proof.Machine
open Claims

/-! ## A write at a target -/

theorem State.cores_countWrites (s : State) (pas : List Nat) : (s.countWrites pas).cores = s.cores ∧ (s.countWrites pas).replicas = s.replicas ∧
    (s.countWrites pas).hbm = s.hbm := by
  unfold State.countWrites
  split <;> exact ⟨rfl, rfl, rfl⟩

/-- A write of HBM writes its bytes, and touches no core and no replica record. -/
theorem State.cores_hbmWrite (s : State) (pa : Nat) (bs : List Byte) (mark : Bool) :
    (s.hbmWrite pa bs mark).cores = s.cores ∧ (s.hbmWrite pa bs mark).replicas = s.replicas ∧
      (s.hbmWrite pa bs mark).hbm = writeBytes s.hbm pa bs := by
  obtain ⟨cores, replicas, hbm⟩ := s.cores_countWrites ((List.range bs.length).map (pa + ·))
  exact ⟨cores, replicas, congrArg (fun m => writeBytes m pa bs) hbm⟩

/-- What a write at a target leaves of every core: all but the pool that it writes. -/
theorem State.stores_writeTarget (s : State) (tgt : Target) (bs : List Byte) (mark : Bool) (c : Nat) :
    ((s.writeTarget tgt bs mark).core c).stores = (s.core c).stores := by
  cases tgt with
  | hbm pa => rw [State.core, State.core, State.writeTarget, (s.cores_hbmWrite pa bs mark).1]
  | pool d off =>
    by_cases h : c = d
    · subst h
      change (((s.modCore c fun k => k.poolWrite off bs mark).core c).stores) = _
      rw [State.core_modCore]
      rfl
    · change (((s.modCore d fun k => k.poolWrite off bs mark).core c).stores) = _
      rw [State.core_modCore_ne _ _ h]
  | _ => rfl

theorem State.replicas_writeTarget (s : State) (tgt : Target) (bs : List Byte) (mark : Bool) :
    (s.writeTarget tgt bs mark).replicas = s.replicas := by
  cases tgt with
  | hbm pa => exact (s.cores_hbmWrite pa bs mark).2.1
  | _ => rfl

/-- A byte of HBM after a write at a target. -/
def Target.byteAfter (tgt : Target) (bs : List Byte) (a : Nat) (b : Byte) : Byte :=
  match tgt with
  | .hbm p => if p ≤ a ∧ a < p + bs.length then nth 0 bs (a - p) else b
  | _ => b

theorem State.readByte_writeTarget (s : State) (tgt : Target) (bs : List Byte) (mark : Bool) (a : Nat) :
    readByte (s.writeTarget tgt bs mark).hbm a = tgt.byteAfter bs a (readByte s.hbm a) := by
  cases tgt with
  | hbm pa => rw [State.writeTarget, (s.cores_hbmWrite pa bs mark).2.2, readByte_writeBytes]; rfl
  | _ => rfl

/-- A write at a place outside HBM leaves HBM as it is. -/
theorem State.hbm_writeTarget {tgt : Target} (elsewhere : ∀ pa, tgt ≠ .hbm pa) (s : State) (bs : List Byte) (mark : Bool) :
    (s.writeTarget tgt bs mark).hbm = s.hbm := by
  cases tgt with
  | hbm pa => exact absurd rfl (elsewhere pa)
  | _ => rfl

theorem State.pool_writeTarget (s : State) (e off : Nat) (bs : List Byte) (mark : Bool) :
    ((s.writeTarget (.pool e off) bs mark).core e).pool = writeBytes (s.core e).pool off bs := by
  change ((s.modCore e fun k => k.poolWrite off bs mark).core e).pool = _
  rw [State.core_modCore]
  rfl

theorem State.pool_writeTarget_ne {tgt : Target} {e : Nat} (elsewhere : ∀ off, tgt ≠ .pool e off) (s : State) (bs : List Byte) (mark : Bool) :
    ((s.writeTarget tgt bs mark).core e).pool = (s.core e).pool := by
  cases tgt with
  | hbm pa => rw [State.core, State.core, State.writeTarget, (s.cores_hbmWrite pa bs mark).1]
  | pool d off =>
    change ((s.modCore d fun k => k.poolWrite off bs mark).core e).pool = _
    rw [State.core_modCore_ne _ _ fun h => elsewhere off (by rw [h])]
  | _ => rfl

/-! ## A store leaves its core -/

/-- A core without some of its stores. -/
theorem State.pool_dropStores (s : State) (c e : Nat) (p : Store → Bool) : ((s.modCore c fun k => k.dropStores p).core e).pool = (s.core e).pool := by
  by_cases h : e = c
  · subst h
    rw [State.core_modCore]
    rfl
  · rw [State.core_modCore_ne _ _ h]

theorem State.stores_dropStores (s : State) (c : Nat) (p : Store → Bool) :
    ((s.modCore c fun k => k.dropStores p).core c).stores = (s.core c).stores.filter fun w => !p w := by
  rw [State.core_modCore]
  rfl

/-! ## Performed stores -/

section
variable {s : State} {c id : Nat} {w : Store} (posted : (s.core c).store id = some w) (first : (s.core c).storeFirst w = true)
include posted first

/-- A store that stands in no staging is performed at its target, or waits for the update of its page (R141, R265). -/
theorem storePerformed_plain (commits : w.holders = [] → s.commitBefore c w.strand w.target w.bytes.length = false)
    (plain : w.holders = [] ∨ ∀ pa, w.target ≠ .hbm pa) :
    exec (.storePerformed c id) s = if s.isReplicated w.target then .next s
      else .next ((s.writeTarget w.target w.bytes w.mark).modCore c fun k => k.dropStores fun v => v.id == id) := by
  have goes : (!((s.core c).storeFirst w && (!w.holders.isEmpty || s.mayStore c w))) = false := by
    cases held : w.holders with
    | nil => simp [State.mayStore, first, commits held]
    | cons h hs => simp [first]
  rw [exec_storePerformed, execStorePerformed, posted]
  simp only [goes, Bool.false_eq_true, if_false]
  split
  · next pa h hs target held =>
    rcases plain with free | elsewhere
    · rw [held] at free; exact absurd free (List.cons_ne_nil _ _)
    · exact absurd target (elsewhere pa)
  · rfl

/-- A held store to HBM reaches staging (R139). -/
theorem storePerformed_held {pa : Nat} (target : w.target = .hbm pa) (held : w.holders ≠ []) :
    exec (.storePerformed c id) s = .next ((s.stage (coreDie c) (s.teamAt c) (s.nameOf c w.strand) w.holders (taskOf w.holders) w.va pa
      w.bytes w.mark).modCore c fun k => k.dropStores fun v => v.id == id) := by
  obtain ⟨h, hs, holders⟩ := List.exists_cons_of_ne_nil held
  have goes : (!((s.core c).storeFirst w && (!w.holders.isEmpty || s.mayStore c w))) = false := by
    rw [first, holders]; rfl
  rw [exec_storePerformed, execStorePerformed, posted]
  simp only [goes, Bool.false_eq_true, if_false]
  simp only [target, holders]

end

/-! ## Staging -/

/-- Held bytes join the writer's latest line at their place if it has their holders, else they are a new line (R138). -/
def HeldLine.joined (ls : List HeldLine) (new : HeldLine) : List HeldLine :=
  match ls.reverse.find? fun h => h.pa == new.pa && h.who == new.who && h.d == new.d && h.t == new.t with
  | some last =>
    if last.holders = new.holders then
      ls.map fun h => if h.order = last.order then
          { h with data := mergeLine h.data new.data new.mask, mask := h.mask ||| new.mask, mark := h.mark || new.mark } else h
    else ls ++ [new]
  | none => ls ++ [new]

/-- A line that holds the bytes of another, under its writer and holders. -/
def HeldLine.Holds (h new : HeldLine) : Prop :=
  h.pa = new.pa ∧ h.who = new.who ∧ h.holders = new.holders ∧
    ∀ i, i < 64 → new.mask.getLsbD i = true → h.mask.getLsbD i = true ∧ Line.byte h.data i = Line.byte new.data i

theorem HeldLine.holds_self (new : HeldLine) : new.Holds new := ⟨rfl, rfl, rfl, fun _ _ set => ⟨set, rfl⟩⟩

/-- Held bytes stand in staging once they have joined it (R138, R139). -/
theorem HeldLine.mem_joined (ls : List HeldLine) (new : HeldLine) : ∃ h ∈ HeldLine.joined ls new, h.Holds new := by
  have appended : ∃ h ∈ ls ++ [new], h.Holds new := ⟨new, List.mem_append_right _ List.mem_cons_self, new.holds_self⟩
  unfold HeldLine.joined
  split
  · next last found =>
    split
    · next holders =>
      have place := List.find?_some found
      simp only [Bool.and_eq_true, beq_iff_eq] at place
      obtain ⟨⟨⟨pa, who⟩, -⟩, -⟩ := place
      refine ⟨_, List.mem_map.2 ⟨last, List.mem_reverse.1 (List.mem_of_find?_eq_some found), if_pos rfl⟩, pa, who, holders, fun i small set => ?_⟩
      refine ⟨by simp [set], ?_⟩
      rw [Line.byte_mergeLine _ _ _ small, if_pos set]
    · exact appended
  · exact appended

/-- The mask and the data of bytes in a line, from byte o of it. -/
def maskAt (o n : Nat) : BitVec 64 := BitVec.ofNat 64 ((2 ^ n - 1) * 2 ^ o)
def dataAt (o : Nat) (bs : List Byte) : Line := BitVec.ofNat 512 (ofBytes bs * 2 ^ (8 * o))

theorem getLsbD_maskAt {o n i : Nat} (h : i < n) (fits : o + n ≤ 64) : (maskAt o n).getLsbD (o + i) = true := by
  rw [maskAt, BitVec.getLsbD_ofNat, Nat.testBit_mul_two_pow, Nat.testBit_two_pow_sub_one]
  simp
  omega

theorem ofBytes_zeros_append (o : Nat) (bs : List Byte) : ofBytes (List.replicate o 0 ++ bs) = ofBytes bs * 2 ^ (8 * o) := by
  induction o with
  | zero => simp
  | succ o ih =>
    rw [List.replicate_succ, List.cons_append, ofBytes, ih, Nat.mul_succ, pow_add]
    simp
    ring

theorem byte_dataAt {o i : Nat} {bs : List Byte} (h : i < bs.length) (fits : o + bs.length ≤ 64) : Line.byte (dataAt o bs) (o + i) = nth 0 bs i := by
  have line : dataAt o bs = lineOf (List.replicate o 0 ++ bs) := by rw [lineOf, ofBytes_zeros_append]; rfl
  rw [line, Line.byte_lineOf _ (by omega), nth, nth, List.getElem?_append_right (by simp)]
  simp

/-- Bytes within one line. -/
theorem linesOf_one {pa n : Nat} (some_ : 0 < n) (fits : pa % 64 + n ≤ 64) : linesOf pa n = [pa / 64 * 64] := by
  have one : (pa + n - 1) / 64 - pa / 64 + 1 = 1 := by omega
  rw [linesOf, if_neg (by omega), one]
  rfl

/-- The line of staging for held bytes within one line (R138). -/
def State.heldLine (s : State) (d t : Nat) (who : StrandName) (holders : List Holder) (task : Nat) (va : Word) (pa : Nat) (bs : List Byte)
    (mark : Bool) : HeldLine :=
  { pa := pa / 64 * 64, data := dataAt (pa % 64) bs, mask := maskAt (pa % 64) bs.length, who := who, d := d, t := t, holders := holders,
    order := s.nextId, task := task, mark := mark, va := va - BitVec.ofNat 64 pa + BitVec.ofNat 64 (pa / 64 * 64) }

/-- Held bytes within one line go to the staging of its die as one line (R138, R139). -/
theorem State.staging_stage (s : State) (d t : Nat) (who : StrandName) (holders : List Holder) (task : Nat) (va : Word) (pa : Nat) (bs : List Byte)
    (mark : Bool) (some_ : 0 < bs.length) (fits : pa % 64 + bs.length ≤ 64) :
    ((s.stage d t who holders task va pa bs mark).die (stackOf (pa / 64 * 64))).staging =
      HeldLine.joined (s.die (stackOf (pa / 64 * 64))).staging (s.heldLine d t who holders task va pa bs mark) := by
  have start : max pa (pa / 64 * 64) = pa := by omega
  have stop : min (pa + bs.length) (pa / 64 * 64 + 64) = pa + bs.length := by omega
  have offset : pa - pa / 64 * 64 = pa % 64 := by omega
  have whole : (bs.drop (pa - pa)).take (pa + bs.length - pa) = bs := by simp
  unfold State.stage
  rw [linesOf_one some_ fits, List.foldl_cons, List.foldl_nil]
  simp only [start, stop, offset, whole]
  exact congrArg Die.staging (s.die_modDie (stackOf (pa / 64 * 64)) fun k =>
    { k with staging := HeldLine.joined k.staging (s.heldLine d t who holders task va pa bs mark) })

theorem State.cores_stage (s : State) (d t : Nat) (who : StrandName) (holders : List Holder) (task : Nat) (va : Word) (pa : Nat) (bs : List Byte)
    (mark : Bool) : (s.stage d t who holders task va pa bs mark).cores = s.cores := by
  exact foldl_keeps State.cores (by intros; rfl) _ _

/-! ## The clauses -/

/-- A store that may be performed writes exactly its bytes at its target; one to a replicated page waits for its update. -/
theorem plainStore {s : State} {c id : Nat} {w : Store} (posted : (s.core c).store id = some w) (first : (s.core c).storeFirst w = true)
    (commits : w.holders = [] → s.commitBefore c w.strand w.target w.bytes.length = false) (plain : w.holders = [] ∨ ∀ pa, w.target ≠ .hbm pa) :
    (s.isReplicated w.target = false → ∃ u, exec (.storePerformed c id) s = .next u ∧
      (u.core c).stores = (s.core c).stores.filter (fun v => v.id != id) ∧
      (∀ pa, w.target = .hbm pa → ∀ a, readByte u.hbm a =
        if pa ≤ a ∧ a < pa + w.bytes.length then nth 0 w.bytes (a - pa) else readByte s.hbm a) ∧
      ((∀ pa, w.target ≠ .hbm pa) → u.hbm = s.hbm) ∧
      (∀ e off, w.target = .pool e off → ∀ a, readByte (u.core e).pool a =
        if off ≤ a ∧ a < off + w.bytes.length then nth 0 w.bytes (a - off) else readByte (s.core e).pool a) ∧
      ∀ e, (∀ off, w.target ≠ .pool e off) → (u.core e).pool = (s.core e).pool) ∧
    (s.isReplicated w.target = true → exec (.storePerformed c id) s = .next s) := by
  have event := storePerformed_plain posted first commits plain
  refine ⟨fun single => ?_, fun replicated => by rw [event, if_pos replicated]⟩
  rw [if_neg (by rw [single]; decide)] at event
  refine ⟨_, event, ?_, fun pa target a => ?_, fun elsewhere => ?_, fun e off target a => ?_, fun e elsewhere => ?_⟩
  · rw [State.stores_dropStores, State.stores_writeTarget]
    rfl
  · rw [State.modCore_hbm, State.readByte_writeTarget, target]
    rfl
  · rw [State.modCore_hbm, State.hbm_writeTarget elsewhere]
  · rw [State.pool_dropStores, target, State.pool_writeTarget, readByte_writeBytes]
  · rw [State.pool_dropStores, State.pool_writeTarget_ne elsewhere]

/-- A held store goes to staging under its holders, and writes no memory. -/
theorem heldStore {s : State} {c id : Nat} {w : Store} (posted : (s.core c).store id = some w) (first : (s.core c).storeFirst w = true)
    {pa : Nat} (target : w.target = .hbm pa) (held : w.holders ≠ []) (some_ : 0 < w.bytes.length) (fits : pa % 64 + w.bytes.length ≤ 64) :
    ∃ u, exec (.storePerformed c id) s = .next u ∧ (u.core c).stores = (s.core c).stores.filter (fun v => v.id != id) ∧ u.hbm = s.hbm ∧
      ∃ h ∈ (u.die (stackOf (pa / 64 * 64))).staging, h.pa = pa / 64 * 64 ∧ h.who = s.nameOf c w.strand ∧ h.holders = w.holders ∧
        ∀ i, i < w.bytes.length → h.mask.getLsbD (pa % 64 + i) = true ∧
          Sys2Proof.bits h.data.toNat (8 * (pa % 64 + i)) 8 = nth 0 w.bytes i := by
  have staging := s.staging_stage (coreDie c) (s.teamAt c) (s.nameOf c w.strand) w.holders (taskOf w.holders) w.va pa w.bytes w.mark some_ fits
  obtain ⟨h, mem, place, who, holders, bytes⟩ := HeldLine.mem_joined (s.die (stackOf (pa / 64 * 64))).staging
    (s.heldLine (coreDie c) (s.teamAt c) (s.nameOf c w.strand) w.holders (taskOf w.holders) w.va pa w.bytes w.mark)
  rw [← staging] at mem
  refine ⟨_, storePerformed_held posted first target held, ?_, ?_, h, mem, place, who, holders, fun i inside => ?_⟩
  · rw [State.stores_dropStores, State.core, State.cores_stage]
    rfl
  · rw [State.modCore_hbm, State.stage_hbm]
  · obtain ⟨set, byte⟩ := bytes (pa % 64 + i) (by omega) (getLsbD_maskAt inside fits)
    refine ⟨set, ?_⟩
    have written : Line.byte h.data (pa % 64 + i) = nth 0 w.bytes i := byte.trans (byte_dataAt inside fits)
    rw [Line.byte_eq_ofNat, show (256 : Nat) = 2 ^ 8 from rfl, ← pow_mul] at written
    exact written

theorem storeEvents_holds : storeEvents := fun _ _ _ _ posted first =>
  ⟨plainStore posted first, fun _ target held some_ fits => heldStore posted first target held some_ fits⟩

/-! ## Replicated pages -/

/-- The stores of an update, written one after another (R141). -/
def State.writeStores (s : State) (ws : List Store) : State := ws.foldl (fun s v => s.writeTarget v.target v.bytes v.mark) s

theorem State.stores_writeStores (ws : List Store) (s : State) (c : Nat) : ((s.writeStores ws).core c).stores = (s.core c).stores :=
  foldl_keeps (fun s : State => (s.core c).stores) (step := fun s (v : Store) => s.writeTarget v.target v.bytes v.mark)
    (fun s v => s.stores_writeTarget v.target v.bytes v.mark c) ws s

theorem State.replicas_writeStores (ws : List Store) (s : State) : (s.writeStores ws).replicas = s.replicas :=
  foldl_keeps State.replicas (step := fun s (v : Store) => s.writeTarget v.target v.bytes v.mark)
    (fun s v => s.replicas_writeTarget v.target v.bytes v.mark) ws s

/-- A byte of HBM after the stores of an update: theirs, in their order, over the byte beneath. -/
theorem State.readByte_writeStores (ws : List Store) (s : State) (a : Nat) :
    readByte (s.writeStores ws).hbm a = ws.foldl (fun b v => v.target.byteAfter v.bytes a b) (readByte s.hbm a) := by
  induction ws generalizing s with
  | nil => rfl
  | cons w ws ih =>
    rw [List.foldl_cons, ← s.readByte_writeTarget w.target w.bytes w.mark a]
    exact ih _

section
variable {s : State} {c id pa : Nat} {w : Store} {r : Replica} (posted : s.cores.findSome? (fun e => (e.2.store id).map fun w => (e.1, w)) = some (c, w))
  (target : w.target = .hbm pa) (page : s.replicaOf pa = some r) (free : w.holders = [])
include posted target page free

/-- An update locks its page, or writes it under its lock (R141). -/
theorem replicaUpdate_eq : exec (.replicaUpdate id) s =
    if r.locked.isNone then
      if ((s.core c).stores.filter w.sameUpdate).all (s.mayUpdate c) then .next (s.modReplica r.home fun r => { r with locked := some id })
      else .next s
    else if r.locked = some id then
      .next (((s.writeStores ((s.core c).stores.filter w.sameUpdate)).modCore c fun k => k.dropStores w.sameUpdate).modReplica r.home
        fun r => { r with locked := none })
    else .next s := by
  rw [exec_replicaUpdate, execReplicaUpdate, posted]
  simp only [target, page, free, List.isEmpty_nil, Bool.not_true, Bool.false_eq_true, if_false]
  rfl

end

theorem pageUpdates_holds : pageUpdates := by
  intro s c id pa w r posted target page free
  have event := replicaUpdate_eq posted target page free
  refine ⟨fun unlocked may => ?_, fun locked => ?_, fun k locked other => ?_⟩
  · have all : ((s.core c).stores.filter w.sameUpdate).all (s.mayUpdate c) = true :=
      List.all_eq_true.2 fun v mem => may v (List.mem_filter.1 mem).1 (List.mem_filter.1 mem).2
    rw [event, unlocked, all]
    rfl
  · rw [locked, if_neg (by simp), if_pos rfl] at event
    refine ⟨_, event, ?_, ?_, fun a => ?_⟩
    · exact congrArg (List.map fun q => if q.home = r.home then { q with locked := none } else q)
        (s.replicas_writeStores ((s.core c).stores.filter w.sameUpdate))
    · refine (State.stores_dropStores _ c w.sameUpdate).trans ?_
      rw [State.stores_writeStores]
    · exact s.readByte_writeStores ((s.core c).stores.filter w.sameUpdate) a
  · rw [event, locked, if_neg (by simp), if_neg (by simpa using other)]

/-- Settles O36: an answered load, a performed store, an update of a page and a re-read each take the cases of their event, and the bytes
that a strand sees are its own last store's, its staged ones, or memory's. -/
theorem memoryEvents : Obligations.MemoryEvents :=
  ⟨ownBytes_holds, lateAnswers_holds, storeEvents_holds, pageUpdates_holds, spinRereads_holds⟩

end Sys2Proof.Machine
end

section
/-!
PROOF. The layout of the pool and the identity line (R123, R124, R126).
-/

set_option Elab.async false
namespace Sys2Proof.Machine
open Claims

/-! ## The fields of a legal partition word (R121, R122) -/

theorem partLegal_iff (w : Word32) : partLegal w = true ↔
    partRegs w ≤ 10 ∧ partAcc w ≤ 32 ∧ partOpnd w ≤ 2 ∧ w.toNat / 4096 % 4 ≤ 2 ∧ w.toNat / 2 ^ 14 = 0 := by
  simp only [partLegal, Bool.and_eq_true, decide_eq_true_eq, beq_iff_eq, and_assoc]

theorem partStrands_of_legal {w : Word32} (legal : partLegal w = true) : partStrands w = 1 ∨ partStrands w = 2 ∨ partStrands w = 4 := by
  obtain ⟨-, -, -, few, -⟩ := (partLegal_iff w).1 legal
  unfold partStrands
  interval_cases w.toNat / 4096 % 4 <;> decide

theorem opndSize_eq (w : Word32) : opndSize w = 131072 * partOpnd w := by
  unfold opndSize
  split <;> omega

/-- The register files, tiles and operand slots leave at least the smallest scratchpad (R121). -/
theorem scratchSize_of_legal {w : Word32} (legal : partLegal w = true) :
    1835008 ≤ scratchSize w ∧ scratchSize w + opndSize w + 16384 * partAcc w + vrfSize w = 4194304 := by
  obtain ⟨regs, acc, opnd, -, -⟩ := (partLegal_iff w).1 legal
  have files : vrfSize w ≤ 1572864 := by unfold vrfSize; omega
  rw [scratchSize, opndSize_eq]
  omega

/-! ## The register files (R123, R151) -/

/-- Eight lane groups, each of a share of whole registers for every strand, make up the register files. -/
theorem vrfSize_of_legal {w : Word32} (legal : partLegal w = true) : vrfSize w = 512 * (partStrands w * vregCount w) := by
  unfold vregCount vrfSize
  obtain h | h | h := partStrands_of_legal legal <;> rw [h] <;> omega

theorem vregAddr_of_legal {w : Word32} (legal : partLegal w = true) (lg n r : Nat) :
    vregAddr w lg n r = 4194304 - vrfSize w + 64 * ((lg * partStrands w + n) * vregCount w + r) := by
  have files := vrfSize_of_legal legal
  have strands : 0 < partStrands w := Nat.two_pow_pos _
  have group : vrfSize w / 8 = 64 * (partStrands w * vregCount w) := by omega
  have share : vrfSize w / (8 * partStrands w) = 64 * vregCount w := by
    rw [files]
    exact Nat.div_eq_of_eq_mul_right (by omega) (by ring)
  rw [vregAddr, group, share]
  ring

/-- A number in a mixed base has one pair of digits. -/
theorem digits_unique {k a b r q : Nat} (hr : r < k) (hq : q < k) (h : a * k + r = b * k + q) : a = b ∧ r = q := by
  have split_ : ∀ {c m : Nat}, m < k → (c * k + m) / k = c ∧ (c * k + m) % k = m := fun hm => by
    rw [Nat.mul_comm, Nat.mul_add_div (by omega), Nat.mul_add_mod, Nat.div_eq_of_lt hm, Nat.mod_eq_of_lt hm]
    exact ⟨rfl, rfl⟩
  exact ⟨by rw [← (split_ (c := a) hr).1, h, (split_ hq).1], by rw [← (split_ (c := a) hr).2, h, (split_ hq).2]⟩

theorem vregAddr_bounds {w : Word32} (legal : partLegal w = true) {lg n r : Nat} (hlg : lg < 8) (hn : n < partStrands w)
    (hr : r < vregCount w) : 4194304 - vrfSize w ≤ vregAddr w lg n r ∧ vregAddr w lg n r + 64 ≤ 4194304 := by
  have files := vrfSize_of_legal legal
  have total := (scratchSize_of_legal legal).2
  have place : lg * partStrands w + n + 1 ≤ 8 * partStrands w := by nlinarith
  have below : (lg * partStrands w + n) * vregCount w + r + 1 ≤ 8 * partStrands w * vregCount w := by nlinarith
  rw [vregAddr_of_legal legal]
  rw [mul_assoc] at below
  omega

theorem vregAddr_injective {w : Word32} (legal : partLegal w = true) {lg n r lg' n' r' : Nat} (hn : n < partStrands w)
    (hn' : n' < partStrands w) (hr : r < vregCount w) (hr' : r' < vregCount w)
    (same : vregAddr w lg n r = vregAddr w lg' n' r') : lg = lg' ∧ n = n' ∧ r = r' := by
  rw [vregAddr_of_legal legal, vregAddr_of_legal legal] at same
  obtain ⟨share, register⟩ := digits_unique hr hr' (Nat.eq_of_mul_eq_mul_left (by omega) (Nat.add_left_cancel same))
  obtain ⟨group, strand⟩ := digits_unique hn hn' share
  exact ⟨group, strand, register⟩

theorem poolLayout_holds : poolLayout := by
  intro w legal
  obtain ⟨scratch, total⟩ := scratchSize_of_legal legal
  refine ⟨total, fun o slot => ?_, fun t tile => ?_, fun lg n r hlg hn hr => vregAddr_bounds legal hlg hn hr,
    fun lg n r lg' n' r' _ _ hn hn' hr hr' => vregAddr_injective legal hn hn' hr hr', fun o => ⟨?_, ?_, rfl⟩⟩
  · rw [slotCount] at slot
    rw [slotAddr]
    omega
  · rw [tileAddr]
    omega
  · unfold scratchMod
    split
    · exact .inl rfl
    · exact .inr rfl
  · unfold scratchMod
    split <;> omega

/-! ## The identity line (R126) -/

theorem identLine_bytes {d : Nat} (h : d < 8) :
    (identLine d).length = 64 ∧ ofBytes ((identLine d).take 8) = d ∧ ∀ b ∈ (identLine d).drop 8, b = 0 := by
  have eight : (bytesOf 8 (endpointOf d)).length = 8 := length_bytesOf ..
  refine ⟨by rw [identLine, List.length_append, eight, List.length_replicate], ?_, fun b mem => ?_⟩
  · rw [identLine, List.take_left' eight]
    exact ofBytes_bytesOf_fits (by rw [endpointOf]; omega)
  · rw [identLine, List.drop_left' eight] at mem
    exact List.eq_of_mem_replicate mem

/-- An address in the local region takes no translation (R125). -/
theorem State.resolve_local (s : State) (c : Nat) {ea : Word} (acc : Acc) (h : localBase ≤ ea.toNat % 2 ^ 42) :
    s.resolve c ea acc = s.localTarget c (ea.toNat % 2 ^ 42) acc := if_pos h

/-- From the identity line on (R126). -/
theorem State.localTarget_ident (s : State) (c : Nat) {va : Nat} (acc : Acc) (h : identBase ≤ va) :
    s.localTarget c va acc = if va < identBase + 64 ∧ acc = .read then .ok (.ident (va - identBase)) none
      else .fault pageFaultCode localReason := by
  have windows : windowBase ≤ identBase := by decide
  rw [State.localTarget, if_neg (by omega), if_neg (by omega)]

theorem State.resolve_ident (s : State) (c : Nat) {ea : Word} (acc : Acc) (h : identBase ≤ ea.toNat % 2 ^ 42) :
    s.resolve c ea acc = if ea.toNat % 2 ^ 42 < identBase + 64 ∧ acc = .read then .ok (.ident (ea.toNat % 2 ^ 42 - identBase)) none
      else .fault pageFaultCode localReason := by
  have base : localBase ≤ identBase := by decide
  rw [s.resolve_local c acc (base.trans h), s.localTarget_ident c acc h]

theorem identityLine_holds : identityLine := by
  refine ⟨fun d => identLine_bytes, fun s c ea from_ below => ?_, fun s c ea acc beyond => ?_⟩
  · rw [s.resolve_ident c .read from_, s.resolve_ident c .write from_, if_pos ⟨below, rfl⟩, if_neg (by simp)]
    exact ⟨rfl, rfl⟩
  · rw [s.resolve_ident c acc (le_trans (by decide) beyond), if_neg fun inside => absurd (lt_of_lt_of_le inside.1 beyond) (lt_irrefl _)]
    rfl

/-- Settles O55: the places are sums of the sizes that the partition word gives, and the identity line is the one place of its region. -/
theorem localRegion : Obligations.LocalRegion := ⟨poolLayout_holds, identityLine_holds⟩

end Sys2Proof.Machine
end

section
/-!
PROOF. What loads and stores leave unchanged as they issue (R143, R144, R146 to R149, R265).
-/

set_option Elab.async false
namespace Sys2Proof.Machine
open Claims

/-! ## What a read of a place draws -/

/-- Only free values, serial numbers and the tags of the readback view differ. -/
def State.Drawn (s t : State) : Prop :=
  ∃ fresh vfs serial lastTag, t = { s with fresh := fresh, vfs := vfs, serial := serial, lastTag := lastTag }

theorem State.Drawn.refl (s : State) : s.Drawn s := ⟨_, _, _, _, rfl⟩

theorem State.Drawn.trans {s t u : State} : s.Drawn t → t.Drawn u → s.Drawn u := by
  rintro ⟨_, _, _, _, rfl⟩ ⟨_, _, _, _, rfl⟩
  exact ⟨_, _, _, _, rfl⟩

theorem State.drawn_draw (s : State) : s.Drawn s.draw.2 := ⟨_, _, _, _, rfl⟩

theorem State.Drawn.lastTag {s t : State} (h : s.Drawn t) (l : Sparse (BitVec 128 × BitVec 32)) : s.Drawn { t with lastTag := l } := by
  obtain ⟨_, _, _, _, rfl⟩ := h
  exact ⟨_, _, _, _, rfl⟩

theorem State.Drawn.snd {α : Type} {a : α} {s t : State} (h : s.Drawn t) : s.Drawn (a, t).2 := h

theorem State.drawn_takeSerial (s : State) (fn : Nat) : s.Drawn (s.takeSerial fn).2 := by
  unfold State.takeSerial
  split <;> exact ⟨_, _, _, _, rfl⟩

theorem State.drawn_readbackLine (s : State) (fn line : Nat) : s.Drawn (s.readbackLine fn line).2 := by
  unfold State.readbackLine
  extract_lets cls d unit plain drawn key
  split
  · exact .snd s.drawn_draw
  · split
    · have serial := s.drawn_draw.trans (s.draw.2.drawn_takeSerial fn)
      exact State.Drawn.snd (serial.lastTag _)
    · exact .snd (s.drawn_draw.trans s.draw.2.drawn_draw)

theorem State.Drawn.viewLines {s : State} (fn : Nat) (ls : List Nat) : ∀ r : List Byte × State, s.Drawn r.2 →
    s.Drawn (ls.foldl (fun (r : List Byte × State) l => let v := r.2.readbackLine fn (apertureOf l); (r.1 ++ v.1, v.2)) r).2 := by
  induction ls with
  | nil => exact fun _ h => h
  | cons l ls ih =>
    intro r h
    rw [List.foldl_cons]
    exact ih _ (.snd (h.trans (r.2.drawn_readbackLine fn (apertureOf l))))

theorem State.drawn_viewBytes (s : State) (fn pa n : Nat) : s.Drawn (s.viewBytes fn pa n).2 := by
  unfold State.viewBytes
  split
  · exact .snd s.drawn_draw
  · exact .snd (.viewLines fn _ ([], s) (.refl s))

theorem State.drawn_readTarget (s : State) (d t : Nat) (w : StrandName) (tgt : Target) (n : Nat) : s.Drawn (s.readTarget d t w tgt n).2 := by
  cases tgt with
  | readback pa => exact s.drawn_viewBytes _ pa n
  | outside a => exact s.drawn_draw
  | _ => exact .refl s

theorem State.drawn_readOwn (s : State) (c n seq : Nat) (tgt : Target) (size : Nat) : s.Drawn (s.readOwn c n seq tgt size).2 :=
  s.drawn_readTarget ..

theorem State.Drawn.readAll {s : State} (c n : Nat) (p : KeptElem → Bool) (es : List KeptElem) :
    ∀ {t : State}, s.Drawn t → s.Drawn (t.readAll c n p es).2 := by
  induction es with
  | nil => exact id
  | cons e es ih =>
    intro t h
    refine ih ?_
    split
    · exact h
    · exact h.trans (t.drawn_readOwn c n (t.strand c n).nextSeq e.target 4)

theorem State.Drawn.kept {s t : State} : s.Drawn t → s.Kept t := by
  rintro ⟨_, _, _, _, rfl⟩
  exact .of_eq rfl rfl rfl rfl rfl

/-! ## What an access puts in flight -/

/-- Streams, results in flight, blocks and what a gather keeps are not part of what stays. -/
theorem Strand.same_flight (t : Strand) {streams vstreams pend blocks gather} : Strand.Same t
    { t with streams := streams, vstreams := vstreams, pend := pend, blocks := blocks, gather := gather } :=
  ⟨rfl, rfl, rfl, rfl, rfl, rfl, rfl, rfl, rfl, rfl, rfl⟩

/-- An access as it issues: memory, registers, lanes, files, places and commands stay, and the results that it puts in flight have writes
of one kind. -/
structure State.Issues (p : Write → Prop) (s t : State) : Prop where
  kept : s.Kept t
  cmds : t.cmds = s.cmds
  pend : ∀ q ∈ t.me.pend, q ∈ s.me.pend ∨ p q.write

section
variable {p : Write → Prop} {s u : State}

theorem State.Issues.refl (s : State) : s.Issues p s := ⟨.refl s, rfl, fun _ h => .inl h⟩

theorem State.Issues.of_pend_eq (kept : s.Kept u) (cmds : u.cmds = s.cmds) (pend : u.me.pend = s.me.pend) : s.Issues p u :=
  ⟨kept, cmds, fun _ h => .inl (pend ▸ h)⟩

variable (h : s.Issues p u)
include h

theorem State.Issues.trans {t : State} (k : u.Issues p t) : s.Issues p t :=
  ⟨h.kept.trans k.kept, k.cmds.trans h.cmds, fun q mem => (k.pend q mem).elim (h.pend q) .inr⟩

theorem State.Issues.src (a : BitVec 6) : s.Issues p (u.src a).2 :=
  h.trans (.of_pend_eq (State.Reads.src u a).kept (State.Reads.src u a).cmds (State.Reads.src u a).pend)

theorem State.Issues.src2 (a b : BitVec 6) : s.Issues p (u.src2 a b).2 := (h.src a).src b

theorem State.Issues.noteAccess (c : Nat) (ea : Word) (acc : Acc) : s.Issues p (u.noteAccess c ea acc) := by
  have caches := u.cachesOnly_noteAccess c ea acc
  have rest : (u.noteAccess c ea acc).hostMem = u.hostMem ∧ (u.noteAccess c ea acc).cmds = u.cmds := by
    unfold State.noteAccess State.noteTlb
    dsimp only
    split
    · exact ⟨rfl, rfl⟩
    · split <;> exact ⟨rfl, rfl⟩
  refine h.trans (.of_pend_eq ⟨State.noteAccess_hbm .., rest.1, congrArg Issue.core caches.issue, congrArg Issue.strand caches.issue,
    fun e => ?_, fun e n _ => congrArg Strand.pend (caches.strand e n)⟩ rest.2 (congrArg Strand.pend caches.me))
  have strands := caches.strand e
  obtain ⟨l, same⟩ := caches.core e
  refine ⟨by rw [same], by rw [same], by rw [same], fun n => ?_⟩
  have strand : (u.core e).strand n = ((u.noteAccess c ea acc).core e).strand n := (strands n).symm
  rw [strand]
  exact .refl _

theorem State.Issues.drawn {t : State} (k : u.Drawn t) : s.Issues p t := by
  refine h.trans (.of_pend_eq k.kept ?_ ?_) <;> obtain ⟨_, _, _, _, rfl⟩ := k <;> rfl

theorem State.Issues.modMe {f : Strand → Strand} (same : Strand.Same u.me (f u.me)) (new : ∀ q ∈ (f u.me).pend, q ∈ u.me.pend ∨ p q.write) :
    s.Issues p (u.modMe f) :=
  h.trans ⟨.modMe u _ same, rfl, fun q mem => new q (by rwa [u.me_modMe] at mem)⟩

/-- The issuing strand puts a result in flight. -/
theorem State.Issues.send {f : Strand → Strand} {q : Pending} (same : Strand.Same u.me (f u.me)) (added : (f u.me).pend = u.me.pend ++ [q])
    (kind : p q.write) : s.Issues p (u.modMe f) :=
  h.modMe same fun r mem => by
    rw [added] at mem
    exact (List.mem_append.1 mem).imp id fun last => by rw [List.mem_singleton.1 last]; exact kind

theorem State.Issues.result (l : Nat) (w : Write) (m : Bool) (rs : List StatRecord) (kind : p w) : s.Issues p (u.result l w m rs) :=
  h.send (Strand.same_flight _) rfl kind

theorem State.Issues.consumed (m : Bool) (kind : p .none) : s.Issues p (u.consumed m) := by
  unfold State.consumed
  split
  · exact h.result _ _ _ _ kind
  · exact h

theorem State.Issues.modMyCore {f : Core → Core} (same : ∀ k, (f k).pool = k.pool ∧ (f k).tris = k.tris ∧ (f k).scale = k.scale ∧
    (f k).strands = k.strands) : s.Issues p (u.modMyCore f) :=
  h.trans (.of_pend_eq (.modMyCore u _ same) rfl (congrArg Strand.pend (u.me_modMyCore _ (same _).2.2.2)))

theorem State.Issues.nextId {n : Nat} : s.Issues p { u with nextId := n } :=
  h.trans (.of_pend_eq (.of_eq rfl rfl rfl rfl rfl) rfl rfl)

/-- Something is put on its way from the issuing strand's core. -/
theorem State.Issues.dispatch {f : Core → Core} {n : Nat} (same : ∀ k, (f k).pool = k.pool ∧ (f k).tris = k.tris ∧ (f k).scale = k.scale ∧
    (f k).strands = k.strands) : s.Issues p { u.modMyCore f with nextId := n } := (h.modMyCore same).nextId

/-- With it a result in flight. -/
theorem State.Issues.dispatchLoad {f : Core → Core} {g : Strand → Strand} {q : Pending} {n : Nat}
    (same : ∀ k, (f k).pool = k.pool ∧ (f k).tris = k.tris ∧ (f k).scale = k.scale ∧ (f k).strands = k.strands)
    (same' : Strand.Same (u.modMyCore f).me (g (u.modMyCore f).me)) (added : (g (u.modMyCore f).me).pend = (u.modMyCore f).me.pend ++ [q])
    (kind : p q.write) : s.Issues p { (u.modMyCore f).modMe g with nextId := n } := ((h.modMyCore same).send same' added kind).nextId

theorem State.Issues.foldl {β : Type} {step : State → β → State} (l : List β)
    (each : ∀ v b, s.Issues p v → s.Issues p (step v b)) : s.Issues p (l.foldl step u) := by
  induction l generalizing u with
  | nil => exact h
  | cons b l ih => exact ih (each u b h)

theorem State.Issues.poolStore (l off : Nat) (bs : List Byte) (m window : Bool) : s.Issues p (u.poolStore l off bs m window) :=
  h.modMyCore fun _ => ⟨rfl, rfl, rfl, rfl⟩

theorem State.Issues.postStore (ea : Word) (tgt : Target) (bs : List Byte) (m : Bool) : s.Issues p (u.postStore ea tgt bs m) := by
  unfold State.postStore
  dsimp only
  split
  · exact h
  · exact h.dispatch fun _ => ⟨rfl, rfl, rfl, rfl⟩

theorem State.Issues.addBlock (b : Block) : s.Issues p (u.addBlock b) :=
  h.modMe (Strand.same_flight _) fun _ => .inl

/-- The record of the lines or elements that lie in the hole (R124). -/
theorem State.Issues.holes (l n : Nat) (kind : p .none) : s.Issues p (if n = 0 then u else u.result l .none false [u.record 7 n 0]) := by
  split
  · exact h
  · exact h.result _ _ _ _ kind

end

/-- In an admitted bundle an access has its effect. -/
theorem issueWith_issues {p : Write → Prop} {i : Instr} {s t : State} {checks : State → Checks} {effect : State → State}
    (admitted : s.issue.admitted = true) (next : issueWith i s checks effect = .next t) (h : s.Issues p (effect s)) : s.Issues p t := by
  rw [issueWith_admitted admitted] at next
  cases next
  exact h

/-! ## Loads -/

/-- The writes of a load's results. -/
def loadWrites (i : Instr) (w : Write) : Prop :=
  w = .none ∨ (∃ lg r v m, w = .vec lg r v m) ∨ ∃ r v, w = .x r v ∧ (r ∈ i.dests ∨ r = 0)

section
variable {i : Instr} {s t : State} (admitted : s.issue.admitted = true)
include admitted

theorem load_issues {x a : BitVec 6} {d : BitVec 10} {n : Nat} {sg : Bool} (dest : x ∈ i.dests ∨ x = 0)
    (next : load i x a d n sg s = .next t) : s.Issues (loadWrites i) t := by
  have kind : ∀ v, (loadWrites i) (.x x v) := fun v => .inr (.inr ⟨x, v, rfl, dest⟩)
  refine issueWith_issues admitted next ?_
  extract_lets p ea mark r noted id late
  have read : s.Issues (loadWrites i) noted := ((State.Issues.refl s).src a).noteAccess _ _ _
  have later : ∀ tgt pg, s.Issues (loadWrites i) (late tgt pg) := fun tgt pg =>
    read.dispatchLoad (fun _ => ⟨rfl, rfl, rfl, rfl⟩) (Strand.same_flight _) rfl (kind 0)
  clear_value r late noted
  cases r with
  | ok tgt pg =>
    dsimp only
    split
    · cases tgt <;> exact read.result _ _ _ _ (kind _)
    · cases tgt with
      | ident off => exact read.result _ _ _ _ (kind _)
      | _ => exact later _ _
  | _ => exact read

theorem spinw_issues {d a : BitVec 6} {c : BitVec 3} (next : execSpinw d a c s = .next t) : s.Issues (loadWrites i) t := by
  refine issueWith_issues admitted next ?_
  extract_lets cmp mark p ea r noted id
  have read : s.Issues (loadWrites i) noted := ((State.Issues.refl s).src a).noteAccess _ _ _
  clear_value r noted
  cases r with
  | ok tgt pg =>
    exact read.dispatchLoad (fun _ => ⟨rfl, rfl, rfl, rfl⟩) ⟨rfl, rfl, rfl, rfl, rfl, rfl, rfl, rfl, rfl, rfl, rfl⟩ rfl (.inl rfl)
  | _ => exact read

theorem vload_issues {w : BitVec 7} {a : BitVec 6} {m : BitVec 8} {o : BitVec 5} {strided : Bool} (next : vload i w a m o strided s = .next t) :
    s.Issues (loadWrites i) t := by
  refine issueWith_issues admitted next ?_
  extract_lets p read lines holes loaded recorded
  have sent : s.Issues (loadWrites i) loaded := ((State.Issues.refl s).src a).foldl lines fun v l h =>
    h.result _ _ _ _ (.inr (.inl ⟨_, _, _, _, rfl⟩))
  exact (sent.holes 6 holes (.inl rfl)).foldl _ fun v lg h => h.addBlock _

theorem gather_issues {lgs : List Nat} {w wi : BitVec 7} {a : BitVec 6} {sc : BitVec 2} {l : Nat} (next : gather i lgs w wi a sc l s = .next t) :
    s.Issues (loadWrites i) t := by
  refine issueWith_issues admitted next ?_
  extract_lets p imark addrs waited elems noted r es read holes recorded id kept added sent
  have noted_ : s.Issues (loadWrites i) noted := ((State.Issues.refl s).src a).foldl addrs fun v e h => h.noteAccess _ _ _
  have cleared := noted_.modMe (f := fun t => { t with gather := none }) (Strand.same_flight _) fun _ => .inl
  have read_ : s.Issues (loadWrites i) read := cleared.drawn (.readAll _ _ _ elems (.refl _))
  have recorded_ : s.Issues (loadWrites i) recorded := read_.holes l holes (.inl rfl)
  clear_value recorded id kept
  have added_ : s.Issues (loadWrites i) added := recorded_.modMyCore fun _ => ⟨rfl, rfl, rfl, rfl⟩
  split
  · exact recorded_.foldl lgs fun v lg h => h.result _ _ _ _ (.inr (.inl ⟨_, _, _, _, rfl⟩))
  · have sent_ : s.Issues (loadWrites i) sent := by
      refine added_.foldl lgs fun v lg h => ?_
      exact h.send (Strand.same_flight _) rfl (.inr (.inl ⟨_, _, _, _, rfl⟩))
    exact sent_.nextId

theorem vpop_issues {w : BitVec 7} {k : BitVec 2} {m : BitVec 8} (next : execVpop w k m s = .next t) : s.Issues (loadWrites i) t := by
  refine issueWith_issues admitted next ?_
  refine (State.Issues.refl s).foldl _ fun v lg h => ?_
  dsimp only
  split
  · exact h
  · exact State.Issues.result (h.modMe (Strand.same_flight _) fun _ => .inl) _ _ _ _ (.inr (.inl ⟨_, _, _, _, rfl⟩))

end

theorem isLoad_issues {i : Instr} {s t : State} (admitted : s.issue.admitted = true) (only : isLoad i = true) (next : exec i s = .next t) :
    s.Issues (loadWrites i) t := by
  unfold isLoad at only
  split at only
  · exact load_issues admitted (dest_named _) (exec_ldb .. ▸ next)
  · exact load_issues admitted (dest_named _) (exec_ldbu .. ▸ next)
  · exact load_issues admitted (dest_named _) (exec_ldh .. ▸ next)
  · exact load_issues admitted (dest_named _) (exec_ldhu .. ▸ next)
  · exact load_issues admitted (dest_named _) (exec_ldw .. ▸ next)
  · exact load_issues admitted (dest_named _) (exec_ldwu .. ▸ next)
  · exact load_issues admitted (dest_named _) (exec_ldd .. ▸ next)
  · exact vload_issues admitted (exec_vld .. ▸ next)
  · exact vload_issues admitted (exec_vlds .. ▸ next)
  · exact gather_issues admitted (exec_vgather .. ▸ next)
  · exact gather_issues admitted (exec_vgatherAll .. ▸ next)
  · exact vpop_issues admitted (exec_vpop .. ▸ next)
  · exact spinw_issues admitted (exec_spinw .. ▸ next)
  · cases only

theorem loadFrame_holds : loadFrame := fun _ _ _ admitted only next =>
  let a := isLoad_issues admitted only next
  ⟨a.kept.sameMemory, a.kept.sameRegisters, a.kept.sameControl, a.kept.sameLanes, a.kept.sameFiles, a.kept.samePlace, a.kept.sameOthers,
    a.cmds, a.pend⟩

/-! ## Stores -/

section
variable {i : Instr} {s t : State} (admitted : s.issue.admitted = true)
include admitted

theorem store_issues {x a : BitVec 6} {d : BitVec 10} {n : Nat} (next : store i x a d n s = .next t) : s.Issues (· = .none) t := by
  refine issueWith_issues admitted next ?_
  extract_lets p ea bytes mark r noted
  have read : s.Issues (· = .none) noted := (((State.Issues.refl s).src2 x a).noteAccess _ _ _).consumed _ rfl
  clear_value r noted
  cases r with
  | ok tgt pg =>
    cases tgt with
    | pool c off =>
      dsimp only
      split
      · exact read.poolStore ..
      · split
        · exact read.poolStore ..
        · exact read.postStore ..
    | hole => exact read.result _ _ _ _ rfl
    | _ => exact read.postStore ..
  | _ => exact read

theorem vstore_issues {w : BitVec 7} {a : BitVec 6} {m : BitVec 8} {o : BitVec 5} {strided : Bool} (next : vstore i w a m o strided s = .next t) :
    s.Issues (· = .none) t := by
  refine issueWith_issues admitted next ?_
  extract_lets p read lines holes recorded
  have consumed : s.Issues (· = .none) read := ((State.Issues.refl s).src a).consumed _ rfl
  exact (consumed.holes 6 holes rfl).foldl _ fun v lg h => h.addBlock _

theorem scatter_issues {lgs : List Nat} {w wi : BitVec 7} {a : BitVec 6} {sc : BitVec 2} {l : Nat} (next : scatter i lgs w wi a sc l s = .next t) :
    s.Issues (· = .none) t := by
  refine issueWith_issues admitted next ?_
  extract_lets p addrs es noted cleared holes recorded consumed
  have noted_ : s.Issues (· = .none) noted := ((State.Issues.refl s).src a).foldl addrs fun v e h => h.noteAccess _ _ _
  have cleared_ : s.Issues (· = .none) cleared :=
    noted_.modMe (Strand.same_flight _) fun _ => .inl
  refine ((cleared_.holes l holes rfl).consumed _ rfl).foldl addrs fun v e h => ?_
  dsimp only
  split
  · exact h
  · split
    · split
      · exact h.poolStore ..
      · split
        · exact h.poolStore ..
        · exact h.postStore ..
    · exact h
    · exact h.postStore ..

end

theorem isStore_issues {i : Instr} {s t : State} (admitted : s.issue.admitted = true) (only : isStore i = true) (next : exec i s = .next t) :
    s.Issues (· = .none) t := by
  unfold isStore at only
  split at only
  · exact store_issues admitted (exec_stb .. ▸ next)
  · exact store_issues admitted (exec_sth .. ▸ next)
  · exact store_issues admitted (exec_stw .. ▸ next)
  · exact store_issues admitted (exec_std .. ▸ next)
  · exact vstore_issues admitted (exec_vst .. ▸ next)
  · exact vstore_issues admitted (exec_vsts .. ▸ next)
  · exact scatter_issues admitted (exec_vscatter .. ▸ next)
  · exact scatter_issues admitted (exec_vscatterAll .. ▸ next)
  · cases only

theorem storeFrame_holds : storeFrame := fun _ _ _ admitted only next =>
  let a := isStore_issues admitted only next
  ⟨a.kept.sameMemory, a.kept.sameRegisters, a.kept.sameControl, a.kept.sameLanes, a.kept.sameFiles, a.kept.samePlace, a.kept.sameOthers,
    a.cmds, a.pend⟩

/-- Settles O57: an access reads its sources, notes the caches, and puts what it loads or stores on its way. -/
theorem accessFrame : Obligations.AccessFrame := ⟨loadFrame_holds, storeFrame_holds⟩

end Sys2Proof.Machine
end

section
/-!
PROOF. What an access reads is what stood before it, and the scalar stores (R138, R143, R144, R265, R270, R326).
-/

set_option Elab.async false
namespace Sys2Proof.Machine
open Claims

/-! ## What the parts of an access do not change -/

/-- Beside the stores, loads and line writes of cores only caches differ, values drawn, and of the issuing strand its streams, its blocks,
its results in flight and what a gather keeps. -/
structure State.Steady (s t : State) : Prop where
  issue : ∃ popped, t.issue = { s.issue with popped := popped }
  parts : t.parts = s.parts
  die : ∀ d, ∃ l, t.die d = { s.die d with stlb := l }
  core : ∀ c, ∃ strands utlb loads stores poolWrites, t.core c =
    { s.core c with strands := strands, utlb := utlb, loads := loads, stores := stores, poolWrites := poolWrites }
  me : ∃ streams vstreams pend blocks gather, t.me =
    { s.me with streams := streams, vstreams := vstreams, pend := pend, blocks := blocks, gather := gather }

/-- Nothing is put on its way either. -/
structure State.Noted (s t : State) : Prop extends s.Steady t where
  nextId : t.nextId = s.nextId
  loads : ∀ c, (t.core c).loads = (s.core c).loads
  stores : ∀ c, (t.core c).stores = (s.core c).stores
  poolWrites : ∀ c, (t.core c).poolWrites = (s.core c).poolWrites

theorem State.Steady.of_eq {s t : State} (issue : t.issue = s.issue) (parts : t.parts = s.parts) (dies : t.dies = s.dies)
    (cores : t.cores = s.cores) : s.Steady t := by
  have die : ∀ d, t.die d = s.die d := fun d => by rw [State.die, State.die, dies]
  have core : ∀ c, t.core c = s.core c := fun c => by rw [State.core, State.core, cores]
  have me : t.me = s.me := by simp only [State.me, State.strand, issue, core]
  exact ⟨⟨_, issue.trans rfl⟩, parts, fun d => ⟨_, (die d).trans rfl⟩, fun c => ⟨_, _, _, _, _, (core c).trans rfl⟩,
    ⟨_, _, _, _, _, me.trans rfl⟩⟩

theorem State.Steady.refl (s : State) : s.Steady s := .of_eq rfl rfl rfl rfl

theorem State.Steady.trans {s t u : State} (h : s.Steady t) (k : t.Steady u) : s.Steady u := by
  obtain ⟨⟨_, issue⟩, parts, die, core, ⟨_, _, _, _, _, me⟩⟩ := h
  obtain ⟨⟨_, issue'⟩, parts', die', core', ⟨_, _, _, _, _, me'⟩⟩ := k
  refine ⟨⟨_, by rw [issue', issue]⟩, parts'.trans parts, fun d => ?_, fun c => ?_, ⟨_, _, _, _, _, by rw [me', me]⟩⟩
  · obtain ⟨_, same⟩ := die d
    obtain ⟨_, same'⟩ := die' d
    exact ⟨_, by rw [same', same]⟩
  · obtain ⟨_, _, _, _, _, same⟩ := core c
    obtain ⟨_, _, _, _, _, same'⟩ := core' c
    exact ⟨_, _, _, _, _, by rw [same', same]⟩

theorem State.Noted.refl (s : State) : s.Noted s := ⟨.refl s, rfl, fun _ => rfl, fun _ => rfl, fun _ => rfl⟩

theorem State.Noted.trans {s t u : State} (h : s.Noted t) (k : t.Noted u) : s.Noted u :=
  ⟨h.toSteady.trans k.toSteady, k.nextId.trans h.nextId, fun c => (k.loads c).trans (h.loads c), fun c => (k.stores c).trans (h.stores c),
    fun c => (k.poolWrites c).trans (h.poolWrites c)⟩

/-! ## The operations -/

section
variable {s u : State}

/-- An update of the issuing strand's streams, blocks, results in flight or kept elements. -/
theorem State.noted_modMe (u : State) (f : Strand → Strand) (only : ∃ streams vstreams pend blocks gather, f u.me =
    { u.me with streams := streams, vstreams := vstreams, pend := pend, blocks := blocks, gather := gather }) : u.Noted (u.modMe f) := by
  refine ⟨⟨⟨_, rfl⟩, rfl, fun _ => ⟨_, rfl⟩, fun c => ?_, by rwa [u.me_modMe]⟩, rfl, fun c => ?_, fun c => ?_, fun c => ?_⟩ <;>
    obtain ⟨_, same⟩ := u.core_modMe f c <;> rw [same]
  exact ⟨_, _, _, _, _, rfl⟩

theorem State.noted_noteAccess (u : State) (c : Nat) (ea : Word) (acc : Acc) : u.Noted (u.noteAccess c ea acc) := by
  have caches := u.cachesOnly_noteAccess c ea acc
  have rest : (u.noteAccess c ea acc).parts = u.parts ∧ ∀ d, ∃ l, (u.noteAccess c ea acc).die d = { u.die d with stlb := l } := by
    unfold State.noteAccess State.noteTlb
    dsimp only
    split
    · exact ⟨rfl, fun _ => ⟨_, rfl⟩⟩
    · split
      · next e _ _ =>
        refine ⟨rfl, fun d => ?_⟩
        by_cases own : d = coreDie c
        · subst own
          exact ⟨_, u.draw.2.die_modDie (coreDie c) fun k => { k with stlb := cacheInsert u.draw.1 8192 k.stlb e }⟩
        · exact ⟨_, u.draw.2.die_modDie_ne (fun k => { k with stlb := cacheInsert u.draw.1 8192 k.stlb e }) own⟩
      · exact ⟨rfl, fun _ => ⟨_, rfl⟩⟩
  refine ⟨⟨⟨_, caches.issue⟩, rest.1, rest.2, fun e => ?_, ⟨_, _, _, _, _, caches.me⟩⟩, caches.nextId, fun e => ?_, fun e => ?_,
    fun e => ?_⟩ <;> obtain ⟨_, same⟩ := caches.core e <;> rw [same]
  exact ⟨_, _, _, _, _, rfl⟩

theorem State.noted_src (u : State) (a : BitVec 6) : u.Noted (u.src a).2 := by
  obtain same | ⟨streams, popped, pops⟩ := u.src_cases a
  · rw [same]
    exact .refl u
  · rw [pops]
    obtain ⟨⟨-, parts, die, core, me⟩, nextId, loads, stores, poolWrites⟩ :=
      u.noted_modMe (fun t => { t with streams := streams }) ⟨_, _, _, _, _, rfl⟩
    exact ⟨⟨⟨_, rfl⟩, parts, die, core, me⟩, nextId, loads, stores, poolWrites⟩

theorem State.noted_src2 (u : State) (a b : BitVec 6) : u.Noted (u.src2 a b).2 := (u.noted_src a).trans (State.noted_src _ b)

theorem State.noted_result (u : State) (l : Nat) (w : Write) (m : Bool) (rs : List StatRecord) : u.Noted (u.result l w m rs) :=
  u.noted_modMe _ ⟨_, _, _, _, _, rfl⟩

theorem State.noted_consumed (u : State) (m : Bool) : u.Noted (u.consumed m) := by
  unfold State.consumed
  split
  · exact u.noted_result ..
  · exact .refl u

theorem State.Drawn.noted {t : State} : u.Drawn t → u.Noted t := by
  rintro ⟨_, _, _, _, rfl⟩
  exact ⟨.of_eq rfl rfl rfl rfl, rfl, fun _ => rfl, fun _ => rfl, fun _ => rfl⟩

theorem State.Noted.foldl {β : Type} {step : State → β → State} (each : ∀ (v : State) b, v.Noted (step v b)) (l : List β) :
    ∀ u : State, u.Noted (l.foldl step u) := by
  induction l with
  | nil => exact .refl
  | cons b l ih => exact fun u => (each u b).trans (ih _)

/-- An update of the loads, stores and line writes of the issuing strand's core. -/
theorem State.steady_modMyCore (u : State) (f : Core → Core) (only : ∃ loads stores poolWrites, f u.myCore =
    { u.myCore with loads := loads, stores := stores, poolWrites := poolWrites }) : u.Steady (u.modMyCore f) := by
  obtain ⟨_, _, _, only⟩ := only
  refine ⟨⟨_, rfl⟩, rfl, fun _ => ⟨_, rfl⟩, fun c => ?_, ⟨_, _, _, _, _, u.me_modMyCore f (by rw [only])⟩⟩
  by_cases own : c = u.issue.core
  · subst own
    exact ⟨_, _, _, _, _, (u.core_modCore _ f).trans only⟩
  · exact ⟨_, _, _, _, _, u.core_modCore_ne f own⟩

theorem State.steady_nextId (u : State) (n : Nat) : u.Steady { u with nextId := n } := .of_eq rfl rfl rfl rfl

theorem State.steady_poolStore (u : State) (l off : Nat) (bs : List Byte) (m window : Bool) : u.Steady (u.poolStore l off bs m window) :=
  u.steady_modMyCore _ ⟨_, _, _, rfl⟩

theorem State.steady_postStore (u : State) (ea : Word) (tgt : Target) (bs : List Byte) (m : Bool) : u.Steady (u.postStore ea tgt bs m) := by
  unfold State.postStore
  dsimp only
  split
  · exact .refl u
  · exact (u.steady_modMyCore _ ⟨_, _, _, rfl⟩).trans (State.steady_nextId _ _)

end

/-! ## What stays -/

section
variable {s t : State} (h : s.Steady t)
include h

theorem State.Steady.issueCore : t.issue.core = s.issue.core := by obtain ⟨_, same⟩ := h.issue; rw [same]
theorem State.Steady.issueStrand : t.issue.strand = s.issue.strand := by obtain ⟨_, same⟩ := h.issue; rw [same]
theorem State.Steady.time : t.me.time = s.me.time := by obtain ⟨_, _, _, _, _, same⟩ := h.me; rw [same]
theorem State.Steady.nextSeq : t.me.nextSeq = s.me.nextSeq := by obtain ⟨_, _, _, _, _, same⟩ := h.me; rw [same]
theorem State.Steady.ctl : t.me.ctl = s.me.ctl := by obtain ⟨_, _, _, _, _, same⟩ := h.me; rw [same]
theorem State.Steady.lane (lg : Nat) : t.me.lane lg = s.me.lane lg := by obtain ⟨_, _, _, _, _, same⟩ := h.me; rw [same]; rfl
theorem State.Steady.condemned : t.me.condemned = s.me.condemned := by obtain ⟨_, _, _, _, _, same⟩ := h.me; rw [same]

theorem State.Steady.myCore : ∃ strands utlb loads stores poolWrites, t.myCore =
    { s.myCore with strands := strands, utlb := utlb, loads := loads, stores := stores, poolWrites := poolWrites } := by
  unfold State.myCore
  rw [h.issueCore]
  exact h.core _

theorem State.Steady.mtime : t.myCore.mtime = s.myCore.mtime := by obtain ⟨_, _, _, _, _, same⟩ := h.myCore; rw [same]
theorem State.Steady.issued : t.myCore.issued = s.myCore.issued := by obtain ⟨_, _, _, _, _, same⟩ := h.myCore; rw [same]
theorem State.Steady.part : t.myCore.part = s.myCore.part := by obtain ⟨_, _, _, _, _, same⟩ := h.myCore; rw [same]
theorem State.Steady.pool : t.myCore.pool = s.myCore.pool := by obtain ⟨_, _, _, _, _, same⟩ := h.myCore; rw [same]
theorem State.Steady.line (a : Nat) : t.myCore.line a = s.myCore.line a := by obtain ⟨_, _, _, _, _, same⟩ := h.myCore; rw [same]; rfl
theorem State.Steady.vreg (lg n r : Nat) : t.myCore.vreg lg n r = s.myCore.vreg lg n r := by
  rw [Core.vreg, Core.vreg, h.part, h.line]
theorem State.Steady.poolRead (c off n : Nat) : (t.core c).poolRead off n = (s.core c).poolRead off n := by
  obtain ⟨_, _, _, _, _, same⟩ := h.core c; rw [same]; rfl

theorem State.Steady.placeOf (c : Nat) : t.placeOf c = s.placeOf c := by rw [State.placeOf, State.placeOf, h.parts]
theorem State.Steady.team (d k : Nat) : t.team d k = s.team d k := by
  obtain ⟨_, same⟩ := h.die d
  rw [State.team, State.team, same]; rfl
theorem State.Steady.teamAt (c : Nat) : t.teamAt c = s.teamAt c := by
  obtain ⟨_, same⟩ := h.die (coreDie c)
  simp only [State.teamAt, State.teamOn, h.placeOf, same]
theorem State.Steady.nameOf (c n : Nat) : t.nameOf c n = s.nameOf c n := by
  simp only [State.nameOf, State.logicalCluster, h.placeOf]
theorem State.Steady.myDie : t.myDie = s.myDie := by rw [State.myDie, State.myDie, h.issueCore]
theorem State.Steady.conductorCore (p d : Nat) : t.conductorCore p d = s.conductorCore p d := by
  simp only [State.conductorCore, State.clustersOn, State.physCore, State.part, h.parts]
theorem State.Steady.meConductor : t.meConductor = s.meConductor := by
  simp only [State.meConductor, State.isConductor, h.issueCore, h.issueStrand, h.placeOf, h.conductorCore]
theorem State.Steady.regCount : t.regCount = s.regCount := by rw [State.regCount, State.regCount, h.ctl]
theorem State.Steady.singleReg (lg : Nat) (w : BitVec 7) : t.singleReg lg w = s.singleReg lg w := by
  rw [State.singleReg, State.singleReg, h.lane, h.regCount]
theorem State.Steady.poolLine (off : Nat) : t.poolLine off = s.poolLine off := by rw [State.poolLine, State.poolLine, h.part]
theorem State.Steady.myVreg (lg r : Nat) : t.myVreg lg r = s.myVreg lg r := by
  rw [State.myVreg, State.myVreg, h.meConductor, h.issued, h.vreg, h.issueStrand]

/-- Whether a condemned strand's store is discarded (R326). -/
theorem State.Steady.discards (ea : Word) (id : Nat) :
    t.discards s.issue.core s.issue.strand ea id = s.discards s.issue.core s.issue.strand ea id := by
  have condemned : (t.strand s.issue.core s.issue.strand).condemned = (s.strand s.issue.core s.issue.strand).condemned := by
    have mine := h.condemned
    rwa [State.me, State.me, h.issueCore, h.issueStrand] at mine
  simp only [State.discards, condemned, h.team, h.teamAt, h.nameOf]

end

theorem State.Noted.myStores {s t : State} (h : s.Noted t) : t.myCore.stores = s.myCore.stores := by
  rw [State.myCore, State.myCore, h.issueCore, h.stores]
theorem State.Noted.myPoolWrites {s t : State} (h : s.Noted t) : t.myCore.poolWrites = s.myCore.poolWrites := by
  rw [State.myCore, State.myCore, h.issueCore, h.poolWrites]
theorem State.Noted.myLoads {s t : State} (h : s.Noted t) : t.myCore.loads = s.myCore.loads := by
  rw [State.myCore, State.myCore, h.issueCore, h.loads]

/-! ## Stores on their way (R144, R265) -/

/-- The line write that bytes for the own pool are put on their way as (R144; log 16). -/
def State.lineWrite (s : State) (l off : Nat) (bs : List Byte) (mark window : Bool) : PoolWrite :=
  { due := s.myCore.mtime + l, strand := s.issue.strand, seq := s.myCore.issued, off := off / 64 * 64,
    data := BitVec.ofNat 512 (ofBytes bs * 2 ^ (8 * (off - off / 64 * 64))),
    mask := BitVec.ofNat 64 ((2 ^ bs.length - 1) * 2 ^ (off - off / 64 * 64)), mark := mark, window := window }

theorem State.myCore_modMyCore (s : State) (f : Core → Core) : (s.modMyCore f).myCore = f s.myCore := s.core_modCore _ f

theorem State.poolWrites_poolStore (s : State) (l off : Nat) (bs : List Byte) (m window : Bool) :
    (s.poolStore l off bs m window).myCore.poolWrites = s.myCore.poolWrites ++ [s.lineWrite l off bs m window] :=
  congrArg Core.poolWrites (s.myCore_modMyCore _)

theorem State.stores_poolStore (s : State) (l off : Nat) (bs : List Byte) (m window : Bool) :
    (s.poolStore l off bs m window).myCore.stores = s.myCore.stores := by
  rw [State.poolStore, s.myCore_modMyCore]

/-- The store that bytes for any other place are put on their way as. -/
def State.posted (s : State) (ea : Word) (tgt : Target) (bs : List Byte) (mark : Bool) : Store :=
  { id := s.nextId, strand := s.issue.strand, seq := s.me.nextSeq, target := tgt, bytes := bs, mark := mark, va := ea
    holders := match tgt with
      | .hbm _ => s.holders s.issue.core s.issue.strand ea
      | _ => [] }

theorem State.stores_postStore (s : State) (ea : Word) (tgt : Target) (bs : List Byte) (m : Bool) :
    (s.postStore ea tgt bs m).myCore.stores =
      s.myCore.stores ++ if s.discards s.issue.core s.issue.strand ea then [] else [s.posted ea tgt bs m] := by
  unfold State.postStore
  dsimp only
  split
  · exact (List.append_nil _).symm
  · exact congrArg Core.stores (s.myCore_modMyCore fun k => { k with stores := k.stores ++ [s.posted ea tgt bs m] })

theorem State.poolWrites_postStore (s : State) (ea : Word) (tgt : Target) (bs : List Byte) (m : Bool) :
    (s.postStore ea tgt bs m).myCore.poolWrites = s.myCore.poolWrites := by
  unfold State.postStore
  dsimp only
  split
  · rfl
  · exact (congrArg Core.poolWrites (s.myCore_modMyCore fun k => { k with stores := k.stores ++ [s.posted ea tgt bs m] })).trans rfl

/-- Bytes on their way to the place that their address means: into the own scratchpad region after l cycles (R144, R148). -/
def State.sendBytes (s : State) (l : Nat) (ea : Word) (tgt : Target) (bs : List Byte) (mark : Bool) : State :=
  match tgt with
  | .pool c off =>
    if ownRegion ea then s.poolStore l off bs mark
    else if c = s.issue.core then s.poolStore windowLatency off bs mark true
    else s.postStore ea tgt bs mark
  | .hole => s
  | _ => s.postStore ea tgt bs mark

/-- The line write that they are then, for a place of the own pool. -/
def State.homeLine (s : State) (l : Nat) (ea : Word) (tgt : Target) (bs : List Byte) (mark : Bool) : Option PoolWrite :=
  match tgt with
  | .pool c off => if atHome s ea (.pool c off) then some (s.lineWrite (if ownRegion ea then l else windowLatency) off bs mark (!ownRegion ea))
    else none
  | _ => none

/-- The posted store that they are then, for any other place but the hole. -/
def State.farStore (s : State) (ea : Word) (tgt : Target) (bs : List Byte) (mark : Bool) : Option Store :=
  match tgt with
  | .hole => none
  | .pool c off => if atHome s ea (.pool c off) then none else some (s.posted ea (.pool c off) bs mark)
  | tgt => some (s.posted ea tgt bs mark)

theorem atHome_pool (s : State) (ea : Word) (c off : Nat) : atHome s ea (.pool c off) = (ownRegion ea || decide (c = s.issue.core)) := by
  rw [atHome, ownByte]
  split <;> simp [*]

theorem State.sendBytes_pool (s : State) (l : Nat) (ea : Word) (c off : Nat) (bs : List Byte) (mark : Bool) :
    s.sendBytes l ea (.pool c off) bs mark = if atHome s ea (.pool c off) then
      s.poolStore (if ownRegion ea then l else windowLatency) off bs mark (!ownRegion ea) else s.postStore ea (.pool c off) bs mark := by
  rw [atHome_pool, State.sendBytes]
  cases ownRegion ea
  · by_cases own : c = s.issue.core <;> simp [own]
  · rfl

theorem State.poolWrites_sendBytes (s : State) (l : Nat) (ea : Word) (tgt : Target) (bs : List Byte) (mark : Bool) :
    (s.sendBytes l ea tgt bs mark).myCore.poolWrites = s.myCore.poolWrites ++ (s.homeLine l ea tgt bs mark).toList := by
  cases tgt with
  | pool c off =>
    rw [s.sendBytes_pool, State.homeLine]
    split
    · exact s.poolWrites_poolStore ..
    · exact (s.poolWrites_postStore ..).trans (List.append_nil _).symm
  | hole => exact (List.append_nil _).symm
  | _ => exact (s.poolWrites_postStore ..).trans (List.append_nil _).symm

theorem State.stores_sendBytes (s : State) (l : Nat) (ea : Word) (tgt : Target) (bs : List Byte) (mark : Bool) :
    (s.sendBytes l ea tgt bs mark).myCore.stores =
      s.myCore.stores ++ if s.discards s.issue.core s.issue.strand ea then [] else (s.farStore ea tgt bs mark).toList := by
  have nothing : s.myCore.stores = s.myCore.stores ++ if s.discards s.issue.core s.issue.strand ea then [] else [] := by
    rw [ite_self, List.append_nil]
  cases tgt with
  | pool c off =>
    rw [s.sendBytes_pool, State.farStore]
    split
    · exact (s.stores_poolStore ..).trans nothing
    · exact s.stores_postStore ..
  | hole => exact nothing
  | _ => exact s.stores_postStore ..

theorem State.steady_sendBytes (s : State) (l : Nat) (ea : Word) (tgt : Target) (bs : List Byte) (mark : Bool) :
    s.Steady (s.sendBytes l ea tgt bs mark) := by
  cases tgt with
  | pool c off =>
    rw [s.sendBytes_pool]
    split
    · exact s.steady_poolStore ..
    · exact s.steady_postStore ..
  | hole => exact .refl s
  | _ => exact s.steady_postStore ..

theorem State.Steady.atHome {s t : State} (h : s.Steady t) (ea : Word) (tgt : Target) : Claims.atHome t ea tgt = Claims.atHome s ea tgt := by
  rw [Claims.atHome, Claims.atHome, h.issueCore]

/-! ## The scalar stores (R143, R144) -/

/-- A scalar store's bytes put on their way; one to the hole leaves a record instead (R124). -/
def State.stored (s : State) (ea : Word) (tgt : Target) (bs : List Byte) (mark : Bool) : State :=
  match tgt with
  | .hole => s.result 4 .none false [s.record 7 1 0]
  | tgt => s.sendBytes 4 ea tgt bs mark

/-- A store that `opens` names passes its checks. -/
theorem State.accessChecks_open_write {s : State} {ea : Word} {n : Nat} {tgt : Target} {pg : Option Nat} (h : opens s ea n .write tgt pg) :
    (s.accessChecks ea n .write).blocks = none ∧ (s.accessChecks ea n .write).holds = none ∧ (s.accessChecks ea n .write).faults = none := by
  obtain ⟨aligned, place, line, room, verdict⟩ := h
  rw [State.accessChecks, if_neg (not_not.2 aligned)]
  simp only [place, verdict]
  exact ⟨room rfl, line, trivial⟩

/-- A store that goes reads its sources, notes the caches and consumes their marks, before its bytes are put on their way. -/
def State.readied (s : State) (x a : BitVec 6) (ea : Word) : State :=
  ((s.src2 x a).2.noteAccess s.issue.core ea .write).consumed (s.src2 x a).1.2.2

theorem State.noted_readied (s : State) (x a : BitVec 6) (ea : Word) : (s.src2 x a).2.Noted (s.readied x a ea) :=
  (State.noted_noteAccess _ _ _ _).trans (State.noted_consumed _ _)

theorem store_completes {s : State} {i : Instr} {x a : BitVec 6} {disp : BitVec 10} {n : Nat} {tgt : Target} {pg : Option Nat}
    (hi : storeOf i = some (x, a, disp, n))
    (place : (s.src2 x a).2.resolve s.issue.core (addressOf (s.src2 x a).1.2.1 disp n) .write = .ok tgt pg) :
    Completes i s ((s.readied x a (addressOf (s.src2 x a).1.2.1 disp n)).stored (addressOf (s.src2 x a).1.2.1 disp n) tgt
      (bytesOf n (s.src2 x a).1.1.toNat) (s.src2 x a).1.2.2) (opens s (addressOf (s.srcPeek2 x a) disp n) n .write tgt pg) := by
  intro goes
  have core := (s.noted_src2 x a).issueCore
  rw [exec_of_storeOf hi, store, issueWith_goes goes fun go => State.accessChecks_open_write go]
  simp only [core, show lsAddress = addressOf from rfl, place]
  cases tgt <;> rfl

/-- Settles O23: a store that goes reads its sources, notes the caches, consumes their marks, and puts its bytes on their way. -/
theorem storeResults : Obligations.StoreResults := by
  intro s i x a disp n tgt pg hi
  dsimp only
  intro place
  have completes := store_completes hi place
  generalize addressOf (s.src2 x a).1.2.1 disp n = ea at completes place ⊢
  have read := s.noted_src2 x a
  have ready := s.noted_readied x a ea
  have all := read.trans ready
  generalize s.readied x a ea = t at completes ready all
  generalize (s.src2 x a).1.2.2 = mark at completes ⊢
  have size := length_bytesOf n (s.src2 x a).1.1.toNat
  generalize bytesOf n (s.src2 x a).1.1.toNat = bs at completes size ⊢
  have doomed : t.discards t.issue.core t.issue.strand ea = (s.src2 x a).2.discards s.issue.core s.issue.strand ea := by
    rw [ready.issueCore, ready.issueStrand, ready.nextId, ready.discards, read.issueCore, read.issueStrand]
  have writes := (t.poolWrites_sendBytes 4 ea tgt bs mark).trans (by rw [all.myPoolWrites])
  have stores := (t.stores_sendBytes 4 ea tgt bs mark).trans (by rw [all.myStores, doomed])
  -- what a place outside the own pool comes to
  have away : t.homeLine 4 ea tgt bs mark = none → t.farStore ea tgt bs mark = some (t.posted ea tgt bs mark) →
      (t.sendBytes 4 ea tgt bs mark).myCore.poolWrites = s.myCore.poolWrites ∧
      ((s.src2 x a).2.discards s.issue.core s.issue.strand ea = true →
        (t.sendBytes 4 ea tgt bs mark).myCore.stores = s.myCore.stores) ∧
      ((s.src2 x a).2.discards s.issue.core s.issue.strand ea = false →
        ∃ w, (t.sendBytes 4 ea tgt bs mark).myCore.stores = s.myCore.stores ++ [w] ∧
          w.id = s.nextId ∧ w.strand = s.issue.strand ∧ w.target = tgt ∧ w.bytes = bs ∧ w.mark = mark) := fun line store_ => by
    rw [writes, stores, line, store_]
    exact ⟨List.append_nil _, fun gone => by rw [if_pos gone, List.append_nil],
      fun stays => ⟨_, by rw [stays]; rfl, all.nextId, all.issueStrand, rfl, rfl, rfl⟩⟩
  refine ⟨_, completes, ?_⟩
  cases tgt with
  | pool c off =>
    have home : atHome t ea (.pool c off) = (ownRegion ea || decide (c = s.issue.core)) := by rw [atHome_pool, all.issueCore]
    refine ⟨fun d o same near => ?_, fun far => ?_, nofun⟩
    · cases same
      have inside : atHome t ea (.pool c off) = true := by rw [home]; simpa using near
      rw [State.homeLine, if_pos inside] at writes
      rw [State.farStore, if_pos inside] at stores
      refine ⟨_, writes, stores.trans (by rw [Option.toList_none, ite_self, List.append_nil]), ?_, rfl, ?_, rfl, rfl⟩
      · rw [State.lineWrite, all.mtime]; rfl
      · rw [State.lineWrite, size]
    · obtain ⟨_, no⟩ | ⟨_, no⟩ | ⟨d, o, same, region, other⟩ := far
      · cases no
      · cases no
      · cases same
        have outside : ¬ atHome t ea (.pool c off) = true := by rw [home, region]; simpa using other
        exact away (if_neg outside) (if_neg outside)
  | hole =>
    have hole := all.trans (t.noted_result 4 .none false [t.record 7 1 0])
    refine ⟨nofun, fun far => ?_, fun _ => ⟨hole.myStores, hole.myPoolWrites⟩⟩
    obtain ⟨_, no⟩ | ⟨_, no⟩ | ⟨_, _, no, _⟩ := far <;> cases no
  | _ => exact ⟨nofun, fun _ => away rfl rfl, nofun⟩

/-! ## Where a store lands (R265) -/

/-- A posted store that nothing holds is performed if it may be and its page has no replicas; else it stays on its way. -/
theorem storePerformed_posted {s : State} {c id : Nat} {w : Store} (found : (s.core c).store id = some w) (free : w.holders = []) :
    exec (.storePerformed c id) s = if s.mayStore c w = true ∧ s.isReplicated w.target = false then
      .next ((s.writeTarget w.target w.bytes w.mark).modCore c fun k => k.dropStores fun v => v.id == id)
    else .next s := by
  by_cases may : s.mayStore c w = true
  · obtain ⟨first, commits⟩ : (s.core c).storeFirst w = true ∧ s.commitBefore c w.strand w.target w.bytes.length = false := by
      simpa [State.mayStore] using may
    rw [storePerformed_plain found first (fun _ => commits) (.inl free)]
    cases s.isReplicated w.target <;> simp [may]
  · have waits : (!((s.core c).storeFirst w && (!w.holders.isEmpty || s.mayStore c w))) = true := by
      rw [free, Bool.eq_false_iff.2 may]
      simp
    rw [if_neg fun h => may h.1, exec_storePerformed, execStorePerformed, found]
    exact if_pos waits

/-- The one store of its number is found behind others. -/
theorem Core.store_append {k : Core} {ws : List Store} {w : Store} (stores : k.stores = ws ++ [w]) (fresh : ∀ v ∈ ws, v.id ≠ w.id) :
    k.store w.id = some w := by
  rw [Core.store, stores, List.find?_append, List.find?_eq_none.2 fun v mem => by simpa using fresh v mem]
  simp

/-- Settles O58: a store to HBM is the one of its number, and performing it writes its bytes there or nothing. -/
theorem storeLands : Obligations.StoreLands := by
  intro s u v i x a disp n pa pg w hi admitted place next stores fresh free performed
  have hbm : u.hbm = s.hbm := (store_issues admitted (exec_of_storeOf hi s ▸ next)).kept.hbm
  have answer := (store_completes hi place (.inl admitted)).symm.trans next
  have issues := Host.Outcome.next.inj answer
  generalize addressOf (s.src2 x a).1.2.1 disp n = ea at issues
  have all := (s.noted_src2 x a).trans (s.noted_readied x a ea)
  generalize s.readied x a ea = t at issues all
  change t.postStore ea (.hbm pa) _ _ = u at issues
  have core : u.core s.issue.core = u.myCore := by
    rw [← issues, State.myCore, (t.steady_postStore ..).issueCore, all.issueCore]
  have last : w = t.posted ea (.hbm pa) (bytesOf n (s.src2 x a).1.1.toNat) (s.src2 x a).1.2.2 := by
    rw [← issues, State.stores_postStore, all.myStores] at stores
    have only := List.append_cancel_left stores
    split at only
    · cases only
    · exact (List.singleton_inj.1 only).symm
  have id : w.id = s.nextId := by rw [last]; exact all.nextId
  have target : w.target = .hbm pa := by rw [last]; rfl
  have bytes : w.bytes = bytesOf n (s.src2 x a).1.1.toNat := by rw [last]; rfl
  have found : (u.core s.issue.core).store s.nextId = some w := by
    rw [core, ← id]
    exact Core.store_append stores fun k mem => by rw [id]; exact fresh k mem
  rw [storePerformed_posted found free, target] at performed
  split at performed
  · have written : v.hbm = writeBytes s.hbm pa w.bytes := by
      rw [← Host.Outcome.next.inj performed, State.modCore_hbm, State.writeTarget, (u.cores_hbmWrite pa w.bytes w.mark).2.2, hbm]
    have size : w.bytes.length = n := by rw [bytes, length_bytesOf]
    rw [written]
    refine ⟨fun _ _ => ?_, fun b beside => ?_⟩
    · rw [← bytes]
      conv_lhs => rw [← size]
      exact readBytes_writeBytes_self ..
    · rw [readByte_writeBytes, if_neg (by omega)]
  · next waits =>
    rw [← Host.Outcome.next.inj performed]
    exact ⟨fun may single => absurd ⟨may, single⟩ waits, fun b _ => by rw [hbm]⟩

end Sys2Proof.Machine
end

section
/-!
PROOF. Block loads and stores: where their lines stand, what they put in flight, and their steps (R145, R146, R153, R155, R160, R161).
-/

set_option Elab.async false
namespace Sys2Proof.Machine
open Claims

/-! ## Where the lines stand (R145, R153, R155) -/

theorem blockAddresses_holds : blockAddresses := by
  intro s w base o strided lg
  have disp : zext64 o * 64 = BitVec.ofNat 64 (64 * o.toNat) := by
    refine BitVec.eq_of_toNat_eq ?_
    have line : (64 : Word).toNat = 64 := rfl
    rw [zext64, BitVec.toNat_mul, BitVec.toNat_setWidth, BitVec.toNat_ofNat, line]
    omega
  refine ⟨by rw [State.blockLines, List.length_map, List.length_range], fun i inside => ?_⟩
  rw [State.blockLines, List.getElem?_map, List.getElem?_range inside, Option.map_some, disp, ← BitVec.mul_assoc]
  rfl

theorem State.Steady.blockLines {s t : State} (h : s.Steady t) (w : BitVec 7) (base : Word) (o : BitVec 5) (strided : Bool) (lg : Nat) :
    t.blockLines w base o strided lg = s.blockLines w base o strided lg := by
  simp only [State.blockLines, h.lane, h.ctl, h.regCount]

/-! ## Which block accesses go on (R95, R143, R161, R356) -/

theorem State.laneHold_none {s : State} {lgs : List Nat} (h : ∀ lg ∈ lgs, s.me.busy lg = false) : s.laneHold lgs = none :=
  if_neg fun busy => by
    obtain ⟨lg, mem, held⟩ := List.any_eq_true.1 busy
    rw [h lg mem] at held
    cases held

theorem State.ueVector_none {s : State} {regs : List (Nat × Nat)} (h : ∀ r ∈ regs, s.me.isBad .vectorReg r.1 r.2 = false) :
    s.ueVector regs = none := by
  rw [State.ueVector, List.find?_eq_none.2 fun r mem => by rw [h r mem]; decide]
  rfl

theorem State.blockChecks_open {s : State} {w : BitVec 7} {a : BitVec 6} {m : BitVec 8} {o : BitVec 5} {strided write : Bool}
    (h : blockOpens s w a m o strided write) : (s.blockChecks w a m o strided write).blocks = none ∧
      (s.blockChecks w a m o strided write).holds = none ∧ (s.blockChecks w a m o strided write).faults = none := by
  obtain ⟨lanes, line, aligned, sound⟩ := h
  refine ⟨rfl, ?_, ?_⟩
  · rw [State.blockChecks, State.laneHold_none lanes]
    exact line
  · rw [State.blockChecks]
    simp only [aligned, ne_eq, not_true_eq_false, if_false]
    split
    · next stores =>
      refine State.ueVector_none fun r mem => ?_
      obtain ⟨l, inside, rfl⟩ := List.mem_map.1 mem
      exact sound stores l inside
    · rfl

/-! ## Results, records and blocks one after another -/

/-- A result put in flight. -/
def State.addPending (s : State) (q : Pending) : State := s.modMe fun t => { t with pend := t.pend ++ [q] }

theorem State.me_addPending (s : State) (q : Pending) : (s.addPending q).me = { s.me with pend := s.me.pend ++ [q] } := s.me_modMe _

theorem State.noted_addPending (s : State) (q : Pending) : s.Noted (s.addPending q) := s.noted_modMe _ ⟨_, _, _, _, _, rfl⟩

/-- Results put in flight one after another stand in order behind those that were, each as a state that is steady makes it. -/
theorem State.me_addPendings {β : Type} {s : State} (q : State → β → Pending) {r : β → Pending → Prop}
    (each : ∀ t, s.Steady t → ∀ b, r b (q t b))
    (l : List β) : ∀ u : State, s.Steady u →
    ∃ ps, (l.foldl (fun u b => u.addPending (q u b)) u).me = { u.me with pend := u.me.pend ++ ps } ∧ List.Forall₂ r l ps := by
  induction l with
  | nil => exact fun u _ => ⟨[], by rw [List.append_nil]; rfl, .nil⟩
  | cons b l ih =>
    intro u h
    obtain ⟨ps, me, rest⟩ := ih (u.addPending (q u b)) (h.trans (u.noted_addPending _).toSteady)
    rw [State.me_addPending] at me
    exact ⟨_ :: ps, by rw [List.foldl_cons, me, List.append_assoc]; rfl, .cons (each u h b) rest⟩

/-- The record of the lines or elements that lie in the hole, if there are any (R124, R359). -/
def State.recordHoles (s : State) (l n : Nat) : State := if n = 0 then s else s.result l .none false [s.record 7 n 0]

theorem State.noted_recordHoles (s : State) (l n : Nat) : s.Noted (s.recordHoles l n) := by
  unfold State.recordHoles
  split
  · exact .refl s
  · exact s.noted_result ..

theorem State.me_recordHoles (s : State) (l n : Nat) : ∃ qs, (s.recordHoles l n).me = { s.me with pend := s.me.pend ++ qs } ∧ qs.length ≤ 1 ∧
    ∀ q ∈ qs, q.write = .none := by
  unfold State.recordHoles
  split
  · exact ⟨[], by rw [List.append_nil], Nat.zero_le _, List.forall_mem_nil _⟩
  · exact ⟨_, s.me_result .., Nat.le_refl _, fun q mem => by rw [List.mem_singleton.1 mem]⟩

theorem State.me_addBlock (s : State) (b : Block) : (s.addBlock b).me = { s.me with blocks := s.me.blocks ++ [b] } := s.me_modMe _

theorem State.noted_addBlock (s : State) (b : Block) : s.Noted (s.addBlock b) := s.noted_modMe _ ⟨_, _, _, _, _, rfl⟩

/-- One block for each of some lane groups, in order behind the strand's blocks. -/
theorem State.foldl_addBlock (block : State → Nat → Block) {s : State} (lgs : List Nat) : ∀ u : State, s.Noted u →
    ∃ bs, (lgs.foldl (fun u lg => u.addBlock (block u lg)) u).me.blocks = u.me.blocks ++ bs ∧
      List.Forall₂ (fun lg b => ∃ t, s.Noted t ∧ b = block t lg) lgs bs := by
  induction lgs with
  | nil => exact fun u _ => ⟨[], (List.append_nil _).symm, .nil⟩
  | cons lg lgs ih =>
    intro u h
    obtain ⟨bs, blocks, each⟩ := ih (u.addBlock (block u lg)) (h.trans (u.noted_addBlock _))
    rw [State.me_addBlock] at blocks
    exact ⟨_ :: bs, by rw [List.foldl_cons, blocks, List.append_assoc]; rfl, .cons ⟨u, h, rfl⟩ each⟩

theorem State.pend_addBlocks (block : State → Nat → Block) (lgs : List Nat) (u : State) :
    (lgs.foldl (fun u lg => u.addBlock (block u lg)) u).me.pend = u.me.pend :=
  foldl_keeps (fun u : State => u.me.pend) (fun u _ => by rw [State.me_addBlock]) lgs u

theorem State.noted_addBlocks (block : State → Nat → Block) (lgs : List Nat) (u : State) :
    u.Noted (lgs.foldl (fun u lg => u.addBlock (block u lg)) u) :=
  .foldl (fun v _ => v.noted_addBlock _) lgs u

/-- What holds of each of two lists in step holds of every element of the second. -/
theorem forall_mem_of_forall₂ {α β : Type} {r : α → β → Prop} {p : β → Prop} {l : List α} {m : List β} (h : List.Forall₂ r l m)
    (imp : ∀ a b, r a b → p b) : ∀ b ∈ m, p b := by
  induction h with
  | nil => exact List.forall_mem_nil _
  | cons head _ ih => exact List.forall_mem_cons.2 ⟨imp _ _ head, ih⟩

theorem map_eq_of_forall₂ {α β γ : Type} {r : α → β → Prop} {f : α → γ} {g : β → γ} {l : List α} {m : List β}
    (h : List.Forall₂ r l m)
    (imp : ∀ a b, r a b → g b = f a) : m.map g = l.map f := by
  induction h with
  | nil => rfl
  | cons head _ ih => rw [List.map_cons, List.map_cons, imp _ _ head, ih]

theorem getElem?_of_forall₂ {α β : Type} {r : α → β → Prop} {l : List α} {m : List β} (h : List.Forall₂ r l m)
    {k : Nat} (inside : k < l.length) :
    ∃ a b, l[k]? = some a ∧ m[k]? = some b ∧ r a b := by
  induction h generalizing k with
  | nil => cases inside
  | cons head _ ih =>
    cases k with
    | zero => exact ⟨_, _, rfl, rfl, head⟩
    | succ k => exact ih (Nat.lt_of_succ_lt_succ inside)

/-! ## VLD and VLDS (R146) -/

/-- The line that a block load reads; one in the hole reads zero (R124). -/
def State.lineAt (s : State) (l : BlockLine) : Line × Bool :=
  match s.poolLine l.off with
  | some a => s.myCore.line a
  | none => (0, false)

theorem State.Steady.lineAt {s t : State} (h : s.Steady t) (l : BlockLine) : t.lineAt l = s.lineAt l := by
  simp only [State.lineAt, h.poolLine, h.line]

/-- The mark of the register that it is for: the line's, the address's, the control registers' or the window's (R348). -/
def State.lineMark (s : State) (i : Instr) (base : Bool) (l : BlockLine) : Bool :=
  (s.lineAt l).2 || base || s.ctlMark i.controls || (s.me.lane l.lg).wmark

/-- The lines of a block load are read, and their registers put in flight. -/
def State.loadRegs (s : State) (i : Instr) (base : Bool) (lines : List BlockLine) : State :=
  lines.foldl (fun s l => s.result (6 + l.i) (.vec l.lg l.reg (s.lineAt l).1 (BitVec.allOnes 64)) (s.lineMark i base l)) s

/-- The idle blocks with which a block load occupies its lane groups (R160). -/
def State.loadBlocks (s : State) (i : Instr) (lgs : List Nat) : State :=
  lgs.foldl (fun s lg => s.addBlock (s.newBlock i lg 1 ((s.me.lane lg).rows * (s.me.lane lg).cols) true)) s

/-- The lines of a block access that lie in the hole. -/
def State.holesOf (s : State) (lines : List BlockLine) : Nat := (lines.filter fun l => (s.poolLine l.off).isNone).length

theorem State.blocks_src (s : State) (a : BitVec 6) : (s.src a).2.me.blocks = s.me.blocks := by
  rcases s.me_src_cases a with same | ⟨_, same⟩ <;> rw [same]

/-- A block load that goes. -/
def State.blockLoaded (s : State) (i : Instr) (w : BitVec 7) (a : BitVec 6) (m : BitVec 8) (o : BitVec 5) (strided : Bool) : State :=
  let lines := (maskGroups m).flatMap ((s.src a).2.blockLines w (s.src a).1.1 o strided)
  (((s.src a).2.loadRegs i (s.src a).1.2 lines).recordHoles 6 ((s.src a).2.holesOf lines)).loadBlocks i (maskGroups m)

section
variable {s : State} {i : Instr} {w : BitVec 7} {a : BitVec 6} {m : BitVec 8} {o : BitVec 5} {strided : Bool}

theorem vload_goes {own : Prop} (goes : Goes i s own) (opens : own → blockOpens s w a m o strided false) :
    vload i w a m o strided s = .next (s.blockLoaded i w a m o strided) := by
  rw [vload, issueWith_goes goes fun go => State.blockChecks_open (opens go)]
  rfl

theorem State.noted_loadRegs (s : State) (i : Instr) (base : Bool) (lines : List BlockLine) : s.Noted (s.loadRegs i base lines) :=
  .foldl (fun u _ => u.noted_result ..) lines s

/-- The registers of a block load stand in the order of its lines behind what was in flight, and its blocks behind those of the strand. -/
theorem State.me_blockLoaded (s : State) (i : Instr) (w : BitVec 7) (a : BitVec 6) (m : BitVec 8) (o : BitVec 5) (strided : Bool) :
    ∃ ps qs bs, (s.blockLoaded i w a m o strided).me.pend = s.me.pend ++ (ps ++ qs) ∧
      (s.blockLoaded i w a m o strided).me.blocks = s.me.blocks ++ bs ∧
      List.Forall₂ (fun l p => p.due = s.me.time + (6 + l.i) ∧ p.write = .vec l.lg l.reg (s.lineAt l).1 (BitVec.allOnes 64))
        ((maskGroups m).flatMap ((s.src a).2.blockLines w (s.src a).1.1 o strided)) ps ∧
      List.Forall₂ (fun lg b => ∃ t, s.Noted t ∧ b = t.newBlock i lg 1 ((t.me.lane lg).rows * (t.me.lane lg).cols) true) (maskGroups m) bs := by
  have read := s.noted_src a
  unfold State.blockLoaded
  generalize (maskGroups m).flatMap ((s.src a).2.blockLines w (s.src a).1.1 o strided) = lines
  obtain ⟨ps, loaded, each⟩ := State.me_addPendings (s := s)
    (r := fun l p => p.due = s.me.time + (6 + l.i) ∧ p.write = .vec l.lg l.reg (s.lineAt l).1 (BitVec.allOnes 64)) (fun t l =>
      { due := t.me.time + (6 + l.i), seq := t.me.nextSeq, write := .vec l.lg l.reg (t.lineAt l).1 (BitVec.allOnes 64),
        mark := t.lineMark i (s.src a).1.2 l, load := none, recs := [],
        check := t.issue.compares (.vec l.lg l.reg (t.lineAt l).1 (BitVec.allOnes 64)) })
    (fun t h l => ⟨congrArg (· + (6 + l.i)) h.time, by rw [h.lineAt]⟩) lines (s.src a).2 read.toSteady
  change ((s.src a).2.loadRegs i (s.src a).1.2 lines).me = _ at loaded
  have all := read.trans ((s.src a).2.noted_loadRegs i (s.src a).1.2 lines)
  obtain ⟨qs, holes, -⟩ := ((s.src a).2.loadRegs i (s.src a).1.2 lines).me_recordHoles 6 ((s.src a).2.holesOf lines)
  obtain ⟨bs, blocks, block⟩ := State.foldl_addBlock (fun t lg => t.newBlock i lg 1 ((t.me.lane lg).rows * (t.me.lane lg).cols) true)
    (maskGroups m) _ (all.trans (State.noted_recordHoles _ 6 ((s.src a).2.holesOf lines)))
  refine ⟨ps, qs, bs, ?_, ?_, each, block⟩
  · rw [State.loadBlocks, State.pend_addBlocks, holes, loaded, (State.Reads.src s a).pend, List.append_assoc]
  · rw [State.loadBlocks, blocks, holes, loaded, s.blocks_src]

theorem State.noted_blockLoaded (s : State) (i : Instr) (w : BitVec 7) (a : BitVec 6) (m : BitVec 8) (o : BitVec 5) (strided : Bool) :
    s.Noted (s.blockLoaded i w a m o strided) :=
  (((s.noted_src a).trans (State.noted_loadRegs ..)).trans (State.noted_recordHoles ..)).trans (State.noted_addBlocks ..)

/-! ## VST and VSTS (R146) -/

/-- The block of a block store on a lane group: where its lines stand, and a conductor's registers as it reads them (R146, R160; log 93). -/
def State.storeBlock (s : State) (i : Instr) (w : BitVec 7) (base : Word × Bool) (o : BitVec 5) (strided : Bool) (lg : Nat) : Block :=
  let mine := s.blockLines w base.1 o strided lg
  let b := s.newBlock i lg 1 mine.length false
  { b with
    mark := b.mark || base.2 || s.ctlMark i.controls
    offs := mine.map fun l => s.poolLine l.off
    saved := if s.meConductor then mine.map fun l => (l.reg, s.myVreg lg l.reg) else [] }

/-- A block store that goes. -/
def State.blockStored (s : State) (i : Instr) (w : BitVec 7) (a : BitVec 6) (m : BitVec 8) (o : BitVec 5) (strided : Bool) : State :=
  let t := (s.src a).2.consumed ((s.src a).1.2 || (s.src a).2.ctlMark i.controls)
  (maskGroups m).foldl (fun u lg => u.addBlock (u.storeBlock i w (s.src a).1 o strided lg))
    (t.recordHoles 6 (t.holesOf ((maskGroups m).flatMap (t.blockLines w (s.src a).1.1 o strided))))

theorem vstore_goes {own : Prop} (goes : Goes i s own) (opens : own → blockOpens s w a m o strided true) :
    vstore i w a m o strided s = .next (s.blockStored i w a m o strided) := by
  rw [vstore, issueWith_goes goes fun go => State.blockChecks_open (opens go)]
  rfl

theorem State.noted_blockStored (s : State) (i : Instr) (w : BitVec 7) (a : BitVec 6) (m : BitVec 8) (o : BitVec 5) (strided : Bool) :
    s.Noted (s.blockStored i w a m o strided) :=
  (((s.noted_src a).trans (State.noted_consumed ..)).trans (State.noted_recordHoles ..)).trans (State.noted_addBlocks ..)

theorem State.blocks_blockStored (s : State) (i : Instr) (w : BitVec 7) (a : BitVec 6) (m : BitVec 8) (o : BitVec 5) (strided : Bool) :
    ∃ bs, (s.blockStored i w a m o strided).me.blocks = s.me.blocks ++ bs ∧
      List.Forall₂ (fun lg b => ∃ t, s.Noted t ∧ b = t.storeBlock i w (s.src a).1 o strided lg) (maskGroups m) bs := by
  obtain ⟨bs, blocks, each⟩ := State.foldl_addBlock (fun t lg => t.storeBlock i w (s.src a).1 o strided lg) (maskGroups m) _
    (((s.noted_src a).trans (State.noted_consumed _ ((s.src a).1.2 || (s.src a).2.ctlMark i.controls))).trans (State.noted_recordHoles _ 6
      (((s.src a).2.consumed ((s.src a).1.2 || (s.src a).2.ctlMark i.controls)).holesOf ((maskGroups m).flatMap
        (((s.src a).2.consumed ((s.src a).1.2 || (s.src a).2.ctlMark i.controls)).blockLines w (s.src a).1.1 o strided)))))
  refine ⟨bs, ?_, each⟩
  obtain ⟨_, holes, -⟩ := State.me_recordHoles ((s.src a).2.consumed ((s.src a).1.2 || (s.src a).2.ctlMark i.controls)) 6
    (((s.src a).2.consumed ((s.src a).1.2 || (s.src a).2.ctlMark i.controls)).holesOf ((maskGroups m).flatMap
      (((s.src a).2.consumed ((s.src a).1.2 || (s.src a).2.ctlMark i.controls)).blockLines w (s.src a).1.1 o strided)))
  rw [State.blockStored, blocks, holes, State.me_consumed, s.blocks_src]

end

theorem blockLoadsStores_holds : blockLoadsStores := by
  intro s w a m o q lines loads stores
  have read : s.Noted q.2 := s.noted_src a
  have size : ∀ t lg strided, s.Noted t → (t.blockLines w q.1.1 o strided lg).length = (s.me.lane lg).rows * (s.me.lane lg).cols :=
    fun t lg strided h => by rw [h.blockLines]; exact (blockAddresses_holds s w q.1.1 o strided lg).1
  have load_ : ∀ i strided, exec i s = vload i w a m o strided s → loads i strided := by
    intro i strided meaning
    have noted := s.noted_blockLoaded i w a m o strided
    obtain ⟨ps, qs, bs, pend, blocks, each, block⟩ := s.me_blockLoaded i w a m o strided
    refine ⟨_, ps ++ qs, fun goes => meaning.trans (vload_goes goes id), pend, noted.pool, fun k inside => ?_, bs, blocks, ?_, ?_⟩
    · obtain ⟨l, p, line, result, due, write⟩ := getElem?_of_forall₂ each inside
      have early : k < ps.length := (List.getElem?_eq_some_iff.1 result).1
      exact ⟨p, l, by rw [List.getElem?_append_left early, result], line, by rw [due, Nat.add_assoc],
        write.trans (by rw [State.lineAt]; cases s.poolLine l.off <;> rfl)⟩
    · refine (map_eq_of_forall₂ (f := id) block fun lg b made => ?_).trans (List.map_id _)
      obtain ⟨t, -, rfl⟩ := made
      rfl
    · refine forall_mem_of_forall₂ block fun lg b made => ?_
      obtain ⟨t, h, rfl⟩ := made
      exact ⟨rfl, h.time, by rw [State.newBlock, h.lane]⟩
  have store_ : ∀ i strided, exec i s = vstore i w a m o strided s → stores i strided := by
    intro i strided meaning
    have noted := s.noted_blockStored i w a m o strided
    obtain ⟨bs, blocks, block⟩ := s.blocks_blockStored i w a m o strided
    refine ⟨_, bs, fun goes => meaning.trans (vstore_goes goes id), blocks, noted.pool, noted.myPoolWrites, ?_, ?_⟩
    · refine (map_eq_of_forall₂ (f := id) block fun lg b made => ?_).trans (List.map_id _)
      obtain ⟨t, -, rfl⟩ := made
      rfl
    · refine forall_mem_of_forall₂ block fun lg b made => ?_
      obtain ⟨t, h, rfl⟩ := made
      refine ⟨rfl, h.time, rfl, rfl, size t lg strided h, ?_⟩
      change (t.blockLines w q.1.1 o strided lg).map (fun l => t.poolLine l.off) = (q.2.blockLines w q.1.1 o strided lg).map fun l => s.poolLine l.off
      rw [h.blockLines, read.blockLines]
      exact List.map_congr_left fun l _ => h.poolLine l.off
  exact ⟨load_ _ _ (exec_vld ..), load_ _ _ (exec_vlds ..), store_ _ _ (exec_vst ..), store_ _ _ (exec_vsts ..)⟩

/-! ## The steps of a block store (R146, R160) -/

/-- The line write that a step of a block store puts on its way. -/
def State.stepWrite (s : State) (c n : Nat) (b : Block) (off : Nat) : PoolWrite :=
  let reg := blockReg (vregCount (s.strand c n).ctl.poolpart) b.wb b.cols (blockStoreReg b.op) b.step
  let v := (b.saved.find? fun e => e.1 == reg).elim
    (((s.core c).vreg b.lg n reg).1, ((s.core c).vreg b.lg n reg).2 || (s.strand c n).isBad .vectorReg b.lg reg) (·.2)
  { due := (s.core c).mtime + 6, strand := n, seq := b.poolSeq, off := off, data := v.1, mask := BitVec.allOnes 64, mark := v.2 || b.mark }

theorem State.core_modStrand (s : State) (c n : Nat) (f : Strand → Strand) : ∃ l, (s.modStrand c n f).core c = { s.core c with strands := l } :=
  ⟨_, s.core_modCore c _⟩

theorem State.poolWrites_modStrand (s : State) (c n : Nat) (f : Strand → Strand) :
    ((s.modStrand c n f).core c).poolWrites = (s.core c).poolWrites := by
  obtain ⟨_, same⟩ := s.core_modStrand c n f
  rw [same]

/-- A step of a block store puts the write of its line on its way, if the line is not in the hole. -/
theorem blockStep_store (s : State) (c n : Nat) {b : Block} (h : isBlockStore b.op = true) :
    (s.blockStep c n b).1 = { b with step := b.step + 1 } ∧
    ∃ l, (s.blockStep c n b).2.core c = { s.core c with
      strands := l, poolWrites := (s.core c).poolWrites ++ ((nth none b.offs b.step).map (s.stepWrite c n b)).toList } := by
  have done : ∀ (t : State) (f : Strand → Strand) (p : Bool),
      ∃ l, (if p then t.modStrand c n f else t).core c = { t.core c with strands := l } :=
    fun t f p => by
      cases p
      · exact ⟨_, rfl⟩
      · exact t.core_modStrand c n f
  unfold State.blockStep
  rw [if_pos h]
  refine ⟨rfl, ?_⟩
  dsimp only
  cases nth none b.offs b.step with
  | none =>
    obtain ⟨l, same⟩ := done s _ _
    exact ⟨l, same.trans (by simp)⟩
  | some off =>
    obtain ⟨l, same⟩ := done (s.modCore c fun k => { k with poolWrites := k.poolWrites ++ [s.stepWrite c n b off] }) _ _
    exact ⟨l, same.trans (by rw [State.core_modCore]; rfl)⟩

theorem Block.due_iff (b : Block) (now : Nat) :
    b.due now = true ↔ b.idle = false ∧ b.step < b.rows * b.cols ∧ b.start + b.interval * b.step = now := by
  simp only [Block.due, Bool.and_eq_true, Bool.not_eq_true', decide_eq_true_eq, beq_iff_eq, and_assoc]

/-- In a cycle of strand time the one block of a strand takes the step that is due. -/
theorem State.poolWrites_advance {s : State} {c n : Nat} {b : Block} (alone : (s.strand c n).blocks = [b]) (due : b.due (s.strand c n).time = true) :
    ((s.advance c n).core c).poolWrites = ((s.blockStep c n b).2.core c).poolWrites := by
  have steps : ((s.stepBlocks c n).core c).poolWrites = ((s.blockStep c n b).2.core c).poolWrites := by
    unfold State.stepBlocks
    rw [alone]
    simp only [List.foldl_cons, List.foldl_nil, due, if_true]
    exact State.poolWrites_modStrand ..
  rw [← steps, State.advance, State.poolWrites_modStrand, State.core_modCore]

theorem blockStoreSteps_holds : blockStoreSteps := by
  intro s c n b h q word reg
  obtain ⟨stepped, l, core⟩ := blockStep_store s c n h
  have word_ : word = blockStoreReg b.op := rfl
  have pool := congrArg Core.pool core
  have writes := congrArg Core.poolWrites core
  refine ⟨stepped, pool, fun hole => ?_, fun off line => ?_, b.due_iff _, fun alone due => State.poolWrites_advance alone due⟩
  · rw [hole] at writes
    exact writes.trans (List.append_nil _)
  · rw [line] at writes
    refine ⟨s.stepWrite c n b off, writes, rfl, rfl, rfl, rfl, fun none_ => ?_⟩
    rw [State.stepWrite, none_]
    simp only [List.find?_nil, Option.elim_none]
    rfl

/-- Settles O24: a block access reads its address, then puts its registers in flight or leaves its stores to the steps of its blocks. -/
theorem blockAccesses : Obligations.BlockAccesses := ⟨blockAddresses_holds, blockLoadsStores_holds, blockStoreSteps_holds⟩

end Sys2Proof.Machine
end

section
/-!
PROOF. Gathers and scatters: their element addresses, what they read and put on their way (R95, R144, R147, R148, R161).
-/

set_option Elab.async false
namespace Sys2Proof.Machine
open Claims

/-! ## Elements of a line (R68) -/

theorem ofNat_elemOf (v : Line) (j : Nat) : BitVec.ofNat 32 (elemOf 32 v j) = v.extractLsb' (32 * j) 32 := by
  refine BitVec.eq_of_toNat_eq ?_
  rw [BitVec.toNat_ofNat, elemOf, Nat.mod_mod, BitVec.extractLsb'_toNat, Nat.shiftRight_eq_div_pow]

theorem elemOf_eq_toNat (v : Line) (j : Nat) : elemOf 32 v j = (v.extractLsb' (32 * j) 32).toNat := by
  rw [elemOf, BitVec.extractLsb'_toNat, Nat.shiftRight_eq_div_pow]

/-- The number that elements are packed into, and its element j. -/
theorem packed_lt (w : Nat) (es : List Nat) : es.foldr (fun e a => e % 2 ^ w + 2 ^ w * a) 0 < 2 ^ (w * es.length) := by
  induction es with
  | nil => simp
  | cons e es ih =>
    have digit : e % 2 ^ w < 2 ^ w := Nat.mod_lt _ (Nat.two_pow_pos w)
    have rest := Nat.mul_le_mul_left (2 ^ w) (Nat.succ_le_of_lt ih)
    rw [List.foldr_cons, List.length_cons, Nat.mul_succ, pow_add, Nat.mul_comm (2 ^ (w * es.length))]
    rw [Nat.mul_succ] at rest
    omega

theorem packed_elem (w : Nat) (es : List Nat) (j : Nat) :
    es.foldr (fun e a => e % 2 ^ w + 2 ^ w * a) 0 / 2 ^ (w * j) % 2 ^ w = nth 0 es j % 2 ^ w := by
  induction es generalizing j with
  | nil => simp [nth]
  | cons e es ih =>
    rw [List.foldr_cons]
    cases j with
    | zero => simp [nth]
    | succ j =>
      have digit : e % 2 ^ w < 2 ^ w := Nat.mod_lt _ (Nat.two_pow_pos w)
      rw [Nat.mul_succ, Nat.add_comm (w * j), pow_add, ← Nat.div_div_eq_div_mul, Nat.add_mul_div_left _ _ (Nat.two_pow_pos w),
        Nat.div_eq_of_lt digit, Nat.zero_add, ih]
      rfl

theorem extractLsb'_packElems {es : List Nat} (size : es.length = 16) (j : Nat) :
    (packElems 32 es).extractLsb' (32 * j) 32 = BitVec.ofNat 32 (nth 0 es j) := by
  refine BitVec.eq_of_toNat_eq ?_
  have fits := packed_lt 32 es
  rw [size, show 32 * 16 = 512 from rfl] at fits
  rw [BitVec.extractLsb'_toNat, packElems, BitVec.toNat_ofNat, BitVec.toNat_ofNat, Nat.mod_eq_of_lt fits, Nat.shiftRight_eq_div_pow,
    packed_elem]

/-! ## Where the elements stand (R147) -/

theorem gatherAddresses_holds : gatherAddresses := by
  intro s lgs wi base sc ⟨lg, j, ea⟩
  simp only [State.gatherAddrs, List.mem_flatMap, List.mem_map, List.mem_range, ofNat_elemOf, Prod.mk.injEq]
  constructor
  · rintro ⟨g, mem, k, inside, rfl, rfl, rfl⟩
    exact ⟨mem, inside, rfl⟩
  · rintro ⟨mem, inside, rfl⟩
    exact ⟨lg, mem, j, inside, rfl, rfl, rfl⟩

theorem State.gatherAddrs_lane (s : State) {lgs : List Nat} (wi : BitVec 7) (base : Word) (sc : BitVec 2) {lg j : Nat} (mem : lg ∈ lgs)
    (lane : j < 16) : ∃ e ∈ s.gatherAddrs lgs wi base sc, e.1 = lg ∧ e.2.1 = j :=
  ⟨(lg, j, base + (((s.myVreg lg (s.singleReg lg wi)).1.extractLsb' (32 * j) 32).signExtend 64 <<< sc.toNat)),
    (gatherAddresses_holds ..).2 ⟨mem, lane, rfl⟩, rfl, rfl⟩

/-- An access in a scratchpad region stands in its core's pool or in the hole (R124, R125). -/
theorem State.scratchTarget_cases (s : State) (c o : Nat) : s.scratchTarget c o = .hole ∨ ∃ off, s.scratchTarget c o = .pool c off := by
  unfold State.scratchTarget
  cases scratchAt (s.core c).part o
  · exact .inl rfl
  · exact .inr ⟨_, rfl⟩

theorem State.resolve_ownRegion {s : State} {c : Nat} {ea : Word} {acc : Acc} {tgt : Target} {pg : Option Nat} (own : ownRegion ea = true)
    (place : s.resolve c ea acc = .ok tgt pg) : tgt = .hole ∨ ∃ off, tgt = .pool c off := by
  rw [ownRegion, Bool.and_eq_true, decide_eq_true_eq, decide_eq_true_eq] at own
  rw [s.resolve_local c acc own.1, State.localTarget, if_pos own.2] at place
  rw [← (Resolved.ok.inj place).1]
  exact s.scratchTarget_cases ..

theorem State.elemResolve_stands {s : State} {es : List (Nat × Nat × Word)} {acc : Acc} {place : Nat → Nat → Target}
    (stand : elementsStand s es acc place) {e : Nat × Nat × Word} (mem : e ∈ es) :
    ∃ pg, s.elemResolve s.issue.core e.2.2 acc = .ok (place e.1 e.2.1) pg := by
  obtain ⟨aligned, near, pg, resolves⟩ := stand e mem
  refine ⟨pg, ?_⟩
  rw [State.elemResolve, if_neg (not_not.2 aligned), if_neg, resolves]
  rintro ⟨outside, remote⟩
  exact near.elim (fun inside => by omega) remote

/-- Elements that stand are all translated, each to its place. -/
theorem State.elemResolves_stand {s : State} {es : List (Nat × Nat × Word)} {acc : Acc} {place : Nat → Nat → Target}
    (stand : elementsStand s es acc place) :
    ∃ pg : Nat × Nat × Word → Option Nat, s.elemResolves es acc = es.map fun e => (e, .ok (place e.1 e.2.1) (pg e)) := by
  choose! pg resolves using fun e => State.elemResolve_stands stand (e := e)
  exact ⟨pg, List.map_congr_left fun e mem => by rw [resolves e mem]⟩

/-- The elements of an issue that waited for no page: each at its place, not read. -/
theorem State.gatherElems_stand {s : State} {es : List (Nat × Nat × Word)} {acc : Acc} {place : Nat → Nat → Target}
    (fresh : s.me.gather = none) (stand : elementsStand s es acc place) :
    s.gatherElems es acc = es.map fun e => keepElem e (place e.1 e.2.1) := by
  obtain ⟨pg, resolves⟩ := State.elemResolves_stand stand
  rw [State.gatherElems, fresh]
  dsimp only
  rw [resolves, List.filterMap_map, ← List.filterMap_eq_map]
  rfl

/-! ## Which gathers and scatters go on (R95, R136, R139, R161, R356) -/

/-- At a first presentation whose elements stand and met no refusal, only lines, lane groups, staging and registers decide. -/
theorem State.gatherChecks_stand {s : State} {lgs : List Nat} {wi : BitVec 7} {base : Word} {sc : BitVec 2} {write : Bool}
    {place : Nat → Nat → Target} (fresh : s.me.gather = none)
    (stand : elementsStand s (s.gatherAddrs lgs wi base sc) (if write then .write else .read) place)
    (welcome : ∀ e ∈ s.gatherAddrs lgs wi base sc, s.refusedAt s.myDie s.myTeamIndex s.me.wait.refused e.2.2 = false) :
    s.gatherChecks lgs wi base sc write =
      let es := s.gatherAddrs lgs wi base sc
      let lines := es.flatMap fun e => touchedLine s.issue.core (.ok (place e.1 e.2.1) none)
      { blocks := if write then s.holdFull (es.map fun e => (e.2.2, place e.1 e.2.1)) else none
        holds := (s.laneHold lgs).or (if write then s.lineHold [] lines else s.lineHold lines [])
        faults := s.ueVector (lgs.map fun lg => (lg, s.singleReg lg wi)) } := by
  obtain ⟨pg, resolves⟩ := State.elemResolves_stand stand
  unfold State.gatherChecks
  rw [fresh]
  dsimp only
  rw [resolves, List.findSome?_eq_none_iff.2 fun r mem => ?sound, List.filterMap_eq_nil_iff.2 fun r mem => ?arrived, List.flatMap_map,
    List.flatMap_map]
  case sound =>
    obtain ⟨e, inside, rfl⟩ := List.mem_map.1 mem
    exact if_neg (by rw [welcome e inside]; decide)
  case arrived =>
    obtain ⟨e, inside, rfl⟩ := List.mem_map.1 mem
    rfl
  have places : (s.gatherAddrs lgs wi base sc).map (fun e => (e.2.2, place e.1 e.2.1)) =
    (s.gatherAddrs lgs wi base sc).flatMap fun e => [(e.2.2, place e.1 e.2.1)] := List.map_eq_flatMap
  rw [places]
  rfl

theorem State.gatherChecks_open {s : State} {lgs : List Nat} {wi : BitVec 7} {base : Word} {sc : BitVec 2} {data : Option (BitVec 7)}
    {place : Nat → Nat → Target} (fresh : s.me.gather = none) (h : elementsOpen s lgs wi base sc data place) :
    (s.gatherChecks lgs wi base sc data.isSome).blocks = none ∧ (s.gatherChecks lgs wi base sc data.isSome).holds = none ∧
      (s.gatherChecks lgs wi base sc data.isSome).faults = none := by
  obtain ⟨stand, welcome, lanes, room⟩ := h
  have free : s.laneHold lgs = none := State.laneHold_none fun lg mem => (lanes lg mem).1
  have sound : s.ueVector (lgs.map fun lg => (lg, s.singleReg lg wi)) = none := State.ueVector_none fun r mem => by
    obtain ⟨lg, inside, rfl⟩ := List.mem_map.1 mem
    exact (lanes lg inside).2.1
  rw [State.gatherChecks_stand fresh stand welcome]
  cases data with
  | none => exact ⟨rfl, by rw [free]; exact room, sound⟩
  | some w =>
    obtain ⟨line, full⟩ := room
    exact ⟨full, by rw [free]; exact line, sound⟩

/-! ## Elements of the own pool are read at issue (R144, R270) -/

section
variable {s t : State} (h : s.Noted t)
include h

/-- An element in the own pool or in the hole reads the same. -/
theorem State.Noted.readKept_own {e : KeptElem} (own : e.target = .hole ∨ ∃ c off, e.target = .pool c off) :
    (t.readKept s.issue.core s.issue.strand e).1 = (s.readKept s.issue.core s.issue.strand e).1 := by
  have seq : (t.strand s.issue.core s.issue.strand).nextSeq = (s.strand s.issue.core s.issue.strand).nextSeq := by
    have mine := h.nextSeq
    rwa [State.me, State.me, h.issueCore, h.issueStrand] at mine
  unfold State.readKept
  obtain target | ⟨c, off, target⟩ := own
  · simp only [target, seq, State.readOwn, State.readTarget, Core.storesBefore, h.stores]
  · simp only [target, seq, State.readOwn, State.readTarget, Core.storesBefore, h.stores, h.poolRead]

end

/-- The elements that a test picks out of the own pool are read, each as it stands. -/
theorem State.readAll_own {s : State} (p : KeptElem → Bool) (es : List KeptElem) : ∀ t : State, s.Noted t → (∀ e ∈ es, e.read = false) →
    (∀ e ∈ es, p e = true → e.target = .hole ∨ ∃ c off, e.target = .pool c off) →
    (t.readAll s.issue.core s.issue.strand p es).1 = es.map fun e => if p e then (s.readKept s.issue.core s.issue.strand e).1 else e := by
  induction es with
  | nil => exact fun _ _ _ _ => rfl
  | cons e es ih =>
    intro t h unread own
    have rest := fun u (k : s.Noted u) => ih u k (fun f mem => unread f (List.mem_cons_of_mem _ mem))
      fun f mem => own f (List.mem_cons_of_mem _ mem)
    rw [State.readAll, unread e List.mem_cons_self, List.map_cons]
    cases picked : p e with
    | false => exact congrArg (e :: ·) (rest t h)
    | true =>
      have drawn : t.Drawn (t.readKept s.issue.core s.issue.strand e).2 :=
        t.drawn_readOwn _ _ (t.strand s.issue.core s.issue.strand).nextSeq ..
      exact congrArg₂ List.cons (h.readKept_own (own e List.mem_cons_self picked)) (rest _ (h.trans drawn.noted))

/-! ## The effect of a gather (R147, R148) -/

/-- The translations of some elements are noted, and nothing is kept of a wait. -/
def State.elementsNoted (s : State) (es : List (Nat × Nat × Word)) (acc : Acc) : State :=
  (es.foldl (fun s e => s.noteAccess s.issue.core e.2.2 acc) s).modMe fun t => { t with gather := none }

theorem State.noted_noteAccesses (s : State) (es : List (Nat × Nat × Word)) (acc : Acc) :
    s.Noted (es.foldl (fun s e => s.noteAccess s.issue.core e.2.2 acc) s) := .foldl (fun u _ => u.noted_noteAccess ..) es s

theorem State.noted_elementsNoted (s : State) (es : List (Nat × Nat × Word)) (acc : Acc) : s.Noted (s.elementsNoted es acc) :=
  (s.noted_noteAccesses es acc).trans (State.noted_modMe _ _ ⟨_, _, _, _, _, rfl⟩)

theorem State.me_elementsNoted (s : State) (es : List (Nat × Nat × Word)) (acc : Acc) :
    (s.elementsNoted es acc).me = { s.me with gather := none } := by
  have same := foldl_keeps State.me (step := fun (u : State) (e : Nat × Nat × Word) => u.noteAccess u.issue.core e.2.2 acc)
    (fun u e => (u.cachesOnly_noteAccess u.issue.core e.2.2 acc).me) es s
  rw [State.elementsNoted, State.me_modMe, same]

/-! ## The effect of a gather (R147, R148) -/

/-- The load that a gather with late elements leaves on its way (R144). -/
def State.gatherLoad (s : State) (es : List KeptElem) : Load :=
  { id := s.nextId, strand := s.issue.strand, seq := s.me.nextSeq, kind := .gather, target := .hole, elems := es, page := none }

/-- The late register of a lane group. -/
def State.lateRegister (s : State) (l : Nat) (w : BitVec 7) (mark : Bool) (id lg : Nat) : Pending :=
  { due := s.me.time + l, seq := s.me.nextSeq, write := .vec lg (s.singleReg lg w) 0 (BitVec.allOnes 64), mark := mark, load := some id, recs := [] }

/-- The elements of a gather, read or not, as results: at once if all are read and stand in the own scratchpad region, else late. -/
def State.gatherAnswer (s : State) (lgs : List Nat) (w : BitVec 7) (l : Nat) (mark : Nat → Bool) (es : List KeptElem) : State :=
  if es.all fun e => e.read && ownRegion e.ea then
    lgs.foldl (fun s lg => s.result l (.vec lg (s.singleReg lg w) (gatherLine es lg).1 (BitVec.allOnes 64)) ((gatherLine es lg).2 || mark lg)) s
  else { lgs.foldl (fun u lg => u.addPending (u.lateRegister l w (mark lg) s.nextId lg)) (s.modMyCore fun k =>
    { k with loads := k.loads ++ [s.gatherLoad es] }) with nextId := s.nextId + 1 }

/-- An element of a gather at its place, read if it stands in the own pool. -/
def State.gathered (s : State) (place : Nat → Nat → Target) (e : Nat × Nat × Word) : KeptElem :=
  if atHome s e.2.2 (place e.1 e.2.1) then (s.readKept s.issue.core s.issue.strand (keepElem e (place e.1 e.2.1))).1
  else keepElem e (place e.1 e.2.1)

/-- The elements of a gather are noted in the caches, and those of the own pool read. -/
def State.gatherReads (s : State) (place : Nat → Nat → Target) (es : List (Nat × Nat × Word)) : List KeptElem × State :=
  (s.elementsNoted es .read).readAll s.issue.core s.issue.strand (fun e => atHome s e.ea e.target) (es.map fun e => keepElem e (place e.1 e.2.1))

section
variable (s : State) (place : Nat → Nat → Target)

theorem State.gathered_key (e : Nat × Nat × Word) :
    (s.gathered place e).lg = e.1 ∧ (s.gathered place e).lane = e.2.1 ∧ (s.gathered place e).ea = e.2.2 ∧
      (s.gathered place e).target = place e.1 e.2.1 := by
  unfold State.gathered
  split <;> exact ⟨rfl, rfl, rfl, rfl⟩

theorem State.gathered_read (e : Nat × Nat × Word) : (s.gathered place e).read = atHome s e.2.2 (place e.1 e.2.1) := by
  unfold State.gathered
  split
  · next home => exact home.symm
  · next away => exact (Bool.eq_false_iff.2 away).symm

theorem State.gathered_val {e : Nat × Nat × Word} (home : atHome s e.2.2 (place e.1 e.2.1) = true) : (s.gathered place e).val =
    BitVec.ofNat 32 (ofBytes (s.readOwn s.issue.core s.issue.strand s.me.nextSeq (place e.1 e.2.1) 4).1.1) := by
  rw [State.gathered, if_pos home]
  rfl

theorem State.drawn_readAllNoted (es : List (Nat × Nat × Word)) : (s.elementsNoted es .read).Drawn (s.gatherReads place es).2 :=
  .readAll _ _ _ _ (.refl _)

theorem State.noted_gatherReads (es : List (Nat × Nat × Word)) : s.Noted (s.gatherReads place es).2 :=
  (s.noted_elementsNoted es .read).trans (s.drawn_readAllNoted place es).noted

theorem State.me_gatherReads (es : List (Nat × Nat × Word)) : (s.gatherReads place es).2.me = { s.me with gather := none } := by
  obtain ⟨_, _, _, _, drawn⟩ := s.drawn_readAllNoted place es
  rw [drawn]
  exact s.me_elementsNoted es .read

end

/-- An element at home stands in the own pool or in the hole. -/
theorem atHome_stands {s : State} {es : List (Nat × Nat × Word)} {acc : Acc} {place : Nat → Nat → Target} (stand : elementsStand s es acc place)
    {e : Nat × Nat × Word} (mem : e ∈ es) (home : atHome s e.2.2 (place e.1 e.2.1) = true) :
    place e.1 e.2.1 = .hole ∨ ∃ c off, place e.1 e.2.1 = .pool c off := by
  obtain ⟨-, -, pg, resolves⟩ := stand e mem
  rcases Bool.or_eq_true_iff.1 home with own | own
  · exact (State.resolve_ownRegion own resolves).imp id fun ⟨off, target⟩ => ⟨_, off, target⟩
  · cases target : place e.1 e.2.1 with
    | pool c off => exact .inr ⟨c, off, rfl⟩
    | _ => rw [target] at own; cases own

theorem State.gatherReads_fst {s : State} {place : Nat → Nat → Target} {es : List (Nat × Nat × Word)} (stand : elementsStand s es .read place) :
    (s.gatherReads place es).1 = es.map (s.gathered place) := by
  rw [State.gatherReads, State.readAll_own _ _ _ (s.noted_elementsNoted es .read), List.map_map]
  · rfl
  · rintro k mem
    obtain ⟨e, -, rfl⟩ := List.mem_map.1 mem
    rfl
  · rintro k mem home
    obtain ⟨e, inside, rfl⟩ := List.mem_map.1 mem
    exact atHome_stands stand inside home

theorem State.gather_src (s : State) (a : BitVec 6) : (s.src a).2.me.gather = s.me.gather := by
  rcases s.me_src_cases a with same | ⟨_, same⟩ <;> rw [same]

/-! ## The registers of a gather -/

/-- Lane j of a register is what every element of that lane has read. -/
theorem extract_gatherLine {es : List KeptElem} {lg j : Nat} {v : BitVec 32} (inside : j < 16) (some_ : ∃ k ∈ es, k.lg = lg ∧ k.lane = j)
    (each : ∀ k ∈ es, k.lg = lg → k.lane = j → k.val = v) : (gatherLine es lg).1.extractLsb' (32 * j) 32 = v := by
  have lane : ∃ k, (es.filter fun e => e.lg == lg).find? (fun e => e.lane == j) = some k ∧ k.val = v := by
    obtain ⟨k, mem, rfl, rfl⟩ := some_
    have there : ((es.filter fun e => e.lg == k.lg).find? fun e => e.lane == k.lane).isSome = true :=
      List.find?_isSome.2 ⟨k, List.mem_filter.2 ⟨mem, beq_self_eq_true k.lg⟩, beq_self_eq_true k.lane⟩
    obtain ⟨f, found⟩ := Option.isSome_iff_exists.1 there
    obtain ⟨there, group⟩ := List.mem_filter.1 (List.mem_of_find?_eq_some found)
    exact ⟨f, found, each f there (eq_of_beq group) (eq_of_beq (List.find?_some (p := fun e : KeptElem => e.lane == k.lane) found))⟩
  obtain ⟨k, found, val⟩ := lane
  rw [gatherLine, extractLsb'_packElems (by rw [List.length_map, List.length_range]), nth, List.getElem?_map, List.getElem?_range inside]
  simp only [Option.map_some, Option.getD_some, found, val, BitVec.ofNat_toNat, BitVec.setWidth_eq]

/-- Elements at home answer at once: a register for each lane group. -/
theorem State.me_gatherAnswer_home {s t : State} (noted : s.Noted t) (lgs : List Nat) (w : BitVec 7) (l : Nat) (mark : Nat → Bool)
    {es : List KeptElem} (home : ∀ e ∈ es, e.read = true ∧ ownRegion e.ea = true) :
    ∃ ps, (t.gatherAnswer lgs w l mark es).me = { t.me with pend := t.me.pend ++ ps } ∧ List.Forall₂ (fun lg p => p.due = s.me.time + l ∧
      p.write = .vec lg (s.singleReg lg w) (gatherLine es lg).1 (BitVec.allOnes 64) ∧ p.load = none) lgs ps := by
  rw [State.gatherAnswer, if_pos (List.all_eq_true.2 fun e mem => Bool.and_eq_true_iff.2 (home e mem))]
  exact State.me_addPendings (fun (u : State) lg =>
    { due := u.me.time + l, seq := u.me.nextSeq, write := .vec lg (u.singleReg lg w) (gatherLine es lg).1 (BitVec.allOnes 64),
      mark := (gatherLine es lg).2 || mark lg, load := none, recs := [],
      check := u.issue.compares (.vec lg (u.singleReg lg w) (gatherLine es lg).1 (BitVec.allOnes 64)) })
    (fun u h lg => ⟨congrArg (· + l) h.time, by rw [h.singleReg], rfl⟩) lgs t noted.toSteady

/-- Else every register is late, and a load is on its way with the elements. -/
theorem State.gatherAnswer_late {s t : State} (noted : s.Noted t) (lgs : List Nat) (w : BitVec 7) (l : Nat) (mark : Nat → Bool)
    {es : List KeptElem} {e : KeptElem} (mem : e ∈ es) (away : ownRegion e.ea = false) :
    (t.gatherAnswer lgs w l mark es).myCore.loads = t.myCore.loads ++ [t.gatherLoad es] ∧
    ∃ ps, (t.gatherAnswer lgs w l mark es).me = { t.me with pend := t.me.pend ++ ps } ∧ List.Forall₂ (fun lg p => p.due = s.me.time + l ∧
      p.write = .vec lg (s.singleReg lg w) 0 (BitVec.allOnes 64) ∧ p.load = some s.nextId) lgs ps := by
  have late : ¬ (es.all fun e => e.read && ownRegion e.ea) = true := fun all => by
    have own := (Bool.and_eq_true_iff.1 (List.all_eq_true.1 all e mem)).2
    rw [away] at own
    cases own
  have sent := t.steady_modMyCore (fun k => { k with loads := k.loads ++ [t.gatherLoad es] }) ⟨_, _, _, rfl⟩
  have me := t.me_modMyCore (fun k => { k with loads := k.loads ++ [t.gatherLoad es] }) rfl
  have loads := congrArg Core.loads (t.myCore_modMyCore fun k => { k with loads := k.loads ++ [t.gatherLoad es] })
  rw [State.gatherAnswer, if_neg late]
  generalize (t.modMyCore fun k => { k with loads := k.loads ++ [t.gatherLoad es] }) = u at sent me loads ⊢
  obtain ⟨ps, pend, each⟩ := State.me_addPendings (s := s) (fun (v : State) lg => v.lateRegister l w (mark lg) t.nextId lg)
    (r := fun lg p => p.due = s.me.time + l ∧ p.write = .vec lg (s.singleReg lg w) 0 (BitVec.allOnes 64) ∧ p.load = some s.nextId)
    (fun v h lg => ⟨congrArg (· + l) h.time, by rw [State.lateRegister, h.singleReg], congrArg some noted.nextId⟩) lgs u
    (noted.toSteady.trans sent)
  rw [me] at pend
  have kept : u.Noted (lgs.foldl (fun v lg => v.addPending (v.lateRegister l w (mark lg) t.nextId lg)) u) :=
    .foldl (fun v _ => v.noted_addPending _) lgs u
  exact ⟨kept.myLoads.trans loads, ps, pend, each⟩

section
variable {s : State} {i : Instr} {lgs : List Nat} {w wi : BitVec 7} {a : BitVec 6} {sc : BitVec 2} {l : Nat} {place : Nat → Nat → Target}

/-- A gather that goes reads its elements of the own pool, notes holes, and answers. -/
theorem gather_goes (fresh : s.me.gather = none)
    (stand : elementsStand (s.src a).2 ((s.src a).2.gatherAddrs lgs wi (s.src a).1.1 sc) .read place) :
    ∃ t mark, s.Noted t ∧ t.me.gather = none ∧ (∃ qs, t.me.pend = s.me.pend ++ qs ∧ qs.length ≤ 1 ∧ ∀ q ∈ qs, q.write = .none) ∧
      (Goes i s (elementsOpen s lgs wi (s.srcPeek a) sc none place) → gather i lgs w wi a sc l s = .next (t.gatherAnswer lgs w l mark
        (((s.src a).2.gatherAddrs lgs wi (s.src a).1.1 sc).map ((s.src a).2.gathered place)))) := by
  have read := s.noted_src a
  have fresh' : (s.src a).2.me.gather = none := (s.gather_src a).trans fresh
  have elems := State.gatherElems_stand fresh' stand
  rw [← State.gatherReads_fst stand]
  generalize addrs : (s.src a).2.gatherAddrs lgs wi (s.src a).1.1 sc = es at elems ⊢
  have noted := (s.src a).2.noted_gatherReads place es
  have me := (s.src a).2.me_gatherReads place es
  generalize holes : (((s.src a).2.gatherReads place es).1.filter fun e => e.target == .hole).length = n
  obtain ⟨qs, recorded, few, none_⟩ := ((s.src a).2.gatherReads place es).2.me_recordHoles l n
  refine ⟨((s.src a).2.gatherReads place es).2.recordHoles l n, fun lg => (s.src a).2.indexMark lg wi (s.src a).1.2,
    (read.trans noted).trans (State.noted_recordHoles ..), by rw [recorded, me],
    ⟨qs, by rw [recorded, me, (State.Reads.src s a).pend], few, none_⟩,
    fun goes => ?_⟩
  rw [gather, issueWith_goes goes fun go => State.gatherChecks_open fresh go]
  have looked := (s.src a).2.noted_noteAccesses es .read
  have core := looked.issueCore
  have strand := looked.issueStrand
  simp only [fresh', addrs, elems, Option.isSome_none, core, strand]
  rw [← holes]
  rfl

/-- What a gather answers is as it reads its elements. -/
theorem gather_result (meaning : exec i s = gather i lgs w wi a sc l s) : gathers s i lgs w wi a sc l := by
  intro place q es read fresh stand
  obtain ⟨t, mark, noted, empty, ⟨qs, pend, few, none_⟩, goes⟩ := gather_goes (i := i) (w := w) (l := l) fresh stand
  have readOwn : q.2.readOwn q.2.issue.core q.2.issue.strand q.2.me.nextSeq = q.2.readOwn s.issue.core s.issue.strand s.me.nextSeq := by
    have src := s.noted_src a
    rw [src.issueCore, src.issueStrand, src.nextSeq]
  have home : ∀ ea tgt, atHome q.2 ea tgt = atHome s ea tgt := (s.noted_src a).atHome
  change Goes i s _ → gather i lgs w wi a sc l s = .next (t.gatherAnswer lgs w l mark (es.map (q.2.gathered place))) at goes
  have val : ∀ e, atHome s e.2.2 (place e.1 e.2.1) = true → (q.2.gathered place e).val = read e.1 e.2.1 := fun e own => by
    rw [q.2.gathered_val place (by rw [home]; exact own), readOwn]
  by_cases all : ∀ e ∈ es, ownRegion e.2.2 = true
  · have near : ∀ e ∈ es, atHome s e.2.2 (place e.1 e.2.1) = true := fun e mem => Bool.or_eq_true_iff.2 (.inl (all e mem))
    obtain ⟨ps, me, each⟩ := State.me_gatherAnswer_home noted lgs w l mark (es := es.map (q.2.gathered place)) fun k mem => by
      obtain ⟨e, inside, rfl⟩ := List.mem_map.1 mem
      exact ⟨by rw [q.2.gathered_read, home, near e inside], by rw [(q.2.gathered_key place e).2.2.1, all e inside]⟩
    refine ⟨_, ps, qs, fun go => meaning.trans (goes go), by rw [me]; exact empty, by rw [me, pend], few, none_, each.length_eq.symm,
      fun n inside => ?_, fun some_ => absurd all some_⟩
    obtain ⟨lg, p, group, result, due, write, load⟩ := getElem?_of_forall₂ each inside
    have nth_ : nth 0 lgs n = lg := by rw [nth, group, Option.getD_some]
    refine ⟨p, _, result, due, by rw [nth_, write], ?_⟩
    rw [if_pos all, nth_]
    refine ⟨load, fun j lane => ?_⟩
    obtain ⟨e, there, rfl, rfl⟩ := q.2.gatherAddrs_lane wi q.1.1 sc (List.mem_of_getElem? group) lane
    obtain ⟨group_, lane_, -, -⟩ := q.2.gathered_key place e
    refine extract_gatherLine lane ⟨_, List.mem_map_of_mem there, group_, lane_⟩ fun k mem same same' => ?_
    obtain ⟨f, inside, rfl⟩ := List.mem_map.1 mem
    rw [← same, ← same', (q.2.gathered_key place f).1, (q.2.gathered_key place f).2.1]
    exact val f (near f inside)
  · obtain ⟨e, mem, away⟩ : ∃ e ∈ es, ownRegion e.2.2 = false := by simpa using all
    obtain ⟨loads, ps, me, each⟩ := State.gatherAnswer_late noted lgs w l mark (es := es.map (q.2.gathered place)) (List.mem_map_of_mem mem)
      (by rw [(q.2.gathered_key place e).2.2.1, away])
    refine ⟨_, ps, qs, fun go => meaning.trans (goes go), by rw [me]; exact empty, by rw [me, pend], few, none_, each.length_eq.symm,
      fun n inside => ?_, fun _ => ⟨_, loads.trans (by rw [noted.myLoads]), noted.nextId, rfl, noted.issueStrand, ?_, fun k mem => ?_⟩⟩
    · obtain ⟨lg, p, group, result, due, write, load⟩ := getElem?_of_forall₂ each inside
      refine ⟨p, 0, result, due, by rw [nth, group, Option.getD_some, write], ?_⟩
      rw [if_neg all]
      exact load
    · refine (List.map_map ..).trans (List.map_congr_left fun e _ => ?_)
      obtain ⟨lg, lane, ea, target⟩ := q.2.gathered_key place e
      rw [Function.comp_apply, lg, lane, ea, target]
    · obtain ⟨e, inside, rfl⟩ := List.mem_map.1 mem
      obtain ⟨lg, lane, ea, target⟩ := q.2.gathered_key place e
      have read_ := (q.2.gathered_read place e).trans (home _ _)
      rw [lg, lane, ea, target, read_]
      exact ⟨rfl, val e⟩

end

end Sys2Proof.Machine
end

section
/-!
PROOF. Scatters and stream pops: what they put on their way (R147 to R149).
-/

set_option Elab.async false
namespace Sys2Proof.Machine
open Claims

/-! ## The elements of a scatter on their way (R147, R148) -/

/-- An element of a scatter on its way. -/
def State.scatterElem (s : State) (w wi : BitVec 7) (l : Nat) (base : Bool) (tgt : Target) (e : Nat × Nat × Word) : State :=
  s.sendBytes l e.2.2 tgt (bytesOf 4 (elemOf 32 (s.myVreg e.1 (s.singleReg e.1 w)).1 e.2.1))
    ((s.myVreg e.1 (s.singleReg e.1 w)).2 || s.indexMark e.1 wi base)

/-- All of them, in their order. -/
def State.scattered (s : State) (w wi : BitVec 7) (l : Nat) (base : Bool) (place : Nat → Nat → Target) (es : List (Nat × Nat × Word)) : State :=
  es.foldl (fun u e => u.scatterElem w wi l base (place e.1 e.2.1) e) s

theorem State.me_postStore (s : State) (ea : Word) (tgt : Target) (bs : List Byte) (m : Bool) : (s.postStore ea tgt bs m).me = s.me := by
  unfold State.postStore
  dsimp only
  split
  · rfl
  · exact s.me_modMyCore (fun k => { k with stores := k.stores ++ [s.posted ea tgt bs m] }) rfl

theorem State.me_sendBytes (s : State) (l : Nat) (ea : Word) (tgt : Target) (bs : List Byte) (m : Bool) : (s.sendBytes l ea tgt bs m).me = s.me := by
  cases tgt with
  | pool c off =>
    rw [s.sendBytes_pool]
    split
    · exact s.me_modMyCore _ rfl
    · exact s.me_postStore ..
  | hole => rfl
  | _ => exact s.me_postStore ..

/-- The element of a scatter that is kept for a lane is its own. -/
theorem State.find_kept (s : State) {lgs : List Nat} {wi : BitVec 7} {base : Word} {sc : BitVec 2} (place : Nat → Nat → Target)
    {e : Nat × Nat × Word} (mem : e ∈ s.gatherAddrs lgs wi base sc) :
    ((s.gatherAddrs lgs wi base sc).map fun e => keepElem e (place e.1 e.2.1)).find? (fun k => k.lg == e.1 && k.lane == e.2.1) =
      some (keepElem e (place e.1 e.2.1)) := by
  have there : (((s.gatherAddrs lgs wi base sc).map fun e => keepElem e (place e.1 e.2.1)).find?
      fun k => k.lg == e.1 && k.lane == e.2.1).isSome = true :=
    List.find?_isSome.2 ⟨_, List.mem_map_of_mem mem, by simp [keepElem]⟩
  obtain ⟨k, found⟩ := Option.isSome_iff_exists.1 there
  have same := List.find?_some (p := fun k : KeptElem => k.lg == e.1 && k.lane == e.2.1) found
  obtain ⟨f, inside, rfl⟩ := List.mem_map.1 (List.mem_of_find?_eq_some found)
  obtain ⟨group, lane⟩ : f.1 = e.1 ∧ f.2.1 = e.2.1 := by simpa [keepElem] using same
  have addr : f.2.2 = e.2.2 := by
    rw [((gatherAddresses_holds ..).1 inside).2.2, ((gatherAddresses_holds ..).1 mem).2.2, group, lane]
  rw [found, show f = e from Prod.ext group (Prod.ext lane addr)]

/-- A scatter's elements and holes are noted, and the marks of what it reads consumed (R348). -/
def State.scatterReady (s : State) (lgs : List Nat) (w wi : BitVec 7) (l : Nat) (base : Bool) (es : List (Nat × Nat × Word))
    (holes : Nat) : State :=
  let t := (s.elementsNoted es .write).recordHoles l holes
  t.consumed (lgs.any fun lg => (t.myVreg lg (t.singleReg lg w)).2 || t.indexMark lg wi base)

theorem State.noted_scatterReady (s : State) (lgs : List Nat) (w wi : BitVec 7) (l : Nat) (base : Bool) (es : List (Nat × Nat × Word))
    (holes : Nat) :
    s.Noted (s.scatterReady lgs w wi l base es holes) :=
  ((s.noted_elementsNoted es .write).trans (State.noted_recordHoles ..)).trans (State.noted_consumed ..)

theorem State.me_scatterReady (s : State) (lgs : List Nat) (w wi : BitVec 7) (l : Nat) (base : Bool) (es : List (Nat × Nat × Word))
    (holes : Nat) :
    (s.scatterReady lgs w wi l base es holes).me.gather = none ∧
    ∃ ps, (s.scatterReady lgs w wi l base es holes).me.pend = s.me.pend ++ ps ∧ ∀ p ∈ ps, p.write = .none := by
  obtain ⟨qs, recorded, -, none_⟩ := (s.elementsNoted es .write).me_recordHoles l holes
  rw [State.scatterReady, State.me_consumed, recorded, s.me_elementsNoted]
  refine ⟨rfl, _, List.append_assoc .., fun p mem => (List.mem_append.1 mem).elim (none_ p) fun mem => ?_⟩
  split at mem
  · rw [List.mem_singleton.1 mem]
  · cases mem

/-! ## Line writes and posted stores of a scatter -/

/-- Where each step of a fold appends at most one entry, the entries come in the order of the steps. -/
theorem foldl_appends {α β γ δ : Type} {inv : α → Prop} {step : α → β → α} (g : α → List γ) (f : γ → δ)
    (out : β → Option δ) {c : Prop}
    (each : ∀ a b, inv a → inv (step a b) ∧ ∃ new : Option γ, g (step a b) = g a ++ new.toList ∧ (c → new.map f = out b)) (l : List β) :
    ∀ a, inv a → ∃ cs, g (l.foldl step a) = g a ++ cs ∧ (c → cs.map f = l.filterMap out) := by
  induction l with
  | nil => exact fun a _ => ⟨[], (List.append_nil _).symm, fun _ => rfl⟩
  | cons b l ih =>
    intro a h
    obtain ⟨keeps, new, appended, is⟩ := each a b h
    obtain ⟨cs, rest, are⟩ := ih (step a b) keeps
    refine ⟨new.toList ++ cs, by rw [List.foldl_cons, rest, appended, List.append_assoc], fun only => ?_⟩
    rw [List.map_append, are only, ← Option.toList_map, is only, List.filterMap_cons]
    cases out b <;> rfl

/-- The 4 bytes of a lane are its word. -/
theorem bytes_elemOf (v : Line) (j : Nat) :
    bytesOf 4 (elemOf 32 v j) = bytesOf 4 (v.extractLsb' (32 * j) 32).toNat ∧
      ofBytes (bytesOf 4 (elemOf 32 v j)) = (v.extractLsb' (32 * j) 32).toNat := by
  rw [elemOf_eq_toNat]
  exact ⟨rfl, ofBytes_bytesOf_fits (n := 4) (BitVec.isLt _)⟩

/-- What the line write of a scatter's element shows of a state that is steady. -/
theorem State.Steady.homeLine {s t : State} (h : s.Steady t) (l : Nat) (ea : Word) (tgt : Target) (v : Line) (j : Nat) (mark : Bool) :
    (t.homeLine l ea tgt (bytesOf 4 (elemOf 32 v j)) mark).map (fun k => (k.due, k.off, k.mask, k.data)) = match tgt with
      | .pool c off => if Claims.atHome s ea (.pool c off) then
          some (s.myCore.mtime + (if ownRegion ea then l else 24), off / 64 * 64, BitVec.ofNat 64 (15 * 2 ^ (off - off / 64 * 64)),
            BitVec.ofNat 512 ((v.extractLsb' (32 * j) 32).toNat * 2 ^ (8 * (off - off / 64 * 64))))
        else none
      | _ => none := by
  cases tgt with
  | pool c off =>
    rw [State.homeLine, h.atHome]
    dsimp only
    split
    · rw [Option.map_some, State.lineWrite, h.mtime, length_bytesOf, (bytes_elemOf v j).2]
      rfl
    · rfl
  | _ => rfl

/-- What its posted store shows. -/
theorem State.Steady.farStore {s t : State} (h : s.Steady t) (ea : Word) (tgt : Target) (v : Line) (j : Nat) (mark : Bool) :
    (t.farStore ea tgt (bytesOf 4 (elemOf 32 v j)) mark).map (fun k => (k.target, k.bytes)) = match tgt with
      | .hole => none
      | tgt => match tgt, Claims.atHome s ea tgt with
        | .pool _ _, true => none
        | _, _ => some (tgt, bytesOf 4 (v.extractLsb' (32 * j) 32).toNat) := by
  rw [(bytes_elemOf v j).1]
  cases tgt with
  | pool c off =>
    rw [State.farStore, h.atHome]
    dsimp only
    cases Claims.atHome s ea (.pool c off) <;> rfl
  | _ => rfl

theorem State.discards_free {s : State} (free : s.me.condemned = none) (ea : Word) : s.discards s.issue.core s.issue.strand ea = false := by
  have mine : (s.strand s.issue.core s.issue.strand).condemned = none := free
  rw [State.discards, mine]
  rfl

section
variable {s : State} (w wi : BitVec 7) (l : Nat) (base : Bool) (place : Nat → Nat → Target) (es : List (Nat × Nat × Word))

theorem State.Steady.scatterElem {t : State} (h : s.Steady t) (e : Nat × Nat × Word) :
    s.Steady (t.scatterElem w wi l base (place e.1 e.2.1) e) := h.trans (t.steady_sendBytes ..)

theorem State.me_scattered (t : State) : (t.scattered w wi l base place es).me = t.me :=
  foldl_keeps State.me (fun u _ => u.me_sendBytes ..) es t

theorem State.Steady.poolWrites_scattered {t : State} (h : s.Steady t) :
    ∃ pw, (t.scattered w wi l base place es).myCore.poolWrites = t.myCore.poolWrites ++ pw ∧
      pw.map (fun k => (k.due, k.off, k.mask, k.data)) = es.filterMap (fun e => match place e.1 e.2.1 with
        | .pool c off => if Claims.atHome s e.2.2 (.pool c off) then
            some (s.myCore.mtime + (if ownRegion e.2.2 then l else 24), off / 64 * 64, BitVec.ofNat 64 (15 * 2 ^ (off - off / 64 * 64)),
              BitVec.ofNat 512 (((s.myVreg e.1 (s.singleReg e.1 w)).1.extractLsb' (32 * e.2.1) 32).toNat * 2 ^ (8 * (off - off / 64 * 64))))
          else none
        | _ => none) := by
  obtain ⟨pw, writes, shown⟩ := foldl_appends (c := True) (fun u : State => u.myCore.poolWrites) (fun k => (k.due, k.off, k.mask, k.data)) _
    (fun u e (k : s.Steady u) => ⟨k.scatterElem w wi l base place e, _, u.poolWrites_sendBytes .., fun _ => by
      rw [k.singleReg, k.myVreg]
      exact k.homeLine ..⟩) es t h
  exact ⟨pw, writes, shown trivial⟩

theorem State.Steady.stores_scattered {t : State} (h : s.Steady t) :
    ∃ st, (t.scattered w wi l base place es).myCore.stores = t.myCore.stores ++ st ∧
      (s.me.condemned = none → st.map (fun k => (k.target, k.bytes)) = es.filterMap (fun e => match place e.1 e.2.1 with
        | .hole => none
        | tgt => match tgt, Claims.atHome s e.2.2 tgt with
          | .pool _ _, true => none
          | _, _ => some (tgt, bytesOf 4 ((s.myVreg e.1 (s.singleReg e.1 w)).1.extractLsb' (32 * e.2.1) 32).toNat))) := by
  refine foldl_appends (fun u : State => u.myCore.stores) (fun k => (k.target, k.bytes)) _ (fun u e (k : s.Steady u) =>
    ⟨k.scatterElem w wi l base place e, ?_⟩) es t h
  have stored := u.stores_sendBytes l e.2.2 (place e.1 e.2.1) (bytesOf 4 (elemOf 32 (u.myVreg e.1 (u.singleReg e.1 w)).1 e.2.1))
    ((u.myVreg e.1 (u.singleReg e.1 w)).2 || u.indexMark e.1 wi base)
  cases gone : u.discards u.issue.core u.issue.strand e.2.2 with
  | true =>
    rw [gone] at stored
    exact ⟨none, stored, fun free => by rw [State.discards_free (k.condemned.trans free)] at gone; cases gone⟩
  | false =>
    rw [gone] at stored
    exact ⟨_, stored, fun _ => by rw [k.singleReg, k.myVreg]; exact k.farStore ..⟩

end

section
variable {s : State} {i : Instr} {lgs : List Nat} {w wi : BitVec 7} {a : BitVec 6} {sc : BitVec 2} {l : Nat} {place : Nat → Nat → Target}

/-- A scatter's data registers are sound where it goes on. -/
theorem State.scatterChecks_open (fresh : s.me.gather = none) (h : elementsOpen s lgs wi (s.srcPeek a) sc (some w) place) :
    (s.gatherChecks lgs wi (s.srcPeek a) sc true).blocks = none ∧ (s.gatherChecks lgs wi (s.srcPeek a) sc true).holds = none ∧
      (s.gatherChecks lgs wi (s.srcPeek a) sc true).faults.or (s.ueVector (lgs.map fun lg => (lg, s.singleReg lg w))) = none := by
  obtain ⟨blocks, holds, faults⟩ := State.gatherChecks_open fresh h
  obtain ⟨-, -, lanes, -⟩ := h
  have sound : s.ueVector (lgs.map fun lg => (lg, s.singleReg lg w)) = none := State.ueVector_none fun r mem => by
    obtain ⟨lg, inside, rfl⟩ := List.mem_map.1 mem
    exact (lanes lg inside).2.2 w rfl
  exact ⟨blocks, holds, by rw [sound, Option.or_none]; exact faults⟩

/-- A scatter that goes is then on its way. -/
theorem scatter_goes (fresh : s.me.gather = none)
    (stand : elementsStand (s.src a).2 ((s.src a).2.gatherAddrs lgs wi (s.src a).1.1 sc) .write place) :
    ∃ holes, Goes i s (elementsOpen s lgs wi (s.srcPeek a) sc (some w) place) →
      scatter i lgs w wi a sc l s = .next (((s.src a).2.scatterReady lgs w wi l (s.src a).1.2
      ((s.src a).2.gatherAddrs lgs wi (s.src a).1.1 sc) holes).scattered w wi l (s.src a).1.2 place
      ((s.src a).2.gatherAddrs lgs wi (s.src a).1.1 sc)) := by
  have elems := State.gatherElems_stand ((s.gather_src a).trans fresh) stand
  refine ⟨((((s.src a).2.gatherAddrs lgs wi (s.src a).1.1 sc).map fun e => keepElem e (place e.1 e.2.1)).filter
    fun e => e.target == .hole).length, fun goes => ?_⟩
  rw [scatter, issueWith_goes goes fun go => State.scatterChecks_open fresh go]
  dsimp only
  rw [elems]
  refine congrArg Host.Outcome.next (List.foldl_ext _ _ _ fun u e mem => ?_)
  rw [(s.src a).2.find_kept place mem]
  unfold State.scatterElem State.sendBytes
  generalize place e.1 e.2.1 = tgt
  cases tgt <;> rfl

/-- What a scatter puts on its way is as it reads its registers. -/
theorem scatter_result (meaning : exec i s = scatter i lgs w wi a sc l s) : scatters s i lgs w wi a sc l := by
  intro place q es word shift fresh stand
  obtain ⟨holes, goes⟩ := scatter_goes (i := i) (w := w) (l := l) fresh stand
  change Goes i s _ → scatter i lgs w wi a sc l s = .next ((q.2.scatterReady lgs w wi l q.1.2 es holes).scattered w wi l q.1.2 place es) at goes
  have noted := (s.noted_src a).trans (q.2.noted_scatterReady lgs w wi l q.1.2 es holes)
  obtain ⟨empty, ps, pend, none_⟩ := q.2.me_scatterReady lgs w wi l q.1.2 es holes
  generalize q.2.scatterReady lgs w wi l q.1.2 es holes = t at goes noted empty pend
  obtain ⟨pw, writes, lines⟩ := noted.poolWrites_scattered w wi l q.1.2 place es
  obtain ⟨st, stores, posted⟩ := noted.stores_scattered w wi l q.1.2 place es
  have me := t.me_scattered w wi l q.1.2 place es
  refine ⟨_, ps, pw, st, fun go => meaning.trans (goes go), by rw [me, empty],
    by rw [me, pend]; exact congrArg (· ++ ps) (State.Reads.src s a).pend,
    none_, writes.trans (by rw [noted.myPoolWrites]), stores.trans (by rw [noted.myStores]), lines, posted⟩

end

/-! ## Stream pops (R149) -/

/-- One element of a stream for a lane group, if there is one. -/
def State.popTo (s : State) (w : BitVec 7) (k lg : Nat) : State :=
  match s.me.vstream k with
  | [] => s
  | e :: rest => (s.modMe fun t => { t with vstreams := put [] t.vstreams k rest }).result 2
      (.vec lg ((s.modMe fun t => { t with vstreams := put [] t.vstreams k rest }).singleReg lg w) e.val (BitVec.allOnes 64))
      (e.mark || ((s.modMe fun t => { t with vstreams := put [] t.vstreams k rest }).me.lane lg).wmark)

/-- A pop from a stream that is not empty. -/
theorem State.popTo_cons {s t : State} (h : s.Steady t) (w : BitVec 7) {k : Nat} (lg : Nat) {e : VElem} {rest : List VElem}
    (first : t.me.vstream k = e :: rest) : s.Steady (t.popTo w k lg) ∧ (t.popTo w k lg).me.vstream k = rest ∧
      ∃ p, (t.popTo w k lg).me.pend = t.me.pend ++ [p] ∧ p.write = .vec lg (s.singleReg lg w) e.val (BitVec.allOnes 64) ∧
        p.due = s.me.time + 2 := by
  have popped := t.noted_modMe (fun m => { m with vstreams := put [] m.vstreams k rest }) ⟨_, _, _, _, _, rfl⟩
  have me := t.me_modMe fun m => { m with vstreams := put [] m.vstreams k rest }
  rw [State.popTo, first]
  dsimp only
  generalize (t.modMe fun m => { m with vstreams := put [] m.vstreams k rest }) = u at popped me ⊢
  have all := h.trans popped.toSteady
  rw [State.me_result, me]
  exact ⟨all.trans (u.noted_result ..).toSteady, look_put_self .., _, rfl, by rw [all.singleReg], congrArg (· + 2) h.time⟩

/-- Pops one after another take the first elements, in order. -/
theorem State.popTo_foldl {s : State} (w : BitVec 7) (k : Nat) (lgs : List Nat) : ∀ t : State, s.Steady t →
    lgs.length ≤ (t.me.vstream k).length →
    ∃ ps, (lgs.foldl (fun u lg => u.popTo w k lg) t).me.vstream k = (t.me.vstream k).drop lgs.length ∧
      (lgs.foldl (fun u lg => u.popTo w k lg) t).me.pend = t.me.pend ++ ps ∧
      ps.map (·.write) = (lgs.zip (t.me.vstream k)).map (fun p => Write.vec p.1 (s.singleReg p.1 w) p.2.val (BitVec.allOnes 64)) ∧
      ∀ p ∈ ps, p.due = s.me.time + 2 := by
  induction lgs with
  | nil => exact fun t _ _ => ⟨[], rfl, (List.append_nil _).symm, rfl, List.forall_mem_nil _⟩
  | cons lg lgs ih =>
    intro t h enough
    cases first : t.me.vstream k with
    | nil =>
      rw [first] at enough
      cases enough
    | cons e rest =>
      obtain ⟨steady, left, p, pend, write, due⟩ := State.popTo_cons h w lg first
      rw [first] at enough
      obtain ⟨ps, stream, pends, writes, dues⟩ := ih (t.popTo w k lg) steady (by rw [left]; exact Nat.le_of_succ_le_succ enough)
      rw [left] at stream writes
      refine ⟨p :: ps, stream, by rw [List.foldl_cons, pends, pend, List.append_assoc]; rfl, ?_, List.forall_mem_cons.2 ⟨due, dues⟩⟩
      rw [List.map_cons, write, writes]
      rfl

/-- A pop that goes takes an element for each lane group of its mask. -/
theorem vpop_goes {s : State} {w : BitVec 7} {k : BitVec 2} {m : BitVec 8} {own : Prop} (goes : Goes (.vpop w k m) s own)
    (opens : own → (maskGroups m).length ≤ (s.me.vstream k.toNat).length ∧ (∀ lg ∈ maskGroups m, s.me.busy lg = false) ∧
      ∀ e ∈ (s.me.vstream k.toNat).take (maskGroups m).length, e.bad = false) :
    execVpop w k m s = .next ((maskGroups m).foldl (fun u lg => u.popTo w k.toNat lg) s) := by
  rw [execVpop, issueWith_goes goes fun go => ?_]
  · rfl
  · obtain ⟨enough, lanes, sound⟩ := opens go
    refine ⟨if_neg (Nat.not_lt.2 enough), State.laneHold_none lanes, if_neg fun bad => ?_⟩
    obtain ⟨e, mem, held⟩ := List.any_eq_true.1 bad
    rw [sound e mem] at held
    cases held

theorem vpop_result (s : State) (w : BitVec 7) (k : BitVec 2) (m : BitVec 8) :
    ∃ u ps, Completes (.vpop w k m) s u ((maskGroups m).length ≤ (s.me.vstream k.toNat).length ∧
      (∀ lg ∈ maskGroups m, s.me.busy lg = false) ∧ ∀ e ∈ (s.me.vstream k.toNat).take (maskGroups m).length, e.bad = false) ∧
    ((maskGroups m).length ≤ (s.me.vstream k.toNat).length →
      u.me.vstream k.toNat = (s.me.vstream k.toNat).drop (maskGroups m).length ∧ u.me.pend = s.me.pend ++ ps ∧
      ps.map (·.write) = ((maskGroups m).zip (s.me.vstream k.toNat)).map (fun p =>
        Write.vec p.1 (s.singleReg p.1 w) p.2.val (BitVec.allOnes 64)) ∧ ∀ p ∈ ps, p.due = s.me.time + 2) := by
  have completes : Completes (.vpop w k m) s _ _ := fun goes => (exec_vpop ..).trans (vpop_goes goes id)
  by_cases enough : (maskGroups m).length ≤ (s.me.vstream k.toNat).length
  · obtain ⟨ps, popped⟩ := State.popTo_foldl w k.toNat (maskGroups m) s (.refl s) enough
    exact ⟨_, ps, completes, fun _ => popped⟩
  · exact ⟨_, [], completes, fun more => absurd more enough⟩

theorem gatherScatterPop_holds : gatherScatterPop := fun s w _ _ _ _ j m =>
  ⟨gather_result (exec_vgather ..), gather_result (exec_vgatherAll ..), scatter_result (exec_vscatter ..), scatter_result (exec_vscatterAll ..),
    vpop_result s w j m⟩

/-- Settles O25: gathers read what stands in the own pool and leave the rest to a load; scatters and pops go element by element. -/
theorem gathersAndPops : Obligations.GathersAndPops := ⟨gatherAddresses_holds, gatherScatterPop_holds⟩

end Sys2Proof.Machine
end
